-- ==== Sys2Proof/Word.lean ====
section
/-! DEFINITION. The word types of the part (R19: registers are 32 bits wide; memories are bytes). -/

namespace Sys2Proof

/-- One register or one aligned 32-bit word of a table or memory (R19). -/
abbrev Word := BitVec 32

/-- One byte of memory. -/
abbrev Byte := BitVec 8

end Sys2Proof
end

