-- ==== Sys2Proof/Syntax.lean ====
section
/-! DEFINITION. The commands of the block: one constructor of `Instr` per row of the operation table, with the
operands the row's step needs from outside the block (an address, a record, a measured value, a frame). The table
gives no encoding; physical inputs are numbers in the unit each docstring names. -/

namespace Sys2Proof
/-- A command record (R441), with the data words that follow it in a remote or link frame (R444). -/
structure CmdRec where
  opcode : Nat
  flags : Nat
  tag : Nat
  addr : Nat
  count : Nat
  data : Nat
  words : List Word
  deriving DecidableEq, Repr

/-- A word with an error that an engine meets in an SRAM bank (R504): group, bank, whether it is uncorrectable, and the
audio it then takes: number of the object, channel or output, first sample and how many (of a lane's reel, the first
one's age in samples behind its head). -/
structure SramErr where
  group : Nat
  bank : Nat
  bad : Bool
  number : Nat
  first : Nat
  len : Nat
  deriving DecidableEq, Repr

/-- What comes with a block of a unit from outside the block streams (`PIPELINE_BLOCK`). -/
structure BlockIn where
  /-- the unit's output side (stage 7) of RTE, MST, LNK, TDM and AES; else its input side -/
  out : Bool
  /-- objects whose bulk read, outputs whose alignment read failed (R200, R226); an object's number plus 4096 stands for
  the second 16 samples of a catch-up (R199), an output's for the second read of a delay crossfade (R227) -/
  lost : List Nat
  /-- outputs whose second delay read, objects whose extra bulk fetch did not arrive in time (R199, R227) -/
  miss : List Nat
  /-- far-tail fetches that failed: output, partition, by an uncorrectable error (R232) -/
  tails : List (Nat × Nat × Bool)
  /-- rings, or runs, whose store is full (R263, R405) -/
  full : List Nat
  /-- play rings not fetched in time (R405) -/
  late : List Nat
  /-- frames that a class of serial ports has received, by port: of a TDM port each frame's bits from its FS edge on, as
  sampled (R392), in words of the slot width, and the bit that follows them; of an AES3 port its subframes -/
  frames : List (Nat × List (List Nat))
  /-- by port, how many samples into the block the first of its frames has its boundary; 0 for a port not named (R394) -/
  lead : List (Nat × Nat)
  /-- words with an SRAM error that the unit's engine has met in this block (R504) -/
  sram : List SramErr
  deriving DecidableEq, Repr

/-- What step 3 of a start finds (`BIST_COMPLETE`). -/
structure BistIn where
  /-- islands that fail BIST: class code of R569 and physical number -/
  bad : List (Nat × Nat)
  /-- flash density in MiB as its SFDP table gives it, and what the two slots hold from their first byte on -/
  flashMib : Nat
  slotA : List Byte
  slotB : List Byte
  /-- the DRAM speed code at which every channel passes (4 and above: three failures), and the fitted size in GiB -/
  speed : Nat
  fitted : Nat
  /-- STRAP_IMG (0 open, 1 low, 2 high) and STRAP_RANK as step 2 of this start has sampled them, where they have changed
  since the last sampling (R415) -/
  straps : Option (Nat × Nat)
  deriving DecidableEq, Repr

/-- A word found by a scrub pass: group, bank, row, fabric address (all ones in an engine-private bank), and whether it
was uncorrectable. -/
structure ScrubFind where
  group : Nat
  bank : Nat
  row : Nat
  addr : Nat
  bad : Bool
  /-- in the frame cell pool, the frame whose bytes the word holds: queue, place in the queue, offset (R322) -/
  cell : Option (Nat × Nat × Nat)
  deriving DecidableEq, Repr

/-- The commands of the block (the operation table's rows, in its order). -/
inductive Instr where
  /-- READ (R442): Command that reads one aligned word and returns it in the response. -/
  | read (src tag addr : Nat) (noresp : Bool)
  /-- WRITE (R442): Command that writes one aligned word. -/
  | write (src tag addr : Nat) (noresp : Bool) (data : Word)
  /-- MODIFY (R442): Command that atomically replaces a bit field of a word and returns the old word. -/
  | modify (src tag addr : Nat) (noresp : Bool) (lsb width : Nat) (data : Word)
  /-- BURST_READ (R444): Command that reads COUNT consecutive words into a buffer or trailing data records. -/
  | burstRead (src tag addr : Nat) (noresp : Bool) (count buf : Nat)
  /-- BURST_WRITE (R444): Command that writes COUNT consecutive words in ascending address from a buffer or trailing data records. -/
  | burstWrite (src tag addr : Nat) (noresp : Bool) (count buf : Nat) (words : List Word)
  /-- COMMIT (R69): Command that inserts a COMMIT tag once all earlier writes of its source have landed. -/
  | commit (src tag target unit : Nat) (noresp : Bool)
  /-- CUE (R442): Command that inserts a CUE tag naming a cue and a tick. -/
  | cue (src tag target cue : Nat) (noresp : Bool)
  /-- SNAP_SAVE (R442): Command that inserts a SNAP tag to save a snapshot at a tick. -/
  | snapSave (src tag target snap : Nat) (noresp : Bool)
  /-- SNAP_RECALL (R442): Command that inserts a SNAP tag to recall a snapshot at a tick. -/
  | snapRecall (src tag target snap : Nat) (noresp : Bool)
  /-- FEATURE_REQUEST (R442): Command that writes DRV_REQ and DRV_CTRL in the start window, returning OFFER or ACCEPT. -/
  | featureRequest (src tag : Nat) (noresp : Bool) (request : Word) (close : Bool)
  /-- RESTART (R442): Command that restarts the device with cause 2, optionally naming an image slot. -/
  | restart (src tag slot : Nat) (noresp : Bool)
  /-- HOST_WRITE (R435): A host-port halfword write, latched or stored whole into the mailbox with collision handling.
  `collide`: 0 none, 1 with an internal read, 2 with an internal write, 3 and 4 the same where the host's access was
  granted first (R437). -/
  | hostWrite (half : Nat) (lo hi : Bool) (data collide : Nat)
  /-- HOST_READ (R435): A host-port halfword read of the mailbox, latching the upper half on a lower read. `collide`: 0
  none, 1 with an internal write, 3 with one where the host's access was granted first (R437). -/
  | hostRead (half collide : Nat)
  /-- COMMAND_TAKE (R440): The device sees a new CMD_WR, copies the command record and advances CMD_RD. -/
  | commandTake
  /-- RESPONSE_WRITE (R440): The device writes a response record once the response ring has room and advances RSP_WR. -/
  | responseWrite
  /-- REMOTE_COMMAND_FRAME (R446): A remote control UDP frame is checked for format, key, MAC, replay and session and its commands queued. -/
  | remoteCommandFrame (queue : Nat)
  /-- EVENT_FRAME_SEND (R449): Once per tick holding new events, forwarded event records are sent in an event frame. -/
  | eventFrameSend
  /-- REGISTER_WRITE (R20): A write to a register or table field without behaviour of its own, acting by access type and change class. -/
  | registerWrite (addr : Nat) (value : Word)
  /-- SIDX_READ (R72): Reading TIM_SIDX_LO returns the sample index low word and latches the high word. -/
  | sidxRead
  /-- RED_LAST_READ (R221): Reading RED_LAST_LO latches the high word of the last released block index. -/
  | redLastRead
  /-- TIME_READ (R308): Reading TIM_TIME_SEC_LO latches the seconds high word, nanoseconds and fraction. -/
  | timeRead
  /-- GM_ID_READ (R308): Reading TIM_GM_ID_LO latches the high word of the grandmaster identity. -/
  | gmIdRead
  /-- OFFSET_READ (R308): Reading TIM_OFFSET_LO latches the high word of the time-source offset. -/
  | offsetRead
  /-- CAPTURE_READ (R311): Reading capture queue word 0 removes the oldest entry and latches its other words. -/
  | captureRead (ch : Nat)
  /-- TAG_SUBMIT (R72): A write to SYS_TAG_W3 submits the tag record held in W0 to W3 to the injector. -/
  | tagSubmit (w3 : Word)
  /-- TAG_HELD_RELEASE (R54): A tag held for a full pending queue enters once room appears and BUSY clears. -/
  | tagHeldRelease
  /-- TAG_ARRIVAL (R55): A tag reaches its unit and is judged on time or late and queued for its point. -/
  | tagArrival (unit : Nat)
  /-- COMMIT_TAG (R67): At its tick a pending set becomes live in its unit, all fields at once. -/
  | commitTag (unit : Nat)
  /-- ROUTE (R95): A ROUTE tag makes the SRC, GAIN and RAMP of its nodes live at its block with crossfades. -/
  | route
  /-- RAMP (R95): A RAMP tag makes the gains or trims of its range live at its block and ramps them. -/
  | ramp (unit : Nat)
  /-- MIGRATION_COPY_START (R212): At the first sample of T-1 the source lane starts copying the object state to the destination. -/
  | migrationCopyStart
  /-- MIGRATE (R212): At tick T the destination lane computes the object, epochs change and the source frees its slot. -/
  | migrate
  /-- SWAP (R241): A SWAP tag starts a batch crossfade of its outputs to the new filter set at its tick. -/
  | swap
  /-- CUE_TAG (R456): A CUE tag reaching SYS recalls the cue's snapshot, applies its writes and inserts one COMMIT. -/
  | cueTag
  /-- SNAP_TAG (R455): A SNAP tag saves region values at its tick or recalls them and inserts a COMMIT. -/
  | snapTag
  /-- MARK_TAG (R51): A MARK tag raises EV_MARK when its block passes the unit. -/
  | markTag (unit : Nat)
  /-- EPOCH_TAG (R65): An EPOCH tag marks a time-scale step or changes the claim used in outgoing headers. -/
  | epochTag (unit : Nat)
  /-- PORT_START (R391): A START tag to TDM or AES starts a port's data at its block, after 1,024 clock frames. -/
  | portStart (aes : Bool)
  /-- PORT_STOP (R391): A STOP tag stops a port's data at its block. -/
  | portStop (aes : Bool)
  /-- STREAM_START (R346): A START tag to MST sets a stream's EN at its block. -/
  | streamStart
  /-- STREAM_STOP (R346): A STOP tag to MST clears a stream's EN at its block. -/
  | streamStop
  /-- LINK_STREAM_START (R375): A START tag to LNK starts a link audio stream at its block. -/
  | linkStreamStart
  /-- LINK_STREAM_STOP (R375): A STOP tag to LNK stops a link audio stream at its block. -/
  | linkStreamStop
  /-- RUN_START (R261): A START tag to MEA checks a run's record and arms it or fails it with a reason. -/
  | runStart
  /-- RUN_STOP (R266): A STOP tag to MEA ends a running run at its block without a result. -/
  | runStop
  /-- RING_START (R404): A START tag or RUN write starts a record or play ring at a block. -/
  | ringStart
  /-- RING_STOP (R404): A STOP tag or RUN 0 write stops a ring at a block boundary. -/
  | ringStop
  /-- PIPELINE_BLOCK (R32): A unit begins a block of its pipeline stage and processes its 16 samples. -/
  | pipelineBlock (unit : Nat) (x : BlockIn)
  /-- TICK_BOUNDARY (R44): A unit begins the first block of a tick and does its per-tick work. -/
  | tickBoundary (unit : Nat)
  /-- BLOCK_RELEASE (R60): A combining unit releases block b once every required input for b has arrived. -/
  | blockRelease (errs : List (Nat × Nat))
  /-- DEADLINE_MISS (R61): A block not at an output port when due is sent as zeros and counted as a missed deadline. -/
  | deadlineMiss (kind number : Nat)
  /-- TIME_STEP_DECIDE (R300): The time engine decides a step of the time scale by a whole number of ticks. -/
  | timeStepDecide
  /-- TIME_STEP (R62): At tick t+3 the new sample numbering takes effect and REBASED marks the block. -/
  | timeStep
  /-- ASRC_LOCK (R81): After 20 ms of rate measurement a converter declares lock and delivers unsettled samples. -/
  | asrcLock (ch rate : Nat)
  /-- ASRC_SETTLED (R81): After the settling time UNSETTLED clears and settled samples are delivered. -/
  | asrcSettled (ch : Nat)
  /-- ASRC_RANGE_RETRY (R83): Every 20 ms an out-of-range channel tries to measure its input rate again. -/
  | asrcRangeRetry (ch rate : Nat)
  /-- WALLFLOWER_ENTER (R85): After SIL_HOLD silent ticks a channel or output ramps to zero and carries SILENT. -/
  | wallflowerEnter (output : Bool) (number : Nat)
  /-- OSC_DATAGRAM (R109): An OSC datagram is parsed and its messages submitted as ingest samples or scheduled. -/
  | oscDatagram (queue : Nat)
  /-- OSC_SCHEDULED_ENTRY (R110): A held timed OSC message enters conditioning at the block boundary of its time. -/
  | oscScheduledEntry
  /-- NATIVE_PAYLOAD (R113): A native object payload from UDP or an OBJECT frame is checked by sender SEQ and its records ingested. -/
  | nativePayload (queue : Nat)
  /-- INGEST_SUBMIT (R108): A write to word 7 of an ingest slot submits one sample of the latched words. -/
  | ingestSubmit (core : Bool) (slot : Nat) (value : Word)
  /-- MOT_TICK (R116): Each tick MOT drains its queue, conditions every object and issues solver jobs. -/
  | motTick
  /-- OBJECT_LOST (R126): After TIMEOUT ticks without a sample an object becomes LOST and holds its value. -/
  | objectLost (obj : Nat)
  /-- DSX_SUBMIT (R190): A write to DSX_SUBMIT_W3 offers a descriptor as source CMD. -/
  | dsxSubmit (w3 : Word)
  /-- DESCRIPTOR_ACCEPT (R187): A back-pressured descriptor is accepted once its source has quota and a slot frees. -/
  | descriptorAccept (source : Nat)
  /-- JOB_DISPATCH (R182): An idle engine takes the eligible job of lowest level and earliest submission. -/
  | jobDispatch (task : Bool) (engine : Nat)
  /-- JOB_COMPLETE (R184): A solver job or DSP task completes and is released or waits in the reorder buffer. -/
  | jobComplete (engine : Nat)
  /-- RESULT_WRITE (R173): A finished solver result is written into the lane's shadow table after the cutoff. -/
  | resultWrite (obj : Nat)
  /-- SOLVER_CUTOFF (R173): At the last block of a tick the solver closes results and inserts the lane COMMIT. -/
  | solverCutoff
  /-- SLV_REFRESH (R177): Writing SLV_REFRESH requests a job for every enabled object at the next tick. -/
  | slvRefresh (value : Word)
  /-- GEOMETRY_RETIRE (R189): HLT retires a geometry unit and the spare takes its logical number. -/
  | geometryRetire (unit cause : Nat)
  /-- LANE_WAKE (R207): A gated lane wakes in time for the first non-silent block of its objects. -/
  | laneWake (lane : Nat)
  /-- SITOUT_START (R215): Periodically HLT chooses the oldest ACTIVE lane and moves its objects to a spare. -/
  | sitoutStart
  /-- SITOUT_SELFTEST_END (R216): After 2 s the sitting-out lane passes to SPARE or is retired on failure. -/
  | sitoutSelftestEnd (lane : Nat) (pass : Bool)
  /-- LANE_RETIRE (R217): HLT retires a lane, handing over its objects if a spare exists. -/
  | laneRetire (lane cause : Nat)
  /-- SWAP_PREPARE (R242): At tick B-2 the batch's old coefficients are copied to the crossfade store. -/
  | swapPrepare
  /-- SWAP_LOAD (R242): During B-1 the new head and near-tail coefficients load from DRAM; incomplete loads slip the batch. -/
  | swapLoad
  /-- CROSSFADE_END (R242): At B+XF+1 each batch output delivers the new filter alone and the store frees. -/
  | crossfadeEnd
  /-- TRANSITION_END (R244): An output's far tail stops reading old coefficients and TRANSITION clears. -/
  | transitionEnd
  /-- CHARGE_RETURN (R233): 65,536 samples after a batch start, an output's tap charge returns to its new length. -/
  | chargeReturn
  /-- SLICE_RETIRE (R249): HLT retires a correction slice and the spare takes over its outputs. -/
  | sliceRetire (slice cause : Nat)
  /-- RUN_BEGIN (R262): At its block an armed run enters RUNNING, plays its stimulus and captures. -/
  | runBegin
  /-- CAPTURE_END (R264): After the last captured sample the run enters COMPUTING. -/
  | captureEnd (number : Nat)
  /-- RUN_DONE (R264): A run's computation finishes, results are written, DONE entered and TASK submitted. -/
  | runDone
  /-- LIVE_FRAME (R268): Every half frame MEA updates each enabled pair's spectra and estimate. -/
  | liveFrame
  /-- DELAY_SEARCH (R269): The delay finder searches one pair's lag by correlation. -/
  | delaySearch
  /-- LIVE_PUBLISH (R270): Every PUBLISH ticks MEA writes each pair's estimate and raises EV_MEA_LIVE. -/
  | livePublish
  /-- REFERENCE_EDGE (R282): An edge of an edge-timed clock candidate is measured against its expected period. -/
  | referenceEdge (cand period : Nat) (phase freq : Int)
  /-- CANDIDATE_LOSS (R282): No edge for three periods puts a candidate into WAIT as LOST. -/
  | candidateLoss (cand : Nat)
  /-- QUALIFICATION_COMPLETE (R280): A candidate's qualification time runs out and it becomes QUALIFIED. -/
  | qualificationComplete (cand : Nat)
  /-- LOCK_ACHIEVED (R291): The phase error stays within threshold for 1 s and the DPLL becomes LOCKED. -/
  | lockAchieved
  /-- HOLD_MAX_EXPIRY (R287): After HOLD_MAX seconds of holdover the DPLL pulls to nominal and enters FREE. -/
  | holdMaxExpiry
  /-- CLK_CTRL_WRITE (R286): A write to CLK_CTRL sets forcing and slope and runs selection. -/
  | clkCtrlWrite (value : Word)
  /-- CANDIDATE_WRITE (R285): A change of a candidate record restarts its qualification or counts as loss of the selected one. -/
  | candidateWrite (cand word : Nat) (value : Word)
  /-- DPLL_RETIRE (R295): HLT retires DPLL A and DPLL B takes over at the next tick boundary. -/
  | dpllRetire (cause : Nat)
  /-- SYNC_RECEIVE (R299): A PTP Sync exchange yields an offset and phase error for the time candidate. -/
  | syncReceive (header : Nat) (t1 t2 corr pred freq : Int)
  /-- ANNOUNCE_RECEIVE (R298): A PTP Announce is taken and the BMCA runs. -/
  | announceReceive (domain prio1 cls acc var prio2 gm steps sender utc interval : Nat)
  /-- ANNOUNCE_TIMEOUT (R283): An Announce receipt timeout makes the PTP candidate LOST. -/
  | announceTimeout
  /-- PTP_PORT_RETURN (R298): After 2 s of link on PORT the PTP instance returns to it. -/
  | ptpPortReturn
  /-- PPS_SEC_WRITE (R301): A write naming the TAI second of the next 1PPS edge takes effect after 100 ms. -/
  | ppsSecWrite (high : Bool) (value : Word)
  /-- TRIGGER_ARM (R304): Setting a trigger's EN arms it with its record, firing at once if its point has passed. -/
  | triggerArm (trigger : Nat) (value : Word)
  /-- TRIGGER_FIRE (R303): A trigger inserts its tag, submits its job or drives its pin edge and advances. -/
  | triggerFire (trigger : Nat)
  /-- CAPTURE_EDGE (R305): A chosen edge on a capture source is timestamped into its queue. -/
  | captureEdge (source : Nat) (falling : Bool) (quarter : Nat)
  /-- FRAME_RECEIVE (R316): A received Ethernet frame is checked, steered, stored in cells and linked to its queue. -/
  | frameReceive (port : Nat) (bytes : List Byte) (codeError fcsError : Bool) (quarter : Nat)
  /-- LINK_STATE_CHANGE (R315): An Ethernet port's link rises or falls. -/
  | linkStateChange (port : Nat) (up : Bool) (rate : Nat)
  /-- FRAME_TRANSMIT (R333): When a frame finishes a port selects the next frame by class, credit and round robin.
  `idle`: bits 31:0 the time in ns that the port has been idle, above them the steps of 250 ps into the current sample. -/
  | frameTransmit (port idle : Nat)
  /-- QUEUE_READ (R326): QMG_OP READ delivers the next unread linked frame or EMPTY. -/
  | queueRead (queue : Nat)
  /-- QUEUE_MARK (R326): QMG_OP MARK sets the mark to the read pointer. -/
  | queueMark (queue : Nat)
  /-- QUEUE_REWIND (R326): QMG_OP REWIND sets the read pointer back to the mark. -/
  | queueRewind (queue : Nat)
  /-- QUEUE_RELEASE (R326): QMG_OP RELEASE frees every frame before the read pointer. -/
  | queueRelease (queue : Nat)
  /-- QUEUE_FLUSH (R326): QMG_OP FLUSH frees every linked frame and moves pointers to the tail. -/
  | queueFlush (queue : Nat)
  /-- TXS_GO (R332): Writing QMG_TXS_GO copies a controller frame into cells of a transmit queue. -/
  | txsGo (value : Word)
  /-- QUEUE_EN_CHANGE (R330): Clearing a queue's EN frees its frames; setting it starts the queue empty. -/
  | queueEnChange (queue : Nat) (enable : Bool)
  /-- RTP_PACKET (R350): A received RTP packet is checked, claimed and placed by timestamp into stream positions. -/
  | rtpPacket (queue : Nat)
  /-- AAF_PACKET (R349): A received AAF packet is checked and placed by its avtp timestamp. -/
  | aafPacket (queue : Nat)
  /-- STREAM_RANGE_RETRY (R360): 1 s after going out of range a SLIP stream tries again with Δ reset. -/
  | streamRangeRetry (stream : Nat)
  /-- CLAIM_LAPSE (R362): A claim not seen for 2 ticks lapses from acceptance. -/
  | claimLapse (link : Bool) (stream : Nat)
  /-- HOLD_RAMP (R363): After 50 ms of hold a stream ramps its held value to zero over 10 ms. -/
  | holdRamp (link : Bool) (stream : Nat)
  /-- ARP_REQUEST (R343): An ARP request for a port's address is answered. -/
  | arpRequest (queue : Nat)
  /-- IGMP_QUERY (R343): An IGMP query is answered for joined groups. -/
  | igmpQuery (queue : Nat)
  /-- LINK_UP (R370): All lanes of the map hold lock and alignment for 1 ms and the link is up. -/
  | linkUp (link : Nat) (rxRet txRet : List Nat)
  /-- LINK_DOWN (R370): Alignment lost for 1 ms or no usable lane takes the Zwildo link down. -/
  | linkDown (link : Nat) (cut : Bool)
  /-- LINK_FRAME_RECEIVE (R373): A received link frame is checked and passed to its queue or taker by type. -/
  | linkFrameReceive (link : Nat) (bytes : List Byte) (codeError : Bool) (quarter : Nat)
  /-- AUDIO_FRAME (R375): A link AUDIO frame is placed by SIDX into its receive stream. -/
  | audioFrame (queue : Nat)
  /-- HEARTBEAT_RECEIVE (R376): A partner HEARTBEAT updates role, epoch seen, yield and claim comparison. -/
  | heartbeatReceive (link : Nat)
  /-- HEALTH_RECEIVE (R555): A partner HEALTH frame updates its fitness data. -/
  | healthReceive (queue : Nat)
  /-- SNAPSHOT_SEGMENT (R558): A SNAPSHOT segment is written into the FOLLOW's slot, validated on the last one. -/
  | snapshotSegment (queue : Nat)
  /-- TIME_FRAME (R378): A received TIME frame gives delay and phase error for a link-time candidate. -/
  | timeFrame (link : Nat) (pred freq : Int)
  /-- CLOCK_FRAME (R378): A received CLOCK frame updates LNK_PEER_CLK. -/
  | clockFrame (link : Nat)
  /-- TIME_FRAME_SEND (R378): Every TIME_INT ms a link sends a TIME frame. -/
  | timeFrameSend (link : Nat)
  /-- CLOCK_FRAME_SEND (R378): At each DPLL state change and every 100 ms a link sends a CLOCK frame. -/
  | clockFrameSend (link : Nat)
  /-- LINK_FRAME_TRANSMIT (R379): At each frame boundary a link starts the first waiting frame by priority. -/
  | linkFrameTransmit (link : Nat)
  /-- SHED (R380): Load at or below SHED_PCT for SHED_HOLD boundaries halves the link width. -/
  | shed (link : Nat)
  /-- RESTORE (R380): Load above RESTORE_PCT restores the link width to its cap. -/
  | restore (link : Nat)
  /-- WIDTH_ACK (R382): The ACK of a width change arrives and frames resume at the new width. -/
  | widthAck (link : Nat)
  /-- SHED_TIMEOUT (R382): No ACK within 10 µs keeps the old width and counts a failure. -/
  | shedTimeout (link : Nat)
  /-- SPARE_MOVE (R383): A lane below eye margin for 100 ms is replaced by the spare lane. -/
  | spareMove (link lane margin : Nat)
  /-- PORT_SLIP (R395): A slave port drifting one sample repeats or drops a frame with a crossfade. -/
  | portSlip (aes : Bool) (port : Nat) (ahead : Bool)
  /-- PORT_OUT_OF_RANGE (R396): A port whose PPM exceeds SLIP_PPM ramps to zero and shows OUT_OF_RANGE. -/
  | portOutOfRange (aes : Bool) (port rate : Nat) (ppm : Int)
  /-- PORT_RANGE_RETURN (R396): A port within SLIP_PPM for 1 s returns with a ramp and new placement. -/
  | portRangeReturn (aes : Bool) (port : Nat) (ppm : Int)
  /-- PORT_CLOCK_LOSS (R397): No FS or BCLK for three periods, or a glitch burst, makes a port CLK_LOST. -/
  | portClockLoss (aes : Bool) (port : Nat)
  /-- PORT_GLITCH (R397): A port frame outside 12.5% is discarded and the last frame repeated. -/
  | portGlitch (aes : Bool) (port : Nat)
  /-- PORT_RATE_CHANGE (R397): A port's rate moving more than 1% raises EV_TDM_RATE and follows or loses. -/
  | portRateChange (aes : Bool) (port rate : Nat)
  /-- PORT_CLOCK_RETURN (R397): After 64 good frames a lost port returns at the next block boundary. -/
  | portClockReturn (aes : Bool) (port rate : Nat)
  /-- PORT_EN_CLEAR (R391): Clearing a port's EN sends zeros and stops its clocks after 1,024 frames. -/
  | portEnClear (aes : Bool) (port : Nat)
  /-- PORT_DATA_BEGIN (R391): After the clocks have run 1,024 frames a port's data begins at a block boundary. -/
  | portDataBegin (aes : Bool) (port : Nat)
  /-- AES_CS_BLOCK (R400): A 192-frame channel-status block is checked and stored if changed. -/
  | aesCsBlock (port : Nat) (subB : Bool) (bytes : List Byte)
  /-- MCLK_CHANGE (R398): A new MCLK code takes effect at the next 1/300 s instant. -/
  | mclkChange
  /-- SUPPLIES_VALID (R410): All supplies valid and the oscillator running begin a start with cause 0 and epoch 1. `pins`: bits 1:0 STRAP_RANK, bits 2 and 3 whether REFCLK0 and REFCLK1 run (R593). -/
  | suppliesValid (img pins : Nat)
  /-- RESET_ASSERT (R410): RESET_N low holds everything but the always-on domain in reset. -/
  | resetAssert
  /-- RESET_RELEASE (R410): RESET_N released begins a start with cause 1 at step 2. -/
  | resetRelease (img rank : Nat)
  /-- BIST_COMPLETE (R411): Island BIST, flash, wear-log scan and DRAM training finish and image selection runs. -/
  | bistComplete (x : BistIn)
  /-- START_WINDOW_CLOSE (R427): The start window closes by time or CLOSE and the accepted set is formed. -/
  | startWindowClose
  /-- SECTION_LOAD (R421): An image section loads and its checks and CRC are made. -/
  | sectionLoad
  /-- LOAD_COMPLETE (R411): At the end of the load every unit starts and staged fields go live. -/
  | loadComplete
  /-- ADD (R469): Druora instruction: add two registers. -/
  | add (core : Nat)
  /-- SUB (R469): Druora instruction: subtract two registers. -/
  | sub (core : Nat)
  /-- ADDS (R469): Druora instruction: saturating add. -/
  | adds (core : Nat)
  /-- SUBS (R469): Druora instruction: saturating subtract. -/
  | subs (core : Nat)
  /-- AND (R469): Druora instruction: bitwise AND. -/
  | and (core : Nat)
  /-- OR (R469): Druora instruction: bitwise OR. -/
  | or (core : Nat)
  /-- XOR (R469): Druora instruction: bitwise XOR. -/
  | xor (core : Nat)
  /-- SHL (R469): Druora instruction: shift left by register. -/
  | shl (core : Nat)
  /-- SHR (R469): Druora instruction: logical right shift by register. -/
  | shr (core : Nat)
  /-- ASR (R469): Druora instruction: arithmetic right shift by register. -/
  | asr (core : Nat)
  /-- MIN (R469): Druora instruction: signed minimum. -/
  | min (core : Nat)
  /-- MAX (R469): Druora instruction: signed maximum. -/
  | max (core : Nat)
  /-- ABS (R469): Druora instruction: saturating absolute value. -/
  | abs (core : Nat)
  /-- NEG (R469): Druora instruction: saturating negate. -/
  | neg (core : Nat)
  /-- MUL (R469): Druora instruction: low 32 bits of a product. -/
  | mul (core : Nat)
  /-- CMP (R469): Druora instruction: set flags of a subtraction. -/
  | cmp (core : Nat)
  /-- MOV (R469): Druora instruction: copy a data register. -/
  | mov (core : Nat)
  /-- CLS (R469): Druora instruction: count leading sign bits. -/
  | cls (core : Nat)
  /-- ADDI (R470): Druora instruction: add a sign-extended immediate. -/
  | addi (core : Nat)
  /-- ANDI (R470): Druora instruction: AND with an immediate. -/
  | andi (core : Nat)
  /-- ORI (R470): Druora instruction: OR with an immediate. -/
  | ori (core : Nat)
  /-- XORI (R470): Druora instruction: XOR with an immediate. -/
  | xori (core : Nat)
  /-- SHLI (R470): Druora instruction: shift left by an immediate. -/
  | shli (core : Nat)
  /-- SHRI (R470): Druora instruction: logical right shift by an immediate. -/
  | shri (core : Nat)
  /-- ASRI (R470): Druora instruction: arithmetic right shift by an immediate. -/
  | asri (core : Nat)
  /-- CMPI (R470): Druora instruction: compare with an immediate. -/
  | cmpi (core : Nat)
  /-- MOVI (R470): Druora instruction: load a sign-extended immediate. -/
  | movi (core : Nat)
  /-- MOVHI (R470): Druora instruction: load an immediate shifted left by 15. -/
  | movhi (core : Nat)
  /-- LD (R471): Druora instruction: load a word. -/
  | ld (core : Nat)
  /-- LDH (R471): Druora instruction: load a sign-extended halfword. -/
  | ldh (core : Nat)
  /-- LDB (R471): Druora instruction: load a sign-extended byte. -/
  | ldb (core : Nat)
  /-- LD24 (R471): Druora instruction: load a sign-extended 24-bit value. -/
  | ld24 (core : Nat)
  /-- ST (R471): Druora instruction: store a word. -/
  | st (core : Nat)
  /-- STH (R471): Druora instruction: store a halfword. -/
  | sth (core : Nat)
  /-- STB (R471): Druora instruction: store a byte. -/
  | stb (core : Nat)
  /-- ST24 (R471): Druora instruction: store 24 bits. -/
  | st24 (core : Nat)
  /-- MAC (R473): Druora instruction: multiply-accumulate with parallel loads. -/
  | mac (core : Nat)
  /-- MSU (R473): Druora instruction: multiply-subtract with parallel loads. -/
  | msu (core : Nat)
  /-- MPY (R473): Druora instruction: multiply into an accumulator with parallel loads. -/
  | mpy (core : Nat)
  /-- DMAC (R473): Druora instruction: dual multiply-accumulate into an accumulator pair. -/
  | dmac (core : Nat)
  /-- NOP (R474): Druora instruction: no operation. -/
  | nop (core : Nat)
  /-- MOVR (R474): Druora instruction: copy between coded registers. -/
  | movr (core : Nat)
  /-- SETR (R474): Druora instruction: set a coded register from an immediate. -/
  | setr (core : Nat)
  /-- RND (R475): Druora instruction: round and narrow an accumulator into a data register. -/
  | rnd (core : Nat)
  /-- CLR (R474): Druora instruction: clear an accumulator. -/
  | clr (core : Nat)
  /-- LDACC (R474): Druora instruction: load an accumulator from a shifted register. -/
  | ldacc (core : Nat)
  /-- ADDACC (R474): Druora instruction: add one accumulator to another. -/
  | addacc (core : Nat)
  /-- DRAIN (R482): Druora instruction: stall until every posted shared store is accepted. -/
  | drain (core : Nat)
  /-- SIGNAL (R482): Druora instruction: drain, then submit a descriptor to the dispatcher as source DRU. -/
  | signal (core : Nat)
  /-- HALT (R488): Druora instruction: drain and end the task. -/
  | halt (core : Nat)
  /-- BLKEND (R490): Druora instruction: end a stream run. -/
  | blkend (core : Nat)
  /-- WAIT (R483): Druora instruction: stall until an enabled interrupt source is pending. -/
  | wait (core : Nat)
  /-- EI (R474): Druora instruction: enable interrupts. -/
  | ei (core : Nat)
  /-- DI (R474): Druora instruction: disable interrupts. -/
  | di (core : Nat)
  /-- EVT (R474): Druora instruction: raise EV_DRU_USER with a register value. -/
  | evt (core : Nat)
  /-- BR (R476): Druora instruction: conditional branch with two delay slots. -/
  | br (core : Nat)
  /-- CALL (R476): Druora instruction: call, saving the link register. -/
  | call (core : Nat)
  /-- RET (R476): Druora instruction: return to the link register. -/
  | ret (core : Nat)
  /-- RTI (R476): Druora instruction: return from interrupt, restoring SR. -/
  | rti (core : Nat)
  /-- JMP (R476): Druora instruction: jump to a register address. -/
  | jmp (core : Nat)
  /-- REP (R478): Druora instruction: repeat the next instruction count times. -/
  | rep (core : Nat)
  /-- LOOP (R478): Druora instruction: repeat a body of instructions count times. -/
  | loop (core : Nat)
  /-- ILLEGAL_INSTRUCTION (R479): An illegal instruction is not executed and faults the core with code 1. -/
  | illegalInstruction (core : Nat)
  /-- INTERRUPT_TAKE (R483): A pending enabled source is taken at an instruction boundary. -/
  | interruptTake (core source : Nat)
  /-- TIMER_EXPIRY (R483): TMR counting down to zero makes TIMER pending. -/
  | timerExpiry (core : Nat)
  /-- DOORBELL (R483): A write to DRU_DOORBELL makes DOORBELL pending on named cores. -/
  | doorbell (value : Word)
  /-- CORE_START (R497): CMD START makes a task core IDLE or loads and runs a stream core. -/
  | coreStart (core : Nat)
  /-- CORE_STOP (R497): CMD STOP stops a core after its current task or run. -/
  | coreStop (core : Nat)
  /-- CORE_RESET (R497): CMD RESET puts a core into STOPPED at once. -/
  | coreReset (core : Nat)
  /-- PROGRAM_LOAD_DONE (R486): A program's code and data copy into a core completes. -/
  | programLoadDone (core : Nat)
  /-- TASK_START (R487): A task core loads its entry, clears registers and begins at START. -/
  | taskStart (core : Nat)
  /-- STREAM_RUN_START (R490): Run b starts once its inputs are complete and run b-1 has ended. -/
  | streamRunStart (core : Nat)
  /-- RUN_OVERRUN (R491): A run not ended by its due point overruns and its output is concealed. -/
  | runOverrun (core : Nat)
  /-- TASK_WATCHDOG (R488): A task still running after DRU_TASK_MAX µs is stopped with fault 3. -/
  | taskWatchdog (core : Nat)
  /-- CORE_RETIRE (R495): HLT retires a Druora core and the spare takes its memories and number. -/
  | coreRetire (core cause : Nat)
  /-- BANK_POWER_ON (R502): A bank brought on finishes its zero fill and becomes usable. -/
  | bankPowerOn (bank : Nat)
  /-- SCRATCH_PWR_WRITE (R503): A write to MEM_SCRATCH_PWR changes scratchpad bank power states at once. -/
  | scratchPwrWrite (value : Word)
  /-- SRAM_SCRUB_PASS (R505): The SRAM scrubber reads every on bank once per PERIOD. -/
  | sramScrubPass (finds : List ScrubFind)
  /-- PANIC_ENTER (R522): A real-time port whose fill level falls below ON enters panic. `amount`: of BULK and ALIGN the
  samples buffered ahead, of TAIL the fetched share of the frame's fetches in percent. -/
  | panicEnter (port amount : Nat)
  /-- PANIC_EXIT (R522): A port in panic whose level reaches OFF leaves it. -/
  | panicExit (port amount : Nat)
  /-- DRAM_REFRESH (R523): The controller refreshes banks at the devices' rate. -/
  | dramRefresh (channel bank : Nat)
  /-- DRIFT_TRACK (R523): Every 100 ms the controller tracks clock-to-data drift per channel. -/
  | driftTrack (channel : Nat)
  /-- SELF_REFRESH_ENTER (R524): After SR_IDLE µs idle the controller enters self-refresh and stops its clocks. -/
  | selfRefreshEnter (us : Nat)
  /-- SELF_REFRESH_EXIT (R524): A request arriving in self-refresh restarts the clocks and leaves it. -/
  | selfRefreshExit
  /-- ROW_HAMMER (R525): A requester activates a row `acts` times more in the running window; a row exceeding RH_MAX
  activations triggers neighbour refresh and throttling. `bank`: bits 7:0 the bank, above them the row. -/
  | rowHammer (acts requester number channel bank : Nat)
  /-- PATROL_SCRUB_PASS (R527): The patrol scrubber reads the configured DRAM range once per SCRUB_HOURS. -/
  | patrolScrubPass (fixed bad : List Nat)
  /-- TAMPER (R517): TAMPER_N low for FILTER wipes the secure region. -/
  | tamper (ns : Nat)
  /-- LC_ARM (R516): A SEC_LC_REQ write with CONFIRM 0xA5 arms a life-cycle transition. -/
  | lcArm (value : Word)
  /-- LC_EXECUTE (R516): A second write with CONFIRM 0x5A starts the transition and wipes the secure region. -/
  | lcExecute (value : Word)
  /-- LC_ARM_EXPIRY (R516): An armed request not confirmed within 1 ms is disarmed and counted. -/
  | lcArmExpiry
  /-- LC_FUSE_DONE (R516): 5 ms after execution the fuses are programmed and the new state shown. -/
  | lcFuseDone
  /-- DMA_GO (R545): A write to DMA_CH_GO_HI makes a channel ready with its first descriptor. -/
  | dmaGo (engineB : Bool) (channel : Nat) (value : Word)
  /-- DMA_STOP (R544): Writing STOP ends a channel after its current burst. -/
  | dmaStop (engineB : Bool) (channel : Nat)
  /-- DMA_REQ_ADD (R541): A write to DMA_REQ_ADD adds credits to a request line. -/
  | dmaReqAdd (line : Nat) (value : Word)
  /-- CHANNEL_TAKE (R536): An engine takes the next ready channel, privileged first, round robin. -/
  | channelTake (engineB : Bool)
  /-- DESCRIPTOR_FETCH (R540): A DMA descriptor is fetched and checked, or the chain ends in ERROR. -/
  | descriptorFetch (engineB : Bool)
  /-- DMA_BURST (R541): A burst starts once its request line holds a credit and moves its data. -/
  | dmaBurst (engineB : Bool)
  /-- DESCRIPTOR_COMPLETE (R543): After all writes are acknowledged the CRC is written and the chain continues or ends. -/
  | descriptorComplete (engineB : Bool)
  /-- HEARTBEAT_SEND (R554): Every 250 µs a paired device sends a HEARTBEAT on each pair link. -/
  | heartbeatSend
  /-- HEARTBEAT_LOSS (R554): No heartbeat for 1.0 ms declares the partner's heartbeat lost. -/
  | heartbeatLoss
  /-- HEALTH_SEND (R555): Every 100 ms a paired device sends a HEALTH frame. -/
  | healthSend
  /-- YIELD_EDGE (R556): A YIELD_IN_N falling edge held 100 ns, or a YIELD heartbeat, reaches a FOLLOW. -/
  | yieldEdge (ns : Nat)
  /-- ELECTION (R552): After ELECT × 10 ms without a LEAD heartbeat a FOLLOW of higher rank cuts in. -/
  | election
  /-- RESTORE_COMPLETE (R564): The snapshot restore finishes and the first render tick is chosen. -/
  | restoreComplete
  /-- RENDER_BEGIN (R563): At tick T the new LEAD renders, takes its claim and starts its transmitters. -/
  | renderBegin
  /-- SNAPSHOT_TAKE (R557): Every SNAP_MS the LEAD inserts a pairing SNAP tag two ticks ahead. -/
  | snapshotTake
  /-- ABDICATION_RESTART (R562): 100 ms after abdication the device restarts with cause 3 if RESTART_EN. -/
  | abdicationRestart
  /-- HANDOVER (R567): Writing PAR_CTRL HANDOVER abdicates to a fit partner. -/
  | handover
  /-- MARGIN_STEP_DOWN (R568): An island whose slack falls below LOW steps its clock down by 5%. -/
  | marginStepDown (island slack : Nat)
  /-- MARGIN_STEP_UP (R568): An island at or above HIGH for UP_S seconds steps its clock up by 5%. -/
  | marginStepUp (island slack : Nat)
  /-- ISLAND_RETIRE (R569): An island short at its floor for RETIRE_MS is retired and its spare brought in. -/
  | islandRetire (island slack : Nat)
  /-- RETIRE_WRITE (R569): A write to HLT_RETIRE retires the named unit. -/
  | retireWrite (value : Word)
  /-- FOLLOW_SELFTEST (R570): Every SELFTEST seconds a FOLLOW runs a 2 s self-test on its next render unit. -/
  | followSelftest
  /-- UNIT_RESTART (R578): A unit stuck for 50 ms is restarted alone and its work in flight discarded. -/
  | unitRestart (unit ms : Nat)
  /-- SUPPLY_OUT_OF_RANGE (R590): A supply outside its range for 1 µs meets the SUPPLY criterion. -/
  | supplyOutOfRange (monitor ns : Nat) (outside : Bool)
  /-- SUPPLY_LOSS (R590): A supply below its valid threshold for 10 µs ends supplies valid. -/
  | supplyLoss (us : Nat)
  /-- OVER_TEMPERATURE (R600): Tj above 125 °C for 1 ms holds all islands but always-on in reset. -/
  | overTemperature (tj : Int) (us : Nat)
  /-- COOLDOWN_START (R600): Tj falling below 105 °C starts the device with cause 3. -/
  | cooldownStart (tj : Int)
  /-- BYPASS (R598): TAP instruction BYPASS. -/
  | bypass (trstLow : Bool) (bits : List Bool)
  /-- IDCODE (R598): TAP instruction IDCODE returns the device identification code. -/
  | idcode (trstLow : Bool) (bits : List Bool)
  /-- SAMPLE_PRELOAD (R598): TAP instruction SAMPLE/PRELOAD on the boundary-scan chain. -/
  | samplePreload (trstLow : Bool) (cells : List Bool)
  /-- EXTEST (R598): TAP instruction EXTEST, acting only while RESET_N is low. -/
  | extest (trstLow : Bool) (cells : List Bool)
  /-- SYNC_TIMEOUT (R283): No Sync for 3 Sync intervals makes the PTP candidate LOST. -/
  | syncTimeout
  /-- TIME_FRAME_TIMEOUT (R283): No valid TIME frame for 3 intervals on an up link makes the link-time candidate LOST. -/
  | timeFrameTimeout (link : Nat)
  /-- PTP_MESSAGE_SEND (R298): At its transmitted intervals the PTP instance sends Sync and Announce as grandmaster and Delay_Req or Pdelay_Req as slave. -/
  | ptpMessageSend (kind : Nat)
  /-- DELAY_MESSAGE_RECEIVE (R299): A received Delay_Req, Delay_Resp, Pdelay_Req or Pdelay_Resp is answered or yields the mean path delay.
  The instants that the device sent its own message at (t3 of a Delay_Req, t1 of a Pdelay_Req) are those it kept (R314). -/
  | delayMessageReceive (kind domain : Nat) (t1 t2 t3 t4 corr ratio : Int)
  /-- SHAPER_CREDIT_ZERO (R333): A waiting class A or B frame on an idle port starts when its class credit rises back to 0. -/
  | shaperCreditZero (port : Nat)
  /-- CONTROL_BLOCK_RECEIVE (R382): A received SHED, RESTORE or SPARE_MOVE control block makes the receiving end remap, copy onto the spare or acknowledge with ACK. -/
  | controlBlockReceive (link code arg : Nat)
  /-- LANE_LOCK_LOSS (R383): A working link lane loses lock, its frames in flight count as PCS errors and the link remaps at a reduced cap.
  `lane`: 0 to 4 a receive lane, 5 to 9 a transmit lane whose loss the partner reports. -/
  | laneLockLoss (link lane frames : Nat)
  /-- SPARE_CORE_COPY_END (R495): The copy of a retiring Druora core's memories to the spare completes and the spare takes the task core's logical number. -/
  | spareCoreCopyEnd
  /-- FOLLOW_SELFTEST_END (R570): A FOLLOW's 2 s self-test of a render unit ends, setting its HEALTH bit and retiring it on failure. -/
  | followSelftestEnd (pass : Bool) (core : Nat)
  deriving DecidableEq, Repr

end Sys2Proof
end

