-- ==== Sys2Proof/Machine/Bits.lean ====
section
/-! DEFINITION. Bit fields, two's complement, rounding and saturation (R9, R10) and byte order. -/

namespace Sys2Proof.Machine

open Sys2Proof

/-- Bits [hi:lo] of a word as a number. -/
def fld (w : Word) (hi lo : Nat) : Nat := (w.toNat >>> lo) % 2 ^ (hi + 1 - lo)

/-- Bit `i` of a word. -/
def bit (w : Word) (i : Nat) : Bool := w.getLsbD i

/-- The mask of bits [hi:lo]. -/
def fldMask (hi lo : Nat) : Word := BitVec.ofNat 32 ((2 ^ (hi + 1 - lo) - 1) <<< lo)

/-- `w` with bits [hi:lo] replaced by the low bits of `v`. -/
def putFld (w : Word) (hi lo v : Nat) : Word :=
  (w &&& ~~~ fldMask hi lo) ||| (BitVec.ofNat 32 (v <<< lo) &&& fldMask hi lo)

/-- Bits under `m` from `new`, the others from `old`. -/
def mergeMask (m old new : Word) : Word := (old &&& ~~~ m) ||| (new &&& m)

/-- The value of the low `n` bits of `v` read as two's complement. -/
def signed (n v : Nat) : Int :=
  let u := v % 2 ^ n
  if u < 2 ^ (n - 1) then (u : Int) else (u : Int) - (2 ^ n : Nat)

/-- Bits [hi:lo] of a word read as two's complement. -/
def sfld (w : Word) (hi lo : Nat) : Int := signed (hi + 1 - lo) (fld w hi lo)

/-- The low `n` bits of an integer, as a number. -/
def lowBits (n : Nat) (v : Int) : Nat := (v % (2 ^ n : Nat)).toNat

/-- A word from the low 32 bits of an integer. -/
def wordOfInt (v : Int) : Word := BitVec.ofNat 32 (lowBits 32 v)

/-- A word from a number, wrapping. -/
def wordOf (v : Nat) : Word := BitVec.ofNat 32 v

/-- `v` narrowed by `k` fraction bits, rounding half up (R10). -/
def roundShift (v : Int) (k : Nat) : Int :=
  match k with
  | 0 => v
  | j + 1 => (v + (2 ^ j : Nat)) / (2 ^ (j + 1) : Nat)

/-- `n / d` rounded half up (R10); `d` positive. -/
def roundDiv (n : Int) (d : Nat) : Int := (2 * n + d) / (2 * d : Nat)

/-- `v` held within `lo` and `hi`. -/
def clampI (lo hi v : Int) : Int := if v < lo then lo else if hi < v then hi else v

/-- `v` saturated to `n` bits of two's complement. -/
def satS (n : Nat) (v : Int) : Int := clampI (-(2 ^ (n - 1) : Nat)) ((2 ^ (n - 1) : Nat) - 1) v

/-- True where `v` does not fit `n` bits of two's complement. -/
def satHit (n : Nat) (v : Int) : Bool := satS n v != v

/-- `v` saturated to `n` unsigned bits. -/
def satU (n : Nat) (v : Int) : Int := clampI 0 ((2 ^ n : Nat) - 1) v

/-- `v` held within 0 and `hi`. -/
def clampN (lo hi v : Nat) : Nat := if v < lo then lo else if hi < v then hi else v

/-- Byte `k` of a number, little-endian. -/
def byteOf (v k : Nat) : Byte := BitVec.ofNat 8 (v >>> (8 * k))

/-- The `n` little-endian bytes of a number. -/
def bytesOf (n v : Nat) : List Byte := (List.range n).map (byteOf v)

/-- The number that little-endian bytes spell. -/
def ofBytes : List Byte → Nat
  | [] => 0
  | b :: bs => b.toNat + 256 * ofBytes bs

/-- The number that big-endian (network order) bytes spell. -/
def ofBytesBE (bs : List Byte) : Nat := ofBytes bs.reverse

/-- The `n` big-endian bytes of a number. -/
def bytesBE (n v : Nat) : List Byte := (bytesOf n v).reverse

/-- Item `i` of a list, or the default. -/
def nth {α : Type} (d : α) (l : List α) (i : Nat) : α := l.getD i d

/-- A list with item `i` replaced (unchanged where there is no item `i`). -/
def setNth {α : Type} (l : List α) (i : Nat) (v : α) : List α := l.set i v

/-- The items of a list from position `i`, `n` of them. -/
def slice {α : Type} (l : List α) (i n : Nat) : List α := (l.drop i).take n

/-- A little-endian field of a byte string. -/
def getLE (bs : List Byte) (ofs n : Nat) : Nat := ofBytes (slice bs ofs n)

/-- A big-endian field of a byte string. -/
def getBE (bs : List Byte) (ofs n : Nat) : Nat := ofBytesBE (slice bs ofs n)

/-- The least item under a measure. -/
def minBy {α : Type} (f : α → Nat) : List α → Option α
  | [] => none
  | a :: as =>
    match minBy f as with
    | none => some a
    | some b => if f b < f a then some b else some a

/-- A mask of numbers, one bit each. -/
def bitsOf (l : List Nat) : Nat := l.eraseDups.foldl (fun m k => m + 2 ^ k) 0

end Sys2Proof.Machine
end

