-- ==== Sys2Proof/Machine/Fixed.lean ====
section
/-! DEFINITION. Real-valued formulas of the spec in fixed point: numbers scaled by 2^64, with roots, circular
functions, logarithms and powers by structural recursion. The truncation errors lie far below every tolerance the
spec grants (R114, R136, R230, R257). -/

namespace Sys2Proof.Machine

/-- One, in fixed point. -/
def fxOne : Int := 2 ^ 64

/-- An integer in fixed point. -/
def fxOf (v : Int) : Int := v * 2 ^ 64

/-- The ratio of two integers in fixed point, truncated down; zero for a zero divisor. -/
def fxRat (n d : Int) : Int := if d = 0 then 0 else (n * 2 ^ 64) / d

/-- Product. -/
def fxMul (a b : Int) : Int := (a * b) / 2 ^ 64

/-- Quotient; zero for a zero divisor. -/
def fxDiv (a b : Int) : Int := if b = 0 then 0 else (a * 2 ^ 64) / b

/-- Narrowed to `f` fraction bits, rounding half up (R10). -/
def fxNarrow (f : Nat) (a : Int) : Int := roundShift a (64 - f)

/-- The bits of a square root, from bit `k` down. -/
def isqrtGo (n : Nat) : Nat → Nat → Nat
  | 0, acc => acc
  | k + 1, acc => if (acc + 2 ^ k) * (acc + 2 ^ k) ≤ n then isqrtGo n k (acc + 2 ^ k) else isqrtGo n k acc

/-- The integer square root. -/
def isqrt (n : Nat) : Nat := isqrtGo n (n.log2 / 2 + 1) 0

/-- Square root; zero for a negative argument. -/
def fxSqrt (a : Int) : Int := (isqrt (a.toNat * 2 ^ 64) : Nat)

/-- π. -/
def fxPi : Int := 57952155664616982739

/-- ln 2. -/
def fxLn2 : Int := 12786308645202655659

/-- log2 10. -/
def fxLog2Ten : Int := 61278757397652712441

/-- Terms of an alternating power series: from the `k`-th term `t`, `n` more terms, denominators `(k+1)(k+2)`. -/
def fxAlt (x2 : Int) : Nat → Nat → Int → Int
  | 0, _, _ => 0
  | n + 1, k, t => t + fxAlt x2 n (k + 2) (-(fxMul t x2) / (((k + 1) * (k + 2) : Nat) : Int))

/-- The angle brought into -π to π. -/
def fxWrapPi (x : Int) : Int :=
  let y := (x + fxPi) % (2 * fxPi)
  y - fxPi

/-- Sine. -/
def fxSin (x : Int) : Int :=
  let y := fxWrapPi x
  fxAlt (fxMul y y) 24 1 y

/-- Cosine. -/
def fxCos (x : Int) : Int :=
  let y := fxWrapPi x
  fxAlt (fxMul y y) 24 0 fxOne

/-- Tangent. -/
def fxTan (x : Int) : Int := fxDiv (fxSin x) (fxCos x)

/-- Terms of the arctangent series: odd denominators from `k`. -/
def fxAtanSer (x2 : Int) : Nat → Nat → Int → Int
  | 0, _, _ => 0
  | n + 1, k, p => p / (k : Int) + fxAtanSer x2 n (k + 2) (-(fxMul p x2))

/-- An argument whose arctangent is half that of `t`. -/
def fxHalfTan (t : Int) : Int := fxDiv t (fxOne + fxSqrt (fxOne + fxMul t t))

/-- Arctangent. -/
def fxAtan (t : Int) : Int :=
  let u := fxHalfTan (fxHalfTan (fxHalfTan t))
  8 * fxAtanSer (fxMul u u) 20 1 u

/-- The angle of the point (x, y), from -π to π; zero at the origin. -/
def fxAtan2 (y x : Int) : Int :=
  if x = 0 ∧ y = 0 then 0
  else if y.natAbs ≤ x.natAbs then
    let a := fxAtan (fxDiv y x)
    if 0 < x then a else if 0 ≤ y then a + fxPi else a - fxPi
  else
    let a := fxAtan (fxDiv x y)
    if 0 < y then fxPi / 2 - a else -(fxPi / 2) - a

/-- Bits of a base-2 logarithm of a number in 1 to 2, `n` of them, each worth `w`. -/
def fxLog2Go : Nat → Int → Int → Int
  | 0, _, _ => 0
  | n + 1, v, w =>
    let q := fxMul v v
    if 2 * fxOne ≤ q then w + fxLog2Go n (q / 2) (w / 2) else fxLog2Go n q (w / 2)

/-- Base-2 logarithm of a positive number. -/
def fxLog2 (a : Int) : Int :=
  let e : Int := (a.toNat.log2 : Int) - 64
  let m : Int := if 0 ≤ e then a / (2 ^ e.toNat : Nat) else a * (2 ^ (-e).toNat : Nat)
  e * fxOne + fxLog2Go 62 m (fxOne / 2)

/-- Terms of the exponential series from the `k`-th term `t`. -/
def fxExpGo (x : Int) : Nat → Nat → Int → Int
  | 0, _, _ => 0
  | n + 1, k, t => t + fxExpGo x n (k + 1) (fxMul t x / ((k + 1 : Nat) : Int))

/-- Two to the power `x`. -/
def fxExp2 (x : Int) : Int :=
  let e : Int := x / fxOne
  let f : Int := x % fxOne
  let m := fxExpGo (fxMul f fxLn2) 26 0 fxOne
  if 0 ≤ e then m * (2 ^ e.toNat : Nat) else m / (2 ^ (-e).toNat : Nat)

/-- `a` to the power `b`, for positive `a`; zero for a base of zero or below. -/
def fxPow (a b : Int) : Int := if a ≤ 0 then 0 else fxExp2 (fxMul b (fxLog2 a))

/-- The linear gain of a level in dB (fixed point), R11. -/
def fxDb (db : Int) : Int := fxExp2 (fxMul db (fxLog2Ten / 20))

end Sys2Proof.Machine
end

