-- ==== Sys2Proof/Machine/Crc.lean ====
section
/-! DEFINITION. CRC-32C (R371, R421, R543, R557, R571), SHA-256 and HMAC-SHA-256 (R446). -/

namespace Sys2Proof.Machine

open Sys2Proof

/-- `n` steps of the reflected Castagnoli register (R543). -/
def crcBits : Nat → Nat → Nat
  | 0, c => c
  | n + 1, c => crcBits n (if c % 2 = 1 then (c / 2) ^^^ 0x82F63B78 else c / 2)

/-- The CRC register after bytes. -/
def crcRun (c : Nat) (bs : List Byte) : Nat := bs.foldl (fun m b => crcBits 8 (m ^^^ b.toNat)) c

/-- CRC-32C of bytes: initial value and final XOR all ones (R543). -/
def crc32c (bs : List Byte) : Nat := crcRun 0xFFFFFFFF bs ^^^ 0xFFFFFFFF

/-- Rotation right of a 32-bit word. -/
def rotr (v n : Nat) : Nat := v / 2 ^ n + v % 2 ^ n * 2 ^ (32 - n)

/-- The whole part of a `k`-th root of `v`, from its highest bit down: `n` more bits below those in `r`. -/
def rootBits (k v : Nat) : Nat → Nat → Nat
  | 0, r => r
  | n + 1, r => rootBits k v n (if (r + 2 ^ n) ^ k ≤ v then r + 2 ^ n else r)

/-- The first 32 bits of the fraction of the `k`-th root of a prime below 2^9. -/
def rootFrac (k p : Nat) : Nat := rootBits k (p * 2 ^ (32 * k)) 37 0 % 2 ^ 32

/-- The primes below 312: there are 64 of them. -/
def shaPrimes : List Nat := (List.range 312).filter (fun n => decide (2 ≤ n) && (List.range (n - 2)).all (fun d => n % (d + 2) != 0))

/-- Round constants and initial words of SHA-256: fractions of the cube roots of the first 64 primes and of the square
roots of the first 8. -/
def shaK : List Nat := shaPrimes.map (rootFrac 3)
def shaInit : List Nat := (shaPrimes.take 8).map (rootFrac 2)

/-- The message schedule from the newest word down: `n` more words. -/
def shaExtend : Nat → List Nat → List Nat
  | 0, w => w
  | n + 1, w =>
    let w2 := nth 0 w 1
    let w15 := nth 0 w 14
    let s0 := rotr w15 7 ^^^ rotr w15 18 ^^^ (w15 / 8)
    let s1 := rotr w2 17 ^^^ rotr w2 19 ^^^ (w2 / 1024)
    shaExtend n (((nth 0 w 15 + s0 + nth 0 w 6 + s1) % 2 ^ 32) :: w)

/-- One round over the eight working words. -/
def shaRound (h : List Nat) (kw : Nat × Nat) : List Nat :=
  match h with
  | [a, b, c, d, e, f, g, x] =>
    let s1 := rotr e 6 ^^^ rotr e 11 ^^^ rotr e 25
    let ch := (e &&& f) ^^^ ((0xFFFFFFFF - e) &&& g)
    let t1 := x + s1 + ch + kw.1 + kw.2
    let s0 := rotr a 2 ^^^ rotr a 13 ^^^ rotr a 22
    let mj := (a &&& b) ^^^ (a &&& c) ^^^ (b &&& c)
    [(t1 + s0 + mj) % 2 ^ 32, a, b, c, (d + t1) % 2 ^ 32, e, f, g]
  | _ => h

/-- The compression of one 64-byte block. -/
def shaBlock (h : List Nat) (blk : List Byte) : List Nat :=
  let w := shaExtend 48 ((List.range 16).map (fun i => ofBytesBE (slice blk (4 * i) 4))).reverse
  let r := (shaK.zip w.reverse).foldl shaRound h
  (h.zip r).map (fun p => (p.1 + p.2) % 2 ^ 32)

/-- SHA-256 of bytes. -/
def sha256 (bs : List Byte) : List Byte :=
  let n := bs.length
  let z := (119 - n % 64) % 64
  let m := bs ++ [0x80] ++ List.replicate z 0 ++ bytesBE 8 (8 * n)
  ((List.range (m.length / 64)).foldl (fun h i => shaBlock h (slice m (64 * i) 64)) shaInit).flatMap (bytesBE 4)

/-- HMAC-SHA-256 of a message under a key of at most 64 bytes. -/
def hmacSha256 (key msg : List Byte) : List Byte :=
  let k := key ++ List.replicate (64 - key.length) 0
  sha256 (k.map (· ^^^ 0x5C) ++ sha256 (k.map (· ^^^ 0x36) ++ msg))

end Sys2Proof.Machine
end

