-- ==== Sys2Proof/Config.lean ====
section
/-! DEFINITION. What the spec leaves open, as constants without a body: nothing can be proved of their values.
Each is applied to the state's counter of free values, or to the operands it depends on. -/

namespace Sys2Proof

/-- A bit the spec leaves undefined (a collision in the mailbox, R437; a power-on error, R413). -/
opaque Config.freeBit : Nat → Bool

/-- A 32-bit value the spec leaves undefined. -/
opaque Config.freeWord : Nat → BitVec 32

/-- A number the spec leaves open; each use bounds it as its rule bounds it. -/
opaque Config.freeNat : Nat → Nat

/-- The 16-bit word of a sample that rounds to full scale (R10, R342), which no rule saturates. -/
opaque Config.wireOver : Int → Nat

/-- What a byte of DRAM holds that nothing has written since supplies valid (R413). -/
opaque Config.dramPowerOn : Nat → BitVec 8

/-- Whether an 8-byte DRAM word that nothing has written since supplies valid reads as uncorrectable (R413). -/
opaque Config.dramPowerOnBad : Nat → Bool

/-- The deviation of a computed result from the real value it approximates, for a result the spec gives with a
tolerance only (R136, R230, R257): each use is held within its rule's tolerance. -/
opaque Config.deviation : Nat → Int

/-- The deviation of a generator's sample (R257), by its record and the render rate and by the sample's place in the
period: two devices that play the same record play the same samples (R262). -/
opaque Config.waveDeviation : List Nat → Nat → Int

/-- Word of the 32-bit noise sequence started at a seed (R257): the sequence itself is not given. -/
opaque Config.noiseWord : Nat → Nat → BitVec 32

/-- Tap of the decimator to 48 kHz (R269), by render rate and place, in units of 2^-23: its filter is not given. -/
opaque Config.decimTap : Nat → Nat → Int

/-- The asynchronous converter's filter (R79), symmetric about its centre: preset, input rate and render rate in Hz, and
distance from the centre in 1/256 of an input sample. The rule gives group delay, passband and stopband and not the
coefficients. -/
opaque Config.asrcTap : Nat → Nat → Nat → Nat → Int

/-- Where between two input samples a converter reads, in 2^-16: the loop that follows the input rate is not given
(R79, R81). -/
opaque Config.asrcPlace : Nat → Nat

/-- The gains of the DPLL's LOCKED loop, proportional in 2^-32 per second and integral in 2^-32 per second squared, by
bandwidth in 0.01 Hz: the rule gives the loop's order, bandwidth and peaking, which `loopGain` holds it to, and not its
gains (R291). -/
opaque Config.loopGain : Nat → Nat × Nat

/-- The pre-emphasis coefficients b0, b1, b2, a1, a2 (item 0 to 4) in s2.29 by die revision, ALIAS in Hz and render
rate: a fixed rule of the device that is not published (R201). -/
opaque Config.preemph : Nat → Nat → Nat → Nat → Int

/-- The device's own clockIdentity and the key of its random choices: no rule gives it (R298). -/
opaque Config.clockIdentity : Nat

/-- The bank of its channel that a DRAM address lies in: the spec gives the channels only (R518). -/
opaque Config.dramBank : Nat → Nat

/-- Post-package repair resources of a DRAM bank, by channel and bank (R528). -/
opaque Config.repairs : Nat → Nat → Nat

/-- Spare rows of an SRAM bank, by group (R505). -/
opaque Config.spareRows : Nat → Nat

end Sys2Proof
end

