-- ==== Sys2Proof/Machine/Tab.lean ====
section
/-! DEFINITION. Sparse tables as lists of (key, value) pairs with strictly rising keys: registers, tables and
other stores that hold a value for some keys only. A key that is not listed has the default its reader names. -/

namespace Sys2Proof.Machine

/-- A sparse table. -/
abbrev Tab (α : Type) := List (Nat × α)

/-- The value listed for a key. -/
def tabFind? {α : Type} (k : Nat) : Tab α → Option α
  | [] => none
  | (k', v) :: t => if k' = k then some v else tabFind? k t

/-- The value listed for a key, or a default. -/
def tabGet {α : Type} (d : α) (t : Tab α) (k : Nat) : α := (tabFind? k t).getD d

/-- The table with a key's value set, keys kept in rising order. -/
def tabSet {α : Type} (k : Nat) (v : α) : Tab α → Tab α
  | [] => [(k, v)]
  | (k', v') :: t =>
    if k < k' then (k, v) :: (k', v') :: t
    else if k = k' then (k, v) :: t
    else (k', v') :: tabSet k v t

/-- The table without a key. -/
def tabErase {α : Type} (k : Nat) (t : Tab α) : Tab α := t.filter (fun p => p.1 != k)

/-- A key's value changed by `f`, from a default where it is not listed. -/
def tabMod {α : Type} (d : α) (k : Nat) (f : α → α) (t : Tab α) : Tab α := tabSet k (f (tabGet d t k)) t

/-- The keys strictly rise from above `lo` (with `lo` exclusive where given). -/
def tabSorted {α : Type} : Option Nat → Tab α → Bool
  | _, [] => true
  | none, (k, _) :: t => tabSorted (some k) t
  | some lo, (k, _) :: t => decide (lo < k) && tabSorted (some k) t

/-- A set of numbers in rising order, with one added. -/
def setAdd (k : Nat) : List Nat → List Nat
  | [] => [k]
  | k' :: t => if k < k' then k :: k' :: t else if k = k' then k' :: t else k' :: setAdd k t

/-- A set of numbers with one removed. -/
def setDel (k : Nat) (t : List Nat) : List Nat := t.filter (· != k)

end Sys2Proof.Machine
end

