-- ==== Sys2Proof/Machine/StateSys.lean ====
section
/-! DEFINITION. State of the control agent, the tags, the start sequence, the memories and the DRAM controller. -/

namespace Sys2Proof.Machine

open Sys2Proof

/-- How a TDM port's frames stand on its pins (R392): format 0 to 3, bits of a slot, whether data begins one BCLK late,
which edge of BCLK drives, and whether FS is inverted. -/
structure TdmForm where
  format : Nat
  slotBits : Nat
  late : Bool
  rising : Bool
  fsInv : Bool
  deriving DecidableEq, Repr

/-- What the block puts out on its ports in one step. -/
inductive Out where
  /-- a remote control datagram (R446 to R449): Ethernet port, destination address and port, payload -/
  | udp (port ip dst : Nat) (payload : List Byte)
  /-- an Ethernet frame, without its FCS (R333): port and bytes -/
  | eth (port : Nat) (bytes : List Byte)
  /-- a message of the PTP instance (R297): port, IEEE 1588 messageType, whether it goes to the master alone, its
  source address (R318), and its fields as numbers -/
  | ptp (port kind : Nat) (unicast : Bool) (sa : Nat) (fields : List Int)
  /-- a frame on a Zwildo link (R371): link and bytes -/
  | link (n : Nat) (bytes : List Byte)
  /-- a control block on a link (R381): link, code, argument -/
  | ctl (n code arg : Nat)
  /-- frames of a TDM transmit port (R392, R393): port, their form on the pins, wire index of the first frame, slot words
  by frame, most significant bit first -/
  | tdm (port : Nat) (form : TdmForm) (first : Nat) (frames : List (List Nat))
  /-- the BCLK and FS that a TDM port drives begin, or stop at a rate of 0 (R391, R392): port, form, slots, frame rate -/
  | tdmClock (port : Nat) (form : TdmForm) (slots rate : Nat)
  /-- frames of an AES3 output (R401): port, wire index, and per frame the 28 bits of both subframes after the
  preamble (sample, V, U, C, P, the sample's low bit lowest) -/
  | aes (port first : Nat) (frames : List (Nat × Nat))
  /-- an edge on a time pin (R303): pin, level after it, units of 250 ps into the sample -/
  | pin (n : Nat) (high : Bool) (quarter : Nat)
  /-- an edge of a clock output (R296): word clock 0 or 1, or 1PPS 2; level after it; units of 250 ps into the sample -/
  | clock (n : Nat) (high : Bool) (quarter : Nat)
  /-- a master clock output runs at another frequency (R398): output, Hz -/
  | mclk (n hz : Nat)
  /-- bits shifted out on TDO, first bit first (R598) -/
  | tdo (bits : List Bool)
  /-- levels that EXTEST drives on the balls, in chain order (R598) -/
  | balls (bits : List Bool)
  deriving DecidableEq, Repr

/-- The register and table words (R15 to R20). A word that is not listed has its reset value. -/
structure Words where
  /-- what a read returns: the last value written, the shadow copy of an S field, or the status the device shows -/
  wr : Tab Word
  /-- what acts: an L field from the unit's next block, an S field from its COMMIT, an F field at once -/
  act : Tab Word
  /-- addresses of words whose L fields wait for their unit's next block -/
  dirtyL : List Nat
  /-- addresses of words whose S fields were written since the last COMMIT reached their unit (R67) -/
  dirtyS : List Nat
  deriving DecidableEq, Repr

/-- Time (R42 to R44, R62). The model numbers samples, blocks and ticks by one count that never steps, `idx` and all
that is derived from it; the sample index of R42 is that count plus the offset of the time scale there (R45, R63). -/
structure TimeSt where
  /-- TAI seconds, and the part of a second in units of 2^-16 / 3 ns -/
  sec : Nat
  sub : Nat
  /-- render samples counted -/
  idx : Nat
  /-- steps of the scale, newest first: the tick counted at which each acts, and the offset in ticks from there on (R62) -/
  steps : List (Nat × Int)
  /-- the newest of them has been decided and has not taken effect -/
  stepWaits : Bool
  /-- a time reference has been qualified since start (R300) -/
  haveTime : Bool
  /-- media time since supplies valid, in the units of `sub`: it never steps -/
  mono : Nat
  deriving DecidableEq, Repr

/-- A tag record (R50). -/
structure TagRec where
  typ : Nat
  late : Bool
  rebased : Bool
  scale : Nat
  unit : Nat
  inst : Nat
  payload : Word
  target : Nat
  /-- inserted by the device itself -/
  own : Bool
  deriving DecidableEq, Repr

/-- A tag waiting in a unit's pending queue, with the block at which it acts there (R55 to R58). -/
structure PendTag where
  tag : TagRec
  /-- the block at whose first sample it acts -/
  block : Nat
  /-- shadow copies taken on arrival, the pending set of a COMMIT among them (R67, R95): address and word -/
  snap : List (Nat × Word)
  deriving DecidableEq, Repr

/-- One unit's place in the block stream: tags on their way to it, its pending queue and sets, and its next block. -/
structure UnitSt where
  /-- it has begun block `next`: L fields that arrive now wait, and tags are judged against the block after it -/
  begun : Bool
  next : Nat
  transit : List TagRec
  pend : List PendTag
  /-- blocks in which a tag acted late (R49 LATE_TAG), newest first -/
  lateAt : List Nat
  /-- the last tick whose boundary work the unit has done (R44) -/
  tickDone : Option Nat
  deriving DecidableEq, Repr

/-- A tag an injector holds (R54), with the command that waits for it, if a command inserted it: source and TAG. -/
structure HeldTag where
  unit : Nat
  tag : TagRec
  src : Option Nat
  deriving DecidableEq, Repr

/-- A response record (R441) and the words of its trailing data records (R444). -/
structure RspRec where
  opcode : Nat
  status : Nat
  tag : Nat
  done : Nat
  data : Nat
  words : List Word
  deriving DecidableEq, Repr

/-- Where the responses of a command frame go, and what is still to be answered (R447, R448). -/
structure ReplyCtx where
  /-- responses still to come -/
  left : Nat
  rsps : List RspRec
  ip : Nat
  udp : Nat
  port : Nat
  deriving DecidableEq, Repr

/-- One command source (R445): commands taken and not yet executed, responses waiting to be written. -/
structure SourceSt where
  taken : List CmdRec
  rsps : List RspRec
  reply : List ReplyCtx
  deriving DecidableEq, Repr

/-- The control agent: host port, sources, sessions, events. -/
structure SysSt where
  /-- the write latch of R435: halfword address, data, and the enabled byte lanes -/
  wrLatch : Option (Nat × Nat × Nat)
  /-- the read latch of R435: address of the upper halfword and its copy -/
  rdLatch : Option (Nat × Nat)
  /-- what HD carries after a host read -/
  hd : Nat
  /-- HBUSY_N is low -/
  hbusy : Bool
  sources : Tab SourceSt
  /-- frames sent under each key slot in this start (R447) -/
  sentSeq : Tab Nat
  /-- event records waiting to be forwarded (R449), oldest first -/
  fwd : List (List Byte)
  /-- the tick in which the last event frame was sent -/
  fwdTick : Option Nat
  /-- frames discarded in the current tick, and the key slot of the first (R446) -/
  authKey : Nat
  authCnt : Nat
  /-- the source whose command ended last (R445) -/
  lastSrc : Nat
  deriving DecidableEq, Repr

/-- The start sequence and what it has read (R410 to R428). -/
structure StartSt where
  /-- monotonic instant of the start -/
  began : Nat
  supplies : Bool
  resetLow : Bool
  /-- held in reset by over-temperature (R600) -/
  hot : Bool
  stage : Nat
  cause : Nat
  epoch : Nat
  rank : Nat
  strapImg : Nat
  /-- the SerDes references that run: bit 0 REFCLK0, bit 1 REFCLK1 (R593) -/
  refs : Nat
  slotSel : Nat
  forced : Bool
  named : Option Nat
  fallback : Bool
  tried : List Nat
  flashMib : Nat
  slotA : List Byte
  slotB : List Byte
  window : Nat
  imgReq : Nat
  /-- next section to load, and its offset in the image -/
  secNo : Nat
  secOfs : Nat
  loading : Bool
  deriving DecidableEq, Repr

/-- Power state of a memory bank (R500 to R502). -/
inductive BankState where
  | on | retention | off
  /-- changing from off to on: the zero fill is under way -/
  | filling
  deriving DecidableEq, Repr

/-- Memories: bank states by group * 256 + bank, error bookkeeping (R500 to R505). -/
structure MemSt where
  banks : Tab BankState
  /-- rows with a corrected word in an earlier pass: group, bank, row -/
  weak : List (Nat × Nat × Nat)
  /-- spare rows used in a bank (key group * 256 + bank) -/
  spares : Tab Nat
  scrubs : Nat
  deriving DecidableEq, Repr

/-- A requester held to one activation per `gap` ns in a bank of a channel until an instant (R525). -/
structure Throttle where
  req : Nat
  inst : Nat
  channel : Nat
  bank : Nat
  gap : Nat
  until_ : Nat
  deriving DecidableEq, Repr

/-- DRAM controller (R518 to R528). -/
structure DrcSt where
  trained : Bool
  panicBulk : Bool
  panicAlign : Bool
  panicTail : Bool
  selfRefresh : Bool
  /-- refreshes issued, by channel * 256 + bank -/
  refreshes : Tab Nat
  /-- drift tracks done, by channel -/
  drift : Tab Nat
  /-- fill levels of the BULK, ALIGN and TAIL ports in percent, as last told (R522) -/
  fill : Tab Nat
  /-- activations in the running window of 32 ms by row and requester (code, instance), and that window's number; refresh
  management commands issued, by row (R525) -/
  acts : Tab (List (Nat × Nat × Nat))
  actWindow : Nat
  managed : Tab Nat
  throttled : List Throttle
  /-- uncorrectable errors of the current tick: the first log entry and their number (R526) -/
  ueFirst : Nat
  ueCount : Nat
  /-- real-time errors in the running second, and that second -/
  rtSec : Nat
  rtCount : Nat
  /-- uncorrectable errors by row, and words with corrected errors by row -/
  rowUe : Tab Nat
  rowCe : Tab (List Nat)
  /-- rows marked failing since their last repair (R528) -/
  failing : List Nat
  deriving DecidableEq, Repr

/-- Secure region and life cycle (R513 to R517). -/
structure SecSt where
  /-- the state a request has armed, and the transition that has been started, with their instants (R516) -/
  armed : Option (Nat × Nat)
  executing : Option (Nat × Nat)
  /-- words of a key slot that wait until the slot is whole (R514), by word of the region -/
  keyWords : Tab Word
  /-- keys latched for fusing (R516 step 3) -/
  latched : List (Nat × Nat)
  /-- a tamper has wiped the keys since power-up (R517) -/
  tampered : Bool
  deriving DecidableEq, Repr

/-- The instruction in the test access port (R598). -/
inductive TapIr where
  | bypass | idcode | sample | extest
  deriving DecidableEq, Repr

/-- The test access port (R598): its instruction, and the boundary cells as last preloaded, in chain order. -/
structure TapSt where
  ir : TapIr
  cells : List Bool
  deriving DecidableEq, Repr

/-- The grade of the part (R1). -/
inductive Grade where
  | ih1024 | ih0512 | ih0256
  deriving DecidableEq, Repr

/-- One-way fuses: grade, life-cycle state (R515), key store (R516) and SRAM repairs (R505). -/
structure Fuses where
  grade : Grade
  life : Nat
  keys : List (Nat × Nat)
  repairs : List (Nat × Nat × Nat)
  dieRev : Nat
  deriving DecidableEq, Repr

end Sys2Proof.Machine
end

