-- ==== Sys2Proof/Machine/StateAudio.lean ====
section
/-! DEFINITION. Audio blocks (R45, R48, R49), gain ramps (R98) and the state of conditioning and routing. -/

namespace Sys2Proof.Machine

open Sys2Proof

/-- An audio block with its header flags (R49): 16 samples as s0.23 integers. -/
structure Blk where
  idx : Nat
  unsettled : Bool
  silent : Bool
  concealed : Bool
  memerr : Bool
  slip : Bool
  lateTag : Bool
  rebased : Bool
  smp : List Int
  /-- what a received channel has for converters where that is not `smp`: the samples that arrived, oldest first, at
  their own rate, and whether some of them are concealed (R351, R395) -/
  raw : Option (List Int × Bool)
  deriving DecidableEq, Repr

/-- A gain ramp (R98): from `a` to `b` in `n` samples, `k` of them done; gains have 40 fraction bits. -/
structure Ramp where
  a : Int
  b : Int
  n : Nat
  k : Nat
  deriving DecidableEq, Repr

/-- A gain that stays. -/
def rampAt (g : Int) : Ramp := ⟨g, g, 0, 0⟩

/-- State of a direct form I biquad section (R76, R228). -/
structure BiqSt where
  x1 : Int
  x2 : Int
  y1 : Int
  y2 : Int
  deriving DecidableEq, Repr

/-- A section in its rest state. -/
def biqZero : BiqSt := ⟨0, 0, 0, 0⟩

/-- A channel or output in the silence detector (R85, R247). -/
inductive Wall where
  | active
  /-- ramping to zero: samples of the ramp done -/
  | ramping (k : Nat)
  | silent
  deriving DecidableEq, Repr

/-- A converter's place in the lock sequence (R81). -/
inductive Lock where
  /-- step 1: measuring -/
  | measuring
  /-- step 2: delivering unsettled samples, samples left to settle -/
  | unsettled (left : Nat)
  /-- step 3: settled -/
  | settled
  /-- the measured rate is out of range (R83) -/
  | outOfRange
  deriving DecidableEq, Repr

/-- One conditioned channel (R74 to R85). -/
structure ChanSt where
  offset : BiqSt
  wind1 : BiqSt
  wind2 : BiqSt
  windOn : Bool
  trim : Ramp
  /-- samples for which every sample has stayed below the threshold -/
  quiet : Nat
  wall : Wall
  hasAsrc : Bool
  lock : Lock
  /-- ramp-in of a muted channel at the end of settling (R82): samples done of 256 -/
  rampIn : Nat
  /-- samples the converter has taken from its source, newest first (R79) -/
  hist : List Int
  /-- sums of squares of past ticks, newest first, and of the running tick -/
  sums : List Nat
  sumNow : Nat
  deriving DecidableEq, Repr

/-- A channel at reset: trim 1.0, nothing heard, no converter. -/
def chanZero : ChanSt :=
  ⟨biqZero, biqZero, biqZero, false, rampAt (2 ^ 40), 0, .active, false, .measuring, 256, [], [], 0⟩

/-- One source path of a patch destination (R99). -/
structure RtePath where
  src : Nat
  ramp : Ramp
  /-- order in which the present source took the path -/
  since : Nat
  deriving DecidableEq, Repr

/-- A change of output-plane nodes that waits for the output slot of its block (R46, R89). -/
structure OutChange where
  block : Nat
  /-- destination, source, gain, ramp code, and whether SRC is taken -/
  nodes : List (Nat × Nat × Nat × Nat)
  deriving DecidableEq, Repr

/-- The routing fabric: active paths by destination, crosspoint gains, and what waits for the output slot. -/
structure RteSt where
  pathsIn : Tab (List RtePath)
  pathsOut : Tab (List RtePath)
  nodes : Tab Ramp
  takes : Nat
  outNext : Nat
  outChanges : List OutChange
  deriving DecidableEq, Repr

/-- Input conditioning: the channels that differ from one another, and the silence detector of all others, which hold
reset records and so hear nothing (R85). -/
structure IncSt where
  chans : Tab ChanSt
  quiet : Nat
  wall : Wall
  deriving DecidableEq, Repr

end Sys2Proof.Machine
end

