-- ==== Sys2Proof/Machine/StateScene.lean ====
section
/-! DEFINITION. State of motion conditioning (MOT) and of the dispatcher (DSX), and the values they pass on. -/

namespace Sys2Proof.Machine

open Sys2Proof

/-- A conditioned value: position in mm, gain in s7.8 dB, spread in u8.2 degrees. -/
structure ObjVal where
  x : Int
  y : Int
  z : Int
  gain : Int
  spread : Int
  deriving DecidableEq, Repr

/-- A raw position: Cartesian in mm, or spherical with angles in fixed-point degrees and a distance in mm. -/
inductive RawPos where
  | cart (x y z : Int)
  | sph (az el d : Int)
  deriving DecidableEq, Repr

/-- A raw sample as a path delivers it: gain in s7.8 dB, spread in u8.2 degrees. -/
structure RawSample where
  obj : Nat
  pos : Option RawPos
  gain : Option Int
  spread : Option Int
  mode : Option Nat
  cut : Bool
  deriving DecidableEq, Repr

/-- A message the OSC scheduler holds (R110): its time and its sample. -/
structure OscHeld where
  time : Nat
  raw : RawSample
  deriving DecidableEq, Repr

/-- One ingest sample (R106): the quantities of its mask, its path and its time as a sample index. -/
structure Sample where
  obj : Nat
  path : Nat
  time : Nat
  pos : Option (Int × Int × Int)
  gain : Option Int
  spread : Option Int
  mode : Option Nat
  cut : Bool
  deriving DecidableEq, Repr

/-- An output of the median filter (R118), at its sample's time. -/
structure MedOut where
  time : Nat
  x : Int
  y : Int
  z : Int
  deriving DecidableEq, Repr

/-- What the last solver job of an object carried (R128): value, mode, SETTLED, COARSE, whether it was to empty the
list, and words 4 to 6 of the record as they are live at its tick (R134). -/
structure JobVal where
  val : ObjVal
  mode : Nat
  settled : Bool
  coarse : Bool
  empty : Bool
  w4 : Word
  w5 : Word
  w6 : Word
  deriving DecidableEq, Repr

/-- A 16-byte job descriptor (R179). -/
structure Desc where
  flow : Nat
  ordered : Bool
  level : Nat
  kind : Nat
  src : Nat
  entry : Nat
  affinity : Nat
  notify : Bool
  arg : Nat
  /-- solver jobs: the conditioned value the job is for -/
  val : Option JobVal
  deriving DecidableEq, Repr

/-- Conditioning of one object (R116 to R127). -/
structure ObjSt where
  /-- time of the newest accepted sample -/
  newest : Option Nat
  /-- the jump limit's reference (R117): time and position -/
  ref : Option MedOut
  rejects : Nat
  /-- accepted positions since the last recovery event, newest first, at most 5 -/
  window : List MedOut
  /-- median outputs since the last recovery event, newest first -/
  meds : List MedOut
  /-- time of the last accepted position sample and the measured intervals, newest first, at most 32 (R119) -/
  lastPos : Option Nat
  intervals : List Nat
  /-- fine path: the inputs of the two moving averages of each quantity, newest first (R120) -/
  avg1 : List ObjVal
  avg2 : List ObjVal
  gainNew : Option Int
  spreadNew : Option Int
  /-- the last recovery event: its tick, position samples since, the tick of the 12th, of the first gain or
  spread sample (R123) -/
  eventTick : Nat
  posCount : Nat
  tick12 : Option Nat
  gsTick : Option Nat
  /-- the tick at which the fine path settled (R123) -/
  settleAt : Option Nat
  /-- a settled value has existed: the HOME fields no longer are the held value (R104) -/
  everSettled : Bool
  /-- the value that applies before settling under HOLD, and while nothing has been received (R104, R125) -/
  held : ObjVal
  /-- a blend that COARSE_FORCE clearing started (R127): its first tick -/
  forceBlend : Option Nat
  lost : Bool
  settled : Bool
  coarse : Bool
  /-- tick of the last accepted sample or recovery event (R126) -/
  aliveTick : Nat
  mode : Nat
  modeQueue : List (Nat × Nat)
  /-- a COMMIT has made a record field live since the last tick (R128) -/
  recordLive : Bool
  /-- the record's MODE became live with the last COMMIT (R121) -/
  modeLive : Bool
  en : Bool
  mute : Bool
  /-- no tick has come since the start or cut-in: EN and MUTE have not changed from what they were before (R128) -/
  fresh : Bool
  /-- the value delivered at the last tick -/
  out : ObjVal
  lastJob : Option JobVal
  /-- the pending-job slot (R129) -/
  slot : Option Desc
  deriving DecidableEq, Repr

/-- A native sender (R113): identifier, last SEQ accepted, order in which it was last heard. -/
structure Sender where
  id : Nat
  seq : Nat
  heard : Nat
  deriving DecidableEq, Repr

/-- Motion conditioning. -/
structure MotSt where
  queue : List Sample
  sched : List OscHeld
  senders : List Sender
  heard : Nat
  objs : Tab ObjSt
  /-- the solver has requested a job for every enabled object (R128, R177) -/
  refresh : Bool
  /-- the tick MOT conditions next -/
  nextTick : Nat
  forced : Bool
  deriving DecidableEq, Repr

/-- One entry of a contribution list (R168): gain in s3.20, delay in delay units. -/
structure ListEntry where
  out : Nat
  gain : Int
  delay : Nat
  decor : Nat
  fadeIn : Bool
  fadeOut : Bool
  deriving DecidableEq, Repr

/-- A solver result (R135, R195): the list and its header. -/
structure SolveRes where
  obj : Nat
  /-- the job's tick *k*; the result is for tick *k* + 2 (R134) -/
  tick : Nat
  entries : List ListEntry
  bulk : Nat
  aliasHz : Nat
  coarse : Bool
  settled : Bool
  preemph : Bool
  decor : Nat
  /-- b0, b1, b2, a1, a2 in s2.29 -/
  shelf : List Int
  /-- entries whose delay the solver clamped (R167) -/
  clamped : Nat
  deriving DecidableEq, Repr

/-- Where a job is on its way through the dispatcher (R182 to R187). -/
inductive JobPos where
  | waiting
  | running (engine : Nat)
  /-- complete, the engine holding it until a reorder entry is free -/
  | stalled (engine : Nat)
  /-- in the reorder buffer -/
  | reorder
  deriving DecidableEq, Repr

/-- A job that holds a slot (R187), in order of submission. -/
structure Job where
  seq : Nat
  desc : Desc
  pos : JobPos
  result : Option SolveRes
  deriving DecidableEq, Repr

/-- The dispatcher. -/
structure DsxSt where
  jobs : List Job
  nextSeq : Nat
  /-- logical geometry unit to physical unit (R189) -/
  phys : Tab Nat
  retired : List Nat
  /-- physical units that are to be powered off at the end of their running job, with their spare -/
  leaving : List (Nat × Option Nat)
  /-- completions that wait for a reorder entry, by submission number, in the order in which they began (R186) -/
  stallQ : List Nat
  /-- sources in a back-pressure episode (R188) -/
  bp : List Nat
  /-- descriptors that sources hold: TRIG, CMD, MEA and DRU by source number, oldest first -/
  held : Tab (List Desc)
  deriving DecidableEq, Repr

end Sys2Proof.Machine
end

