-- ==== Sys2Proof/Machine/StateRender.lean ====
section
/-! DEFINITION. State of the scene solver (SLV), the render lanes (LAN) and the reduction ring (RED). -/

namespace Sys2Proof.Machine

open Sys2Proof

/-- What a tick boundary changed in what the solver works from (R134): the tick, the words and their values before, the
effective speed and the unusable triangles before. -/
structure SlvPast where
  tick : Nat
  words : List (Nat × Word)
  eff : Nat
  unusable : List Nat
  deriving DecidableEq, Repr

/-- The scene solver. -/
structure SlvSt where
  /-- each object's last result (R170 to R172) -/
  prev : Tab SolveRes
  /-- gain of the last SHELF sent in fixed-point dB, 0 for the identity, and AIR then (R162) -/
  airSent : Tab (Int × Bool)
  /-- triangles found unusable at the last rebuild (R140, R143) -/
  unusable : List Nat
  built : Bool
  /-- results released and not yet written (R173) -/
  results : List SolveRes
  /-- the last tick whose cutoff has passed -/
  cutoff : Option Nat
  /-- results written to the shadow tables that have not gone live, by object (R196) -/
  shadow : Tab SolveRes
  /-- late results written in the tick in progress (R174) -/
  lateCount : Nat
  /-- cycles spent by each unit on the tick in progress (R175, R177) -/
  cycles : Tab Nat
  cycTick : Nat
  /-- a rebuild belongs to the tick that begins next, and what one cost each unit in the tick in progress (R143) -/
  rebuilt : Bool
  share : Nat
  /-- refreshes that ask for a new shelf with an object's job of a tick or a later one (R162): object, tick -/
  shelfRefresh : List (Nat × Nat)
  /-- tick boundaries past which jobs of earlier ticks still wait, newest first (R134) -/
  past : List SlvPast
  deriving DecidableEq, Repr

/-- States of a lane (R192). -/
inductive LaneState where
  | absent | active | spare | sittingOut | retired
  deriving DecidableEq, Repr

/-- One physical lane. -/
structure LaneSt where
  state : LaneState
  logical : Option Nat
  epoch : Nat
  gated : Bool
  /-- tick at which its last sit-out ended; none when it never sat out (R215) -/
  lastSit : Option Nat
  deriving DecidableEq, Repr

/-- A live entry in a lane for the running tick (R196, R204, R205): gains with 40 fraction bits, delays in 2^-8
delay units. -/
structure LiveEntry where
  out : Nat
  gStart : Int
  gEnd : Int
  dStart : Int
  dEnd : Int
  /-- the delay LIMIT has reached so far -/
  dCur : Int
  decor : Nat
  fadeOut : Bool
  deriving DecidableEq, Repr

/-- An object in a lane: its place, its reel and its live list. -/
structure LaneObj where
  lane : Option Nat
  slot : Nat
  /-- source index of the head, plus one; the reel holds nothing at or above it (R198) -/
  head : Int
  /-- sub-reels, newest sample first (R202); a sample that is not listed is zero -/
  subs : List (List Int)
  decorMax : Nat
  /-- source indices below this one enter the reel as zero (R202, R207) -/
  zeroBelow : Int
  shelf : BiqSt
  pre : BiqSt
  preOn : Bool
  /-- of the live result header: BULK, ALIAS and SHELF (R195) -/
  bulk : Nat
  aliasHz : Nat
  shelfC : List Int
  /-- source indices whose samples were lost to a DRAM error (R200) -/
  bad : List Int
  /-- samples for which the reel has received SILENT blocks only (R207) -/
  quiet : Nat
  entries : List LiveEntry
  /-- gain and total delay each output had reached at the last sample of the tick before (R196) -/
  reached : Tab (Int × Int)
  /-- word 4 of the object record as it is live in the lane's block: EN and DOPPLER (R46, R205, R207) -/
  w4 : Word
  deriving DecidableEq, Repr

/-- A bulk delay ring (R29): samples by source index, newest first, the index after the newest, and the SILENT
bit of each block, newest first. -/
structure BulkRing where
  next : Nat
  smp : List Int
  silent : List Bool
  deriving DecidableEq, Repr

/-- An accepted migration that has not acted (R211); its source is where the object is at its tick. -/
structure Migration where
  obj : Nat
  dest : Nat
  tick : Nat
  copying : Bool
  deriving DecidableEq, Repr

/-- A sit-out or a retirement hand-over in progress (R216, R217). -/
structure SitOut where
  lane : Nat
  spare : Nat
  /-- objects for which no MIGRATE has been inserted yet, in ascending number -/
  objs : List Nat
  /-- the tick that the next MIGRATE names -/
  target : Nat
  retire : Bool
  testing : Bool
  /-- tick at which the self-test began -/
  testTick : Nat
  deriving DecidableEq, Repr

/-- The render array. -/
structure LanSt where
  lanes : Tab LaneSt
  objs : Tab LaneObj
  bulk : Tab BulkRing
  migs : List Migration
  /-- results that go live with a COMMIT: the block, the result (R196) -/
  staged : List (Nat × SolveRes)
  sits : List SitOut
  /-- record words 4 that go live in the lanes at a block: the block, the object, the word (R46) -/
  recs : List (Nat × Nat × Word)
  /-- tick of the last sit-out started or skipped -/
  lastStart : Nat
  deriving DecidableEq, Repr

/-- A lane's partial sums for a block: s8.31 sums by output. -/
structure Partial where
  idx : Nat
  epoch : Nat
  outs : Tab Blk
  deriving DecidableEq, Repr

/-- The reduction ring. -/
structure RedSt where
  /-- partials that have arrived, by lane -/
  partials : Tab (List Partial)
  /-- placement epochs that apply, by lane, and forwarded migrations: lane and first block (R210) -/
  epochs : Tab Nat
  forwarded : List (Nat × Nat)
  /-- instants of the ring parity errors of the last second (R209, R559) -/
  parity : List Nat
  /-- index of the last released block (R221) -/
  last : Nat
  deriving DecidableEq, Repr

/-- A filter as an output holds it (R229, R235): the set it came from (none: no set, R238, R564), its partitions, and
its taps as real values in units of 2^-64. -/
structure Filt where
  set : Option Nat
  firEn : Bool
  nNear : Nat
  nF1 : Nat
  nF4 : Nat
  taps : List Int
  /-- it runs with FIR_EN 0 after R238 or R564 and counts as holding no set (R241) -/
  void : Bool
  deriving DecidableEq, Repr

/-- A delay crossfade (R227): the old read as delays, with weights of 40 fraction bits and whether each comes from DRAM,
and its progress. -/
structure DelayFade where
  old : List (Nat × Int × Bool)
  n : Nat
  k : Nat
  deriving DecidableEq, Repr

/-- A far-tail contribution replaced by zero (R232): partition, first output sample, samples, by an uncorrectable
error. -/
structure TailHole where
  part : Nat
  first : Nat
  len : Nat
  memerr : Bool
  deriving DecidableEq, Repr

/-- One output's correction chain (R224). -/
structure CorOut where
  trim : Ramp
  /-- samples after the polarity step, newest first -/
  hist : List Int
  /-- the delay in use, and whether it takes the DRAM round trip (R226) -/
  delay : Nat
  dram : Bool
  fade : Option DelayFade
  bqs : List BiqSt
  /-- biquad output, newest first: the convolution's input -/
  conv : List Int
  /-- the live filter and those before it whose far tails old input still uses, newest first, each with the first
  sample of its batch (R244) -/
  filts : List (Filt × Nat)
  /-- the crossfade in progress: its first sample and its length (R243) -/
  xfade : Option (Nat × Nat)
  /-- lengths still charged: taps and the sample at which the charge returns (R233) -/
  charges : List (Nat × Nat)
  holes : List TailHole
  /-- limiter gain, u1.31 (R246) -/
  lim : Nat
  wall : Wall
  quiet : Nat
  mute : Ramp
  deriving DecidableEq, Repr

/-- Where a batch of a swap stands (R242). -/
inductive BatchPhase where
  | waiting | prepared | loaded | fading
  deriving DecidableEq, Repr

/-- An accepted swap (R239 to R245). -/
structure SwapRec where
  /-- its number, which its tags carry -/
  id : Nat
  set : Nat
  xf : Nat
  /-- PAYLOAD of the tag that starts the current batch -/
  payload : Word
  /-- tick at which the current batch starts -/
  start : Nat
  batch : Nat
  /-- outputs of the current batch, and of those after it -/
  cur : List Nat
  rest : List (List Nat)
  phase : BatchPhase
  prepTick : Nat
  fresh : Tab Filt
  /-- lengths that the swap charges its outputs (R233) -/
  news : Tab Nat
  /-- SET and FIRST batch announced -/
  begun : Bool
  deriving DecidableEq, Repr

/-- The correction engine. -/
structure CorSt where
  outs : Tab CorOut
  /-- accepted swaps, the one in progress first -/
  swaps : List SwapRec
  /-- the number of the next swap accepted -/
  nextId : Nat
  /-- a tick at which the next batch may start -/
  slot : Nat
  /-- logical slice to physical slice, and retired slices (R222, R249) -/
  slices : Tab Nat
  retired : List Nat
  /-- slices that wait for a batch to end before they retire -/
  asked : List Nat
  /-- slices being replaced: physical, spare, tick from which the spare computes -/
  leaving : List (Nat × Nat × Nat)
  deriving DecidableEq, Repr

end Sys2Proof.Machine
end

