-- ==== Sys2Proof/Machine/StateCtl.lean ====
section
/-! DEFINITION. State of the measurement engine, clocks and time, ports, streams, links, DMA, pairing and health. -/

namespace Sys2Proof.Machine

open Sys2Proof

/-! ### Measurement (R255 to R275) -/

/-- A complex value, in units of 2^-64. -/
structure Cx where
  re : Int
  im : Int
  deriving DecidableEq, Repr

/-- A measurement run (R259 to R266). -/
structure MeaRun where
  /-- 0 IDLE, 1 ARMED, 2 RUNNING, 3 COMPUTING, 4 DONE, 5 FAILED -/
  state : Nat
  /-- the record's 16 words and the generator's 8, as the START found them (R261) -/
  cfg : List Word
  gen : List Word
  block : Nat
  /-- samples generated since the start, and captured -/
  played : Nat
  taken : Nat
  /-- captured samples by channel, newest first; the reference under 64 -/
  caps : Tab (List Int)
  /-- capture channels of which a block carried MEMERR, or CONCEALED (R263) -/
  memerr : List Nat
  concealed : List Nat
  /-- samples of the ramp to zero done after a STOP (R266) -/
  fade : Option Nat
  deriving DecidableEq, Repr

/-- A signal that live estimation listens to: samples and, per block, whether it carried SILENT, CONCEALED or MEMERR;
newest first. -/
structure Listen where
  smp : List Int
  bad : List Bool
  deriving DecidableEq, Repr

/-- A pair of live estimation (R267 to R270). -/
structure PairSt where
  /-- found lag, s23.8 -/
  lag : Option Int
  sxx : List Int
  syy : List Int
  sxy : List Cx
  h : List Cx
  frames : Nat
  /-- second of media time of the last search -/
  searched : Option Nat
  /-- block at which the newest frame ended, and whether its microphone samples saturated (R265) -/
  block : Nat
  full : Bool
  deriving DecidableEq, Repr

/-- The measurement engine. -/
structure MeaSt where
  runs : Tab MeaRun
  /-- stopped runs whose generators ramp to zero (R266) -/
  fades : List MeaRun
  /-- runs whose capture has ended, in order (R264) -/
  queue : List Nat
  /-- SEQ of each result block written, by address (R265) -/
  seqs : Tab Nat
  mics : Tab Listen
  refs : Tab Listen
  pairs : Tab PairSt
  /-- next block to capture -/
  capNext : Nat
  /-- sample index of the last live frame; tick of the last publication -/
  lastFrame : Nat
  lastPub : Nat
  /-- the copy that the next publication writes (R270) -/
  copy : Nat
  deriving DecidableEq, Repr

/-! ### Clocks and time (R276 to R311) -/

/-- A reference candidate (R278 to R284). Instants are monotonic nanoseconds; periods are picoseconds. -/
structure CandSt where
  /-- 0 OFF, 1 WAIT, 2 QUALIFYING, 3 QUALIFIED, 4 DISQUALIFIED -/
  state : Nat
  since : Nat
  /-- supported rate that the expected period stands for, and rate as measured, in Hz (R282, R307) -/
  rate : Nat
  shown : Nat
  glitches : List Nat
  periods : List Nat
  /-- instant of the last edge, Sync or TIME frame -/
  last : Nat
  /-- interval at which Syncs are due, in ns (R281, R283) -/
  interval : Nat
  /-- instant of the last phase error taken -/
  measured : Nat
  /-- the next offset starts the prediction anew (R283) -/
  fresh : Bool
  /-- phase error in 2^-16 ns and frequency in 2^-16 ppm as last measured -/
  phase : Int
  freq : Int
  deriving DecidableEq, Repr

/-- The DPLL and its selector (R286 to R295). -/
structure ClkSt where
  cands : Tab CandSt
  sel : Option Nat
  tgt : Option Nat
  /-- 0 FREE, 1 ACQUIRING, 2 LOCKED, 3 HOLDOVER, 4 SWITCHING -/
  state : Nat
  ever : Bool
  holdSince : Nat
  /-- the pull back to nominal after HOLD_MAX (R287) -/
  pullFree : Bool
  /-- since when the phase error has stayed within the threshold (R291) -/
  inSince : Option Nat
  freq : Int
  /-- the integrator of the LOCKED loop, in 2^-48 ppm (R291), and whether the rest of a step is being pulled (R300) -/
  integ : Int
  pullRest : Bool
  /-- frequencies held while LOCKED, newest first: from, to and value; and since when the present one holds (R292) -/
  locks : List (Nat × Nat × Int)
  lockFrom : Nat
  /-- DPLL B is active; retired DPLLs; a retirement that completes at the next tick (R295) -/
  bActive : Bool
  retired : List Nat
  leaving : Bool
  deriving DecidableEq, Repr

/-- A master as its Announce describes it (R298). -/
structure Master where
  /-- priority1, class, accuracy, variance, priority2, identity: the order of the comparison -/
  prio1 : Nat
  cls : Nat
  acc : Nat
  var : Nat
  prio2 : Nat
  gm : Nat
  steps : Nat
  sender : Nat
  utc : Nat
  heard : Nat
  interval : Nat
  deriving DecidableEq, Repr

/-- A time trigger as armed (R302 to R304). -/
structure TrigSt where
  armed : Bool
  x : Nat
  period : Nat
  cfg : Word
  rec4 : List Word
  /-- the point of the next record, which goes out ahead of its pin edge (R303) -/
  recX : Nat
  recDone : Bool
  pinDone : Bool
  deriving DecidableEq, Repr

/-- A capture channel (R305, R311): queue of entries of four words, oldest first; the last edge captured, as an
instant in units of 250 ps. -/
structure CapSt where
  queue : List (List Word)
  last : Option Nat
  deriving DecidableEq, Repr

/-- The time engine and the PTP instance. -/
structure TimSt where
  portState : Nat
  port : Nat
  masters : List Master
  master : Option Master
  gmId : Nat
  /-- grandmaster the PTP instance follows, or is -/
  ptpGm : Nat
  /-- grandmaster that each link's TIME frames name (R378) -/
  linkGm : Tab Nat
  /-- since when the instance listens without an Announce (R298) -/
  listenSince : Nat
  /-- monotonic instant since which PORT's link has been up, while on BACKUP_PORT -/
  portBack : Option Nat
  /-- last Sync: t2 − t1 − C, in 2^-16 ns -/
  syncDiff : Int
  meanDelay : Int
  neighRate : Int
  /-- instants of the last messages sent: Sync, Announce, Delay_Req or Pdelay_Req -/
  sentSync : Nat
  sentAnn : Nat
  sentDelay : Nat
  /-- transmit timestamps by messageType of the event messages last sent, in 2^-16 ns (R314) -/
  txStamp : Tab Int
  /-- the time source, whether one has ever qualified, and whether a step is to be decided (R300) -/
  source : Option Nat
  hadSource : Bool
  stepDue : Bool
  /-- a write to TIM_PPS_SEC that waits for its 100 ms (R301): value, instant -/
  ppsWait : Option (Nat × Nat)
  trigs : Tab TrigSt
  caps : Tab CapSt
  /-- output levels of the time pins -/
  pins : Nat
  deriving DecidableEq, Repr

/-! ### Ethernet ports and frame queues (R312 to R340) -/

/-- A stored frame: its prefix and bytes, and the cells it takes (R322); of a frame that the device builds as a message
of its own, that message. -/
structure FrameRec where
  bytes : List Byte
  cells : Nat
  msg : Option Out
  /-- offsets of words with an uncorrectable error, and their banks (R504) -/
  bad : List (Nat × Nat)
  deriving DecidableEq, Repr

/-- A queue (R325): linked frames, oldest first, and how many of them stand before the read pointer and the mark. -/
structure QueueSt where
  frames : List FrameRec
  read : Nat
  mark : Nat
  /-- cells of frames a stream has taken and not yet delivered, and those frames (R338, R350) -/
  held : Nat
  heldFrames : Nat
  deriving DecidableEq, Repr

/-- A frame on the wire (R333): its class and queue, its bytes without prefix and FCS, whether it still stands at the
head of its queue, and its message. -/
structure Sending where
  cls : Nat
  queue : Nat
  bytes : List Byte
  linked : Bool
  msg : Option Out
  deriving DecidableEq, Repr

/-- A port: link and rate code (R335), shaper credits in 10^-8 bits, the queues last served by class, the frame being
sent, and the monotonic instants in 10 ps at which it began and since which each class waits (R333). -/
structure PortSt where
  link : Bool
  rate : Nat
  creditA : Int
  creditB : Int
  last : Tab Nat
  sending : Option Sending
  began : Nat
  since : Tab Nat
  deriving DecidableEq, Repr

/-- Ports and queues. -/
structure NetSt where
  ports : Tab PortSt
  queues : Tab QueueSt
  deriving DecidableEq, Repr

end Sys2Proof.Machine
end

