-- ==== Sys2Proof/Machine/StateMedia.lean ====
section
/-! DEFINITION. State of the media streams (MST), the Zwildo links (LNK), the serial audio ports (TDM, AES3) and the
record and play rings. -/

namespace Sys2Proof.Machine

open Sys2Proof

/-! ### Streams (R341 to R368, R375) -/

/-- A packet whose samples wait for delivery: stream index of its first sample, samples by channel, claim, STANDBY bits,
flags of its header, and the queue and cells it holds (R350). -/
structure RxPkt where
  i : Int
  smp : List (List Int)
  claim : Nat
  standby : Nat
  concealed : Bool
  memerr : Bool
  queue : Nat
  cells : Nat
  /-- its RTP timestamp or avtp_timestamp, by which a step of the scale places it anew (R63); none of a link's frame,
  whose SIDX is whole -/
  ts : Option Nat
  deriving DecidableEq, Repr

/-- A receive stream that runs (R344 to R364). -/
structure RxSt where
  /-- STATE as shown (R366) -/
  state : Nat
  /-- its rate in Hz: of its record, or of a link stream's frames -/
  fs : Nat
  d : Nat
  /-- Δ of a SLIP stream (R360) -/
  delta : Int
  pkts : List RxPkt
  /-- claims seen, with the monotonic instant of the last packet that carried each (R362) -/
  seen : List (Nat × Nat)
  /-- the last claim accepted -/
  acc : Nat
  /-- last value delivered, and the value a hold or concealment started from, by channel -/
  last : List Int
  held : List Int
  /-- samples of the gap in progress, and samples of the ramp to zero of a hold (R359, R363) -/
  gap : Option Nat
  ramp : Option Nat
  /-- samples of the fade-in or splice in progress (R359, R364) -/
  fade : Option Nat
  ever : Bool
  /-- the stream stops: the ramp of R346 has been delivered -/
  stopped : Bool
  /-- leads of the last packets, newest first (R360) -/
  leads : List Int
  slips : List Nat
  /-- shift that acts at the next block (R360) -/
  slipTo : Int
  /-- samples of its crossfade delivered -/
  slipPos : Nat
  /-- ports and last sequence numbers of the two legs, and when each last delivered (R356, R366) -/
  portA : Option Nat
  portB : Option Nat
  seqA : Option Nat
  seqB : Option Nat
  seenA : Option Nat
  seenB : Option Nat
  /-- instant at which it went out of range (R360) -/
  range : Option Nat
  deriving DecidableEq, Repr

/-- A transmit stream that runs (R345, R352): the packet in the making. -/
structure TxSt where
  state : Nat
  /-- block from which, and block up to which, it packs -/
  from_ : Nat
  upTo : Option Nat
  seq : Nat
  /-- stream index of the packet's first sample, its frames (newest first), and what its blocks carried -/
  first : Nat
  frames : List (List Int)
  concealed : Bool
  memerr : Bool
  silent : List Bool
  claim : Nat
  /-- runs that a START begins before the blocks of an earlier STOP have been sent: first block, STOP, STATE (R346) -/
  later : List (Nat × Option Nat × Nat)
  deriving DecidableEq, Repr

/-- The stream engine: streams, the block its packers take next, and claim changes by first block (R65). -/
structure MstSt where
  rx : Tab RxSt
  tx : Tab TxSt
  outNext : Nat
  claims : List (Nat × Nat)
  deriving DecidableEq, Repr

/-! ### Links (R369 to R386) -/

/-- A width change of the transmitter (R382): the new width, whether it is a RESTORE, and when it was sent. -/
structure WidthChange where
  width : Nat
  restore : Bool
  sent : Nat
  /-- the restore to the cap waits for this shed to end -/
  thenRestore : Bool
  /-- the change waits for a spare move to finish (R383) -/
  held : Bool
  deriving DecidableEq, Repr

/-- A link. -/
structure LinkSt where
  up : Bool
  /-- lanes retired from the receive and the transmit map, and lanes that have lost lock -/
  rxRetired : List Nat
  txRetired : List Nat
  dead : List Nat
  /-- transmit lanes on which the partner has lost lock -/
  txDead : List Nat
  /-- the lane that a spare move replaces: of the receive map, moved by this end; of the transmit map, asked for by the
  partner (R383) -/
  rxMove : Option Nat
  txMove : Option Nat
  txWidth : Nat
  rxWidth : Nat
  /-- boundaries in a row at or below SHED_PCT since the width changed; frame bytes sent in the running tick -/
  lowRun : Nat
  sent : Nat
  change : Option WidthChange
  /-- frame bytes of the last boundary's load (R380) -/
  load : Nat
  /-- frames passed to their takers and not yet taken: type, bytes, receive time in 2^-16 ns (R373) -/
  inbox : List (Nat × List Byte × Int)
  /-- SEQ by frame type -/
  seqs : Tab Nat
  /-- frames that go directly, waiting: type and bytes (R379) -/
  direct : List (Nat × List Byte)
  /-- queues last served by class (R379) -/
  served : Tab Nat
  /-- T_TX and receive time of the last TIME frame, in 2^-16 ns (R378) -/
  echo : Option (Int × Int)
  /-- when TIME and CLOCK were last sent, and the DPLL state the last CLOCK carried -/
  timeSent : Nat
  clockSent : Nat
  clockState : Option Nat
  /-- when the last valid TIME frame arrived, or the link came up (R283) -/
  heard : Nat
  deriving DecidableEq, Repr

/-- Links and link audio streams (by link × 32 + stream). -/
structure LnkSt where
  links : Tab LinkSt
  rx : Tab RxSt
  tx : Tab TxSt
  outNext : Nat
  claims : List (Nat × Nat)
  deriving DecidableEq, Repr

/-! ### Serial ports and rings (R387 to R409) -/

/-- What a port's data does in its next block (R391, R396, R397). -/
inductive PortFlow where
  | normal
  /-- ramp from the last value to zero, then mute -/
  | rampOut
  | mute
  /-- ramp in -/
  | rampIn
  deriving DecidableEq, Repr

/-- A serial port whose EN has been set. -/
structure SerPort where
  /-- STATE as shown (R407) -/
  state : Nat
  /-- monotonic instant at which its clocks began, and at which EN cleared -/
  clocks : Option Nat
  offAt : Option Nat
  /-- EN has cleared on a transmit port: the block at which its data ends, until its last data frame has gone (R391) -/
  closing : Option Nat
  /-- a START tag named this block and its data waits for the clocks; a STOP tag has stopped the data -/
  want : Option Nat
  halted : Bool
  /-- blocks of data, newest first: from a block on, up to another -/
  spans : List (Nat × Option Nat)
  flow : PortFlow
  /-- received frames that wait by position, oldest first, none where a placement left a position out (R394); whether the
  port's placement has been taken -/
  buf : List (Option (List Int))
  placed : Bool
  /-- frames that have arrived since the last block, for converters (R395) -/
  fresh : List (List Int)
  /-- the last frame kept, the frame before the read position, and the last samples delivered -/
  newest : List Int
  prev : List Int
  last : List Int
  /-- slips that act at the next block: −1 where the port has fallen behind by a sample, 1 where it has run ahead (R395) -/
  slip : Int
  glitches : List Nat
  ppm : Int
  /-- monotonic instant of the last measurement beyond SLIP_PPM (R396) -/
  rangeAt : Nat
  /-- expected rate in Hz (R397) -/
  rate : Nat
  /-- channel status in transmission, by 192-frame block (R401) -/
  csOut : List Byte
  csFrame : Nat
  deriving DecidableEq, Repr

/-- A ring that runs (R404): the offset of its next block. -/
structure RingSt where
  startBlock : Nat
  pos : Nat
  /-- a STOP or RUN 0 acts at this block -/
  stop : Option Nat
  /-- runs that begin once this one has moved its last block: from a block on, up to another (R404) -/
  later : List (Nat × Option Nat)
  deriving DecidableEq, Repr

/-- Serial ports: TDM ports, AES3 ports, rings, the MCLK codes in effect (R398), and the next output blocks. -/
structure SerSt where
  tdm : Tab SerPort
  aes : Tab SerPort
  rings : Tab RingSt
  mclk : Nat
  /-- output blocks that missed their deadline (R61): kind of output (0 TDM, 1 AES3, 2 stream, 3 link), number and block -/
  missed : List (Nat × Nat × Nat)
  tdmOut : Nat
  aesOut : Nat
  deriving DecidableEq, Repr

end Sys2Proof.Machine
end

