-- ==== Sys2Proof/Machine/StatePair.lean ====
section
/-! DEFINITION. State of pairing (PAR), of the health unit (HLT) with its wear log, and of the DMA engines. -/

namespace Sys2Proof.Machine

open Sys2Proof

/-- A snapshot slot of a FOLLOW (R558): what has arrived, and whether it is valid. -/
structure SlotSt where
  valid : Bool
  seq : Nat
  total : Nat
  /-- bytes that have arrived in order -/
  got : Nat
  deriving DecidableEq, Repr

/-- A cut-in in progress (R563). -/
structure CutIn where
  cause : Nat
  /-- monotonic instant of the cause -/
  began : Nat
  /-- sample index at which the restore ended, and the first render tick -/
  tick : Option Nat
  deriving DecidableEq, Repr

/-- An abdication in progress (R562). -/
structure Abdication where
  cause : Nat
  began : Nat
  deriving DecidableEq, Repr

/-- The pairing unit (R549 to R567). -/
structure ParSt where
  /-- 0 NONE, 1 LEAD, 2 FOLLOW, 3 ABDICATED -/
  role : Nat
  /-- claim in outgoing headers now -/
  claim : Nat
  /-- a claim change to come: the first block that carries it, and the claim (R65) -/
  nextClaim : Option (Nat × Nat)
  epochSeen : Nat
  /-- audio is sent from this block on, and up to this one (R550, R562, R563) -/
  audioFrom : Option Nat
  audioTo : Option Nat
  /-- rendering runs from this block on, and up to this one -/
  renderFrom : Option Nat
  renderTo : Option Nat
  /-- YIELD_OUT_N is low -/
  yieldLow : Bool
  /-- instant of step 7 of the start -/
  started : Nat
  /-- the partner as its last HEARTBEAT and HEALTH show it -/
  hbAt : Option Nat
  hbLost : Bool
  /-- 250 µs intervals already counted as missed since the last heartbeat -/
  hbMissed : Nat
  pRole : Nat
  pRank : Nat
  pSnap : Nat
  pYield : Bool
  healthAt : Option Nat
  pCriteria : Nat
  /-- instant of the last LEAD heartbeat, and whether a heartbeat has come that bars an election (R552) -/
  leadAt : Option Nat
  barred : Bool
  /-- the newest snapshot number in a LEAD's heartbeats (R566) -/
  leadSnap : Option Nat
  hbSent : Nat
  healthSent : Nat
  /-- snapshots (R557, R558): last captured, last sent, tick of the last taken, what is being sent -/
  snapSeq : Nat
  snapSent : Nat
  snapTick : Nat
  sendOfs : Option Nat
  sendTotal : Nat
  slot0 : SlotSt
  slot1 : SlotSt
  newest : Option Nat
  /-- slot that the snapshot in arrival goes to -/
  filling : Option Nat
  cutin : Option CutIn
  abd : Option Abdication
  /-- criteria met now, and instant and tick of missed deadlines (R559) -/
  met : Nat
  missTicks : List Nat
  deriving DecidableEq, Repr

/-- One island (R568, R569): slack in ps, clock step, and since when it has been high, or short at its floor. -/
structure IslandSt where
  slack : Nat
  step : Nat
  lastStep : Option Nat
  highSince : Option Nat
  lowSince : Option Nat
  deriving DecidableEq, Repr

/-- A retirement that waits its turn (R569): class, instance, cause. -/
structure RetireReq where
  cls : Nat
  inst : Nat
  cause : Nat
  deriving DecidableEq, Repr

/-- The health unit. -/
structure HltSt where
  islands : Tab IslandSt
  /-- retirements asked for, oldest first -/
  waiting : List RetireReq
  /-- FOLLOW self-tests (R570): next unit in the order of R555, the test running, when it began, the last start -/
  nextUnit : Nat
  testing : Option Nat
  testAt : Nat
  testLast : Nat
  /-- self-test results, by bit of R555 -/
  failed : List Nat
  /-- junction temperature, s7.8, and the supply monitors out of range -/
  tj : Int
  supplies : List Nat
  /-- a slice or lane retirement has been refused for want of a spare (R559) -/
  sliceRefused : Bool
  laneFloor : List Nat
  /-- units restarted alone and what waits for release (R578 to R584) -/
  restarts : List (Nat × Nat)
  /-- the wear log as the flash holds it, oldest first, and records held for step 7 (R571, R572) -/
  wear : List (List Byte)
  held : List (List Byte)
  deriving DecidableEq, Repr

/-- A DMA channel (R536 to R546). -/
structure DmaChan where
  /-- 0 IDLE, 1 READY, 2 RUNNING, 3 WAITING, 4 DONE, 5 STOPPED, 6 ERROR -/
  state : Nat
  code : Nat
  /-- address of the chain's first descriptor, of the current one, and the latter as it was fetched -/
  first : Nat
  cur : Nat
  desc : List Byte
  fetched : Bool
  /-- source bytes of the descriptor completed -/
  done : Nat
  /-- CRC accumulator before the final XOR (R543) -/
  crc : Nat
  /-- destination bytes of a sample that a burst's end has cut (R541, R542) -/
  hold : List Byte
  deriving DecidableEq, Repr

/-- One DMA engine: the channel that runs, and the channels last run of each kind (R536). -/
structure DmaEngine where
  chans : Tab DmaChan
  run : Option Nat
  lastPriv : Nat
  lastOrd : Nat
  deriving DecidableEq, Repr

/-- The DMA engines (R535). -/
structure DmaSt where
  a : DmaEngine
  b : DmaEngine
  deriving DecidableEq, Repr

end Sys2Proof.Machine
end

