-- ==== Sys2Proof/Machine/StateDru.lean ====
section
/-! DEFINITION. State of the Druora cluster (R460 to R499). -/

namespace Sys2Proof.Machine

open Sys2Proof

/-- A branch whose delay slots run (R477): slots left, target, and whether RTI restores SR after them. -/
structure BranchSt where
  slots : Nat
  target : Nat
  rti : Bool
  deriving DecidableEq, Repr

/-- An active LOOP (R478): its body and which loop counter it uses. -/
structure LoopSt where
  first : Nat
  last : Nat
  second : Bool
  deriving DecidableEq, Repr

/-- One logical core (R466 to R494). -/
structure CoreSt where
  /-- 0 STOPPED, 1 IDLE, 2 RUNNING, 3 WAITING, 4 LOADING, 5 FAULT (R497) -/
  state : Nat
  /-- registers by their code (R466); one that is not listed holds zero -/
  regs : Tab Word
  accs : Tab (BitVec 72)
  pc : Nat
  branch : Option BranchSt
  /-- executions of the next instruction still to come (REP) -/
  rep : Option Nat
  /-- active loops, innermost first -/
  loops : List LoopSt
  /-- an interrupt handler runs -/
  handler : Bool
  /-- pending interrupt sources (R483) -/
  doorbell : Bool
  timer : Bool
  /-- the posted write buffer, oldest first: fabric address and bytes (R481) -/
  wbuf : List (Nat × List Byte)
  /-- the entry being loaded or run, and whether its load is complete -/
  entry : Nat
  loaded : Bool
  /-- START, DELAY, DATA_DST and DATA_BYTES of the entry -/
  start : Nat
  delay : Nat
  dataAt : Nat
  dataLen : Nat
  /-- it stalls at a SIGNAL whose descriptor is back-pressured (R482) -/
  signal : Bool
  /-- CMD STOP waits for the end of the task or run -/
  stopping : Bool
  /-- instructions of the task or run in progress, and its start -/
  cycles : Nat
  began : Nat
  /-- the run in progress and whether it has overrun; the next block to run; the first block run since START -/
  runBlock : Option Nat
  overrun : Bool
  nextRun : Nat
  firstRun : Option Nat
  /-- blocks whose inputs are complete, with the OR of their FLAGS; blocks whose output slot counts, likewise -/
  inputs : List (Nat × Nat)
  outputs : List (Nat × Nat)
  deriving DecidableEq, Repr

/-- The Druora cluster: logical to physical numbers, the spare's physical number, the core a retirement takes out,
whether its memories are copied to the spare (R495), and the logical cores. -/
structure DruSt where
  phys : Tab Nat
  spare : Option Nat
  leaving : Option Nat
  copied : Bool
  cores : Tab CoreSt
  deriving DecidableEq, Repr

end Sys2Proof.Machine
end

