-- ==== Sys2Proof/Machine/State.lean ====
section
/-! DEFINITION. The state of the block, the reasons a step can stop, and the state after reset. -/

namespace Sys2Proof.Machine

open Sys2Proof

/-- The whole machine. -/
structure State where
  /-- commands that wait, first in, first out -/
  pending : List Instr
  /-- bytes of scratchpad, Druora memories and DRAM that differ from what an unlisted address reads as -/
  mem : List Host.Cell
  /-- bytes the step in progress has stored, newest first; empty between steps -/
  post : List Host.Cell
  /-- aligned 8-byte words that read as uncorrectable (R504, R526) -/
  ue : List Nat
  fuse : Fuses
  /-- how many free values have been drawn: the model's own field -/
  free : Nat
  /-- what the last step put out on the ports: the model's own field -/
  out : List Out
  words : Words
  time : TimeSt
  units : Tab UnitSt
  heldTags : List HeldTag
  sys : SysSt
  start : StartSt
  memst : MemSt
  drc : DrcSt
  sec : SecSt
  audio : Tab (List Blk)
  inc : IncSt
  rte : RteSt
  mot : MotSt
  slv : SlvSt
  dsx : DsxSt
  lan : LanSt
  red : RedSt
  cor : CorSt
  mea : MeaSt
  clk : ClkSt
  tim : TimSt
  net : NetSt
  mst : MstSt
  lnk : LnkSt
  ser : SerSt
  par : ParSt
  hlt : HltSt
  dma : DmaSt
  dru : DruSt
  tap : TapSt
  deriving DecidableEq, Repr

/-- Why the machine stops: every constructor is a case R585 puts outside the contract, with an undefined result,
and to which the spec gives no effect. All are safe: nothing is claimed of what the hardware then does. -/
inductive Fault where
  /-- an F field's value changed while its unit runs (R17); raised by every fabric write -/
  | frozenField
  /-- `SYS_RENDER_RATE`.RATE written as 3 (R72) -/
  | renderRate3
  /-- an ADDR that is not 4-byte aligned (R442) -/
  | unalignedAddr
  /-- a burst COUNT of 0 or above 4,096, or a burst crossing a block or window (R442) -/
  | badBurst
  /-- a Druora program does what R476 to R478 and R483 put outside the contract (a control instruction in a delay
  slot, a branch out of a loop, a third loop and the like); raised by the instruction concerned -/
  | coreContract
  /-- a fabric write to the instruction memory of a core that is not STOPPED (R462) -/
  | runningCode
  /-- supplies lost between the start of a life-cycle transition and its fuses (R516); raised by a loss of supply -/
  | lcCutShort
  /-- a flash below 64 MiB (R416); raised where the flash is read at start -/
  | smallFlash
  /-- a host-source buffer outside the buffer area (R442) -/
  | badBuffer
  /-- a fabric write that changes a filter set in use: its base, header, descriptors or coefficient blocks (R237) -/
  | filterInUse
  /-- a frame of the transmit staging with LEN outside 60 to 9,596 (R332); raised by the write to `QMG_TXS_GO` -/
  | badLength
  /-- play data written less than 4 blocks before it plays (R405); raised by every fabric write -/
  | latePlay
  /-- a snapshot's region or a cue's record names an F, WO or W1C field (R454); raised where the device acts on it -/
  | snapField
  /-- stream buffers that overlap the program's data or leave the data memory (R489); raised as the core would run -/
  | streamBuffer
  /-- a descriptor of a running chain changed, by the chain itself or from elsewhere (R540); raised by every fabric
  write and by the host port -/
  | chainChanged
  /-- a descriptor whose source and destination overlap (R540); raised as it is fetched -/
  | chainOverlap
  /-- the devices of a pair hold equal ranks (R549); raised by the partner's heartbeat -/
  | equalRanks
  deriving DecidableEq, Repr

/-- Why a command has no meaning. -/
inductive Refusal where
  /-- not modelled; raised by the dispatch alone, and safe -/
  | notModelled (mnemonic : String)
  deriving DecidableEq, Repr

/-- The machine before its supplies are valid: every register at its reset value, nothing listed in memory, no tag, block
or frame anywhere. The grade, the fuses and what the flash holds are the board's; a start reads them (R410 to R416). -/
def State.reset : State where
  pending := []
  mem := []
  post := []
  ue := []
  fuse := { grade := .ih1024, life := 0, keys := [], repairs := [], dieRev := 0 }
  free := 0
  out := []
  words := { wr := [], act := [], dirtyL := [], dirtyS := [] }
  time := { sec := 0, sub := 0, idx := 0, steps := [], stepWaits := false, haveTime := false, mono := 0 }
  units := []
  heldTags := []
  sys := {
    wrLatch := none, rdLatch := none, hd := 0, hbusy := false, sources := [], sentSeq := [], fwd := []
    fwdTick := none, authKey := 0, authCnt := 0, lastSrc := 24 }
  start := {
    began := 0, supplies := false, resetLow := false, hot := false, stage := 0, cause := 0, epoch := 1
    rank := 0, strapImg := 0, refs := 0, slotSel := 0, forced := false, named := none, fallback := false, tried := []
    flashMib := 0, slotA := [], slotB := [], window := 0, imgReq := 0, secNo := 0, secOfs := 0, loading := false }
  memst := { banks := [], weak := [], spares := [], scrubs := 0 }
  drc := {
    trained := false, panicBulk := false, panicAlign := false, panicTail := false, selfRefresh := false
    refreshes := [], drift := [], fill := [], acts := [], actWindow := 0
    managed := [], throttled := [], ueFirst := 0, ueCount := 0, rtSec := 0, rtCount := 0
    rowUe := [], rowCe := [], failing := [] }
  sec := { armed := none, executing := none, keyWords := [], latched := [], tampered := false }
  audio := []
  inc := { chans := [], quiet := 0, wall := .active }
  rte := { pathsIn := [], pathsOut := [], nodes := [], takes := 0, outNext := 0, outChanges := [] }
  mot := {
    queue := [], sched := [], senders := [], heard := 0, objs := [], refresh := false, nextTick := 0
    forced := false }
  slv := {
    prev := [], airSent := [], unusable := [], built := false, results := [], cutoff := none, shadow := []
    lateCount := 0, cycles := [], cycTick := 0, rebuilt := false, share := 0, shelfRefresh := []
    past := [] }
  dsx := {
    jobs := [], nextSeq := 0, phys := (List.range 16).map (fun u => (u, u)), retired := [], leaving := []
    stallQ := [], bp := [], held := [] }
  lan := { lanes := [], objs := [], bulk := [], migs := [], staged := [], sits := [], recs := [], lastStart := 0 }
  red := { partials := [], epochs := [], forwarded := [], parity := [], last := 0 }
  cor := { outs := [], swaps := [], nextId := 0, slot := 0, slices := [], retired := [], asked := [], leaving := [] }
  mea := {
    runs := [], fades := [], queue := [], seqs := [], mics := [], refs := [], pairs := [], capNext := 0
    lastFrame := 0, lastPub := 0, copy := 0 }
  clk := {
    cands := [], sel := none, tgt := none, state := 0, ever := false, holdSince := 0, pullFree := false
    inSince := none, freq := 0, integ := 0, pullRest := false, locks := [], lockFrom := 0
    bActive := false, retired := [], leaving := false }
  tim := {
    portState := 0, port := 0, masters := [], master := none, gmId := 0, linkGm := [], listenSince := 0
    portBack := none, syncDiff := 0
    meanDelay := 0, neighRate := 4294967296, sentSync := 0, sentAnn := 0, sentDelay := 0, source := none
    hadSource := false, stepDue := false, ptpGm := 0, txStamp := [], ppsWait := none, trigs := [], caps := [], pins := 0 }
  net := { ports := [], queues := [] }
  mst := { rx := [], tx := [], outNext := 0, claims := [] }
  lnk := { links := [], rx := [], tx := [], outNext := 0, claims := [] }
  ser := { tdm := [], aes := [], rings := [], mclk := 0, missed := [], tdmOut := 0, aesOut := 0 }
  par := {
    role := 0, claim := 0, nextClaim := none, epochSeen := 1, audioFrom := none, audioTo := none, renderFrom := none
    renderTo := none, yieldLow := false, started := 0, hbAt := none, hbLost := false, hbMissed := 0
    pRole := 0, pRank := 0, pSnap := 0, pYield := false, healthAt := none, pCriteria := 0, leadAt := none
    barred := false, leadSnap := none, hbSent := 0, healthSent := 0, snapSeq := 0, snapSent := 0, snapTick := 0, sendOfs := none
    sendTotal := 0, slot0 := ⟨false, 0, 0, 0⟩, slot1 := ⟨false, 0, 0, 0⟩, newest := none, filling := none
    cutin := none, abd := none, met := 0, missTicks := [] }
  hlt := {
    islands := [], waiting := [], nextUnit := 0, testing := none, testAt := 0, testLast := 0, failed := []
    tj := 0, supplies := [], sliceRefused := false, laneFloor := [], restarts := [], wear := [], held := [] }
  dma := { a := ⟨[], none, 15, 15⟩, b := ⟨[], none, 3, 3⟩ }
  dru := { phys := [], spare := none, leaving := none, copied := false, cores := [] }
  tap := ⟨.idcode, []⟩

end Sys2Proof.Machine
end

