-- ==== Sys2Proof/Machine/Mem.lean ====
section
/-! DEFINITION. The byte memories: scratchpad, Druora memories and DRAM in one address space (R457), as a list in
canonical form. Scratchpad and Druora memories read zero where nothing is listed (R502: every bank is zero-filled);
a DRAM byte that nothing has written holds a free value (R413). -/

namespace Sys2Proof.Machine

open Sys2Proof

/-- First address of DRAM (R457). -/
def dramBase : Nat := 0x1000000000

/-- First address of the Druora windows, and one window's size (R457). -/
def druBase : Nat := 0x0100000000

/-- What an unlisted address reads as: zero in SRAM; nothing the model fixes in DRAM (R413). -/
def unlisted (a : Nat) : Option Byte := if a < dramBase then some 0 else none

/-- One byte of a memory: `none` for DRAM that nothing has written. -/
def memRead (m : List Host.Cell) (a : Nat) : Option Byte :=
  match tabFind? a m with
  | some b => some b
  | none => unlisted a

/-- A memory with one byte written, kept in canonical form. -/
def memWrite (m : List Host.Cell) (a : Nat) (b : Byte) : List Host.Cell :=
  if unlisted a = some b then tabErase a m else tabSet a b m

/-- A memory with several bytes written, the head of the list last. -/
def memWriteAll (m : List Host.Cell) : List Host.Cell → List Host.Cell
  | [] => m
  | (a, b) :: t => memWrite (memWriteAll m t) a b

/-- The canonical form: addresses strictly rise and no entry equals what an unlisted address reads as. -/
def Memory.wf (m : List Host.Cell) : Bool :=
  tabSorted none m && m.all (fun c => !(decide (unlisted c.1 = some c.2)))

/-- A byte as the running step sees it: what the step has stored, else what memory holds, else a free value. -/
def readByte (s : State) (a : Nat) : Byte :=
  match tabFind? a s.post with
  | some b => b
  | none =>
    match memRead s.mem a with
    | some b => b
    | none => Config.dramPowerOn a

/-- True where a byte has been written since supplies valid, or lies in SRAM. -/
def written (s : State) (a : Nat) : Bool :=
  (tabFind? a s.post).isSome || (memRead s.mem a).isSome

/-- One byte stored by the running step. -/
def storeByte (s : State) (a : Nat) (b : Byte) : State := { s with post := (a, b) :: s.post }

/-- Bytes stored at consecutive addresses. -/
def storeBytes (s : State) (a : Nat) : List Byte → State
  | [] => s
  | b :: bs => storeBytes (storeByte s a b) (a + 1) bs

/-- `n` bytes read from consecutive addresses. -/
def readBytes (s : State) (a n : Nat) : List Byte := (List.range n).map (fun k => readByte s (a + k))

/-- A little-endian 32-bit word of memory. -/
def rd32 (s : State) (a : Nat) : Nat := ofBytes (readBytes s a 4)

/-- A little-endian number of `n` bytes in memory. -/
def rdN (s : State) (n a : Nat) : Nat := ofBytes (readBytes s a n)

/-- A little-endian 32-bit word stored. -/
def wr32 (s : State) (a v : Nat) : State := storeBytes s a (bytesOf 4 v)

/-- The aligned 8-byte word of an address. -/
def word8 (a : Nat) : Nat := a / 8 * 8

/-- True where an aligned 8-byte word reads as uncorrectable (R504, R526); DRAM that nothing has written since
supplies valid may (R413). -/
def ueAt (s : State) (w : Nat) : Bool :=
  s.ue.contains w ||
    (decide (dramBase ≤ w) && (List.range 8).all (fun k => !written s (w + k)) && Config.dramPowerOnBad w)

/-- The words of a byte range that read as uncorrectable, lowest first. -/
def ueIn (s : State) (a n : Nat) : List Nat :=
  if n = 0 then [] else
    ((List.range ((word8 (a + n - 1) - word8 a) / 8 + 1)).map (fun k => word8 a + 8 * k)).filter (ueAt s)

/-- True where an aligned 8-byte word lies wholly inside a byte range. -/
def covers (a n w : Nat) : Bool := decide (a ≤ w) && decide (w + 8 ≤ a + n)

/-- An uncorrectable word taken out by a write (R504, R526): where the write does not cover it, its other bytes
become zero; the check bits are valid again. -/
def clearUe (s : State) (w : Nat) (whole : Bool) : State :=
  let s1 := { s with ue := setDel w s.ue }
  if whole then s1 else storeBytes s1 w (List.replicate 8 0)

/-- A write of bytes with its effect on the error state of the words it meets. -/
def writePlain (s : State) (a : Nat) (bs : List Byte) : State :=
  let bad := ueIn s a bs.length
  let s1 := bad.foldl (fun t w => clearUe t w (covers a bs.length w)) s
  storeBytes s1 a bs

/-- Where the spare's copy of bytes in the memories of a leaving core stands, once it is whole (R495). -/
def copyOf (s : State) (a n : Nat) : Option Nat :=
  match s.dru.leaving with
  | some c =>
    let w := druBase + c * 0x100000
    if s.dru.copied ∧ w ≤ a ∧ a + n ≤ w + 0x50000 then some (a - w + druBase + 0x1000000) else none
  | none => none

/-- A write of bytes; one to the memories of a core whose copy the spare holds goes to the copy as well (R495). -/
def writeMem (s : State) (a : Nat) (bs : List Byte) : State :=
  let s1 := writePlain s a bs
  match copyOf s a bs.length with
  | some b => writePlain s1 b bs
  | none => s1

/-- Every listed byte of a range set to zero (a bank brought on, R502; a wipe, R517). -/
def zeroRange (s : State) (a n : Nat) : State :=
  let listed := (s.mem ++ s.post).filter (fun c => decide (a ≤ c.1) && decide (c.1 < a + n))
  let s1 := listed.foldl (fun t c => storeByte t c.1 0) s
  { s1 with ue := s1.ue.filter (fun w => !(decide (a ≤ w) && decide (w < a + n))) }

/-- A range of bytes made a copy of another that it does not meet. -/
def copyRange (src dst n : Nat) (s : State) : State :=
  let listed := (s.mem ++ s.post).filter (fun c => decide (src ≤ c.1) && decide (c.1 < src + n))
  listed.foldl (fun t c => storeByte t (c.1 - src + dst) (readByte s c.1)) (zeroRange s dst n)

/-- The device is a FOLLOW whose render islands rest: no cut-in has begun to wake them (R550, R563). -/
def inFollow (s : State) : Bool := s.par.role == 2 && s.par.cutin.isNone

/-- The end of a step: what it stored goes to memory, and the queue is what it was. -/
def settle (s t : State) : State :=
  { t with pending := s.pending, mem := memWriteAll s.mem t.post, post := [], fuse := s.fuse }

/-- A step that always answers a next state: the step's own function on the state with nothing stored and nothing
put out yet. The queue and the fuses stay as they were. -/
def run (f : State → State) (s : State) : Host.Outcome State Fault Refusal :=
  .next (settle s (f { s with post := [], out := [] }))

/-- A step that answers a next state or a fault. -/
def runE (f : State → Except Fault State) (s : State) : Host.Outcome State Fault Refusal :=
  match f { s with post := [], out := [] } with
  | .ok t => .next (settle s t)
  | .error e => .fault e

/-- A step that may program fuses (R516). -/
def runFuse (f : State → State) (s : State) : Host.Outcome State Fault Refusal :=
  let t := f { s with post := [], out := [] }
  .next { settle s t with fuse := t.fuse }

/-- A free number below `n` (zero where `n` is zero), and the state with the draw counted. -/
def drawNat (s : State) (n : Nat) : Nat × State :=
  (Config.freeNat s.free % n, { s with free := s.free + 1 })

/-- A free bit, and the state with the draw counted. -/
def drawBit (s : State) : Bool × State := (Config.freeBit s.free, { s with free := s.free + 1 })

/-- Something put out on a port. -/
def emit (o : Out) (s : State) : State := { s with out := s.out ++ [o] }

end Sys2Proof.Machine
end

