-- ==== Sys2Proof/Machine/RegMap.lean ====
section
/-! DEFINITION. The register and table map: one `RegSpec` per register or table word the spec's chapters
describe (R19 to R23, R457, R458), with its unit, address, repetition, access type, reset word and the fields of
each change class. The rule that gives each one is named in its docstring. -/

namespace Sys2Proof.Machine

/-- Access types of R20. -/
inductive Access where
  | rw | ro | w1c | wo
  deriving DecidableEq, Repr

/-- How many records a table has: fixed, or by rate and grade (R5, R7, R21). -/
inductive CountKind where
  /-- as written -/
  | fix
  /-- one per conditioned input channel -/
  | chan
  /-- one per object -/
  | obj
  /-- one per output -/
  | out
  /-- sixteen per output -/
  | out16
  /-- one per loudspeaker position -/
  | spk
  /-- input-side patch destinations -/
  | rin
  deriving DecidableEq, Repr

/-- Change classes of R14. -/
inductive ChangeClass where
  | live | staged | frozen
  deriving DecidableEq, Repr

/-- One field of a word: bits [hi:lo] and its change class. -/
structure FieldSpec where
  hi : Nat
  lo : Nat
  cls : ChangeClass
  deriving DecidableEq, Repr

/-- One register, or one word of a table's record. -/
structure RegSpec where
  unit : Nat
  base : Nat
  n1 : Nat
  s1 : Nat
  n2 : Nat
  s2 : Nat
  kind : CountKind
  acc : Access
  reset : Nat
  fields : List FieldSpec
  deriving DecidableEq, Repr

/-- The address of element `i` (and sub-element `j`) of a register. -/
def RegSpec.at (r : RegSpec) (i : Nat := 0) (j : Nat := 0) : Nat := r.base + i * r.s1 + j * r.s2


/-- R72: [1:0] RATE. -/
def Reg.SYS_RENDER_RATE : RegSpec :=
  ⟨0x00, 0x10000100, 1, 4, 1, 4, .fix, .rw, 0x1, [⟨1, 0, .frozen⟩]⟩

/-- R432: [23:0] EPOCH. -/
def Reg.SYS_EPOCH : RegSpec :=
  ⟨0x00, 0x10000104, 1, 4, 1, 4, .fix, .ro, 0x1, [⟨23, 0, .live⟩]⟩

/-- R432: [15:12] STRAPS; [11:8] STAGE; [2:0] CAUSE. -/
def Reg.SYS_START : RegSpec :=
  ⟨0x00, 0x10000108, 1, 4, 1, 4, .fix, .ro, 0x0, [⟨15, 12, .live⟩, ⟨11, 8, .live⟩, ⟨2, 0, .live⟩]⟩

/-- R72: [31:0] REC0. -/
def Reg.SYS_TAG_W0 : RegSpec :=
  ⟨0x00, 0x10000200, 1, 4, 1, 4, .fix, .rw, 0x0, [⟨31, 0, .live⟩]⟩

/-- R72: [31:0] REC1. -/
def Reg.SYS_TAG_W1 : RegSpec :=
  ⟨0x00, 0x10000204, 1, 4, 1, 4, .fix, .rw, 0x0, [⟨31, 0, .live⟩]⟩

/-- R72: [31:0] REC2. -/
def Reg.SYS_TAG_W2 : RegSpec :=
  ⟨0x00, 0x10000208, 1, 4, 1, 4, .fix, .rw, 0x0, [⟨31, 0, .live⟩]⟩

/-- R72: [31:0] REC3. -/
def Reg.SYS_TAG_W3 : RegSpec :=
  ⟨0x00, 0x1000020C, 1, 4, 1, 4, .fix, .rw, 0x0, [⟨31, 0, .live⟩]⟩

/-- R72: [0:0] BUSY. -/
def Reg.SYS_TAG_STAT : RegSpec :=
  ⟨0x00, 0x10000210, 1, 4, 1, 4, .fix, .ro, 0x0, [⟨0, 0, .live⟩]⟩

/-- R72: [31:0] DROP_CNT. -/
def Reg.SYS_TAG_DROP_CNT : RegSpec :=
  ⟨0x00, 0x10000214, 1, 4, 1, 4, .fix, .rw, 0x0, [⟨31, 0, .live⟩]⟩

/-- R459: [31:16] CTRL_PORT; [1:1] EVT_FWD_EN; [0:0] REMOTE_EN. -/
def Reg.SYS_CTRL : RegSpec :=
  ⟨0x00, 0x10000300, 1, 4, 1, 4, .fix, .rw, 0xA3DE0000, [⟨31, 16, .live⟩, ⟨1, 1, .live⟩, ⟨0, 0, .live⟩]⟩

/-- R459: [31:0] IP. -/
def Reg.SYS_EVT_FWD_IP : RegSpec :=
  ⟨0x00, 0x10000304, 1, 4, 1, 4, .fix, .rw, 0x0, [⟨31, 0, .live⟩]⟩

/-- R459: [31:16] UDP; [10:8] PORT; [3:0] KEY. -/
def Reg.SYS_EVT_FWD_CFG : RegSpec :=
  ⟨0x00, 0x10000308, 1, 4, 1, 4, .fix, .rw, 0x0, [⟨31, 16, .live⟩, ⟨10, 8, .live⟩, ⟨3, 0, .live⟩]⟩

/-- R459: [31:0] SESSION_LO. -/
def Reg.SYS_SESSION_LO : RegSpec :=
  ⟨0x00, 0x1000030C, 1, 4, 1, 4, .fix, .ro, 0x0, [⟨31, 0, .live⟩]⟩

/-- R459: [31:0] SESSION_HI. -/
def Reg.SYS_SESSION_HI : RegSpec :=
  ⟨0x00, 0x10000310, 1, 4, 1, 4, .fix, .ro, 0x0, [⟨31, 0, .live⟩]⟩

/-- R459: [31:0] EN. -/
def Reg.SYS_EVT_EN : RegSpec :=
  ⟨0x00, 0x10000320, 8, 4, 1, 4, .fix, .rw, 0xFFFFFFFF, [⟨31, 0, .live⟩]⟩

/-- R459: [31:0] BASE_LO. -/
def Reg.SYS_SNAP_BASE_LO : RegSpec :=
  ⟨0x00, 0x10000340, 1, 4, 1, 4, .fix, .rw, 0x0, [⟨31, 0, .live⟩]⟩

/-- R459: [7:0] BASE_HI. -/
def Reg.SYS_SNAP_BASE_HI : RegSpec :=
  ⟨0x00, 0x10000344, 1, 4, 1, 4, .fix, .rw, 0x0, [⟨7, 0, .live⟩]⟩

/-- R459: [15:0] POS. -/
def Reg.SYS_CUE_POS : RegSpec :=
  ⟨0x00, 0x10000348, 1, 4, 1, 4, .fix, .ro, 0xFFFF, [⟨15, 0, .live⟩]⟩

/-- R459: [31:0] EVT_DROP_CNT. -/
def Reg.SYS_EVT_DROP_CNT : RegSpec :=
  ⟨0x00, 0x10000350, 1, 4, 1, 4, .fix, .rw, 0x0, [⟨31, 0, .live⟩]⟩

/-- R459: [31:0] AUTH_FAIL_CNT. -/
def Reg.SYS_AUTH_FAIL_CNT : RegSpec :=
  ⟨0x00, 0x10000354, 1, 4, 1, 4, .fix, .rw, 0x0, [⟨31, 0, .live⟩]⟩

/-- R459: [31:0] REPLAY_CNT. -/
def Reg.SYS_REPLAY_CNT : RegSpec :=
  ⟨0x00, 0x10000358, 1, 4, 1, 4, .fix, .rw, 0x0, [⟨31, 0, .live⟩]⟩

/-- R459: [31:0] SESSION_MISS_CNT. -/
def Reg.SYS_SESSION_MISS_CNT : RegSpec :=
  ⟨0x00, 0x1000035C, 1, 4, 1, 4, .fix, .rw, 0x0, [⟨31, 0, .live⟩]⟩

/-- R459: [1:1] EVT_DROP_STK; [0:0] AUTH_FAIL_STK. -/
def Reg.SYS_STAT : RegSpec :=
  ⟨0x00, 0x10000360, 1, 4, 1, 4, .fix, .w1c, 0x0, [⟨1, 1, .live⟩, ⟨0, 0, .live⟩]⟩

/-- R73: [6:0] PEND. -/
def Reg.SYS_TAG_PEND : RegSpec :=
  ⟨0x00, 0x1000FFF0, 1, 4, 1, 4, .fix, .ro, 0x0, [⟨6, 0, .live⟩]⟩

/-- R73: [31:0] LATE_CNT. -/
def Reg.SYS_TAG_LATE_CNT : RegSpec :=
  ⟨0x00, 0x1000FFF4, 1, 4, 1, 4, .fix, .rw, 0x0, [⟨31, 0, .live⟩]⟩

/-- R73: [31:0] STALE_CNT. -/
def Reg.SYS_TAG_STALE_CNT : RegSpec :=
  ⟨0x00, 0x1000FFF8, 1, 4, 1, 4, .fix, .rw, 0x0, [⟨31, 0, .live⟩]⟩

/-- R432: [31:0] OFFER_LO. -/
def Reg.FEA_OFFER_LO : RegSpec :=
  ⟨0x01, 0x10010100, 1, 4, 1, 4, .fix, .ro, 0xFFFF, [⟨31, 0, .live⟩]⟩

/-- R432: [31:0] OFFER_HI. -/
def Reg.FEA_OFFER_HI : RegSpec :=
  ⟨0x01, 0x10010104, 1, 4, 1, 4, .fix, .ro, 0x0, [⟨31, 0, .live⟩]⟩

/-- R432: [31:0] IMAGE_REQ. -/
def Reg.FEA_IMAGE_REQ_LO : RegSpec :=
  ⟨0x01, 0x10010108, 1, 4, 1, 4, .fix, .ro, 0x0, [⟨31, 0, .live⟩]⟩

/-- R432: [31:0] IMAGE_REQ. -/
def Reg.FEA_IMAGE_REQ_HI : RegSpec :=
  ⟨0x01, 0x1001010C, 1, 4, 1, 4, .fix, .ro, 0x0, [⟨31, 0, .live⟩]⟩

/-- R432: [31:0] DRIVER_REQ. -/
def Reg.FEA_DRIVER_REQ_LO : RegSpec :=
  ⟨0x01, 0x10010110, 1, 4, 1, 4, .fix, .ro, 0xFFFFFFFF, [⟨31, 0, .live⟩]⟩

/-- R432: [31:0] DRIVER_REQ. -/
def Reg.FEA_DRIVER_REQ_HI : RegSpec :=
  ⟨0x01, 0x10010114, 1, 4, 1, 4, .fix, .ro, 0xFFFFFFFF, [⟨31, 0, .live⟩]⟩

/-- R432: [31:0] ACCEPT. -/
def Reg.FEA_ACCEPT_LO : RegSpec :=
  ⟨0x01, 0x10010118, 1, 4, 1, 4, .fix, .ro, 0x1, [⟨31, 0, .live⟩]⟩

/-- R432: [31:0] ACCEPT. -/
def Reg.FEA_ACCEPT_HI : RegSpec :=
  ⟨0x01, 0x1001011C, 1, 4, 1, 4, .fix, .ro, 0x0, [⟨31, 0, .live⟩]⟩

/-- R432: [3:3] DEP_DROP; [2:2] RATE_DOWN; [1:1] DRV_USED; [0:0] FINAL. -/
def Reg.FEA_STAT : RegSpec :=
  ⟨0x01, 0x10010120, 1, 4, 1, 4, .fix, .ro, 0x0, [⟨3, 3, .live⟩, ⟨2, 2, .live⟩, ⟨1, 1, .live⟩, ⟨0, 0, .live⟩]⟩

/-- R530: [1:0] STATE. -/
def Reg.SEC_LC : RegSpec :=
  ⟨0x02, 0x10020100, 1, 4, 1, 4, .fix, .ro, 0x0, [⟨1, 0, .live⟩]⟩

/-- R530: [15:8] CONFIRM; [1:0] TARGET. -/
def Reg.SEC_LC_REQ : RegSpec :=
  ⟨0x02, 0x10020104, 1, 4, 1, 4, .fix, .wo, 0x0, [⟨15, 8, .live⟩, ⟨1, 0, .live⟩]⟩

/-- R530: [6:0] FILTER. -/
def Reg.SEC_TAMPER : RegSpec :=
  ⟨0x02, 0x10020108, 1, 4, 1, 4, .fix, .rw, 0xA, [⟨6, 0, .live⟩]⟩

/-- R530: [2:2] DENY_STK; [1:1] LC_STK; [0:0] TAMPER_STK. -/
def Reg.SEC_STAT : RegSpec :=
  ⟨0x02, 0x1002010C, 1, 4, 1, 4, .fix, .w1c, 0x0, [⟨2, 2, .live⟩, ⟨1, 1, .live⟩, ⟨0, 0, .live⟩]⟩

/-- R530: [15:0] VALID. -/
def Reg.SEC_KEY_VALID : RegSpec :=
  ⟨0x02, 0x10020110, 1, 4, 1, 4, .fix, .ro, 0x0, [⟨15, 0, .live⟩]⟩

/-- R530: [31:0] DENY_CNT. -/
def Reg.SEC_DENY_CNT : RegSpec :=
  ⟨0x02, 0x10020114, 1, 4, 1, 4, .fix, .rw, 0x0, [⟨31, 0, .live⟩]⟩

/-- R575: [9:9] RESTART_EN; [8:8] ALONE_EN; [6:0] MASK. -/
def Reg.HLT_ABD_MASK : RegSpec :=
  ⟨0x03, 0x10030100, 1, 4, 1, 4, .fix, .rw, 0x27F, [⟨9, 9, .live⟩, ⟨8, 8, .live⟩, ⟨6, 0, .live⟩]⟩

/-- R575: [31:24] TJ_MAX; [23:16] PARITY_MAX; [15:0] RT_UE_MAX. -/
def Reg.HLT_ABD_LIMITS : RegSpec :=
  ⟨0x03, 0x10030104, 1, 4, 1, 4, .fix, .rw, 0x73010010, [⟨31, 24, .live⟩, ⟨23, 16, .live⟩, ⟨15, 0, .live⟩]⟩

/-- R575: [15:8] LAST; [6:0] MET. -/
def Reg.HLT_ABD_STAT : RegSpec :=
  ⟨0x03, 0x10030108, 1, 4, 1, 4, .fix, .ro, 0x0, [⟨15, 8, .live⟩, ⟨6, 0, .live⟩]⟩

/-- R575: [31:16] HIGH; [15:0] LOW. -/
def Reg.HLT_MARGIN : RegSpec :=
  ⟨0x03, 0x1003010C, 1, 4, 1, 4, .fix, .rw, 0x780028, [⟨31, 16, .live⟩, ⟨15, 0, .live⟩]⟩

/-- R575: [31:16] RETIRE_MS; [15:0] UP_S. -/
def Reg.HLT_TIMING : RegSpec :=
  ⟨0x03, 0x10030110, 1, 4, 1, 4, .fix, .rw, 0x64000A, [⟨31, 16, .live⟩, ⟨15, 0, .live⟩]⟩

/-- R575: [24:16] ISLAND; [15:0] SLACK. -/
def Reg.HLT_SLACK_MIN : RegSpec :=
  ⟨0x03, 0x10030114, 1, 4, 1, 4, .fix, .ro, 0x0, [⟨24, 16, .live⟩, ⟨15, 0, .live⟩]⟩

/-- R575: [15:8] CLASS; [7:0] INST. -/
def Reg.HLT_RETIRE : RegSpec :=
  ⟨0x03, 0x10030118, 1, 4, 1, 4, .fix, .wo, 0x0, [⟨15, 8, .live⟩, ⟨7, 0, .live⟩]⟩

/-- R575: [5:5] TEMP_STK; [4:4] SUPPLY_STK; [3:3] MARGIN_STK; [2:2] WEARLOG_FULL_STK; [1:1] NOSPARE_STK; [0:0] RETIRE_STK. -/
def Reg.HLT_STAT : RegSpec :=
  ⟨0x03, 0x1003011C, 1, 4, 1, 4, .fix, .w1c, 0x0, [⟨5, 5, .live⟩, ⟨4, 4, .live⟩, ⟨3, 3, .live⟩, ⟨2, 2, .live⟩, ⟨1, 1, .live⟩, ⟨0, 0, .live⟩]⟩

/-- R575: [15:0] TJ. -/
def Reg.HLT_TJ : RegSpec :=
  ⟨0x03, 0x10030120, 1, 4, 1, 4, .fix, .ro, 0x0, [⟨15, 0, .live⟩]⟩

/-- R575: [15:0] SELFTEST. -/
def Reg.HLT_SELFTEST : RegSpec :=
  ⟨0x03, 0x10030124, 1, 4, 1, 4, .fix, .rw, 0x3C, [⟨15, 0, .live⟩]⟩

/-- R575: [15:0] USED. -/
def Reg.HLT_WEAR_USED : RegSpec :=
  ⟨0x03, 0x10030128, 1, 4, 1, 4, .fix, .ro, 0x0, [⟨15, 0, .live⟩]⟩

/-- R576: [31:0] CNT. -/
def Reg.HLT_DEADLINE_MISS_CNT : RegSpec :=
  ⟨0x03, 0x10030130, 1, 4, 1, 4, .fix, .rw, 0x0, [⟨31, 0, .live⟩]⟩

/-- R576: [31:0] CNT. -/
def Reg.HLT_STEP_CNT : RegSpec :=
  ⟨0x03, 0x10030134, 1, 4, 1, 4, .fix, .rw, 0x0, [⟨31, 0, .live⟩]⟩

/-- R576: [31:0] CNT. -/
def Reg.HLT_RETIRE_CNT : RegSpec :=
  ⟨0x03, 0x10030138, 1, 4, 1, 4, .fix, .rw, 0x0, [⟨31, 0, .live⟩]⟩

/-- R576: [31:0] CNT. -/
def Reg.HLT_WEAR_REC_CNT : RegSpec :=
  ⟨0x03, 0x1003013C, 1, 4, 1, 4, .fix, .rw, 0x0, [⟨31, 0, .live⟩]⟩

/-- R576: [31:0] CNT. -/
def Reg.HLT_WEAR_BAD_CNT : RegSpec :=
  ⟨0x03, 0x10030140, 1, 4, 1, 4, .fix, .rw, 0x0, [⟨31, 0, .live⟩]⟩

/-- R584: [31:0] CNT. -/
def Reg.HLT_UNIT_RESTART_CNT : RegSpec :=
  ⟨0x03, 0x10030144, 1, 4, 1, 4, .fix, .rw, 0x0, [⟨31, 0, .live⟩]⟩

/-- R584: [7:0] UNIT. -/
def Reg.HLT_UNIT_LAST : RegSpec :=
  ⟨0x03, 0x10030148, 1, 4, 1, 4, .fix, .ro, 0xFF, [⟨7, 0, .live⟩]⟩

/-- R575: [31:16] SLACK; [9:8] STEP; [2:0] STATE. -/
def Reg.HLT_ISLAND : RegSpec :=
  ⟨0x03, 0x10030400, 160, 4, 1, 4, .fix, .ro, 0x0, [⟨31, 16, .live⟩, ⟨9, 8, .live⟩, ⟨2, 0, .live⟩]⟩

/-- R573: [31:24] SNAP_MS; [23:16] ELECT; [15:15] PAIR_EN; [14:11] LINK2; [10:8] LINK; [7:0] RANK. -/
def Reg.PAR_CFG : RegSpec :=
  ⟨0x04, 0x10040100, 1, 4, 1, 4, .fix, .rw, 0xA147801, [⟨31, 24, .live⟩, ⟨23, 16, .live⟩, ⟨15, 15, .frozen⟩, ⟨14, 11, .frozen⟩, ⟨10, 8, .frozen⟩, ⟨7, 0, .frozen⟩]⟩

/-- R573: [0:0] HANDOVER. -/
def Reg.PAR_CTRL : RegSpec :=
  ⟨0x04, 0x10040104, 1, 4, 1, 4, .fix, .wo, 0x0, [⟨0, 0, .live⟩]⟩

/-- R573: [31:6] BASE_LO. -/
def Reg.PAR_SNAP_BASE_LO : RegSpec :=
  ⟨0x04, 0x10040108, 1, 4, 1, 4, .fix, .rw, 0x0, [⟨31, 6, .frozen⟩]⟩

/-- R573: [7:0] BASE_HI. -/
def Reg.PAR_SNAP_BASE_HI : RegSpec :=
  ⟨0x04, 0x1004010C, 1, 4, 1, 4, .fix, .rw, 0x0, [⟨7, 0, .frozen⟩]⟩

/-- R573: [15:0] NUM. -/
def Reg.PAR_SNAP_NUM : RegSpec :=
  ⟨0x04, 0x10040110, 1, 4, 1, 4, .fix, .rw, 0xFFFF, [⟨15, 0, .live⟩]⟩

/-- R573: [8:0] QUEUE. -/
def Reg.PAR_TXQ : RegSpec :=
  ⟨0x04, 0x10040114, 1, 4, 1, 4, .fix, .rw, 0x1FF, [⟨8, 0, .frozen⟩]⟩

/-- R573: [15:8] PARTNER_RANK; [5:5] SLOT_VALID; [4:4] SLOT; [3:3] PARTNER_FIT; [2:2] READY; [1:0] ROLE. -/
def Reg.PAR_STATUS : RegSpec :=
  ⟨0x04, 0x10040118, 1, 4, 1, 4, .fix, .ro, 0x0, [⟨15, 8, .live⟩, ⟨5, 5, .live⟩, ⟨4, 4, .live⟩, ⟨3, 3, .live⟩, ⟨2, 2, .live⟩, ⟨1, 0, .live⟩]⟩

/-- R573: [31:0] CLAIM. -/
def Reg.PAR_CLAIM : RegSpec :=
  ⟨0x04, 0x1004011C, 1, 4, 1, 4, .fix, .ro, 0x0, [⟨31, 0, .live⟩]⟩

/-- R573: [23:0] SEEN. -/
def Reg.PAR_EPOCH_SEEN : RegSpec :=
  ⟨0x04, 0x10040120, 1, 4, 1, 4, .fix, .ro, 0x1, [⟨23, 0, .live⟩]⟩

/-- R573: [31:0] SEQ. -/
def Reg.PAR_SNAP_SEQ : RegSpec :=
  ⟨0x04, 0x10040124, 1, 4, 1, 4, .fix, .ro, 0x0, [⟨31, 0, .live⟩]⟩

/-- R573: [5:5] SNAP_BIG_STK; [4:4] NOFIT_STK; [3:3] HB_LOST_STK; [2:2] ABD_STK; [1:1] CUTIN_STK; [0:0] SNAP_BAD_STK. -/
def Reg.PAR_HIST : RegSpec :=
  ⟨0x04, 0x10040128, 1, 4, 1, 4, .fix, .w1c, 0x0, [⟨5, 5, .live⟩, ⟨4, 4, .live⟩, ⟨3, 3, .live⟩, ⟨2, 2, .live⟩, ⟨1, 1, .live⟩, ⟨0, 0, .live⟩]⟩

/-- R574: [31:0] CNT. -/
def Reg.PAR_CUTIN_CNT : RegSpec :=
  ⟨0x04, 0x10040130, 1, 4, 1, 4, .fix, .rw, 0x0, [⟨31, 0, .live⟩]⟩

/-- R574: [31:0] CNT. -/
def Reg.PAR_SNAP_SENT_CNT : RegSpec :=
  ⟨0x04, 0x10040134, 1, 4, 1, 4, .fix, .rw, 0x0, [⟨31, 0, .live⟩]⟩

/-- R574: [31:0] CNT. -/
def Reg.PAR_SNAP_BAD_CNT : RegSpec :=
  ⟨0x04, 0x10040138, 1, 4, 1, 4, .fix, .rw, 0x0, [⟨31, 0, .live⟩]⟩

/-- R574: [31:0] CNT. -/
def Reg.PAR_SNAP_SKIP_CNT : RegSpec :=
  ⟨0x04, 0x1004013C, 1, 4, 1, 4, .fix, .rw, 0x0, [⟨31, 0, .live⟩]⟩

/-- R574: [31:0] CNT. -/
def Reg.PAR_HB_MISS_CNT : RegSpec :=
  ⟨0x04, 0x10040140, 1, 4, 1, 4, .fix, .rw, 0x0, [⟨31, 0, .live⟩]⟩

/-- R306: [31:16] HOLD_MAX; [15:15] REVERTIVE; [12:9] FORCE; [8:0] SLOPE. -/
def Reg.CLK_CTRL : RegSpec :=
  ⟨0x05, 0x10050100, 1, 4, 1, 4, .fix, .rw, 0x9E32, [⟨31, 16, .live⟩, ⟨15, 15, .live⟩, ⟨12, 9, .live⟩, ⟨8, 0, .live⟩]⟩

/-- R306: [7:0] HOLD_AVG. -/
def Reg.CLK_HOLD : RegSpec :=
  ⟨0x05, 0x10050104, 1, 4, 1, 4, .fix, .rw, 0xA, [⟨7, 0, .live⟩]⟩

/-- R306: [12:12] DPLL; [11:8] TARGET; [7:4] SELECTED; [2:0] STATE. -/
def Reg.CLK_STAT : RegSpec :=
  ⟨0x05, 0x10050108, 1, 4, 1, 4, .fix, .ro, 0xFF0, [⟨12, 12, .live⟩, ⟨11, 8, .live⟩, ⟨7, 4, .live⟩, ⟨2, 0, .live⟩]⟩

/-- R306: [31:0] FREQ. -/
def Reg.CLK_FREQ : RegSpec :=
  ⟨0x05, 0x1005010C, 1, 4, 1, 4, .fix, .ro, 0x0, [⟨31, 0, .live⟩]⟩

/-- R306: [31:0] PHASE. -/
def Reg.CLK_PHASE : RegSpec :=
  ⟨0x05, 0x10050110, 1, 4, 1, 4, .fix, .ro, 0x0, [⟨31, 0, .live⟩]⟩

/-- R306: [4:4] NOSPARE_STK; [3:3] SPARE_STK; [2:2] HOLDOVER_STK; [1:1] SWITCH_STK; [0:0] REDIRECT_STK. -/
def Reg.CLK_SEL_HIST : RegSpec :=
  ⟨0x05, 0x10050114, 1, 4, 1, 4, .fix, .w1c, 0x0, [⟨4, 4, .live⟩, ⟨3, 3, .live⟩, ⟨2, 2, .live⟩, ⟨1, 1, .live⟩, ⟨0, 0, .live⟩]⟩

/-- R306: [8:8] PPS_OUT_EN; [7:4] WC_OUT1; [3:0] WC_OUT0. -/
def Reg.CLK_OUT : RegSpec :=
  ⟨0x05, 0x10050118, 1, 4, 1, 4, .fix, .rw, 0x0, [⟨8, 8, .live⟩, ⟨7, 4, .live⟩, ⟨3, 0, .live⟩]⟩

/-- R306: [31:0] GLITCH_CNT. -/
def Reg.CLK_GLITCH_CNT : RegSpec :=
  ⟨0x05, 0x1005011C, 1, 4, 1, 4, .fix, .rw, 0x0, [⟨31, 0, .live⟩]⟩

/-- R306: [31:0] SWITCH_CNT. -/
def Reg.CLK_SWITCH_CNT : RegSpec :=
  ⟨0x05, 0x10050120, 1, 4, 1, 4, .fix, .rw, 0x0, [⟨31, 0, .live⟩]⟩

/-- R306: [31:0] REDIRECT_CNT. -/
def Reg.CLK_REDIRECT_CNT : RegSpec :=
  ⟨0x05, 0x10050124, 1, 4, 1, 4, .fix, .rw, 0x0, [⟨31, 0, .live⟩]⟩

/-- R307: [31:31] EN; [27:24] PRIORITY; [19:16] TYPE; [7:0] INST. -/
def Reg.CLK_CAND0 : RegSpec :=
  ⟨0x05, 0x10050200, 8, 16, 1, 4, .fix, .rw, 0x0, [⟨31, 31, .live⟩, ⟨27, 24, .live⟩, ⟨19, 16, .live⟩, ⟨7, 0, .live⟩]⟩

/-- R307: [15:0] QUAL. -/
def Reg.CLK_CAND1 : RegSpec :=
  ⟨0x05, 0x10050204, 8, 16, 1, 4, .fix, .rw, 0x0, [⟨15, 0, .live⟩]⟩

/-- R307: [15:0] BW. -/
def Reg.CLK_CAND2 : RegSpec :=
  ⟨0x05, 0x10050208, 8, 16, 1, 4, .fix, .rw, 0x0, [⟨15, 0, .live⟩]⟩

/-- R307: [17:0] NOMINAL. -/
def Reg.CLK_CAND3 : RegSpec :=
  ⟨0x05, 0x1005020C, 8, 16, 1, 4, .fix, .rw, 0x0, [⟨17, 0, .live⟩]⟩

/-- R307: [12:12] TIME; [9:9] IS_TARGET; [8:8] IS_SELECTED; [2:0] STATE. -/
def Reg.CLK_CSTAT0 : RegSpec :=
  ⟨0x05, 0x10050300, 8, 8, 1, 4, .fix, .ro, 0x0, [⟨12, 12, .live⟩, ⟨9, 9, .live⟩, ⟨8, 8, .live⟩, ⟨2, 0, .live⟩]⟩

/-- R307: [17:0] RATE. -/
def Reg.CLK_CSTAT1 : RegSpec :=
  ⟨0x05, 0x10050304, 8, 8, 1, 4, .fix, .ro, 0x0, [⟨17, 0, .live⟩]⟩

/-- R307: [3:3] DISQ_STK; [2:2] RATE_STK; [1:1] GLITCH_STK; [0:0] LOST_STK. -/
def Reg.CLK_HIST : RegSpec :=
  ⟨0x05, 0x10050380, 8, 4, 1, 4, .fix, .w1c, 0x0, [⟨3, 3, .live⟩, ⟨2, 2, .live⟩, ⟨1, 1, .live⟩, ⟨0, 0, .live⟩]⟩

/-- R72: [31:0] SIDX_LO. -/
def Reg.TIM_SIDX_LO : RegSpec :=
  ⟨0x06, 0x10060100, 1, 4, 1, 4, .fix, .ro, 0x0, [⟨31, 0, .live⟩]⟩

/-- R72: [31:0] SIDX_HI. -/
def Reg.TIM_SIDX_HI : RegSpec :=
  ⟨0x06, 0x10060104, 1, 4, 1, 4, .fix, .ro, 0x0, [⟨31, 0, .live⟩]⟩

/-- R72: [3:0] SCALE. -/
def Reg.TIM_SCALE_CNT : RegSpec :=
  ⟨0x06, 0x10060108, 1, 4, 1, 4, .fix, .ro, 0x0, [⟨3, 0, .live⟩]⟩

/-- R308: [5:5] HYBRID; [4:4] DELAY_MECH; [3:2] PROFILE; [1:1] GM_CAPABLE; [0:0] PTP_EN. -/
def Reg.TIM_CTRL : RegSpec :=
  ⟨0x06, 0x10060110, 1, 4, 1, 4, .fix, .rw, 0x0, [⟨5, 5, .frozen⟩, ⟨4, 4, .frozen⟩, ⟨3, 2, .frozen⟩, ⟨1, 1, .live⟩, ⟨0, 0, .live⟩]⟩

/-- R308: [27:24] ANN_TIMEOUT; [23:20] LOG_ANNOUNCE; [19:16] LOG_SYNC; [14:11] BACKUP_PORT; [10:8] PORT; [7:0] DOMAIN. -/
def Reg.TIM_PTP_CFG : RegSpec :=
  ⟨0x06, 0x10060114, 1, 4, 1, 4, .fix, .rw, 0x30D7800, [⟨27, 24, .frozen⟩, ⟨23, 20, .frozen⟩, ⟨19, 16, .frozen⟩, ⟨14, 11, .frozen⟩, ⟨10, 8, .frozen⟩, ⟨7, 0, .frozen⟩]⟩

/-- R308: [31:24] ACCURACY; [23:16] CLASS; [15:8] PRIORITY2; [7:0] PRIORITY1. -/
def Reg.TIM_PTP_DS : RegSpec :=
  ⟨0x06, 0x10060118, 1, 4, 1, 4, .fix, .rw, 0xFEF88080, [⟨31, 24, .live⟩, ⟨23, 16, .live⟩, ⟨15, 8, .live⟩, ⟨7, 0, .live⟩]⟩

/-- R308: [15:0] VARIANCE. -/
def Reg.TIM_PTP_VAR : RegSpec :=
  ⟨0x06, 0x1006011C, 1, 4, 1, 4, .fix, .rw, 0xFFFF, [⟨15, 0, .live⟩]⟩

/-- R308: [31:0] STEP_NS. -/
def Reg.TIM_STEP_NS : RegSpec :=
  ⟨0x06, 0x10060120, 1, 4, 1, 4, .fix, .rw, 0x186A0, [⟨31, 0, .live⟩]⟩

/-- R308: [31:16] UTC_OFS; [15:8] GM_CLASS; [7:7] AS_CAPABLE; [6:4] ACTIVE_PORT; [3:0] PORT_STATE. -/
def Reg.TIM_PTP_STAT : RegSpec :=
  ⟨0x06, 0x10060124, 1, 4, 1, 4, .fix, .ro, 0x250000, [⟨31, 16, .live⟩, ⟨15, 8, .live⟩, ⟨7, 7, .live⟩, ⟨6, 4, .live⟩, ⟨3, 0, .live⟩]⟩

/-- R308: [31:0] GM_ID. -/
def Reg.TIM_GM_ID_LO : RegSpec :=
  ⟨0x06, 0x10060128, 1, 4, 1, 4, .fix, .ro, 0x0, [⟨31, 0, .live⟩]⟩

/-- R308: [31:0] GM_ID. -/
def Reg.TIM_GM_ID_HI : RegSpec :=
  ⟨0x06, 0x1006012C, 1, 4, 1, 4, .fix, .ro, 0x0, [⟨31, 0, .live⟩]⟩

/-- R308: [31:0] OFFSET. -/
def Reg.TIM_OFFSET_LO : RegSpec :=
  ⟨0x06, 0x10060130, 1, 4, 1, 4, .fix, .ro, 0x0, [⟨31, 0, .live⟩]⟩

/-- R308: [31:0] OFFSET. -/
def Reg.TIM_OFFSET_HI : RegSpec :=
  ⟨0x06, 0x10060134, 1, 4, 1, 4, .fix, .ro, 0x0, [⟨31, 0, .live⟩]⟩

/-- R308: [31:0] DELAY. -/
def Reg.TIM_MEAN_DELAY : RegSpec :=
  ⟨0x06, 0x10060138, 1, 4, 1, 4, .fix, .ro, 0x0, [⟨31, 0, .live⟩]⟩

/-- R308: [31:0] ASYM. -/
def Reg.TIM_ASYM : RegSpec :=
  ⟨0x06, 0x10060140, 8, 4, 1, 4, .fix, .rw, 0x0, [⟨31, 0, .live⟩]⟩

/-- R308: [31:0] PPS_SEC. -/
def Reg.TIM_PPS_SEC_LO : RegSpec :=
  ⟨0x06, 0x10060160, 1, 4, 1, 4, .fix, .rw, 0x0, [⟨31, 0, .live⟩]⟩

/-- R308: [31:0] PPS_SEC. -/
def Reg.TIM_PPS_SEC_HI : RegSpec :=
  ⟨0x06, 0x10060164, 1, 4, 1, 4, .fix, .rw, 0x0, [⟨31, 0, .live⟩]⟩

/-- R308: [31:0] SEC_LO. -/
def Reg.TIM_TIME_SEC_LO : RegSpec :=
  ⟨0x06, 0x10060168, 1, 4, 1, 4, .fix, .ro, 0x0, [⟨31, 0, .live⟩]⟩

/-- R308: [31:0] SEC_HI. -/
def Reg.TIM_TIME_SEC_HI : RegSpec :=
  ⟨0x06, 0x1006016C, 1, 4, 1, 4, .fix, .ro, 0x0, [⟨31, 0, .live⟩]⟩

/-- R308: [29:0] NS. -/
def Reg.TIM_TIME_NS : RegSpec :=
  ⟨0x06, 0x10060170, 1, 4, 1, 4, .fix, .ro, 0x0, [⟨29, 0, .live⟩]⟩

/-- R308: [15:0] FRAC. -/
def Reg.TIM_TIME_FRAC : RegSpec :=
  ⟨0x06, 0x10060174, 1, 4, 1, 4, .fix, .ro, 0x0, [⟨15, 0, .live⟩]⟩

/-- R308: [4:4] CAP_DROP_STK; [3:3] TRIG_LATE_STK; [2:2] PTP_LOST_STK; [1:1] GM_CHANGE_STK; [0:0] STEP_STK. -/
def Reg.TIM_STAT : RegSpec :=
  ⟨0x06, 0x10060178, 1, 4, 1, 4, .fix, .w1c, 0x0, [⟨4, 4, .live⟩, ⟨3, 3, .live⟩, ⟨2, 2, .live⟩, ⟨1, 1, .live⟩, ⟨0, 0, .live⟩]⟩

/-- R308: [31:16] IDLE; [15:0] DIR. -/
def Reg.TIM_PIN_CFG : RegSpec :=
  ⟨0x06, 0x1006017C, 1, 4, 1, 4, .fix, .rw, 0x0, [⟨31, 16, .live⟩, ⟨15, 0, .live⟩]⟩

/-- R309: [31:0] CNT. -/
def Reg.TIM_SYNC_REJ_CNT : RegSpec :=
  ⟨0x06, 0x10060180, 1, 4, 1, 4, .fix, .rw, 0x0, [⟨31, 0, .live⟩]⟩

/-- R309: [31:0] CNT. -/
def Reg.TIM_ANN_TIMEOUT_CNT : RegSpec :=
  ⟨0x06, 0x10060184, 1, 4, 1, 4, .fix, .rw, 0x0, [⟨31, 0, .live⟩]⟩

/-- R309: [31:0] CNT. -/
def Reg.TIM_TRIG_LATE_CNT : RegSpec :=
  ⟨0x06, 0x10060188, 1, 4, 1, 4, .fix, .rw, 0x0, [⟨31, 0, .live⟩]⟩

/-- R309: [31:0] CNT. -/
def Reg.TIM_CAP_DROP_CNT : RegSpec :=
  ⟨0x06, 0x1006018C, 1, 4, 1, 4, .fix, .rw, 0x0, [⟨31, 0, .live⟩]⟩

/-- R309: [31:0] CNT. -/
def Reg.TIM_GM_CHANGE_CNT : RegSpec :=
  ⟨0x06, 0x10060190, 1, 4, 1, 4, .fix, .rw, 0x0, [⟨31, 0, .live⟩]⟩

/-- R308: [15:0] UTC_OFS. -/
def Reg.TIM_UTC_OFS : RegSpec :=
  ⟨0x06, 0x10060198, 1, 4, 1, 4, .fix, .rw, 0x25, [⟨15, 0, .live⟩]⟩

/-- R310: [31:0] TARGET_LO. -/
def Reg.TIM_TRIG0 : RegSpec :=
  ⟨0x06, 0x10060400, 32, 32, 1, 4, .fix, .rw, 0x0, [⟨31, 0, .live⟩]⟩

/-- R310: [31:0] TARGET_HI. -/
def Reg.TIM_TRIG1 : RegSpec :=
  ⟨0x06, 0x10060404, 32, 32, 1, 4, .fix, .rw, 0x0, [⟨31, 0, .live⟩]⟩

/-- R310: [31:0] PERIOD. -/
def Reg.TIM_TRIG2 : RegSpec :=
  ⟨0x06, 0x10060408, 32, 32, 1, 4, .fix, .rw, 0x0, [⟨31, 0, .live⟩]⟩

/-- R310: [13:12] PIN_MODE; [11:8] PIN; [5:5] PIN_EN; [4:4] ANCHOR; [3:3] WIRE; [2:1] ACTION; [0:0] EN. -/
def Reg.TIM_TRIG3 : RegSpec :=
  ⟨0x06, 0x1006040C, 32, 32, 1, 4, .fix, .rw, 0x0, [⟨13, 12, .live⟩, ⟨11, 8, .live⟩, ⟨5, 5, .live⟩, ⟨4, 4, .live⟩, ⟨3, 3, .live⟩, ⟨2, 1, .live⟩, ⟨0, 0, .live⟩]⟩

/-- R310: [31:0] RECORD. -/
def Reg.TIM_TRIGREC : RegSpec :=
  ⟨0x06, 0x10060410, 32, 32, 4, 4, .fix, .rw, 0x0, [⟨31, 0, .live⟩]⟩

/-- R311: [7:7] EN; [6:5] EDGE; [4:0] SRC. -/
def Reg.TIM_CAPCFG : RegSpec :=
  ⟨0x06, 0x10060800, 16, 4, 1, 4, .fix, .rw, 0x0, [⟨7, 7, .live⟩, ⟨6, 5, .live⟩, ⟨4, 0, .live⟩]⟩

/-- R311: [31:0] SEC_LO. -/
def Reg.TIM_CAPQ0 : RegSpec :=
  ⟨0x06, 0x10060900, 16, 16, 1, 4, .fix, .ro, 0x0, [⟨31, 0, .live⟩]⟩

/-- R311: [31:0] SEC_HI. -/
def Reg.TIM_CAPQ1 : RegSpec :=
  ⟨0x06, 0x10060904, 16, 16, 1, 4, .fix, .ro, 0x0, [⟨31, 0, .live⟩]⟩

/-- R311: [29:0] NS. -/
def Reg.TIM_CAPQ2 : RegSpec :=
  ⟨0x06, 0x10060908, 16, 16, 1, 4, .fix, .ro, 0x0, [⟨29, 0, .live⟩]⟩

/-- R311: [31:31] VALID; [20:20] FALLING; [19:16] SCALE; [15:0] FRAC. -/
def Reg.TIM_CAPQ3 : RegSpec :=
  ⟨0x06, 0x1006090C, 16, 16, 1, 4, .fix, .ro, 0x0, [⟨31, 31, .live⟩, ⟨20, 20, .live⟩, ⟨19, 16, .live⟩, ⟨15, 0, .live⟩]⟩

/-- R335: [7:7] AN_EN; [6:6] SPEED_100; [5:4] FEC; [3:1] MODE; [0:0] EN. -/
def Reg.NET_MODE : RegSpec :=
  ⟨0x08, 0x10080100, 8, 4096, 1, 4, .fix, .rw, 0x0, [⟨7, 7, .frozen⟩, ⟨6, 6, .frozen⟩, ⟨5, 4, .frozen⟩, ⟨3, 1, .frozen⟩, ⟨0, 0, .live⟩]⟩

/-- R335: [13:0] MAX. -/
def Reg.NET_MAX_FRAME : RegSpec :=
  ⟨0x08, 0x10080104, 8, 4096, 1, 4, .fix, .rw, 0x5F2, [⟨13, 0, .live⟩]⟩

/-- R335: [16:16] BCAST_EN; [15:0] DA_EN. -/
def Reg.NET_FILTER : RegSpec :=
  ⟨0x08, 0x10080108, 8, 4096, 1, 4, .fix, .rw, 0x10000, [⟨16, 16, .live⟩, ⟨15, 0, .live⟩]⟩

/-- R335: [15:15] UNTAG_DROP; [14:14] TAG_DROP; [11:0] PVID. -/
def Reg.NET_VLAN : RegSpec :=
  ⟨0x08, 0x1008010C, 8, 4096, 1, 4, .fix, .rw, 0x1, [⟨15, 15, .live⟩, ⟨14, 14, .live⟩, ⟨11, 0, .live⟩]⟩

/-- R335: [24:0] IDLE_SLOPE. -/
def Reg.NET_IDLE_A : RegSpec :=
  ⟨0x08, 0x10080110, 8, 4096, 1, 4, .fix, .rw, 0x0, [⟨24, 0, .live⟩]⟩

/-- R335: [24:0] IDLE_SLOPE. -/
def Reg.NET_IDLE_B : RegSpec :=
  ⟨0x08, 0x10080114, 8, 4096, 1, 4, .fix, .rw, 0x0, [⟨24, 0, .live⟩]⟩

/-- R335: [3:1] RATE; [0:0] LINK. -/
def Reg.NET_STATUS : RegSpec :=
  ⟨0x08, 0x10080118, 8, 4096, 1, 4, .fix, .ro, 0x0, [⟨3, 1, .live⟩, ⟨0, 0, .live⟩]⟩

/-- R335: [1:1] LINK_DOWN_STK; [0:0] PCS_ERR_STK. -/
def Reg.NET_HIST : RegSpec :=
  ⟨0x08, 0x1008011C, 8, 4096, 1, 4, .fix, .w1c, 0x0, [⟨1, 1, .live⟩, ⟨0, 0, .live⟩]⟩

/-- R335: [31:0] ADDR_LO. -/
def Reg.NET_DA_LO : RegSpec :=
  ⟨0x08, 0x10080200, 8, 4096, 16, 8, .fix, .rw, 0x0, [⟨31, 0, .live⟩]⟩

/-- R335: [15:0] ADDR_HI. -/
def Reg.NET_DA_HI : RegSpec :=
  ⟨0x08, 0x10080204, 8, 4096, 16, 8, .fix, .rw, 0x0, [⟨15, 0, .live⟩]⟩

/-- R336: [31:0] CNT. -/
def Reg.NET_RX_OK_CNT : RegSpec :=
  ⟨0x08, 0x10080300, 8, 4096, 1, 4, .fix, .rw, 0x0, [⟨31, 0, .live⟩]⟩

/-- R336: [31:0] CNT. -/
def Reg.NET_TX_OK_CNT : RegSpec :=
  ⟨0x08, 0x10080304, 8, 4096, 1, 4, .fix, .rw, 0x0, [⟨31, 0, .live⟩]⟩

/-- R336: [31:0] CNT. -/
def Reg.NET_RUNT_CNT : RegSpec :=
  ⟨0x08, 0x10080308, 8, 4096, 1, 4, .fix, .rw, 0x0, [⟨31, 0, .live⟩]⟩

/-- R336: [31:0] CNT. -/
def Reg.NET_GIANT_CNT : RegSpec :=
  ⟨0x08, 0x1008030C, 8, 4096, 1, 4, .fix, .rw, 0x0, [⟨31, 0, .live⟩]⟩

/-- R336: [31:0] CNT. -/
def Reg.NET_FCS_CNT : RegSpec :=
  ⟨0x08, 0x10080310, 8, 4096, 1, 4, .fix, .rw, 0x0, [⟨31, 0, .live⟩]⟩

/-- R336: [31:0] CNT. -/
def Reg.NET_PCS_ERR_CNT : RegSpec :=
  ⟨0x08, 0x10080314, 8, 4096, 1, 4, .fix, .rw, 0x0, [⟨31, 0, .live⟩]⟩

/-- R336: [31:0] CNT. -/
def Reg.NET_FILTER_CNT : RegSpec :=
  ⟨0x08, 0x10080318, 8, 4096, 1, 4, .fix, .rw, 0x0, [⟨31, 0, .live⟩]⟩

/-- R336: [31:0] CNT. -/
def Reg.NET_VLAN_CNT : RegSpec :=
  ⟨0x08, 0x1008031C, 8, 4096, 1, 4, .fix, .rw, 0x0, [⟨31, 0, .live⟩]⟩

/-- R336: [31:0] CNT. -/
def Reg.NET_PAUSE_CNT : RegSpec :=
  ⟨0x08, 0x10080320, 8, 4096, 1, 4, .fix, .rw, 0x0, [⟨31, 0, .live⟩]⟩

/-- R336: [31:0] CNT. -/
def Reg.NET_TX_DISCARD_CNT : RegSpec :=
  ⟨0x08, 0x10080324, 8, 4096, 1, 4, .fix, .rw, 0x0, [⟨31, 0, .live⟩]⟩

/-- R340: [15:0] FREE. -/
def Reg.QMG_POOL : RegSpec :=
  ⟨0x09, 0x10090100, 1, 4, 1, 4, .fix, .ro, 0x8000, [⟨15, 0, .live⟩]⟩

/-- R340: [15:0] MIN. -/
def Reg.QMG_POOL_MIN : RegSpec :=
  ⟨0x09, 0x10090104, 1, 4, 1, 4, .fix, .rw, 0x8000, [⟨15, 0, .live⟩]⟩

/-- R340: [18:16] OP; [8:0] QUEUE. -/
def Reg.QMG_OP : RegSpec :=
  ⟨0x09, 0x10090108, 1, 4, 1, 4, .fix, .wo, 0x0, [⟨18, 16, .live⟩, ⟨8, 0, .live⟩]⟩

/-- R340: [31:0] ADDR_LO. -/
def Reg.QMG_OP_ADDR_LO : RegSpec :=
  ⟨0x09, 0x1009010C, 1, 4, 1, 4, .fix, .rw, 0x0, [⟨31, 0, .live⟩]⟩

/-- R340: [7:0] ADDR_HI. -/
def Reg.QMG_OP_ADDR_HI : RegSpec :=
  ⟨0x09, 0x10090110, 1, 4, 1, 4, .fix, .rw, 0x0, [⟨7, 0, .live⟩]⟩

/-- R340: [13:0] MAX. -/
def Reg.QMG_OP_MAX : RegSpec :=
  ⟨0x09, 0x10090114, 1, 4, 1, 4, .fix, .rw, 0x25A0, [⟨13, 0, .live⟩]⟩

/-- R340: [31:31] BUSY; [18:16] RESULT; [13:0] LEN. -/
def Reg.QMG_OP_STAT : RegSpec :=
  ⟨0x09, 0x10090118, 1, 4, 1, 4, .fix, .ro, 0x0, [⟨31, 31, .live⟩, ⟨18, 16, .live⟩, ⟨13, 0, .live⟩]⟩

/-- R340: [31:0] ADDR_LO. -/
def Reg.QMG_TXS_ADDR_LO : RegSpec :=
  ⟨0x09, 0x10090120, 1, 4, 1, 4, .fix, .rw, 0x0, [⟨31, 0, .live⟩]⟩

/-- R340: [7:0] ADDR_HI. -/
def Reg.QMG_TXS_ADDR_HI : RegSpec :=
  ⟨0x09, 0x10090124, 1, 4, 1, 4, .fix, .rw, 0x0, [⟨7, 0, .live⟩]⟩

/-- R340: [13:0] LEN. -/
def Reg.QMG_TXS_LEN : RegSpec :=
  ⟨0x09, 0x10090128, 1, 4, 1, 4, .fix, .rw, 0x0, [⟨13, 0, .live⟩]⟩

/-- R340: [8:0] QUEUE. -/
def Reg.QMG_TXS_GO : RegSpec :=
  ⟨0x09, 0x1009012C, 1, 4, 1, 4, .fix, .wo, 0x0, [⟨8, 0, .live⟩]⟩

/-- R340: [31:31] BUSY; [18:16] RESULT; [13:0] LEN. -/
def Reg.QMG_TXS_STAT : RegSpec :=
  ⟨0x09, 0x10090130, 1, 4, 1, 4, .fix, .ro, 0x0, [⟨31, 31, .live⟩, ⟨18, 16, .live⟩, ⟨13, 0, .live⟩]⟩

/-- R340: [1:1] NOSTEER_STK; [0:0] NOCELL_STK. -/
def Reg.QMG_STAT : RegSpec :=
  ⟨0x09, 0x10090134, 1, 4, 1, 4, .fix, .w1c, 0x0, [⟨1, 1, .live⟩, ⟨0, 0, .live⟩]⟩

/-- R340: [31:0] NOCELL_CNT. -/
def Reg.QMG_NOCELL_CNT : RegSpec :=
  ⟨0x09, 0x10090138, 1, 4, 1, 4, .fix, .rw, 0x0, [⟨31, 0, .live⟩]⟩

/-- R340: [31:0] NOSTEER_CNT. -/
def Reg.QMG_NOSTEER_CNT : RegSpec :=
  ⟨0x09, 0x1009013C, 1, 4, 1, 4, .fix, .rw, 0x0, [⟨31, 0, .live⟩]⟩

/-- R340: [31:0] BAD_OP_CNT. -/
def Reg.QMG_BAD_OP_CNT : RegSpec :=
  ⟨0x09, 0x10090140, 1, 4, 1, 4, .fix, .rw, 0x0, [⟨31, 0, .live⟩]⟩

/-- R337: [31:31] EN; [30:30] DIR; [29:28] CLASS; [23:20] PORT; [3:0] CONSUMER. -/
def Reg.QUEUE0 : RegSpec :=
  ⟨0x09, 0x40D00000, 512, 16, 1, 4, .fix, .rw, 0x0, [⟨31, 31, .live⟩, ⟨30, 30, .frozen⟩, ⟨29, 28, .frozen⟩, ⟨23, 20, .frozen⟩, ⟨3, 0, .frozen⟩]⟩

/-- R337: [31:16] LEVEL; [15:0] QUOTA. -/
def Reg.QUEUE1 : RegSpec :=
  ⟨0x09, 0x40D00004, 512, 16, 1, 4, .fix, .rw, 0x0, [⟨31, 16, .live⟩, ⟨15, 0, .live⟩]⟩

/-- R337: [0:0] LEVEL_EN. -/
def Reg.QUEUE2 : RegSpec :=
  ⟨0x09, 0x40D00008, 512, 16, 1, 4, .fix, .rw, 0x0, [⟨0, 0, .live⟩]⟩

/-- R338: [31:16] LINKED; [15:0] HELD. -/
def Reg.QSTAT0 : RegSpec :=
  ⟨0x09, 0x40D10000, 512, 16, 1, 4, .fix, .ro, 0x0, [⟨31, 16, .live⟩, ⟨15, 0, .live⟩]⟩

/-- R338: [31:16] UNREAD; [15:0] FRAMES. -/
def Reg.QSTAT1 : RegSpec :=
  ⟨0x09, 0x40D10004, 512, 16, 1, 4, .fix, .ro, 0x0, [⟨31, 16, .live⟩, ⟨15, 0, .live⟩]⟩

/-- R338: [15:0] NOCELL. -/
def Reg.QSTAT2 : RegSpec :=
  ⟨0x09, 0x40D10008, 512, 16, 1, 4, .fix, .rw, 0x0, [⟨15, 0, .live⟩]⟩

/-- R339: [31:31] EN; [30:30] VID_ANY; [23:16] PORTS; [11:0] VID. -/
def Reg.STEER0 : RegSpec :=
  ⟨0x09, 0x40D20000, 256, 16, 1, 4, .fix, .rw, 0x0, [⟨31, 31, .live⟩, ⟨30, 30, .live⟩, ⟨23, 16, .live⟩, ⟨11, 0, .live⟩]⟩

/-- R339: [16:16] ETYPE_ANY; [15:0] ETYPE. -/
def Reg.STEER1 : RegSpec :=
  ⟨0x09, 0x40D20004, 256, 16, 1, 4, .fix, .rw, 0x0, [⟨16, 16, .live⟩, ⟨15, 0, .live⟩]⟩

/-- R339: [31:0] IP_DST. -/
def Reg.STEER2 : RegSpec :=
  ⟨0x09, 0x40D20008, 256, 16, 1, 4, .fix, .rw, 0x0, [⟨31, 0, .live⟩]⟩

/-- R339: [31:16] UDP_DST; [8:0] QUEUE. -/
def Reg.STEER3 : RegSpec :=
  ⟨0x09, 0x40D2000C, 256, 16, 1, 4, .fix, .rw, 0x0, [⟨31, 16, .live⟩, ⟨8, 0, .live⟩]⟩

/-- R367: [31:0] IP. -/
def Reg.MST_PORT_IP : RegSpec :=
  ⟨0x0A, 0x100A0100, 8, 4, 1, 4, .fix, .rw, 0x0, [⟨31, 0, .live⟩]⟩

/-- R367: [0:0] EN. -/
def Reg.MST_IGMP : RegSpec :=
  ⟨0x0A, 0x100A0120, 1, 4, 1, 4, .fix, .rw, 0x1, [⟨0, 0, .live⟩]⟩

/-- R367: [4:4] RANGE_STK; [3:3] HOLD_STK; [2:2] CLAIM_STK; [1:1] BAD_STK; [0:0] LATE_STK. -/
def Reg.MST_STAT : RegSpec :=
  ⟨0x0A, 0x100A0124, 1, 4, 1, 4, .fix, .w1c, 0x0, [⟨4, 4, .live⟩, ⟨3, 3, .live⟩, ⟨2, 2, .live⟩, ⟨1, 1, .live⟩, ⟨0, 0, .live⟩]⟩

/-- R368: [31:0] CNT. -/
def Reg.MST_LATE_CNT : RegSpec :=
  ⟨0x0A, 0x100A0128, 1, 4, 1, 4, .fix, .rw, 0x0, [⟨31, 0, .live⟩]⟩

/-- R368: [31:0] CNT. -/
def Reg.MST_EARLY_CNT : RegSpec :=
  ⟨0x0A, 0x100A012C, 1, 4, 1, 4, .fix, .rw, 0x0, [⟨31, 0, .live⟩]⟩

/-- R368: [31:0] CNT. -/
def Reg.MST_BAD_CNT : RegSpec :=
  ⟨0x0A, 0x100A0130, 1, 4, 1, 4, .fix, .rw, 0x0, [⟨31, 0, .live⟩]⟩

/-- R368: [31:0] CNT. -/
def Reg.MST_ARP_CNT : RegSpec :=
  ⟨0x0A, 0x100A0134, 1, 4, 1, 4, .fix, .rw, 0x0, [⟨31, 0, .live⟩]⟩

/-- R344: [31:31] EN; [30:30] FORMAT; [29:29] ENC; [28:28] CLAIM_EN; [27:24] EXT_ID; [23:22] PTIME; [21:16] CHANNELS; [15:14] RATE; [13:13] PLACE; [12:12] DUAL; [5:0] GROUP. -/
def Reg.MRX0 : RegSpec :=
  ⟨0x0A, 0x40E00000, 256, 64, 1, 4, .fix, .rw, 0x5C0C03F, [⟨31, 31, .live⟩, ⟨30, 30, .frozen⟩, ⟨29, 29, .frozen⟩, ⟨28, 28, .frozen⟩, ⟨27, 24, .frozen⟩, ⟨23, 22, .frozen⟩, ⟨21, 16, .frozen⟩, ⟨15, 14, .frozen⟩, ⟨13, 13, .frozen⟩, ⟨12, 12, .frozen⟩, ⟨5, 0, .frozen⟩]⟩

/-- R344: [31:16] BUF; [8:0] QUEUE. -/
def Reg.MRX1 : RegSpec :=
  ⟨0x0A, 0x40E00004, 256, 64, 1, 4, .fix, .rw, 0x3E80000, [⟨31, 16, .frozen⟩, ⟨8, 0, .frozen⟩]⟩

/-- R344: [31:0] DST_IP. -/
def Reg.MRX2 : RegSpec :=
  ⟨0x0A, 0x40E00008, 256, 64, 1, 4, .fix, .rw, 0x0, [⟨31, 0, .frozen⟩]⟩

/-- R344: [31:0] SRC_IP. -/
def Reg.MRX3 : RegSpec :=
  ⟨0x0A, 0x40E0000C, 256, 64, 1, 4, .fix, .rw, 0x0, [⟨31, 0, .frozen⟩]⟩

/-- R344: [31:16] DST_UDP; [15:8] JOIN_PORTS; [6:0] PT. -/
def Reg.MRX4 : RegSpec :=
  ⟨0x0A, 0x40E00010, 256, 64, 1, 4, .fix, .rw, 0x0, [⟨31, 16, .frozen⟩, ⟨15, 8, .frozen⟩, ⟨6, 0, .frozen⟩]⟩

/-- R344: [31:0] RTP_OFFSET. -/
def Reg.MRX5 : RegSpec :=
  ⟨0x0A, 0x40E00014, 256, 64, 1, 4, .fix, .rw, 0x0, [⟨31, 0, .frozen⟩]⟩

/-- R344: [31:0] SID_LO. -/
def Reg.MRX6 : RegSpec :=
  ⟨0x0A, 0x40E00018, 256, 64, 1, 4, .fix, .rw, 0x0, [⟨31, 0, .frozen⟩]⟩

/-- R344: [15:0] MTT. -/
def Reg.MRX7 : RegSpec :=
  ⟨0x0A, 0x40E0001C, 256, 64, 1, 4, .fix, .rw, 0x7D0, [⟨15, 0, .frozen⟩]⟩

/-- R344: [31:0] SID_HI. -/
def Reg.MRX8 : RegSpec :=
  ⟨0x0A, 0x40E00020, 256, 64, 1, 4, .fix, .rw, 0x0, [⟨31, 0, .frozen⟩]⟩

/-- R345: [31:31] EN; [30:30] FORMAT; [29:29] ENC; [28:28] CLAIM_EN; [27:24] EXT_ID; [23:22] PTIME; [21:16] CHANNELS; [11:0] FIRST_SLOT. -/
def Reg.MTX0 : RegSpec :=
  ⟨0x0A, 0x40E10000, 256, 64, 1, 4, .fix, .rw, 0x5C00000, [⟨31, 31, .live⟩, ⟨30, 30, .frozen⟩, ⟨29, 29, .frozen⟩, ⟨28, 28, .frozen⟩, ⟨27, 24, .frozen⟩, ⟨23, 22, .frozen⟩, ⟨21, 16, .frozen⟩, ⟨11, 0, .frozen⟩]⟩

/-- R345: [24:16] QUEUE2; [8:0] QUEUE. -/
def Reg.MTX1 : RegSpec :=
  ⟨0x0A, 0x40E10004, 256, 64, 1, 4, .fix, .rw, 0x1FF0000, [⟨24, 16, .frozen⟩, ⟨8, 0, .frozen⟩]⟩

/-- R345: [31:0] DST_IP. -/
def Reg.MTX2 : RegSpec :=
  ⟨0x0A, 0x40E10008, 256, 64, 1, 4, .fix, .rw, 0x0, [⟨31, 0, .frozen⟩]⟩

/-- R345: [31:16] DST_UDP; [15:0] SRC_UDP. -/
def Reg.MTX3 : RegSpec :=
  ⟨0x0A, 0x40E1000C, 256, 64, 1, 4, .fix, .rw, 0x138C138C, [⟨31, 16, .frozen⟩, ⟨15, 0, .frozen⟩]⟩

/-- R345: [31:0] DST_MAC_LO. -/
def Reg.MTX4 : RegSpec :=
  ⟨0x0A, 0x40E10010, 256, 64, 1, 4, .fix, .rw, 0x0, [⟨31, 0, .frozen⟩]⟩

/-- R345: [29:24] DSCP; [23:16] TTL; [15:0] DST_MAC_HI. -/
def Reg.MTX5 : RegSpec :=
  ⟨0x0A, 0x40E10014, 256, 64, 1, 4, .fix, .rw, 0x22100000, [⟨29, 24, .frozen⟩, ⟨23, 16, .frozen⟩, ⟨15, 0, .frozen⟩]⟩

/-- R345: [31:31] TAG_EN; [30:28] PCP; [27:27] MAC_AUTO; [22:16] PT; [15:12] SA_ENTRY; [11:0] VID. -/
def Reg.MTX6 : RegSpec :=
  ⟨0x0A, 0x40E10018, 256, 64, 1, 4, .fix, .rw, 0x8610000, [⟨31, 31, .frozen⟩, ⟨30, 28, .frozen⟩, ⟨27, 27, .frozen⟩, ⟨22, 16, .frozen⟩, ⟨15, 12, .frozen⟩, ⟨11, 0, .frozen⟩]⟩

/-- R345: [31:0] SSRC. -/
def Reg.MTX7 : RegSpec :=
  ⟨0x0A, 0x40E1001C, 256, 64, 1, 4, .fix, .rw, 0x0, [⟨31, 0, .frozen⟩]⟩

/-- R345: [31:0] RTP_OFFSET. -/
def Reg.MTX8 : RegSpec :=
  ⟨0x0A, 0x40E10020, 256, 64, 1, 4, .fix, .rw, 0x0, [⟨31, 0, .frozen⟩]⟩

/-- R345: [31:0] SID. -/
def Reg.MTX9 : RegSpec :=
  ⟨0x0A, 0x40E10024, 256, 64, 2, 4, .fix, .rw, 0x0, [⟨31, 0, .frozen⟩]⟩

/-- R366: [7:7] LEG_B; [6:6] LEG_A; [3:3] GROUP_BAD; [2:0] STATE. -/
def Reg.MRXS0 : RegSpec :=
  ⟨0x0A, 0x40E20000, 256, 32, 1, 4, .fix, .ro, 0x0, [⟨7, 7, .live⟩, ⟨6, 6, .live⟩, ⟨3, 3, .live⟩, ⟨2, 0, .live⟩]⟩

/-- R366: [31:0] ACCEPTED. -/
def Reg.MRXS1 : RegSpec :=
  ⟨0x0A, 0x40E20004, 256, 32, 1, 4, .fix, .ro, 0x0, [⟨31, 0, .live⟩]⟩

/-- R366: [31:0] LEAD. -/
def Reg.MRXS2 : RegSpec :=
  ⟨0x0A, 0x40E20008, 256, 32, 1, 4, .fix, .ro, 0x0, [⟨31, 0, .live⟩]⟩

/-- R366: [31:0] D. -/
def Reg.MRXS3 : RegSpec :=
  ⟨0x0A, 0x40E2000C, 256, 32, 1, 4, .fix, .ro, 0x0, [⟨31, 0, .live⟩]⟩

/-- R366: [31:16] LATE; [15:0] EARLY. -/
def Reg.MRXS4 : RegSpec :=
  ⟨0x0A, 0x40E20010, 256, 32, 1, 4, .fix, .rw, 0x0, [⟨31, 16, .live⟩, ⟨15, 0, .live⟩]⟩

/-- R366: [31:16] CONCEAL; [15:0] BAD. -/
def Reg.MRXS5 : RegSpec :=
  ⟨0x0A, 0x40E20014, 256, 32, 1, 4, .fix, .rw, 0x0, [⟨31, 16, .live⟩, ⟨15, 0, .live⟩]⟩

/-- R366: [31:16] LOSS_A; [15:0] LOSS_B. -/
def Reg.MRXS6 : RegSpec :=
  ⟨0x0A, 0x40E20018, 256, 32, 1, 4, .fix, .rw, 0x0, [⟨31, 16, .live⟩, ⟨15, 0, .live⟩]⟩

/-- R366: [31:16] SLIPS; [15:0] SWITCH. -/
def Reg.MRXS7 : RegSpec :=
  ⟨0x0A, 0x40E2001C, 256, 32, 1, 4, .fix, .rw, 0x0, [⟨31, 16, .live⟩, ⟨15, 0, .live⟩]⟩

/-- R366: [2:0] STATE. -/
def Reg.MTXS0 : RegSpec :=
  ⟨0x0A, 0x40E30000, 256, 16, 1, 4, .fix, .ro, 0x0, [⟨2, 0, .live⟩]⟩

/-- R366: [31:0] PACKETS. -/
def Reg.MTXS1 : RegSpec :=
  ⟨0x0A, 0x40E30004, 256, 16, 1, 4, .fix, .ro, 0x0, [⟨31, 0, .live⟩]⟩

/-- R366: [15:0] NOCELL. -/
def Reg.MTXS2 : RegSpec :=
  ⟨0x0A, 0x40E30008, 256, 16, 1, 4, .fix, .rw, 0x0, [⟨15, 0, .live⟩]⟩

/-- R73: [6:0] PEND. -/
def Reg.MST_TAG_PEND : RegSpec :=
  ⟨0x0A, 0x100AFFF0, 1, 4, 1, 4, .fix, .ro, 0x0, [⟨6, 0, .live⟩]⟩

/-- R73: [31:0] LATE_CNT. -/
def Reg.MST_TAG_LATE_CNT : RegSpec :=
  ⟨0x0A, 0x100AFFF4, 1, 4, 1, 4, .fix, .rw, 0x0, [⟨31, 0, .live⟩]⟩

/-- R73: [31:0] STALE_CNT. -/
def Reg.MST_TAG_STALE_CNT : RegSpec :=
  ⟨0x0A, 0x100AFFF8, 1, 4, 1, 4, .fix, .rw, 0x0, [⟨31, 0, .live⟩]⟩

/-- R384: [23:16] TIME_INT; [3:3] TIME_EN; [2:2] SHED_EN; [1:1] CMD_EN; [0:0] EN. -/
def Reg.LNK_CFG : RegSpec :=
  ⟨0x0B, 0x100B0100, 8, 4096, 1, 4, .fix, .rw, 0xA0004, [⟨23, 16, .live⟩, ⟨3, 3, .live⟩, ⟨2, 2, .live⟩, ⟨1, 1, .live⟩, ⟨0, 0, .live⟩]⟩

/-- R384: [24:16] OBJECT_Q; [8:0] AUDIO_Q. -/
def Reg.LNK_RXQ0 : RegSpec :=
  ⟨0x0B, 0x100B0104, 8, 4096, 1, 4, .fix, .rw, 0x1FF01FF, [⟨24, 16, .live⟩, ⟨8, 0, .live⟩]⟩

/-- R384: [24:16] CMD_Q; [8:0] PAR_Q. -/
def Reg.LNK_RXQ1 : RegSpec :=
  ⟨0x0B, 0x100B0108, 8, 4096, 1, 4, .fix, .rw, 0x1FF01FF, [⟨24, 16, .live⟩, ⟨8, 0, .live⟩]⟩

/-- R384: [23:16] RESTORE_PCT; [15:8] SHED_PCT; [7:0] SHED_HOLD. -/
def Reg.LNK_SHED : RegSpec :=
  ⟨0x0B, 0x100B010C, 8, 4096, 1, 4, .fix, .rw, 0x4B2364, [⟨23, 16, .live⟩, ⟨15, 8, .live⟩, ⟨7, 0, .live⟩]⟩

/-- R384: [9:0] MARGIN_MIN. -/
def Reg.LNK_MARGIN : RegSpec :=
  ⟨0x0B, 0x100B0110, 8, 4096, 1, 4, .fix, .rw, 0xFA, [⟨9, 0, .live⟩]⟩

/-- R384: [31:0] ASYM. -/
def Reg.LNK_ASYM : RegSpec :=
  ⟨0x0B, 0x100B0114, 8, 4096, 1, 4, .fix, .rw, 0x0, [⟨31, 0, .live⟩]⟩

/-- R384: [20:16] RETIRED; [10:8] RX_WIDTH; [6:4] TX_WIDTH; [1:1] TRANSITION; [0:0] LINK. -/
def Reg.LNK_STATUS : RegSpec :=
  ⟨0x0B, 0x100B0118, 8, 4096, 1, 4, .fix, .ro, 0x0, [⟨20, 16, .live⟩, ⟨10, 8, .live⟩, ⟨6, 4, .live⟩, ⟨1, 1, .live⟩, ⟨0, 0, .live⟩]⟩

/-- R384: [4:4] SHED_FAIL_STK; [3:3] NOSPARE_STK; [2:2] SPARE_STK; [1:1] PCS_ERR_STK; [0:0] LINK_DOWN_STK. -/
def Reg.LNK_HIST : RegSpec :=
  ⟨0x0B, 0x100B011C, 8, 4096, 1, 4, .fix, .w1c, 0x0, [⟨4, 4, .live⟩, ⟨3, 3, .live⟩, ⟨2, 2, .live⟩, ⟨1, 1, .live⟩, ⟨0, 0, .live⟩]⟩

/-- R384: [31:0] PEER. -/
def Reg.LNK_PEER_CLK : RegSpec :=
  ⟨0x0B, 0x100B0120, 8, 4096, 1, 4, .fix, .ro, 0x0, [⟨31, 0, .live⟩]⟩

/-- R384: [9:0] MARGIN. -/
def Reg.LNK_LANE_MARGIN : RegSpec :=
  ⟨0x0B, 0x100B0130, 8, 4096, 5, 4, .fix, .ro, 0x0, [⟨9, 0, .live⟩]⟩

/-- R385: [31:0] CNT. -/
def Reg.LNK_RX_OK_CNT : RegSpec :=
  ⟨0x0B, 0x100B0200, 8, 4096, 1, 4, .fix, .rw, 0x0, [⟨31, 0, .live⟩]⟩

/-- R385: [31:0] CNT. -/
def Reg.LNK_TX_OK_CNT : RegSpec :=
  ⟨0x0B, 0x100B0204, 8, 4096, 1, 4, .fix, .rw, 0x0, [⟨31, 0, .live⟩]⟩

/-- R385: [31:0] CNT. -/
def Reg.LNK_RUNT_CNT : RegSpec :=
  ⟨0x0B, 0x100B0208, 8, 4096, 1, 4, .fix, .rw, 0x0, [⟨31, 0, .live⟩]⟩

/-- R385: [31:0] CNT. -/
def Reg.LNK_GIANT_CNT : RegSpec :=
  ⟨0x0B, 0x100B020C, 8, 4096, 1, 4, .fix, .rw, 0x0, [⟨31, 0, .live⟩]⟩

/-- R385: [31:0] CNT. -/
def Reg.LNK_ALIGN_CNT : RegSpec :=
  ⟨0x0B, 0x100B0210, 8, 4096, 1, 4, .fix, .rw, 0x0, [⟨31, 0, .live⟩]⟩

/-- R385: [31:0] CNT. -/
def Reg.LNK_CRC_CNT : RegSpec :=
  ⟨0x0B, 0x100B0214, 8, 4096, 1, 4, .fix, .rw, 0x0, [⟨31, 0, .live⟩]⟩

/-- R385: [31:0] CNT. -/
def Reg.LNK_PCS_ERR_CNT : RegSpec :=
  ⟨0x0B, 0x100B0218, 8, 4096, 1, 4, .fix, .rw, 0x0, [⟨31, 0, .live⟩]⟩

/-- R385: [31:0] CNT. -/
def Reg.LNK_BAD_CNT : RegSpec :=
  ⟨0x0B, 0x100B021C, 8, 4096, 1, 4, .fix, .rw, 0x0, [⟨31, 0, .live⟩]⟩

/-- R385: [31:0] CNT. -/
def Reg.LNK_TX_DISCARD_CNT : RegSpec :=
  ⟨0x0B, 0x100B0220, 8, 4096, 1, 4, .fix, .rw, 0x0, [⟨31, 0, .live⟩]⟩

/-- R385: [31:0] CNT. -/
def Reg.LNK_WIDTH_CNT : RegSpec :=
  ⟨0x0B, 0x100B0224, 8, 4096, 1, 4, .fix, .rw, 0x0, [⟨31, 0, .live⟩]⟩

/-- R385: [31:0] CNT. -/
def Reg.LNK_SHED_FAIL_CNT : RegSpec :=
  ⟨0x0B, 0x100B0228, 8, 4096, 1, 4, .fix, .rw, 0x0, [⟨31, 0, .live⟩]⟩

/-- R385: [31:0] CNT. -/
def Reg.LNK_SPARE_CNT : RegSpec :=
  ⟨0x0B, 0x100B022C, 8, 4096, 1, 4, .fix, .rw, 0x0, [⟨31, 0, .live⟩]⟩

/-- R386: [31:31] EN; [21:16] CHANNELS; [11:0] FIRST_SLOT. -/
def Reg.LTX0 : RegSpec :=
  ⟨0x0B, 0x40E80000, 256, 16, 1, 4, .fix, .rw, 0x0, [⟨31, 31, .live⟩, ⟨21, 16, .frozen⟩, ⟨11, 0, .frozen⟩]⟩

/-- R386: [8:0] QUEUE. -/
def Reg.LTX1 : RegSpec :=
  ⟨0x0B, 0x40E80004, 256, 16, 1, 4, .fix, .rw, 0x0, [⟨8, 0, .frozen⟩]⟩

/-- R386: [31:31] EN; [28:28] CLAIM_EN; [19:16] DELAY. -/
def Reg.LRX0 : RegSpec :=
  ⟨0x0B, 0x40E90000, 256, 16, 1, 4, .fix, .rw, 0x20000, [⟨31, 31, .live⟩, ⟨28, 28, .frozen⟩, ⟨19, 16, .frozen⟩]⟩

/-- R386: [2:0] STATE. -/
def Reg.LRXS0 : RegSpec :=
  ⟨0x0B, 0x40EA0000, 256, 32, 1, 4, .fix, .ro, 0x0, [⟨2, 0, .live⟩]⟩

/-- R386: [31:0] ACCEPTED. -/
def Reg.LRXS1 : RegSpec :=
  ⟨0x0B, 0x40EA0004, 256, 32, 1, 4, .fix, .ro, 0x0, [⟨31, 0, .live⟩]⟩

/-- R386: [31:0] LEAD. -/
def Reg.LRXS2 : RegSpec :=
  ⟨0x0B, 0x40EA0008, 256, 32, 1, 4, .fix, .ro, 0x0, [⟨31, 0, .live⟩]⟩

/-- R386: [31:0] D. -/
def Reg.LRXS3 : RegSpec :=
  ⟨0x0B, 0x40EA000C, 256, 32, 1, 4, .fix, .ro, 0x0, [⟨31, 0, .live⟩]⟩

/-- R386: [31:16] LATE; [15:0] EARLY. -/
def Reg.LRXS4 : RegSpec :=
  ⟨0x0B, 0x40EA0010, 256, 32, 1, 4, .fix, .rw, 0x0, [⟨31, 16, .live⟩, ⟨15, 0, .live⟩]⟩

/-- R386: [31:16] CONCEAL; [15:0] BAD. -/
def Reg.LRXS5 : RegSpec :=
  ⟨0x0B, 0x40EA0014, 256, 32, 1, 4, .fix, .rw, 0x0, [⟨31, 16, .live⟩, ⟨15, 0, .live⟩]⟩

/-- R386: [15:0] SWITCH. -/
def Reg.LRXS7 : RegSpec :=
  ⟨0x0B, 0x40EA001C, 256, 32, 1, 4, .fix, .rw, 0x0, [⟨15, 0, .live⟩]⟩

/-- R73: [6:0] PEND. -/
def Reg.LNK_TAG_PEND : RegSpec :=
  ⟨0x0B, 0x100BFFF0, 1, 4, 1, 4, .fix, .ro, 0x0, [⟨6, 0, .live⟩]⟩

/-- R73: [31:0] LATE_CNT. -/
def Reg.LNK_TAG_LATE_CNT : RegSpec :=
  ⟨0x0B, 0x100BFFF4, 1, 4, 1, 4, .fix, .rw, 0x0, [⟨31, 0, .live⟩]⟩

/-- R73: [31:0] STALE_CNT. -/
def Reg.LNK_TAG_STALE_CNT : RegSpec :=
  ⟨0x0B, 0x100BFFF8, 1, 4, 1, 4, .fix, .rw, 0x0, [⟨31, 0, .live⟩]⟩

/-- R407: [17:0] MCLK. -/
def Reg.TDM_MCLK : RegSpec :=
  ⟨0x0C, 0x100C0100, 1, 4, 1, 4, .fix, .rw, 0x0, [⟨17, 0, .live⟩]⟩

/-- R407: [31:31] EN; [30:30] DIR; [29:28] CLK_SEL; [27:22] CLK_PORT; [21:18] RATE; [17:15] FORMAT; [14:13] SLOTS; [12:11] SLOT_W; [10:9] SAMPLE_W; [8:8] DELAY1; [7:7] BCLK_INV; [6:6] FS_INV; [5:5] DATA_AUTO. -/
def Reg.TDM_CFG : RegSpec :=
  ⟨0x0C, 0x100C1000, 48, 32, 1, 4, .fix, .rw, 0x201220, [⟨31, 31, .live⟩, ⟨30, 30, .frozen⟩, ⟨29, 28, .frozen⟩, ⟨27, 22, .frozen⟩, ⟨21, 18, .frozen⟩, ⟨17, 15, .frozen⟩, ⟨14, 13, .frozen⟩, ⟨12, 11, .frozen⟩, ⟨10, 9, .frozen⟩, ⟨8, 8, .frozen⟩, ⟨7, 7, .frozen⟩, ⟨6, 6, .frozen⟩, ⟨5, 5, .frozen⟩]⟩

/-- R407: [27:16] SLIP_PPM; [11:0] FIRST_SLOT. -/
def Reg.TDM_CFG2 : RegSpec :=
  ⟨0x0C, 0x100C1004, 48, 32, 1, 4, .fix, .rw, 0xC80000, [⟨27, 16, .live⟩, ⟨11, 0, .frozen⟩]⟩

/-- R407: [31:14] RATE; [2:0] STATE. -/
def Reg.TDM_STAT : RegSpec :=
  ⟨0x0C, 0x100C1008, 48, 32, 1, 4, .fix, .ro, 0x0, [⟨31, 14, .live⟩, ⟨2, 0, .live⟩]⟩

/-- R407: [31:0] PPM. -/
def Reg.TDM_PPM : RegSpec :=
  ⟨0x0C, 0x100C100C, 48, 32, 1, 4, .fix, .ro, 0x0, [⟨31, 0, .live⟩]⟩

/-- R407: [4:4] EARLY_STK; [3:3] RANGE_STK; [2:2] SLIP_STK; [1:1] RATE_STK; [0:0] CLK_LOST_STK. -/
def Reg.TDM_HIST : RegSpec :=
  ⟨0x0C, 0x100C1010, 48, 32, 1, 4, .fix, .w1c, 0x0, [⟨4, 4, .live⟩, ⟨3, 3, .live⟩, ⟨2, 2, .live⟩, ⟨1, 1, .live⟩, ⟨0, 0, .live⟩]⟩

/-- R407: [31:0] CNT. -/
def Reg.TDM_SLIP_CNT : RegSpec :=
  ⟨0x0C, 0x100C1014, 48, 32, 1, 4, .fix, .rw, 0x0, [⟨31, 0, .live⟩]⟩

/-- R407: [31:0] CNT. -/
def Reg.TDM_GLITCH_CNT : RegSpec :=
  ⟨0x0C, 0x100C1018, 48, 32, 1, 4, .fix, .rw, 0x0, [⟨31, 0, .live⟩]⟩

/-- R407: [31:0] CNT. -/
def Reg.TDM_LOST_CNT : RegSpec :=
  ⟨0x0C, 0x100C101C, 48, 32, 1, 4, .fix, .rw, 0x0, [⟨31, 0, .live⟩]⟩

/-- R408: [31:31] RUN; [30:30] DIR; [29:28] PACK; [27:27] HDR; [26:26] WRAP; [25:25] CLASS; [23:16] PORT; [13:8] FIRST_CH; [3:0] CHANNELS. -/
def Reg.RING0 : RegSpec :=
  ⟨0x0C, 0x40F00000, 32, 32, 1, 4, .fix, .rw, 0x4000000, [⟨31, 31, .live⟩, ⟨30, 30, .frozen⟩, ⟨29, 28, .frozen⟩, ⟨27, 27, .frozen⟩, ⟨26, 26, .frozen⟩, ⟨25, 25, .frozen⟩, ⟨23, 16, .frozen⟩, ⟨13, 8, .frozen⟩, ⟨3, 0, .frozen⟩]⟩

/-- R408: [31:6] BASE_LO. -/
def Reg.RING1 : RegSpec :=
  ⟨0x0C, 0x40F00004, 32, 32, 1, 4, .fix, .rw, 0x0, [⟨31, 6, .frozen⟩]⟩

/-- R408: [7:0] BASE_HI. -/
def Reg.RING2 : RegSpec :=
  ⟨0x0C, 0x40F00008, 32, 32, 1, 4, .fix, .rw, 0x0, [⟨7, 0, .frozen⟩]⟩

/-- R408: [31:0] SIZE. -/
def Reg.RING3 : RegSpec :=
  ⟨0x0C, 0x40F0000C, 32, 32, 1, 4, .fix, .rw, 0x0, [⟨31, 0, .frozen⟩]⟩

/-- R408: [31:0] POS. -/
def Reg.RING4 : RegSpec :=
  ⟨0x0C, 0x40F00010, 32, 32, 1, 4, .fix, .ro, 0x0, [⟨31, 0, .live⟩]⟩

/-- R408: [31:0] LEVEL. -/
def Reg.RING5 : RegSpec :=
  ⟨0x0C, 0x40F00014, 32, 32, 1, 4, .fix, .rw, 0x0, [⟨31, 0, .live⟩]⟩

/-- R408: [31:16] DROP; [15:0] UNDER. -/
def Reg.RING6 : RegSpec :=
  ⟨0x0C, 0x40F00018, 32, 32, 1, 4, .fix, .rw, 0x0, [⟨31, 16, .live⟩, ⟨15, 0, .live⟩]⟩

/-- R73: [6:0] PEND. -/
def Reg.TDM_TAG_PEND : RegSpec :=
  ⟨0x0C, 0x100CFFF0, 1, 4, 1, 4, .fix, .ro, 0x0, [⟨6, 0, .live⟩]⟩

/-- R73: [31:0] LATE_CNT. -/
def Reg.TDM_TAG_LATE_CNT : RegSpec :=
  ⟨0x0C, 0x100CFFF4, 1, 4, 1, 4, .fix, .rw, 0x0, [⟨31, 0, .live⟩]⟩

/-- R73: [31:0] STALE_CNT. -/
def Reg.TDM_TAG_STALE_CNT : RegSpec :=
  ⟨0x0C, 0x100CFFF8, 1, 4, 1, 4, .fix, .rw, 0x0, [⟨31, 0, .live⟩]⟩

/-- R409: [31:31] EN; [30:30] RX_EN; [29:29] TX_EN; [28:25] RATE; [24:24] DATA_AUTO; [23:23] CS_AUTO; [22:22] SAC_EN; [11:0] FIRST_SLOT. -/
def Reg.AES_CFG : RegSpec :=
  ⟨0x0D, 0x100D1000, 8, 256, 1, 4, .fix, .rw, 0x1800000, [⟨31, 31, .live⟩, ⟨30, 30, .frozen⟩, ⟨29, 29, .frozen⟩, ⟨28, 25, .frozen⟩, ⟨24, 24, .frozen⟩, ⟨23, 23, .live⟩, ⟨22, 22, .live⟩, ⟨11, 0, .frozen⟩]⟩

/-- R409: [27:16] SLIP_PPM. -/
def Reg.AES_CFG2 : RegSpec :=
  ⟨0x0D, 0x100D1004, 8, 256, 1, 4, .fix, .rw, 0xC80000, [⟨27, 16, .live⟩]⟩

/-- R409: [31:14] RATE; [6:6] NONAUDIO; [5:5] CONSUMER; [4:4] CS_VALID; [2:0] STATE. -/
def Reg.AES_STAT : RegSpec :=
  ⟨0x0D, 0x100D1008, 8, 256, 1, 4, .fix, .ro, 0x0, [⟨31, 14, .live⟩, ⟨6, 6, .live⟩, ⟨5, 5, .live⟩, ⟨4, 4, .live⟩, ⟨2, 0, .live⟩]⟩

/-- R409: [31:0] PPM. -/
def Reg.AES_PPM : RegSpec :=
  ⟨0x0D, 0x100D100C, 8, 256, 1, 4, .fix, .ro, 0x0, [⟨31, 0, .live⟩]⟩

/-- R409: [6:6] EARLY_STK; [5:5] CS_CHANGE_STK; [4:4] PARITY_STK; [3:3] RANGE_STK; [2:2] SLIP_STK; [1:1] RATE_STK; [0:0] LOCK_LOST_STK. -/
def Reg.AES_HIST : RegSpec :=
  ⟨0x0D, 0x100D1010, 8, 256, 1, 4, .fix, .w1c, 0x0, [⟨6, 6, .live⟩, ⟨5, 5, .live⟩, ⟨4, 4, .live⟩, ⟨3, 3, .live⟩, ⟨2, 2, .live⟩, ⟨1, 1, .live⟩, ⟨0, 0, .live⟩]⟩

/-- R409: [31:0] CNT. -/
def Reg.AES_PARITY_CNT : RegSpec :=
  ⟨0x0D, 0x100D1014, 8, 256, 1, 4, .fix, .rw, 0x0, [⟨31, 0, .live⟩]⟩

/-- R409: [31:0] CNT. -/
def Reg.AES_VALIDITY_CNT : RegSpec :=
  ⟨0x0D, 0x100D1018, 8, 256, 1, 4, .fix, .rw, 0x0, [⟨31, 0, .live⟩]⟩

/-- R409: [31:0] CNT. -/
def Reg.AES_CS_CRC_CNT : RegSpec :=
  ⟨0x0D, 0x100D101C, 8, 256, 1, 4, .fix, .rw, 0x0, [⟨31, 0, .live⟩]⟩

/-- R409: [31:0] CNT. -/
def Reg.AES_SLIP_CNT : RegSpec :=
  ⟨0x0D, 0x100D1020, 8, 256, 1, 4, .fix, .rw, 0x0, [⟨31, 0, .live⟩]⟩

/-- R409: [31:0] CNT. -/
def Reg.AES_LOST_CNT : RegSpec :=
  ⟨0x0D, 0x100D1024, 8, 256, 1, 4, .fix, .rw, 0x0, [⟨31, 0, .live⟩]⟩

/-- R409: [31:0] CNT. -/
def Reg.AES_GLITCH_CNT : RegSpec :=
  ⟨0x0D, 0x100D1028, 8, 256, 1, 4, .fix, .rw, 0x0, [⟨31, 0, .live⟩]⟩

/-- R409: [31:0] CS. -/
def Reg.AES_CS_TX0 : RegSpec :=
  ⟨0x0D, 0x100D1040, 8, 256, 1, 4, .fix, .rw, 0x1, [⟨31, 0, .live⟩]⟩

/-- R409: [31:0] CS. -/
def Reg.AES_CS_TX1 : RegSpec :=
  ⟨0x0D, 0x100D1044, 8, 256, 5, 4, .fix, .rw, 0x0, [⟨31, 0, .live⟩]⟩

/-- R409: [31:0] CS. -/
def Reg.AES_CS_RXA : RegSpec :=
  ⟨0x0D, 0x100D1060, 8, 256, 6, 4, .fix, .ro, 0x0, [⟨31, 0, .live⟩]⟩

/-- R409: [31:0] CS. -/
def Reg.AES_CS_RXB : RegSpec :=
  ⟨0x0D, 0x100D1080, 8, 256, 6, 4, .fix, .ro, 0x0, [⟨31, 0, .live⟩]⟩

/-- R73: [6:0] PEND. -/
def Reg.AES_TAG_PEND : RegSpec :=
  ⟨0x0D, 0x100DFFF0, 1, 4, 1, 4, .fix, .ro, 0x0, [⟨6, 0, .live⟩]⟩

/-- R73: [31:0] LATE_CNT. -/
def Reg.AES_TAG_LATE_CNT : RegSpec :=
  ⟨0x0D, 0x100DFFF4, 1, 4, 1, 4, .fix, .rw, 0x0, [⟨31, 0, .live⟩]⟩

/-- R73: [31:0] STALE_CNT. -/
def Reg.AES_TAG_STALE_CNT : RegSpec :=
  ⟨0x0D, 0x100DFFF8, 1, 4, 1, 4, .fix, .rw, 0x0, [⟨31, 0, .live⟩]⟩

/-- R100: [10:0] WIN. -/
def Reg.INC_RMS_WIN : RegSpec :=
  ⟨0x10, 0x10100100, 1, 4, 1, 4, .fix, .rw, 0x12C, [⟨10, 0, .live⟩]⟩

/-- R100: [10:0] CAP. -/
def Reg.INC_ASRC_CAP : RegSpec :=
  ⟨0x10, 0x10100104, 1, 4, 1, 4, .fix, .ro, 0x200, [⟨10, 0, .live⟩]⟩

/-- R100: [10:0] USED. -/
def Reg.INC_ASRC_USED : RegSpec :=
  ⟨0x10, 0x10100108, 1, 4, 1, 4, .fix, .ro, 0x0, [⟨10, 0, .live⟩]⟩

/-- R100: [11:0] WF. -/
def Reg.INC_WF_COUNT : RegSpec :=
  ⟨0x10, 0x1010010C, 1, 4, 1, 4, .fix, .ro, 0x0, [⟨11, 0, .live⟩]⟩

/-- R100: [2:2] MISMATCH_STK; [1:1] RANGE_STK; [0:0] ASRC_OVER_STK. -/
def Reg.INC_STAT : RegSpec :=
  ⟨0x10, 0x10100110, 1, 4, 1, 4, .fix, .w1c, 0x0, [⟨2, 2, .live⟩, ⟨1, 1, .live⟩, ⟨0, 0, .live⟩]⟩

/-- R100: [31:0] CLIP_CNT. -/
def Reg.INC_CLIP_CNT : RegSpec :=
  ⟨0x10, 0x10100114, 1, 4, 1, 4, .fix, .rw, 0x0, [⟨31, 0, .live⟩]⟩

/-- R87: [17:12] CHAN; [11:4] INST; [3:0] CLASS. -/
def Reg.INCH0 : RegSpec :=
  ⟨0x10, 0x40100000, 3072, 16, 1, 4, .chan, .rw, 0xF, [⟨17, 12, .staged⟩, ⟨11, 4, .staged⟩, ⟨3, 0, .staged⟩]⟩

/-- R87: [23:16] SIL_THRESH; [8:6] TRIM_RAMP; [5:4] WIND; [3:3] UNSETTLED_MUTE; [2:1] PRESET; [0:0] ASRC_EN. -/
def Reg.INCH1 : RegSpec :=
  ⟨0x10, 0x40100004, 3072, 16, 1, 4, .chan, .rw, 0x5A00C2, [⟨23, 16, .live⟩, ⟨8, 6, .live⟩, ⟨5, 4, .staged⟩, ⟨3, 3, .staged⟩, ⟨2, 1, .staged⟩, ⟨0, 0, .staged⟩]⟩

/-- R87: [23:0] TRIM. -/
def Reg.INCH2 : RegSpec :=
  ⟨0x10, 0x40100008, 3072, 16, 1, 4, .chan, .rw, 0x100000, [⟨23, 0, .staged⟩]⟩

/-- R87: [15:0] SIL_HOLD. -/
def Reg.INCH3 : RegSpec :=
  ⟨0x10, 0x4010000C, 3072, 16, 1, 4, .chan, .rw, 0x2710, [⟨15, 0, .live⟩]⟩

/-- R88: [5:5] NO_ASRC; [4:4] MISMATCH; [3:3] OUT_OF_RANGE; [2:2] WALLFLOWER; [1:1] UNSETTLED; [0:0] LOCKED. -/
def Reg.INCS0 : RegSpec :=
  ⟨0x10, 0x40120000, 3072, 16, 1, 4, .chan, .ro, 0x0, [⟨5, 5, .live⟩, ⟨4, 4, .live⟩, ⟨3, 3, .live⟩, ⟨2, 2, .live⟩, ⟨1, 1, .live⟩, ⟨0, 0, .live⟩]⟩

/-- R88: [17:0] RATE. -/
def Reg.INCS1 : RegSpec :=
  ⟨0x10, 0x40120004, 3072, 16, 1, 4, .chan, .ro, 0x0, [⟨17, 0, .live⟩]⟩

/-- R88: [23:0] PEAK. -/
def Reg.INCS2 : RegSpec :=
  ⟨0x10, 0x40120008, 3072, 16, 1, 4, .chan, .rw, 0x0, [⟨23, 0, .live⟩]⟩

/-- R88: [23:0] RMS. -/
def Reg.INCS3 : RegSpec :=
  ⟨0x10, 0x4012000C, 3072, 16, 1, 4, .chan, .ro, 0x0, [⟨23, 0, .live⟩]⟩

/-- R73: [6:0] PEND. -/
def Reg.INC_TAG_PEND : RegSpec :=
  ⟨0x10, 0x1010FFF0, 1, 4, 1, 4, .fix, .ro, 0x0, [⟨6, 0, .live⟩]⟩

/-- R73: [31:0] LATE_CNT. -/
def Reg.INC_TAG_LATE_CNT : RegSpec :=
  ⟨0x10, 0x1010FFF4, 1, 4, 1, 4, .fix, .rw, 0x0, [⟨31, 0, .live⟩]⟩

/-- R73: [31:0] STALE_CNT. -/
def Reg.INC_TAG_STALE_CNT : RegSpec :=
  ⟨0x10, 0x1010FFF8, 1, 4, 1, 4, .fix, .rw, 0x0, [⟨31, 0, .live⟩]⟩

/-- R101: [31:0] CNT. -/
def Reg.RTE_PATCH_CLIP_CNT : RegSpec :=
  ⟨0x11, 0x10110100, 1, 4, 1, 4, .fix, .rw, 0x0, [⟨31, 0, .live⟩]⟩

/-- R101: [31:0] CNT. -/
def Reg.RTE_BUS_CLIP_CNT : RegSpec :=
  ⟨0x11, 0x10110104, 1, 4, 1, 4, .fix, .rw, 0x0, [⟨31, 0, .live⟩]⟩

/-- R101: [31:0] CNT. -/
def Reg.RTE_PATH_CUT_CNT : RegSpec :=
  ⟨0x11, 0x10110108, 1, 4, 1, 4, .fix, .rw, 0x0, [⟨31, 0, .live⟩]⟩

/-- R101: [31:0] CNT. -/
def Reg.RTE_ROUTE_BAD_CNT : RegSpec :=
  ⟨0x11, 0x1011010C, 1, 4, 1, 4, .fix, .rw, 0x0, [⟨31, 0, .live⟩]⟩

/-- R93: [14:12] RAMP; [11:0] SRC. -/
def Reg.RIN0 : RegSpec :=
  ⟨0x11, 0x40200000, 4096, 8, 1, 4, .rin, .rw, 0x3FFF, [⟨14, 12, .staged⟩, ⟨11, 0, .staged⟩]⟩

/-- R93: [23:0] GAIN. -/
def Reg.RIN1 : RegSpec :=
  ⟨0x11, 0x40200004, 4096, 8, 1, 4, .rin, .rw, 0x100000, [⟨23, 0, .staged⟩]⟩

/-- R93: [14:12] RAMP; [11:0] SRC. -/
def Reg.ROUT0 : RegSpec :=
  ⟨0x11, 0x40210000, 4096, 8, 1, 4, .fix, .rw, 0x3FFF, [⟨14, 12, .staged⟩, ⟨11, 0, .staged⟩]⟩

/-- R93: [23:0] GAIN. -/
def Reg.ROUT1 : RegSpec :=
  ⟨0x11, 0x40210004, 4096, 8, 1, 4, .fix, .rw, 0x100000, [⟨23, 0, .staged⟩]⟩

/-- R94: [26:24] RAMP; [23:0] GAIN. -/
def Reg.XPT : RegSpec :=
  ⟨0x11, 0x40240000, 65536, 4, 1, 4, .fix, .rw, 0x3000000, [⟨26, 24, .staged⟩, ⟨23, 0, .staged⟩]⟩

/-- R73: [6:0] PEND. -/
def Reg.RTE_TAG_PEND : RegSpec :=
  ⟨0x11, 0x1011FFF0, 1, 4, 1, 4, .fix, .ro, 0x0, [⟨6, 0, .live⟩]⟩

/-- R73: [31:0] LATE_CNT. -/
def Reg.RTE_TAG_LATE_CNT : RegSpec :=
  ⟨0x11, 0x1011FFF4, 1, 4, 1, 4, .fix, .rw, 0x0, [⟨31, 0, .live⟩]⟩

/-- R73: [31:0] STALE_CNT. -/
def Reg.RTE_TAG_STALE_CNT : RegSpec :=
  ⟨0x11, 0x1011FFF8, 1, 4, 1, 4, .fix, .rw, 0x0, [⟨31, 0, .live⟩]⟩

/-- R131: [2:2] COARSE_FORCE; [1:1] NATIVE_UDP_EN; [0:0] OSC_EN. -/
def Reg.MOT_CTRL : RegSpec :=
  ⟨0x12, 0x10120100, 1, 4, 1, 4, .fix, .rw, 0x0, [⟨2, 2, .live⟩, ⟨1, 1, .live⟩, ⟨0, 0, .live⟩]⟩

/-- R131: [15:0] PORT. -/
def Reg.MOT_OSC_PORT : RegSpec :=
  ⟨0x12, 0x10120104, 1, 4, 1, 4, .fix, .rw, 0xA3E8, [⟨15, 0, .live⟩]⟩

/-- R131: [15:0] PORT. -/
def Reg.MOT_NATIVE_PORT : RegSpec :=
  ⟨0x12, 0x10120108, 1, 4, 1, 4, .fix, .rw, 0xA3E9, [⟨15, 0, .live⟩]⟩

/-- R131: [7:0] OFFSET. -/
def Reg.MOT_TAI_UTC : RegSpec :=
  ⟨0x12, 0x1012010C, 1, 4, 1, 4, .fix, .rw, 0x25, [⟨7, 0, .live⟩]⟩

/-- R131: [2:2] SCHED_FULL_STK; [1:1] INQ_FULL_STK; [0:0] LOST_STK. -/
def Reg.MOT_STAT : RegSpec :=
  ⟨0x12, 0x10120110, 1, 4, 1, 4, .fix, .w1c, 0x0, [⟨2, 2, .live⟩, ⟨1, 1, .live⟩, ⟨0, 0, .live⟩]⟩

/-- R132: [31:0] CNT. -/
def Reg.MOT_OSC_BAD_CNT : RegSpec :=
  ⟨0x12, 0x10120114, 1, 4, 1, 4, .fix, .rw, 0x0, [⟨31, 0, .live⟩]⟩

/-- R132: [31:0] CNT. -/
def Reg.MOT_OSC_WILD_CNT : RegSpec :=
  ⟨0x12, 0x10120118, 1, 4, 1, 4, .fix, .rw, 0x0, [⟨31, 0, .live⟩]⟩

/-- R132: [31:0] CNT. -/
def Reg.MOT_NATIVE_BAD_CNT : RegSpec :=
  ⟨0x12, 0x1012011C, 1, 4, 1, 4, .fix, .rw, 0x0, [⟨31, 0, .live⟩]⟩

/-- R132: [31:0] CNT. -/
def Reg.MOT_PATH_CNT : RegSpec :=
  ⟨0x12, 0x10120120, 1, 4, 1, 4, .fix, .rw, 0x0, [⟨31, 0, .live⟩]⟩

/-- R132: [31:0] CNT. -/
def Reg.MOT_LATE_CNT : RegSpec :=
  ⟨0x12, 0x10120124, 1, 4, 1, 4, .fix, .rw, 0x0, [⟨31, 0, .live⟩]⟩

/-- R132: [31:0] CNT. -/
def Reg.MOT_FAR_CNT : RegSpec :=
  ⟨0x12, 0x10120128, 1, 4, 1, 4, .fix, .rw, 0x0, [⟨31, 0, .live⟩]⟩

/-- R132: [31:0] CNT. -/
def Reg.MOT_JUMP_CNT : RegSpec :=
  ⟨0x12, 0x1012012C, 1, 4, 1, 4, .fix, .rw, 0x0, [⟨31, 0, .live⟩]⟩

/-- R132: [31:0] CNT. -/
def Reg.MOT_RANGE_CNT : RegSpec :=
  ⟨0x12, 0x10120130, 1, 4, 1, 4, .fix, .rw, 0x0, [⟨31, 0, .live⟩]⟩

/-- R132: [31:0] CNT. -/
def Reg.MOT_INQ_DROP_CNT : RegSpec :=
  ⟨0x12, 0x10120134, 1, 4, 1, 4, .fix, .rw, 0x0, [⟨31, 0, .live⟩]⟩

/-- R132: [31:0] CNT. -/
def Reg.MOT_COALESCE_CNT : RegSpec :=
  ⟨0x12, 0x10120138, 1, 4, 1, 4, .fix, .rw, 0x0, [⟨31, 0, .live⟩]⟩

/-- R103: [23:0] HOME_X. -/
def Reg.OBJ0 : RegSpec :=
  ⟨0x12, 0x40300000, 2048, 32, 1, 4, .obj, .rw, 0x0, [⟨23, 0, .staged⟩]⟩

/-- R103: [23:0] HOME_Y. -/
def Reg.OBJ1 : RegSpec :=
  ⟨0x12, 0x40300004, 2048, 32, 1, 4, .obj, .rw, 0x0, [⟨23, 0, .staged⟩]⟩

/-- R103: [23:0] HOME_Z. -/
def Reg.OBJ2 : RegSpec :=
  ⟨0x12, 0x40300008, 2048, 32, 1, 4, .obj, .rw, 0x0, [⟨23, 0, .staged⟩]⟩

/-- R103: [25:16] HOME_SPREAD; [15:0] HOME_GAIN. -/
def Reg.OBJ3 : RegSpec :=
  ⟨0x12, 0x4030000C, 2048, 32, 1, 4, .obj, .rw, 0x0, [⟨25, 16, .staged⟩, ⟨15, 0, .staged⟩]⟩

/-- R103: [30:30] EN; [29:29] POLICY; [28:28] MUTE; [27:27] AIR; [26:24] PRIORITY; [23:16] GROUP; [15:8] ALPHA; [7:6] PRESET; [5:4] DOPPLER; [3:2] DELAY_MODE; [1:0] MODE. -/
def Reg.OBJ4 : RegSpec :=
  ⟨0x12, 0x40300010, 2048, 32, 1, 4, .obj, .rw, 0x4008040, [⟨30, 30, .staged⟩, ⟨29, 29, .staged⟩, ⟨28, 28, .staged⟩, ⟨27, 27, .staged⟩, ⟨26, 24, .staged⟩, ⟨23, 16, .staged⟩, ⟨15, 8, .staged⟩, ⟨7, 6, .staged⟩, ⟨5, 4, .staged⟩, ⟨3, 2, .staged⟩, ⟨1, 0, .staged⟩]⟩

/-- R103: [31:16] JUMP; [15:0] D_MIN. -/
def Reg.OBJ5 : RegSpec :=
  ⟨0x12, 0x40300014, 2048, 32, 1, 4, .obj, .rw, 0x1F4, [⟨31, 16, .staged⟩, ⟨15, 0, .staged⟩]⟩

/-- R103: [27:16] DIRECT_SPK; [15:4] RATE; [3:3] MEDIAN_OFF; [2:0] SOURCE. -/
def Reg.OBJ6 : RegSpec :=
  ⟨0x12, 0x40300018, 2048, 32, 1, 4, .obj, .rw, 0xFFF0000, [⟨27, 16, .staged⟩, ⟨15, 4, .staged⟩, ⟨3, 3, .staged⟩, ⟨2, 0, .staged⟩]⟩

/-- R103: [15:0] TIMEOUT. -/
def Reg.OBJ7 : RegSpec :=
  ⟨0x12, 0x4030001C, 2048, 32, 1, 4, .obj, .rw, 0x1F4, [⟨15, 0, .staged⟩]⟩

/-- R108: [31:0] VALUE. -/
def Reg.INGEST : RegSpec :=
  ⟨0x12, 0x40340000, 2048, 32, 5, 4, .obj, .rw, 0x0, [⟨31, 0, .live⟩]⟩

/-- R108: [1:0] MODE. -/
def Reg.INGEST5 : RegSpec :=
  ⟨0x12, 0x40340014, 2048, 32, 1, 4, .obj, .rw, 0x0, [⟨1, 0, .live⟩]⟩

/-- R108: [5:0] SUBMIT. -/
def Reg.INGEST7 : RegSpec :=
  ⟨0x12, 0x4034001C, 2048, 32, 1, 4, .obj, .rw, 0x0, [⟨5, 0, .live⟩]⟩

/-- R130: [23:0] XYZ. -/
def Reg.MSTAT0 : RegSpec :=
  ⟨0x12, 0x40360000, 2048, 32, 3, 4, .obj, .ro, 0x0, [⟨23, 0, .live⟩]⟩

/-- R130: [25:16] SPREAD; [15:0] GAIN. -/
def Reg.MSTAT3 : RegSpec :=
  ⟨0x12, 0x4036000C, 2048, 32, 1, 4, .obj, .ro, 0x0, [⟨25, 16, .live⟩, ⟨15, 0, .live⟩]⟩

/-- R130: [7:6] MODE; [5:5] FORCED; [4:4] BLEND; [3:3] HELD; [2:2] LOST; [1:1] COARSE; [0:0] SETTLED. -/
def Reg.MSTAT4 : RegSpec :=
  ⟨0x12, 0x40360010, 2048, 32, 1, 4, .obj, .ro, 0x0, [⟨7, 6, .live⟩, ⟨5, 5, .live⟩, ⟨4, 4, .live⟩, ⟨3, 3, .live⟩, ⟨2, 2, .live⟩, ⟨1, 1, .live⟩, ⟨0, 0, .live⟩]⟩

/-- R130: [16:0] PERIOD. -/
def Reg.MSTAT5 : RegSpec :=
  ⟨0x12, 0x40360014, 2048, 32, 1, 4, .obj, .ro, 0x2710, [⟨16, 0, .live⟩]⟩

/-- R130: [31:0] TICK. -/
def Reg.MSTAT6 : RegSpec :=
  ⟨0x12, 0x40360018, 2048, 32, 1, 4, .obj, .ro, 0x0, [⟨31, 0, .live⟩]⟩

/-- R73: [6:0] PEND. -/
def Reg.MOT_TAG_PEND : RegSpec :=
  ⟨0x12, 0x1012FFF0, 1, 4, 1, 4, .fix, .ro, 0x0, [⟨6, 0, .live⟩]⟩

/-- R73: [31:0] LATE_CNT. -/
def Reg.MOT_TAG_LATE_CNT : RegSpec :=
  ⟨0x12, 0x1012FFF4, 1, 4, 1, 4, .fix, .rw, 0x0, [⟨31, 0, .live⟩]⟩

/-- R73: [31:0] STALE_CNT. -/
def Reg.MOT_TAG_STALE_CNT : RegSpec :=
  ⟨0x12, 0x1012FFF8, 1, 4, 1, 4, .fix, .rw, 0x0, [⟨31, 0, .live⟩]⟩

/-- R177: [0:0] TEMP_MODE. -/
def Reg.SLV_CTRL : RegSpec :=
  ⟨0x13, 0x10130100, 1, 4, 1, 4, .fix, .rw, 0x0, [⟨0, 0, .staged⟩]⟩

/-- R177: [22:0] SPEED. -/
def Reg.SLV_SOUND_SPEED : RegSpec :=
  ⟨0x13, 0x10130104, 1, 4, 1, 4, .fix, .rw, 0x55C000, [⟨22, 0, .staged⟩]⟩

/-- R177: [15:0] TEMP. -/
def Reg.SLV_AIR_TEMP : RegSpec :=
  ⟨0x13, 0x10130108, 1, 4, 1, 4, .fix, .rw, 0x1400, [⟨15, 0, .staged⟩]⟩

/-- R177: [22:0] EFF. -/
def Reg.SLV_SOUND_EFF : RegSpec :=
  ⟨0x13, 0x1013010C, 1, 4, 1, 4, .fix, .ro, 0x55C000, [⟨22, 0, .live⟩]⟩

/-- R177: [15:0] SLEW. -/
def Reg.SLV_C_SLEW : RegSpec :=
  ⟨0x13, 0x10130110, 1, 4, 1, 4, .fix, .rw, 0xA4, [⟨15, 0, .staged⟩]⟩

/-- R177: [31:16] F0; [11:0] COEF. -/
def Reg.SLV_AIR : RegSpec :=
  ⟨0x13, 0x10130114, 1, 4, 1, 4, .fix, .rw, 0x17700600, [⟨31, 16, .staged⟩, ⟨11, 0, .staged⟩]⟩

/-- R177: [7:0] DECOR_SPREAD. -/
def Reg.SLV_SPREAD_CFG : RegSpec :=
  ⟨0x13, 0x10130118, 1, 4, 1, 4, .fix, .rw, 0x1E, [⟨7, 0, .staged⟩]⟩

/-- R177: [0:0] ALL. -/
def Reg.SLV_REFRESH : RegSpec :=
  ⟨0x13, 0x1013011C, 1, 4, 1, 4, .fix, .wo, 0x0, [⟨0, 0, .live⟩]⟩

/-- R177: [19:0] MAX_CYC. -/
def Reg.SLV_LOAD : RegSpec :=
  ⟨0x13, 0x10130120, 1, 4, 1, 4, .fix, .ro, 0x0, [⟨19, 0, .live⟩]⟩

/-- R177: [2:2] BAD_REF_STK; [1:1] LATE_STK; [0:0] SAT_STK. -/
def Reg.SLV_STAT : RegSpec :=
  ⟨0x13, 0x10130124, 1, 4, 1, 4, .fix, .w1c, 0x0, [⟨2, 2, .live⟩, ⟨1, 1, .live⟩, ⟨0, 0, .live⟩]⟩

/-- R178: [31:0] CNT. -/
def Reg.SLV_LIST_DROP_CNT : RegSpec :=
  ⟨0x13, 0x10130128, 1, 4, 1, 4, .fix, .rw, 0x0, [⟨31, 0, .live⟩]⟩

/-- R178: [31:0] CNT. -/
def Reg.SLV_GAIN_SAT_CNT : RegSpec :=
  ⟨0x13, 0x1013012C, 1, 4, 1, 4, .fix, .rw, 0x0, [⟨31, 0, .live⟩]⟩

/-- R178: [31:0] CNT. -/
def Reg.SLV_LATE_JOB_CNT : RegSpec :=
  ⟨0x13, 0x10130130, 1, 4, 1, 4, .fix, .rw, 0x0, [⟨31, 0, .live⟩]⟩

/-- R178: [31:0] CNT. -/
def Reg.SLV_FIELD_FALLBACK_CNT : RegSpec :=
  ⟨0x13, 0x10130134, 1, 4, 1, 4, .fix, .rw, 0x0, [⟨31, 0, .live⟩]⟩

/-- R178: [31:0] CNT. -/
def Reg.SLV_BAD_REF_CNT : RegSpec :=
  ⟨0x13, 0x10130138, 1, 4, 1, 4, .fix, .rw, 0x0, [⟨31, 0, .live⟩]⟩

/-- R178: [31:0] CNT. -/
def Reg.SLV_SCAN_CNT : RegSpec :=
  ⟨0x13, 0x1013013C, 1, 4, 1, 4, .fix, .rw, 0x0, [⟨31, 0, .live⟩]⟩

/-- R178: [31:0] CNT. -/
def Reg.SLV_BULK_CLAMP_CNT : RegSpec :=
  ⟨0x13, 0x10130140, 1, 4, 1, 4, .fix, .rw, 0x0, [⟨31, 0, .live⟩]⟩

/-- R137: [24:16] VIRT_COUNT; [11:0] SPK_COUNT. -/
def Reg.LAY0 : RegSpec :=
  ⟨0x13, 0x40400000, 1, 4, 1, 4, .fix, .rw, 0x0, [⟨24, 16, .frozen⟩, ⟨11, 0, .frozen⟩]⟩

/-- R137: [22:16] ARRAY_COUNT; [13:0] TRI_COUNT. -/
def Reg.LAY1 : RegSpec :=
  ⟨0x13, 0x40400004, 1, 4, 1, 4, .fix, .rw, 0x0, [⟨22, 16, .frozen⟩, ⟨13, 0, .frozen⟩]⟩

/-- R137: [8:0] ZONE_COUNT. -/
def Reg.LAY2 : RegSpec :=
  ⟨0x13, 0x40400008, 1, 4, 1, 4, .fix, .rw, 0x0, [⟨8, 0, .frozen⟩]⟩

/-- R137: [23:0] D_REF. -/
def Reg.LAY3 : RegSpec :=
  ⟨0x13, 0x4040000C, 1, 4, 1, 4, .fix, .rw, 0x0, [⟨23, 0, .staged⟩]⟩

/-- R137: [23:0] R_INNER. -/
def Reg.LAY4 : RegSpec :=
  ⟨0x13, 0x40400010, 1, 4, 1, 4, .fix, .rw, 0x0, [⟨23, 0, .staged⟩]⟩

/-- R138: [23:0] XYZ. -/
def Reg.SPK0 : RegSpec :=
  ⟨0x13, 0x40410000, 2048, 32, 3, 4, .spk, .rw, 0x0, [⟨23, 0, .staged⟩]⟩

/-- R138: [31:16] AIM_Y; [15:0] AIM_X. -/
def Reg.SPK3 : RegSpec :=
  ⟨0x13, 0x4041000C, 2048, 32, 1, 4, .spk, .rw, 0x0, [⟨31, 16, .staged⟩, ⟨15, 0, .staged⟩]⟩

/-- R138: [31:31] EN; [23:16] GROUP; [15:0] AIM_Z. -/
def Reg.SPK4 : RegSpec :=
  ⟨0x13, 0x40410010, 2048, 32, 1, 4, .spk, .rw, 0x0, [⟨31, 31, .staged⟩, ⟨23, 16, .staged⟩, ⟨15, 0, .staged⟩]⟩

/-- R138: [15:0] TRIM. -/
def Reg.SPK5 : RegSpec :=
  ⟨0x13, 0x40410014, 2048, 32, 1, 4, .spk, .rw, 0x0, [⟨15, 0, .staged⟩]⟩

/-- R139: [23:0] XYZ. -/
def Reg.VIRT0 : RegSpec :=
  ⟨0x13, 0x40420000, 256, 32, 3, 4, .fix, .rw, 0x0, [⟨23, 0, .frozen⟩]⟩

/-- R139: [2:0] M. -/
def Reg.VIRT3 : RegSpec :=
  ⟨0x13, 0x4042000C, 256, 32, 1, 4, .fix, .rw, 0x0, [⟨2, 0, .frozen⟩]⟩

/-- R139: [27:16] SPK_ODD; [11:0] SPK_EVEN. -/
def Reg.VIRT4 : RegSpec :=
  ⟨0x13, 0x40420010, 256, 32, 2, 4, .fix, .rw, 0x0, [⟨27, 16, .frozen⟩, ⟨11, 0, .frozen⟩]⟩

/-- R140: [27:16] V1; [11:0] V0. -/
def Reg.TRI0 : RegSpec :=
  ⟨0x13, 0x40440000, 8192, 16, 1, 4, .fix, .rw, 0x0, [⟨27, 16, .frozen⟩, ⟨11, 0, .frozen⟩]⟩

/-- R140: [11:0] V2. -/
def Reg.TRI1 : RegSpec :=
  ⟨0x13, 0x40440004, 8192, 16, 1, 4, .fix, .rw, 0x0, [⟨11, 0, .frozen⟩]⟩

/-- R140: [29:16] N1; [13:0] N0. -/
def Reg.TRI2 : RegSpec :=
  ⟨0x13, 0x40440008, 8192, 16, 1, 4, .fix, .rw, 0x0, [⟨29, 16, .frozen⟩, ⟨13, 0, .frozen⟩]⟩

/-- R140: [13:0] N2. -/
def Reg.TRI3 : RegSpec :=
  ⟨0x13, 0x4044000C, 8192, 16, 1, 4, .fix, .rw, 0x0, [⟨13, 0, .frozen⟩]⟩

/-- R140: [13:0] TRI. -/
def Reg.LOOKUP : RegSpec :=
  ⟨0x13, 0x40460000, 8192, 4, 1, 4, .fix, .rw, 0x0, [⟨13, 0, .frozen⟩]⟩

/-- R141: [27:16] COUNT; [11:0] FIRST. -/
def Reg.ARR0 : RegSpec :=
  ⟨0x13, 0x40430000, 64, 32, 1, 4, .fix, .rw, 0x0, [⟨27, 16, .frozen⟩, ⟨11, 0, .frozen⟩]⟩

/-- R141: [20:16] TAPER; [15:8] SET; [0:0] TYPE. -/
def Reg.ARR1 : RegSpec :=
  ⟨0x13, 0x40430004, 64, 32, 1, 4, .fix, .rw, 0x0, [⟨20, 16, .staged⟩, ⟨15, 8, .staged⟩, ⟨0, 0, .frozen⟩]⟩

/-- R141: [23:0] D_REF. -/
def Reg.ARR2 : RegSpec :=
  ⟨0x13, 0x40430008, 64, 32, 1, 4, .fix, .rw, 0x0, [⟨23, 0, .staged⟩]⟩

/-- R141: [23:0] NORM. -/
def Reg.ARR3 : RegSpec :=
  ⟨0x13, 0x4043000C, 64, 32, 1, 4, .fix, .rw, 0x100000, [⟨23, 0, .staged⟩]⟩

/-- R141: [31:16] NY; [15:0] NX. -/
def Reg.ARR4 : RegSpec :=
  ⟨0x13, 0x40430010, 64, 32, 1, 4, .fix, .rw, 0x0, [⟨31, 16, .staged⟩, ⟨15, 0, .staged⟩]⟩

/-- R141: [31:16] ALIAS_HZ; [15:0] NZ. -/
def Reg.ARR5 : RegSpec :=
  ⟨0x13, 0x40430014, 64, 32, 1, 4, .fix, .rw, 0x0, [⟨31, 16, .staged⟩, ⟨15, 0, .staged⟩]⟩

/-- R142: [15:8] ROLLOFF; [7:0] COUNT. -/
def Reg.ZONE0 : RegSpec :=
  ⟨0x13, 0x40480000, 256, 512, 1, 4, .fix, .rw, 0x4000, [⟨15, 8, .staged⟩, ⟨7, 0, .staged⟩]⟩

/-- R142: [23:0] BLUR. -/
def Reg.ZONE1 : RegSpec :=
  ⟨0x13, 0x40480004, 256, 512, 1, 4, .fix, .rw, 0x0, [⟨23, 0, .staged⟩]⟩

/-- R142: [27:16] MEMBER_ODD; [11:0] MEMBER_EVEN. -/
def Reg.ZONE4 : RegSpec :=
  ⟨0x13, 0x40480010, 256, 512, 64, 4, .fix, .rw, 0x0, [⟨27, 16, .staged⟩, ⟨11, 0, .staged⟩]⟩

/-- R73: [6:0] PEND. -/
def Reg.SLV_TAG_PEND : RegSpec :=
  ⟨0x13, 0x1013FFF0, 1, 4, 1, 4, .fix, .ro, 0x0, [⟨6, 0, .live⟩]⟩

/-- R73: [31:0] LATE_CNT. -/
def Reg.SLV_TAG_LATE_CNT : RegSpec :=
  ⟨0x13, 0x1013FFF4, 1, 4, 1, 4, .fix, .rw, 0x0, [⟨31, 0, .live⟩]⟩

/-- R73: [31:0] STALE_CNT. -/
def Reg.SLV_TAG_STALE_CNT : RegSpec :=
  ⟨0x13, 0x1013FFF8, 1, 4, 1, 4, .fix, .rw, 0x0, [⟨31, 0, .live⟩]⟩

/-- R190: [13:0] QUOTA. -/
def Reg.DSX_QUOTA0 : RegSpec :=
  ⟨0x14, 0x10140100, 1, 4, 1, 4, .fix, .rw, 0x1000, [⟨13, 0, .live⟩]⟩

/-- R190: [13:0] QUOTA. -/
def Reg.DSX_QUOTA1 : RegSpec :=
  ⟨0x14, 0x10140104, 1, 4, 1, 4, .fix, .rw, 0x800, [⟨13, 0, .live⟩]⟩

/-- R190: [13:0] QUOTA. -/
def Reg.DSX_QUOTA2 : RegSpec :=
  ⟨0x14, 0x10140108, 1, 4, 1, 4, .fix, .rw, 0x200, [⟨13, 0, .live⟩]⟩

/-- R190: [13:0] QUOTA. -/
def Reg.DSX_QUOTA3 : RegSpec :=
  ⟨0x14, 0x1014010C, 1, 4, 1, 4, .fix, .rw, 0x400, [⟨13, 0, .live⟩]⟩

/-- R190: [13:0] QUOTA. -/
def Reg.DSX_QUOTA4 : RegSpec :=
  ⟨0x14, 0x10140110, 1, 4, 1, 4, .fix, .rw, 0x200, [⟨13, 0, .live⟩]⟩

/-- R190: [31:0] D. -/
def Reg.DSX_SUBMIT_W : RegSpec :=
  ⟨0x14, 0x10140120, 4, 4, 1, 4, .fix, .rw, 0x0, [⟨31, 0, .live⟩]⟩

/-- R190: [0:0] BUSY. -/
def Reg.DSX_SUBMIT_STAT : RegSpec :=
  ⟨0x14, 0x10140130, 1, 4, 1, 4, .fix, .ro, 0x0, [⟨0, 0, .live⟩]⟩

/-- R190: [26:16] ROB; [13:0] JOBS. -/
def Reg.DSX_OCC : RegSpec :=
  ⟨0x14, 0x10140134, 1, 4, 1, 4, .fix, .ro, 0x0, [⟨26, 16, .live⟩, ⟨13, 0, .live⟩]⟩

/-- R190: [13:0] OCC. -/
def Reg.DSX_SRC_OCC : RegSpec :=
  ⟨0x14, 0x10140140, 5, 4, 1, 4, .fix, .ro, 0x0, [⟨13, 0, .live⟩]⟩

/-- R190: [16:0] ACTIVE. -/
def Reg.DSX_UNIT_ACTIVE : RegSpec :=
  ⟨0x14, 0x10140160, 1, 4, 1, 4, .fix, .ro, 0xFFFF, [⟨16, 0, .live⟩]⟩

/-- R190: [16:0] RETIRED. -/
def Reg.DSX_UNIT_RETIRED : RegSpec :=
  ⟨0x14, 0x10140164, 1, 4, 1, 4, .fix, .ro, 0x0, [⟨16, 0, .live⟩]⟩

/-- R190: [2:2] NOSPARE_STK; [1:1] ROB_STK; [0:0] BP_STK. -/
def Reg.DSX_STAT : RegSpec :=
  ⟨0x14, 0x10140168, 1, 4, 1, 4, .fix, .w1c, 0x0, [⟨2, 2, .live⟩, ⟨1, 1, .live⟩, ⟨0, 0, .live⟩]⟩

/-- R191: [31:0] CNT. -/
def Reg.DSX_BAD_CNT : RegSpec :=
  ⟨0x14, 0x1014016C, 1, 4, 1, 4, .fix, .rw, 0x0, [⟨31, 0, .live⟩]⟩

/-- R191: [31:0] CNT. -/
def Reg.DSX_BP_CNT : RegSpec :=
  ⟨0x14, 0x10140170, 1, 4, 1, 4, .fix, .rw, 0x0, [⟨31, 0, .live⟩]⟩

/-- R191: [31:0] CNT. -/
def Reg.DSX_ROB_STALL_CNT : RegSpec :=
  ⟨0x14, 0x10140174, 1, 4, 1, 4, .fix, .rw, 0x0, [⟨31, 0, .live⟩]⟩

/-- R191: [31:0] CNT. -/
def Reg.DSX_SPARE_CNT : RegSpec :=
  ⟨0x14, 0x10140178, 1, 4, 1, 4, .fix, .rw, 0x0, [⟨31, 0, .live⟩]⟩

/-- R218: [5:0] SLOPE. -/
def Reg.LAN_LIMIT_SLOPE : RegSpec :=
  ⟨0x15, 0x10150100, 1, 4, 1, 4, .fix, .rw, 0x10, [⟨5, 0, .staged⟩]⟩

/-- R218: [31:16] PERIOD; [3:1] CONC; [0:0] EN. -/
def Reg.LAN_ROTATE : RegSpec :=
  ⟨0x15, 0x10150104, 1, 4, 1, 4, .fix, .rw, 0x2580003, [⟨31, 16, .live⟩, ⟨3, 1, .live⟩, ⟨0, 0, .live⟩]⟩

/-- R218: [13:8] SPARE; [5:0] ACTIVE. -/
def Reg.LAN_COUNT : RegSpec :=
  ⟨0x15, 0x10150108, 1, 4, 1, 4, .fix, .ro, 0x420, [⟨13, 8, .live⟩, ⟨5, 0, .live⟩]⟩

/-- R218: [5:5] UNPLACED_STK; [4:4] NOSPARE_STK; [3:3] BIST_FAIL_STK; [2:2] MIG_REJECT_STK; [1:1] GUARD_STK; [0:0] CLAMP_STK. -/
def Reg.LAN_STAT : RegSpec :=
  ⟨0x15, 0x1015010C, 1, 4, 1, 4, .fix, .w1c, 0x0, [⟨5, 5, .live⟩, ⟨4, 4, .live⟩, ⟨3, 3, .live⟩, ⟨2, 2, .live⟩, ⟨1, 1, .live⟩, ⟨0, 0, .live⟩]⟩

/-- R220: [31:0] CNT. -/
def Reg.LAN_CLAMP_CNT : RegSpec :=
  ⟨0x15, 0x10150110, 1, 4, 1, 4, .fix, .rw, 0x0, [⟨31, 0, .live⟩]⟩

/-- R220: [31:0] CNT. -/
def Reg.LAN_GUARD_CNT : RegSpec :=
  ⟨0x15, 0x10150114, 1, 4, 1, 4, .fix, .rw, 0x0, [⟨31, 0, .live⟩]⟩

/-- R220: [31:0] CNT. -/
def Reg.LAN_PRE_CLIP_CNT : RegSpec :=
  ⟨0x15, 0x10150118, 1, 4, 1, 4, .fix, .rw, 0x0, [⟨31, 0, .live⟩]⟩

/-- R220: [31:0] CNT. -/
def Reg.LAN_PART_SAT_CNT : RegSpec :=
  ⟨0x15, 0x1015011C, 1, 4, 1, 4, .fix, .rw, 0x0, [⟨31, 0, .live⟩]⟩

/-- R220: [31:0] CNT. -/
def Reg.LAN_MEMERR_CNT : RegSpec :=
  ⟨0x15, 0x10150120, 1, 4, 1, 4, .fix, .rw, 0x0, [⟨31, 0, .live⟩]⟩

/-- R220: [31:0] CNT. -/
def Reg.LAN_MIGRATE_CNT : RegSpec :=
  ⟨0x15, 0x10150124, 1, 4, 1, 4, .fix, .rw, 0x0, [⟨31, 0, .live⟩]⟩

/-- R220: [31:0] CNT. -/
def Reg.LAN_MIG_REJECT_CNT : RegSpec :=
  ⟨0x15, 0x10150128, 1, 4, 1, 4, .fix, .rw, 0x0, [⟨31, 0, .live⟩]⟩

/-- R220: [31:0] CNT. -/
def Reg.LAN_SITOUT_CNT : RegSpec :=
  ⟨0x15, 0x1015012C, 1, 4, 1, 4, .fix, .rw, 0x0, [⟨31, 0, .live⟩]⟩

/-- R219: [31:28] EPOCH; [21:16] LOGICAL; [14:8] OBJECTS; [5:5] HANDOVER; [4:4] GATED; [2:0] STATE. -/
def Reg.LAN_STATE : RegSpec :=
  ⟨0x15, 0x10150200, 36, 4, 1, 4, .fix, .ro, 0x0, [⟨31, 28, .live⟩, ⟨21, 16, .live⟩, ⟨14, 8, .live⟩, ⟨5, 5, .live⟩, ⟨4, 4, .live⟩, ⟨2, 0, .live⟩]⟩

/-- R194: [10:8] DECOR_MAX; [4:0] HOME_LANE. -/
def Reg.LOBJ0 : RegSpec :=
  ⟨0x15, 0x40920000, 2048, 8, 1, 4, .obj, .rw, 0x0, [⟨10, 8, .staged⟩, ⟨4, 0, .frozen⟩]⟩

/-- R194: [17:17] UNPLACED; [16:16] MIGRATING; [13:8] SLOT; [5:0] LANE. -/
def Reg.LOBJ1 : RegSpec :=
  ⟨0x15, 0x40920004, 2048, 8, 1, 4, .obj, .ro, 0x3F, [⟨17, 17, .live⟩, ⟨16, 16, .live⟩, ⟨13, 8, .live⟩, ⟨5, 0, .live⟩]⟩

/-- R195: [31:0] ENTRY. -/
def Reg.LSHL : RegSpec :=
  ⟨0x15, 0x40500000, 2048, 1024, 256, 4, .obj, .ro, 0x0, [⟨31, 0, .staged⟩]⟩

/-- R195: [31:0] ENTRY. -/
def Reg.LLVL : RegSpec :=
  ⟨0x15, 0x40700000, 2048, 1024, 256, 4, .obj, .ro, 0x0, [⟨31, 0, .staged⟩]⟩

/-- R195: [31:16] ALIAS; [13:13] COARSE; [12:12] SETTLED; [11:11] PREEMPH; [10:8] DECOR; [7:0] COUNT. -/
def Reg.LSHH0 : RegSpec :=
  ⟨0x15, 0x40900000, 2048, 32, 1, 4, .obj, .ro, 0x0, [⟨31, 16, .staged⟩, ⟨13, 13, .staged⟩, ⟨12, 12, .staged⟩, ⟨11, 11, .staged⟩, ⟨10, 8, .staged⟩, ⟨7, 0, .staged⟩]⟩

/-- R195: [18:0] BULK. -/
def Reg.LSHH1 : RegSpec :=
  ⟨0x15, 0x40900004, 2048, 32, 1, 4, .obj, .ro, 0x0, [⟨18, 0, .staged⟩]⟩

/-- R195: [31:0] SHELF_B0. -/
def Reg.LSHH2 : RegSpec :=
  ⟨0x15, 0x40900008, 2048, 32, 1, 4, .obj, .ro, 0x20000000, [⟨31, 0, .staged⟩]⟩

/-- R195: [31:0] SHELF. -/
def Reg.LSHH3 : RegSpec :=
  ⟨0x15, 0x4090000C, 2048, 32, 4, 4, .obj, .ro, 0x0, [⟨31, 0, .staged⟩]⟩

/-- R195: [31:0] TICK. -/
def Reg.LSHH7 : RegSpec :=
  ⟨0x15, 0x4090001C, 2048, 32, 1, 4, .obj, .ro, 0x0, [⟨31, 0, .staged⟩]⟩

/-- R195: [31:16] ALIAS; [13:13] COARSE; [12:12] SETTLED; [11:11] PREEMPH; [10:8] DECOR; [7:0] COUNT. -/
def Reg.LLVH0 : RegSpec :=
  ⟨0x15, 0x40910000, 2048, 32, 1, 4, .obj, .ro, 0x0, [⟨31, 16, .staged⟩, ⟨13, 13, .staged⟩, ⟨12, 12, .staged⟩, ⟨11, 11, .staged⟩, ⟨10, 8, .staged⟩, ⟨7, 0, .staged⟩]⟩

/-- R195: [18:0] BULK. -/
def Reg.LLVH1 : RegSpec :=
  ⟨0x15, 0x40910004, 2048, 32, 1, 4, .obj, .ro, 0x0, [⟨18, 0, .staged⟩]⟩

/-- R195: [31:0] SHELF_B0. -/
def Reg.LLVH2 : RegSpec :=
  ⟨0x15, 0x40910008, 2048, 32, 1, 4, .obj, .ro, 0x20000000, [⟨31, 0, .staged⟩]⟩

/-- R195: [31:0] SHELF. -/
def Reg.LLVH3 : RegSpec :=
  ⟨0x15, 0x4091000C, 2048, 32, 4, 4, .obj, .ro, 0x0, [⟨31, 0, .staged⟩]⟩

/-- R195: [31:0] TICK. -/
def Reg.LLVH7 : RegSpec :=
  ⟨0x15, 0x4091001C, 2048, 32, 1, 4, .obj, .ro, 0x0, [⟨31, 0, .staged⟩]⟩

/-- R73: [6:0] PEND. -/
def Reg.LAN_TAG_PEND : RegSpec :=
  ⟨0x15, 0x1015FFF0, 1, 4, 1, 4, .fix, .ro, 0x0, [⟨6, 0, .live⟩]⟩

/-- R73: [31:0] LATE_CNT. -/
def Reg.LAN_TAG_LATE_CNT : RegSpec :=
  ⟨0x15, 0x1015FFF4, 1, 4, 1, 4, .fix, .rw, 0x0, [⟨31, 0, .live⟩]⟩

/-- R73: [31:0] STALE_CNT. -/
def Reg.LAN_TAG_STALE_CNT : RegSpec :=
  ⟨0x15, 0x1015FFF8, 1, 4, 1, 4, .fix, .rw, 0x0, [⟨31, 0, .live⟩]⟩

/-- R221: [2:2] MIG_STK; [1:1] PARITY_STK; [0:0] SAT_STK. -/
def Reg.RED_STAT : RegSpec :=
  ⟨0x16, 0x10160100, 1, 4, 1, 4, .fix, .w1c, 0x0, [⟨2, 2, .live⟩, ⟨1, 1, .live⟩, ⟨0, 0, .live⟩]⟩

/-- R221: [31:0] CNT. -/
def Reg.RED_SAT_CNT : RegSpec :=
  ⟨0x16, 0x10160104, 1, 4, 1, 4, .fix, .rw, 0x0, [⟨31, 0, .live⟩]⟩

/-- R221: [31:0] CNT. -/
def Reg.RED_PARITY_CNT : RegSpec :=
  ⟨0x16, 0x10160108, 1, 4, 1, 4, .fix, .rw, 0x0, [⟨31, 0, .live⟩]⟩

/-- R221: [31:0] CNT. -/
def Reg.RED_MIG_DISCARD_CNT : RegSpec :=
  ⟨0x16, 0x1016010C, 1, 4, 1, 4, .fix, .rw, 0x0, [⟨31, 0, .live⟩]⟩

/-- R221: [5:0] REQUIRED. -/
def Reg.RED_REQUIRED : RegSpec :=
  ⟨0x16, 0x10160110, 1, 4, 1, 4, .fix, .ro, 0x0, [⟨5, 0, .live⟩]⟩

/-- R221: [31:0] LAST_LO. -/
def Reg.RED_LAST_LO : RegSpec :=
  ⟨0x16, 0x10160114, 1, 4, 1, 4, .fix, .ro, 0x0, [⟨31, 0, .live⟩]⟩

/-- R221: [31:0] LAST_HI. -/
def Reg.RED_LAST_HI : RegSpec :=
  ⟨0x16, 0x10160118, 1, 4, 1, 4, .fix, .ro, 0x0, [⟨31, 0, .live⟩]⟩

/-- R73: [6:0] PEND. -/
def Reg.RED_TAG_PEND : RegSpec :=
  ⟨0x16, 0x1016FFF0, 1, 4, 1, 4, .fix, .ro, 0x0, [⟨6, 0, .live⟩]⟩

/-- R73: [31:0] LATE_CNT. -/
def Reg.RED_TAG_LATE_CNT : RegSpec :=
  ⟨0x16, 0x1016FFF4, 1, 4, 1, 4, .fix, .rw, 0x0, [⟨31, 0, .live⟩]⟩

/-- R73: [31:0] STALE_CNT. -/
def Reg.RED_TAG_STALE_CNT : RegSpec :=
  ⟨0x16, 0x1016FFF8, 1, 4, 1, 4, .fix, .rw, 0x0, [⟨31, 0, .live⟩]⟩

/-- R253: [3:3] BOOT_EN; [2:0] BOOT_SET. -/
def Reg.COR_CTRL : RegSpec :=
  ⟨0x17, 0x10170100, 1, 4, 1, 4, .fix, .rw, 0x0, [⟨3, 3, .frozen⟩, ⟨2, 0, .frozen⟩]⟩

/-- R253: [31:6] BASE_LO. -/
def Reg.COR_SET_BASE_LO : RegSpec :=
  ⟨0x17, 0x10170110, 8, 8, 1, 4, .fix, .rw, 0x0, [⟨31, 6, .live⟩]⟩

/-- R253: [7:0] BASE_HI. -/
def Reg.COR_SET_BASE_HI : RegSpec :=
  ⟨0x17, 0x10170114, 8, 8, 1, 4, .fix, .rw, 0x0, [⟨7, 0, .live⟩]⟩

/-- R253: [24:0] CAP. -/
def Reg.COR_POOL_CAP : RegSpec :=
  ⟨0x17, 0x10170150, 1, 4, 1, 4, .fix, .ro, 0x800000, [⟨24, 0, .live⟩]⟩

/-- R253: [24:0] USED. -/
def Reg.COR_POOL_USED : RegSpec :=
  ⟨0x17, 0x10170154, 1, 4, 1, 4, .fix, .ro, 0x0, [⟨24, 0, .live⟩]⟩

/-- R253: [18:16] SET; [15:8] BATCH; [3:1] QUEUED; [0:0] BUSY. -/
def Reg.COR_SWAP_STAT : RegSpec :=
  ⟨0x17, 0x10170158, 1, 4, 1, 4, .fix, .ro, 0x0, [⟨18, 16, .live⟩, ⟨15, 8, .live⟩, ⟨3, 1, .live⟩, ⟨0, 0, .live⟩]⟩

/-- R253: [8:0] CAP. -/
def Reg.COR_XF_CAP : RegSpec :=
  ⟨0x17, 0x1017015C, 1, 4, 1, 4, .fix, .ro, 0x80, [⟨8, 0, .live⟩]⟩

/-- R253: [24:16] RETIRED; [8:0] ACTIVE. -/
def Reg.COR_SLICE : RegSpec :=
  ⟨0x17, 0x10170160, 1, 4, 1, 4, .fix, .ro, 0xFF, [⟨24, 16, .live⟩, ⟨8, 0, .live⟩]⟩

/-- R253: [3:3] NOSPARE_STK; [2:2] SWAP_REJECT_STK; [1:1] TAIL_STK; [0:0] CLIP_STK. -/
def Reg.COR_STAT : RegSpec :=
  ⟨0x17, 0x10170164, 1, 4, 1, 4, .fix, .w1c, 0x0, [⟨3, 3, .live⟩, ⟨2, 2, .live⟩, ⟨1, 1, .live⟩, ⟨0, 0, .live⟩]⟩

/-- R253: [7:0] USE. -/
def Reg.COR_SET_USE : RegSpec :=
  ⟨0x17, 0x10170168, 1, 4, 1, 4, .fix, .ro, 0x0, [⟨7, 0, .live⟩]⟩

/-- R254: [31:0] CNT. -/
def Reg.COR_TRIM_CLIP_CNT : RegSpec :=
  ⟨0x17, 0x10170170, 1, 4, 1, 4, .fix, .rw, 0x0, [⟨31, 0, .live⟩]⟩

/-- R254: [31:0] CNT. -/
def Reg.COR_EQ_CLIP_CNT : RegSpec :=
  ⟨0x17, 0x10170174, 1, 4, 1, 4, .fix, .rw, 0x0, [⟨31, 0, .live⟩]⟩

/-- R254: [31:0] CNT. -/
def Reg.COR_OUT_CLIP_CNT : RegSpec :=
  ⟨0x17, 0x10170178, 1, 4, 1, 4, .fix, .rw, 0x0, [⟨31, 0, .live⟩]⟩

/-- R254: [31:0] CNT. -/
def Reg.COR_LIM_CLAMP_CNT : RegSpec :=
  ⟨0x17, 0x1017017C, 1, 4, 1, 4, .fix, .rw, 0x0, [⟨31, 0, .live⟩]⟩

/-- R254: [31:0] CNT. -/
def Reg.COR_TAIL_LATE_CNT : RegSpec :=
  ⟨0x17, 0x10170180, 1, 4, 1, 4, .fix, .rw, 0x0, [⟨31, 0, .live⟩]⟩

/-- R254: [31:0] CNT. -/
def Reg.COR_MEMERR_CNT : RegSpec :=
  ⟨0x17, 0x10170184, 1, 4, 1, 4, .fix, .rw, 0x0, [⟨31, 0, .live⟩]⟩

/-- R254: [31:0] CNT. -/
def Reg.COR_SWAP_REJECT_CNT : RegSpec :=
  ⟨0x17, 0x10170188, 1, 4, 1, 4, .fix, .rw, 0x0, [⟨31, 0, .live⟩]⟩

/-- R254: [31:0] CNT. -/
def Reg.COR_SWAP_SLIP_CNT : RegSpec :=
  ⟨0x17, 0x1017018C, 1, 4, 1, 4, .fix, .rw, 0x0, [⟨31, 0, .live⟩]⟩

/-- R254: [31:0] CNT. -/
def Reg.COR_XREAD_MISS_CNT : RegSpec :=
  ⟨0x17, 0x10170190, 1, 4, 1, 4, .fix, .rw, 0x0, [⟨31, 0, .live⟩]⟩

/-- R254: [31:0] CNT. -/
def Reg.COR_SPARE_CNT : RegSpec :=
  ⟨0x17, 0x10170194, 1, 4, 1, 4, .fix, .rw, 0x0, [⟨31, 0, .live⟩]⟩

/-- R250: [31:0] TRIM. -/
def Reg.COUT0 : RegSpec :=
  ⟨0x17, 0x40A00000, 2048, 32, 1, 4, .out, .rw, 0x8000000, [⟨31, 0, .staged⟩]⟩

/-- R250: [31:31] MUTE; [30:30] MUTE_STANDBY; [29:29] POLARITY; [28:28] LIM_EN; [27:25] RAMP; [24:20] BQ_COUNT; [7:0] FINE. -/
def Reg.COUT1 : RegSpec :=
  ⟨0x17, 0x40A00004, 2048, 32, 1, 4, .out, .rw, 0x6000000, [⟨31, 31, .staged⟩, ⟨30, 30, .staged⟩, ⟨29, 29, .staged⟩, ⟨28, 28, .staged⟩, ⟨27, 25, .live⟩, ⟨24, 20, .staged⟩, ⟨7, 0, .staged⟩]⟩

/-- R250: [17:0] ALIGN. -/
def Reg.COUT2 : RegSpec :=
  ⟨0x17, 0x40A00008, 2048, 32, 1, 4, .out, .rw, 0x0, [⟨17, 0, .staged⟩]⟩

/-- R250: [23:16] ATTACK; [15:0] THRESH. -/
def Reg.COUT3 : RegSpec :=
  ⟨0x17, 0x40A0000C, 2048, 32, 1, 4, .out, .rw, 0x0, [⟨23, 16, .staged⟩, ⟨15, 0, .staged⟩]⟩

/-- R250: [23:16] SIL_THRESH; [11:0] RELEASE. -/
def Reg.COUT4 : RegSpec :=
  ⟨0x17, 0x40A00010, 2048, 32, 1, 4, .out, .rw, 0x5A0032, [⟨23, 16, .live⟩, ⟨11, 0, .staged⟩]⟩

/-- R250: [15:0] SIL_HOLD. -/
def Reg.COUT5 : RegSpec :=
  ⟨0x17, 0x40A00014, 2048, 32, 1, 4, .out, .rw, 0x2710, [⟨15, 0, .live⟩]⟩

/-- R251: [31:0] B0. -/
def Reg.CBQ0 : RegSpec :=
  ⟨0x17, 0x40B00000, 32768, 32, 1, 4, .out16, .rw, 0x20000000, [⟨31, 0, .staged⟩]⟩

/-- R251: [31:0] COEF. -/
def Reg.CBQ1 : RegSpec :=
  ⟨0x17, 0x40B00004, 32768, 32, 4, 4, .out16, .rw, 0x0, [⟨31, 0, .staged⟩]⟩

/-- R252: [7:7] MUTED; [6:6] WALLFLOWER; [5:5] TRANSITION; [4:4] XFADE; [3:3] FIR_ON; [2:0] LIVE_SET. -/
def Reg.COST0 : RegSpec :=
  ⟨0x17, 0x40A40000, 2048, 16, 1, 4, .out, .ro, 0x0, [⟨7, 7, .live⟩, ⟨6, 6, .live⟩, ⟨5, 5, .live⟩, ⟨4, 4, .live⟩, ⟨3, 3, .live⟩, ⟨2, 0, .live⟩]⟩

/-- R252: [16:0] CHARGE. -/
def Reg.COST1 : RegSpec :=
  ⟨0x17, 0x40A40004, 2048, 16, 1, 4, .out, .ro, 0x0, [⟨16, 0, .live⟩]⟩

/-- R252: [23:0] PEAK. -/
def Reg.COST2 : RegSpec :=
  ⟨0x17, 0x40A40008, 2048, 16, 1, 4, .out, .rw, 0x0, [⟨23, 0, .live⟩]⟩

/-- R252: [15:0] GR. -/
def Reg.COST3 : RegSpec :=
  ⟨0x17, 0x40A4000C, 2048, 16, 1, 4, .out, .rw, 0x0, [⟨15, 0, .live⟩]⟩

/-- R73: [6:0] PEND. -/
def Reg.COR_TAG_PEND : RegSpec :=
  ⟨0x17, 0x1017FFF0, 1, 4, 1, 4, .fix, .ro, 0x0, [⟨6, 0, .live⟩]⟩

/-- R73: [31:0] LATE_CNT. -/
def Reg.COR_TAG_LATE_CNT : RegSpec :=
  ⟨0x17, 0x1017FFF4, 1, 4, 1, 4, .fix, .rw, 0x0, [⟨31, 0, .live⟩]⟩

/-- R73: [31:0] STALE_CNT. -/
def Reg.COR_TAG_STALE_CNT : RegSpec :=
  ⟨0x17, 0x1017FFF8, 1, 4, 1, 4, .fix, .rw, 0x0, [⟨31, 0, .live⟩]⟩

/-- R274: [31:24] COH_MIN; [23:16] LIVE_FLOOR; [15:12] LBINS; [11:8] LAVG; [4:0] LNFFT. -/
def Reg.MEA_LIVE_CFG : RegSpec :=
  ⟨0x18, 0x10180100, 1, 4, 1, 4, .fix, .rw, 0xD40E, [⟨31, 24, .staged⟩, ⟨23, 16, .staged⟩, ⟨15, 12, .staged⟩, ⟨11, 8, .staged⟩, ⟨4, 0, .staged⟩]⟩

/-- R274: [31:31] LIVE_EN; [30:30] TASK_EN; [23:16] FIND_PERIOD; [15:0] PUBLISH. -/
def Reg.MEA_LIVE_CTRL : RegSpec :=
  ⟨0x18, 0x10180104, 1, 4, 1, 4, .fix, .rw, 0xA03E8, [⟨31, 31, .staged⟩, ⟨30, 30, .staged⟩, ⟨23, 16, .staged⟩, ⟨15, 0, .staged⟩]⟩

/-- R274: [31:6] BASE_LO. -/
def Reg.MEA_LIVE_BASE_LO : RegSpec :=
  ⟨0x18, 0x10180108, 1, 4, 1, 4, .fix, .rw, 0x0, [⟨31, 6, .staged⟩]⟩

/-- R274: [7:0] BASE_HI. -/
def Reg.MEA_LIVE_BASE_HI : RegSpec :=
  ⟨0x18, 0x1018010C, 1, 4, 1, 4, .fix, .rw, 0x0, [⟨7, 0, .staged⟩]⟩

/-- R274: [31:0] TASK. -/
def Reg.MEA_LIVE_TASK : RegSpec :=
  ⟨0x18, 0x10180110, 4, 4, 1, 4, .fix, .rw, 0x0, [⟨31, 0, .staged⟩]⟩

/-- R274: [31:0] CNT. -/
def Reg.MEA_START_IGN_CNT : RegSpec :=
  ⟨0x18, 0x10180130, 1, 4, 1, 4, .fix, .rw, 0x0, [⟨31, 0, .live⟩]⟩

/-- R274: [31:0] CNT. -/
def Reg.MEA_NODELAY_CNT : RegSpec :=
  ⟨0x18, 0x10180134, 1, 4, 1, 4, .fix, .rw, 0x0, [⟨31, 0, .live⟩]⟩

/-- R256: [31:16] LEVEL; [12:8] ORDER; [2:0] TYPE. -/
def Reg.GEN0 : RegSpec :=
  ⟨0x18, 0x40C00000, 16, 32, 1, 4, .fix, .rw, 0xF4001000, [⟨31, 16, .staged⟩, ⟨12, 8, .staged⟩, ⟨2, 0, .staged⟩]⟩

/-- R256: [23:0] F1. -/
def Reg.GEN1 : RegSpec :=
  ⟨0x18, 0x40C00004, 16, 32, 1, 4, .fix, .rw, 0xA00, [⟨23, 0, .staged⟩]⟩

/-- R256: [23:0] F2. -/
def Reg.GEN2 : RegSpec :=
  ⟨0x18, 0x40C00008, 16, 32, 1, 4, .fix, .rw, 0x271000, [⟨23, 0, .staged⟩]⟩

/-- R256: [21:0] LENGTH. -/
def Reg.GEN3 : RegSpec :=
  ⟨0x18, 0x40C0000C, 16, 32, 1, 4, .fix, .rw, 0x18000, [⟨21, 0, .staged⟩]⟩

/-- R256: [15:0] FADE. -/
def Reg.GEN4 : RegSpec :=
  ⟨0x18, 0x40C00010, 16, 32, 1, 4, .fix, .rw, 0x3C0, [⟨15, 0, .staged⟩]⟩

/-- R256: [31:0] SEED. -/
def Reg.GEN5 : RegSpec :=
  ⟨0x18, 0x40C00014, 16, 32, 1, 4, .fix, .rw, 0x12345678, [⟨31, 0, .staged⟩]⟩

/-- R259: [31:27] NFFT; [26:22] IR; [21:18] BINS; [15:8] AVG; [3:0] GEN. -/
def Reg.RUN0 : RegSpec :=
  ⟨0x18, 0x40C10000, 16, 64, 1, 4, .fix, .rw, 0x73AC0000, [⟨31, 27, .staged⟩, ⟨26, 22, .staged⟩, ⟨21, 18, .staged⟩, ⟨15, 8, .staged⟩, ⟨3, 0, .staged⟩]⟩

/-- R259: [31:0] CH_LO. -/
def Reg.RUN1 : RegSpec :=
  ⟨0x18, 0x40C10004, 16, 64, 1, 4, .fix, .rw, 0x0, [⟨31, 0, .staged⟩]⟩

/-- R259: [31:0] CH_HI. -/
def Reg.RUN2 : RegSpec :=
  ⟨0x18, 0x40C10008, 16, 64, 1, 4, .fix, .rw, 0x0, [⟨31, 0, .staged⟩]⟩

/-- R259: [31:6] RESULT_LO. -/
def Reg.RUN3 : RegSpec :=
  ⟨0x18, 0x40C1000C, 16, 64, 1, 4, .fix, .rw, 0x0, [⟨31, 6, .staged⟩]⟩

/-- R259: [7:0] RESULT_HI. -/
def Reg.RUN4 : RegSpec :=
  ⟨0x18, 0x40C10010, 16, 64, 1, 4, .fix, .rw, 0x0, [⟨7, 0, .staged⟩]⟩

/-- R259: [31:6] WORK_LO. -/
def Reg.RUN5 : RegSpec :=
  ⟨0x18, 0x40C10014, 16, 64, 1, 4, .fix, .rw, 0x0, [⟨31, 6, .staged⟩]⟩

/-- R259: [7:0] WORK_HI. -/
def Reg.RUN6 : RegSpec :=
  ⟨0x18, 0x40C10018, 16, 64, 1, 4, .fix, .rw, 0x0, [⟨7, 0, .staged⟩]⟩

/-- R259: [15:0] WORK_MIB. -/
def Reg.RUN7 : RegSpec :=
  ⟨0x18, 0x40C1001C, 16, 64, 1, 4, .fix, .rw, 0x0, [⟨15, 0, .staged⟩]⟩

/-- R259: [23:0] FLO. -/
def Reg.RUN8 : RegSpec :=
  ⟨0x18, 0x40C10020, 16, 64, 1, 4, .fix, .rw, 0xA00, [⟨23, 0, .staged⟩]⟩

/-- R259: [23:0] FHI. -/
def Reg.RUN9 : RegSpec :=
  ⟨0x18, 0x40C10024, 16, 64, 1, 4, .fix, .rw, 0x271000, [⟨23, 0, .staged⟩]⟩

/-- R259: [31:0] TASK. -/
def Reg.RUN10 : RegSpec :=
  ⟨0x18, 0x40C10028, 16, 64, 4, 4, .fix, .rw, 0x0, [⟨31, 0, .staged⟩]⟩

/-- R259: [0:0] TASK_EN. -/
def Reg.RUN14 : RegSpec :=
  ⟨0x18, 0x40C10038, 16, 64, 1, 4, .fix, .rw, 0x0, [⟨0, 0, .staged⟩]⟩

/-- R275: [10:8] REASON; [2:0] STATE. -/
def Reg.RUNS0 : RegSpec :=
  ⟨0x18, 0x40C10400, 16, 16, 1, 4, .fix, .ro, 0x0, [⟨10, 8, .live⟩, ⟨2, 0, .live⟩]⟩

/-- R275: [31:0] DONE_CNT. -/
def Reg.RUNS1 : RegSpec :=
  ⟨0x18, 0x40C10404, 16, 16, 1, 4, .fix, .ro, 0x0, [⟨31, 0, .live⟩]⟩

/-- R275: [31:0] BLOCK. -/
def Reg.RUNS2 : RegSpec :=
  ⟨0x18, 0x40C10408, 16, 16, 2, 4, .fix, .ro, 0x0, [⟨31, 0, .live⟩]⟩

/-- R267: [31:31] EN; [21:16] MIC; [10:0] OUT. -/
def Reg.PAIR0 : RegSpec :=
  ⟨0x18, 0x40C20000, 256, 8, 1, 4, .fix, .rw, 0x0, [⟨31, 31, .staged⟩, ⟨21, 16, .staged⟩, ⟨10, 0, .staged⟩]⟩

/-- R73: [6:0] PEND. -/
def Reg.MEA_TAG_PEND : RegSpec :=
  ⟨0x18, 0x1018FFF0, 1, 4, 1, 4, .fix, .ro, 0x0, [⟨6, 0, .live⟩]⟩

/-- R73: [31:0] LATE_CNT. -/
def Reg.MEA_TAG_LATE_CNT : RegSpec :=
  ⟨0x18, 0x1018FFF4, 1, 4, 1, 4, .fix, .rw, 0x0, [⟨31, 0, .live⟩]⟩

/-- R73: [31:0] STALE_CNT. -/
def Reg.MEA_TAG_STALE_CNT : RegSpec :=
  ⟨0x18, 0x1018FFF8, 1, 4, 1, 4, .fix, .rw, 0x0, [⟨31, 0, .live⟩]⟩

/-- R496: [31:0] BASE_LO. -/
def Reg.DRU_PROG_BASE_LO : RegSpec :=
  ⟨0x19, 0x10190100, 1, 4, 1, 4, .fix, .rw, 0x0, [⟨31, 0, .live⟩]⟩

/-- R496: [7:0] BASE_HI. -/
def Reg.DRU_PROG_BASE_HI : RegSpec :=
  ⟨0x19, 0x10190104, 1, 4, 1, 4, .fix, .rw, 0x0, [⟨7, 0, .live⟩]⟩

/-- R496: [31:0] MAX. -/
def Reg.DRU_TASK_MAX : RegSpec :=
  ⟨0x19, 0x10190108, 1, 4, 1, 4, .fix, .rw, 0x186A0, [⟨31, 0, .live⟩]⟩

/-- R496: [15:0] RING. -/
def Reg.DRU_DOORBELL : RegSpec :=
  ⟨0x19, 0x1019010C, 1, 4, 1, 4, .fix, .wo, 0x0, [⟨15, 0, .live⟩]⟩

/-- R496: [16:0] ACTIVE. -/
def Reg.DRU_CORE_ACTIVE : RegSpec :=
  ⟨0x19, 0x10190110, 1, 4, 1, 4, .fix, .ro, 0xFFFF, [⟨16, 0, .live⟩]⟩

/-- R496: [16:0] RETIRED. -/
def Reg.DRU_CORE_RETIRED : RegSpec :=
  ⟨0x19, 0x10190114, 1, 4, 1, 4, .fix, .ro, 0x0, [⟨16, 0, .live⟩]⟩

/-- R496: [3:3] NOSPARE_STK; [2:2] SPARE_STK; [1:1] OVERRUN_STK; [0:0] FAULT_STK. -/
def Reg.DRU_STAT : RegSpec :=
  ⟨0x19, 0x10190118, 1, 4, 1, 4, .fix, .w1c, 0x0, [⟨3, 3, .live⟩, ⟨2, 2, .live⟩, ⟨1, 1, .live⟩, ⟨0, 0, .live⟩]⟩

/-- R498: [31:0] CNT. -/
def Reg.DRU_FAULT_CNT : RegSpec :=
  ⟨0x19, 0x1019011C, 1, 4, 1, 4, .fix, .rw, 0x0, [⟨31, 0, .live⟩]⟩

/-- R498: [31:0] CNT. -/
def Reg.DRU_OVERRUN_CNT : RegSpec :=
  ⟨0x19, 0x10190120, 1, 4, 1, 4, .fix, .rw, 0x0, [⟨31, 0, .live⟩]⟩

/-- R498: [31:0] CNT. -/
def Reg.DRU_OUT_CLIP_CNT : RegSpec :=
  ⟨0x19, 0x10190124, 1, 4, 1, 4, .fix, .rw, 0x0, [⟨31, 0, .live⟩]⟩

/-- R498: [31:0] CNT. -/
def Reg.DRU_LOAD_CNT : RegSpec :=
  ⟨0x19, 0x10190128, 1, 4, 1, 4, .fix, .rw, 0x0, [⟨31, 0, .live⟩]⟩

/-- R498: [31:0] CNT. -/
def Reg.DRU_SPARE_CNT : RegSpec :=
  ⟨0x19, 0x1019012C, 1, 4, 1, 4, .fix, .rw, 0x0, [⟨31, 0, .live⟩]⟩

/-- R497: [31:31] MODE; [15:0] ENTRY. -/
def Reg.CORE0 : RegSpec :=
  ⟨0x19, 0x10190200, 16, 32, 1, 4, .fix, .rw, 0x0, [⟨31, 31, .frozen⟩, ⟨15, 0, .frozen⟩]⟩

/-- R497: [31:24] OUT_COUNT; [23:16] FIRST_OUT; [15:8] IN_COUNT; [7:0] FIRST_IN. -/
def Reg.CORE1 : RegSpec :=
  ⟨0x19, 0x10190204, 16, 32, 1, 4, .fix, .rw, 0x0, [⟨31, 24, .frozen⟩, ⟨23, 16, .frozen⟩, ⟨15, 8, .frozen⟩, ⟨7, 0, .frozen⟩]⟩

/-- R497: [17:6] IN_BASE. -/
def Reg.CORE2 : RegSpec :=
  ⟨0x19, 0x10190208, 16, 32, 1, 4, .fix, .rw, 0x0, [⟨17, 6, .frozen⟩]⟩

/-- R497: [17:6] OUT_BASE. -/
def Reg.CORE3 : RegSpec :=
  ⟨0x19, 0x1019020C, 16, 32, 1, 4, .fix, .rw, 0x0, [⟨17, 6, .frozen⟩]⟩

/-- R497: [1:0] CMD. -/
def Reg.CORE_CMD : RegSpec :=
  ⟨0x19, 0x10190210, 16, 32, 1, 4, .fix, .wo, 0x0, [⟨1, 0, .live⟩]⟩

/-- R497: [29:16] PC; [7:4] FAULT; [2:0] STATE. -/
def Reg.CORE5 : RegSpec :=
  ⟨0x19, 0x10190214, 16, 32, 1, 4, .fix, .ro, 0x0, [⟨29, 16, .live⟩, ⟨7, 4, .live⟩, ⟨2, 0, .live⟩]⟩

/-- R497: [15:0] RESIDENT. -/
def Reg.CORE6 : RegSpec :=
  ⟨0x19, 0x10190218, 16, 32, 1, 4, .fix, .ro, 0xFFFF, [⟨15, 0, .live⟩]⟩

/-- R497: [31:0] RUN_MAX. -/
def Reg.CORE7 : RegSpec :=
  ⟨0x19, 0x1019021C, 16, 32, 1, 4, .fix, .rw, 0x0, [⟨31, 0, .live⟩]⟩

/-- R529: [29:4] BANKS. -/
def Reg.MEM_SCRATCH_PWR : RegSpec :=
  ⟨0x1A, 0x101A0100, 1, 4, 1, 4, .fix, .rw, 0x0, [⟨29, 4, .live⟩]⟩

/-- R529: [15:0] PERIOD. -/
def Reg.MEM_SCRUB : RegSpec :=
  ⟨0x1A, 0x101A0104, 1, 4, 1, 4, .fix, .rw, 0xA, [⟨15, 0, .live⟩]⟩

/-- R529: [2:2] NOSPARE_STK; [1:1] REPAIR_STK; [0:0] UE_STK. -/
def Reg.MEM_STAT : RegSpec :=
  ⟨0x1A, 0x101A0108, 1, 4, 1, 4, .fix, .w1c, 0x0, [⟨2, 2, .live⟩, ⟨1, 1, .live⟩, ⟨0, 0, .live⟩]⟩

/-- R529: [31:0] ADDR_LO. -/
def Reg.MEM_UE_ADDR_LO : RegSpec :=
  ⟨0x1A, 0x101A010C, 1, 4, 1, 4, .fix, .ro, 0x0, [⟨31, 0, .live⟩]⟩

/-- R529: [7:0] ADDR_HI. -/
def Reg.MEM_UE_ADDR_HI : RegSpec :=
  ⟨0x1A, 0x101A0110, 1, 4, 1, 4, .fix, .ro, 0x0, [⟨7, 0, .live⟩]⟩

/-- R529: [31:0] CNT. -/
def Reg.MEM_CE_CNT : RegSpec :=
  ⟨0x1A, 0x101A0114, 1, 4, 1, 4, .fix, .rw, 0x0, [⟨31, 0, .live⟩]⟩

/-- R529: [31:0] CNT. -/
def Reg.MEM_UE_CNT : RegSpec :=
  ⟨0x1A, 0x101A0118, 1, 4, 1, 4, .fix, .rw, 0x0, [⟨31, 0, .live⟩]⟩

/-- R529: [31:0] CNT. -/
def Reg.MEM_REPAIR_CNT : RegSpec :=
  ⟨0x1A, 0x101A011C, 1, 4, 1, 4, .fix, .rw, 0x0, [⟨31, 0, .live⟩]⟩

/-- R529: [31:0] CNT. -/
def Reg.MEM_FABRIC_ERR_CNT : RegSpec :=
  ⟨0x1A, 0x101A0120, 1, 4, 1, 4, .fix, .rw, 0x0, [⟨31, 0, .live⟩]⟩

/-- R529: [23:16] ON; [15:8] RET; [7:0] OFF. -/
def Reg.MEM_GROUP : RegSpec :=
  ⟨0x1A, 0x101A0200, 9, 4, 1, 4, .fix, .ro, 0x0, [⟨23, 16, .live⟩, ⟨15, 8, .live⟩, ⟨7, 0, .live⟩]⟩

/-- R531: [20:16] FITTED; [10:8] SPEED; [3:0] EIGHTHS. -/
def Reg.DRC_INFO : RegSpec :=
  ⟨0x1B, 0x101B0100, 1, 4, 1, 4, .fix, .ro, 0x0, [⟨20, 16, .live⟩, ⟨10, 8, .live⟩, ⟨3, 0, .live⟩]⟩

/-- R531: [31:16] SR_IDLE; [1:1] CE_LOG; [0:0] SR_EN. -/
def Reg.DRC_CFG : RegSpec :=
  ⟨0x1B, 0x101B0104, 1, 4, 1, 4, .fix, .rw, 0x640001, [⟨31, 16, .live⟩, ⟨1, 1, .live⟩, ⟨0, 0, .live⟩]⟩

/-- R531: [15:8] OFF; [7:0] ON. -/
def Reg.DRC_PANIC : RegSpec :=
  ⟨0x1B, 0x101B0108, 1, 4, 1, 4, .fix, .rw, 0x4B32, [⟨15, 8, .live⟩, ⟨7, 0, .live⟩]⟩

/-- R531: [31:16] RH_MAX; [15:0] RH_GAP. -/
def Reg.DRC_RH : RegSpec :=
  ⟨0x1B, 0x101B010C, 1, 4, 1, 4, .fix, .rw, 0x100003E8, [⟨31, 16, .live⟩, ⟨15, 0, .live⟩]⟩

/-- R531: [2:2] RH_STK; [1:1] UE_STK; [0:0] CE_STK. -/
def Reg.DRC_STAT : RegSpec :=
  ⟨0x1B, 0x101B0110, 1, 4, 1, 4, .fix, .w1c, 0x0, [⟨2, 2, .live⟩, ⟨1, 1, .live⟩, ⟨0, 0, .live⟩]⟩

/-- R531: [31:0] TOP. -/
def Reg.DRC_TOP_LO : RegSpec :=
  ⟨0x1B, 0x101B0114, 1, 4, 1, 4, .fix, .ro, 0x0, [⟨31, 0, .live⟩]⟩

/-- R531: [7:0] TOP. -/
def Reg.DRC_TOP_HI : RegSpec :=
  ⟨0x1B, 0x101B0118, 1, 4, 1, 4, .fix, .ro, 0x0, [⟨7, 0, .live⟩]⟩

/-- R531: [31:6] BASE. -/
def Reg.DRC_SCRUB_BASE_LO : RegSpec :=
  ⟨0x1B, 0x101B011C, 1, 4, 1, 4, .fix, .rw, 0x0, [⟨31, 6, .live⟩]⟩

/-- R531: [7:0] BASE. -/
def Reg.DRC_SCRUB_BASE_HI : RegSpec :=
  ⟨0x1B, 0x101B0120, 1, 4, 1, 4, .fix, .rw, 0x0, [⟨7, 0, .live⟩]⟩

/-- R531: [31:6] LIMIT. -/
def Reg.DRC_SCRUB_LIMIT_LO : RegSpec :=
  ⟨0x1B, 0x101B0124, 1, 4, 1, 4, .fix, .rw, 0x0, [⟨31, 6, .live⟩]⟩

/-- R531: [7:0] LIMIT. -/
def Reg.DRC_SCRUB_LIMIT_HI : RegSpec :=
  ⟨0x1B, 0x101B0128, 1, 4, 1, 4, .fix, .rw, 0x0, [⟨7, 0, .live⟩]⟩

/-- R531: [15:0] HOURS. -/
def Reg.DRC_SCRUB_HOURS : RegSpec :=
  ⟨0x1B, 0x101B012C, 1, 4, 1, 4, .fix, .rw, 0x18, [⟨15, 0, .live⟩]⟩

/-- R531: [15:0] RT_UE. -/
def Reg.DRC_RT_UE_SEC : RegSpec :=
  ⟨0x1B, 0x101B0130, 1, 4, 1, 4, .fix, .ro, 0x0, [⟨15, 0, .live⟩]⟩

/-- R531: [31:0] WR. -/
def Reg.DRC_LOG_WR : RegSpec :=
  ⟨0x1B, 0x101B0134, 1, 4, 1, 4, .fix, .ro, 0x0, [⟨31, 0, .live⟩]⟩

/-- R532: [31:0] CNT. -/
def Reg.DRC_CE_CNT : RegSpec :=
  ⟨0x1B, 0x101B0140, 1, 4, 1, 4, .fix, .rw, 0x0, [⟨31, 0, .live⟩]⟩

/-- R532: [31:0] CNT. -/
def Reg.DRC_UE_CNT : RegSpec :=
  ⟨0x1B, 0x101B0144, 1, 4, 1, 4, .fix, .rw, 0x0, [⟨31, 0, .live⟩]⟩

/-- R532: [31:0] CNT. -/
def Reg.DRC_PANIC_CNT : RegSpec :=
  ⟨0x1B, 0x101B0148, 3, 4, 1, 4, .fix, .rw, 0x0, [⟨31, 0, .live⟩]⟩

/-- R532: [31:0] CNT. -/
def Reg.DRC_RH_CNT : RegSpec :=
  ⟨0x1B, 0x101B0154, 1, 4, 1, 4, .fix, .rw, 0x0, [⟨31, 0, .live⟩]⟩

/-- R532: [31:0] CNT. -/
def Reg.DRC_SR_CNT : RegSpec :=
  ⟨0x1B, 0x101B0158, 1, 4, 1, 4, .fix, .rw, 0x0, [⟨31, 0, .live⟩]⟩

/-- R532: [31:0] CNT. -/
def Reg.DRC_LOG_LOST_CNT : RegSpec :=
  ⟨0x1B, 0x101B015C, 1, 4, 1, 4, .fix, .rw, 0x0, [⟨31, 0, .live⟩]⟩

/-- R532: [31:0] CNT. -/
def Reg.DRC_PPR_CNT : RegSpec :=
  ⟨0x1B, 0x101B0160, 1, 4, 1, 4, .fix, .rw, 0x0, [⟨31, 0, .live⟩]⟩

/-- R533: [31:0] ADDR_LO. -/
def Reg.DRC_LOG0 : RegSpec :=
  ⟨0x1B, 0x101B0800, 64, 32, 1, 4, .fix, .ro, 0x0, [⟨31, 0, .live⟩]⟩

/-- R533: [25:24] TYPE; [23:16] INST; [15:8] REQ; [7:0] ADDR_HI. -/
def Reg.DRC_LOG1 : RegSpec :=
  ⟨0x1B, 0x101B0804, 64, 32, 1, 4, .fix, .ro, 0x0, [⟨25, 24, .live⟩, ⟨23, 16, .live⟩, ⟨15, 8, .live⟩, ⟨7, 0, .live⟩]⟩

/-- R533: [7:0] SYNDROME. -/
def Reg.DRC_LOG2 : RegSpec :=
  ⟨0x1B, 0x101B0808, 64, 32, 1, 4, .fix, .ro, 0x0, [⟨7, 0, .live⟩]⟩

/-- R533: [31:0] SEC. -/
def Reg.DRC_LOG3 : RegSpec :=
  ⟨0x1B, 0x101B080C, 64, 32, 1, 4, .fix, .ro, 0x0, [⟨31, 0, .live⟩]⟩

/-- R533: [29:0] NS. -/
def Reg.DRC_LOG4 : RegSpec :=
  ⟨0x1B, 0x101B0810, 64, 32, 1, 4, .fix, .ro, 0x0, [⟨29, 0, .live⟩]⟩

/-- R546: [31:5] FIRST_LO. -/
def Reg.DMA_A_GO_LO : RegSpec :=
  ⟨0x1C, 0x101C0100, 16, 32, 1, 4, .fix, .rw, 0x0, [⟨31, 5, .live⟩]⟩

/-- R546: [7:0] FIRST_HI. -/
def Reg.DMA_A_GO_HI : RegSpec :=
  ⟨0x1C, 0x101C0104, 16, 32, 1, 4, .fix, .rw, 0x0, [⟨7, 0, .live⟩]⟩

/-- R546: [0:0] STOP. -/
def Reg.DMA_A_CTRL : RegSpec :=
  ⟨0x1C, 0x101C0108, 16, 32, 1, 4, .fix, .wo, 0x0, [⟨0, 0, .live⟩]⟩

/-- R546: [10:8] CODE; [2:0] STATE. -/
def Reg.DMA_A_STAT : RegSpec :=
  ⟨0x1C, 0x101C010C, 16, 32, 1, 4, .fix, .ro, 0x0, [⟨10, 8, .live⟩, ⟨2, 0, .live⟩]⟩

/-- R546: [31:0] CUR. -/
def Reg.DMA_A_CUR : RegSpec :=
  ⟨0x1C, 0x101C0110, 16, 32, 1, 4, .fix, .ro, 0x0, [⟨31, 0, .live⟩]⟩

/-- R546: [23:0] BYTES. -/
def Reg.DMA_A_BYTES : RegSpec :=
  ⟨0x1C, 0x101C0114, 16, 32, 1, 4, .fix, .ro, 0x0, [⟨23, 0, .live⟩]⟩

/-- R546: [31:5] FIRST_LO. -/
def Reg.DMA_B_GO_LO : RegSpec :=
  ⟨0x1C, 0x101C0400, 4, 32, 1, 4, .fix, .rw, 0x0, [⟨31, 5, .live⟩]⟩

/-- R546: [7:0] FIRST_HI. -/
def Reg.DMA_B_GO_HI : RegSpec :=
  ⟨0x1C, 0x101C0404, 4, 32, 1, 4, .fix, .rw, 0x0, [⟨7, 0, .live⟩]⟩

/-- R546: [0:0] STOP. -/
def Reg.DMA_B_CTRL : RegSpec :=
  ⟨0x1C, 0x101C0408, 4, 32, 1, 4, .fix, .wo, 0x0, [⟨0, 0, .live⟩]⟩

/-- R546: [10:8] CODE; [2:0] STATE. -/
def Reg.DMA_B_STAT : RegSpec :=
  ⟨0x1C, 0x101C040C, 4, 32, 1, 4, .fix, .ro, 0x0, [⟨10, 8, .live⟩, ⟨2, 0, .live⟩]⟩

/-- R546: [31:0] CUR. -/
def Reg.DMA_B_CUR : RegSpec :=
  ⟨0x1C, 0x101C0410, 4, 32, 1, 4, .fix, .ro, 0x0, [⟨31, 0, .live⟩]⟩

/-- R546: [23:0] BYTES. -/
def Reg.DMA_B_BYTES : RegSpec :=
  ⟨0x1C, 0x101C0414, 4, 32, 1, 4, .fix, .ro, 0x0, [⟨23, 0, .live⟩]⟩

/-- R547: [31:0] CNT. -/
def Reg.DMA_DONE_CNT : RegSpec :=
  ⟨0x1C, 0x101C0500, 1, 4, 1, 4, .fix, .rw, 0x0, [⟨31, 0, .live⟩]⟩

/-- R547: [31:0] CNT. -/
def Reg.DMA_ERR_CNT : RegSpec :=
  ⟨0x1C, 0x101C0504, 1, 4, 1, 4, .fix, .rw, 0x0, [⟨31, 0, .live⟩]⟩

/-- R547: [31:0] CNT. -/
def Reg.DMA_DENY_CNT : RegSpec :=
  ⟨0x1C, 0x101C0508, 1, 4, 1, 4, .fix, .rw, 0x0, [⟨31, 0, .live⟩]⟩

/-- R547: [0:0] ERR_STK. -/
def Reg.DMA_STAT : RegSpec :=
  ⟨0x1C, 0x101C050C, 1, 4, 1, 4, .fix, .w1c, 0x0, [⟨0, 0, .live⟩]⟩

/-- R547: [15:0] ADD. -/
def Reg.DMA_REQ_ADD : RegSpec :=
  ⟨0x1C, 0x101C0604, 15, 4, 1, 4, .fix, .wo, 0x0, [⟨15, 0, .live⟩]⟩

/-- R547: [15:0] CNT. -/
def Reg.DMA_REQ_CNT : RegSpec :=
  ⟨0x1C, 0x101C0684, 31, 4, 1, 4, .fix, .rw, 0x0, [⟨15, 0, .live⟩]⟩

/-- R432: [5:5] B_VALID; [4:4] A_VALID; [3:0] SLOT. -/
def Reg.NVM_SLOT : RegSpec :=
  ⟨0x1D, 0x101D0100, 1, 4, 1, 4, .fix, .ro, 0x0, [⟨5, 5, .live⟩, ⟨4, 4, .live⟩, ⟨3, 0, .live⟩]⟩

/-- R432: [31:0] GEN_A. -/
def Reg.NVM_GEN_A_LO : RegSpec :=
  ⟨0x1D, 0x101D0104, 1, 4, 1, 4, .fix, .ro, 0x0, [⟨31, 0, .live⟩]⟩

/-- R432: [31:0] GEN_A. -/
def Reg.NVM_GEN_A_HI : RegSpec :=
  ⟨0x1D, 0x101D0108, 1, 4, 1, 4, .fix, .ro, 0x0, [⟨31, 0, .live⟩]⟩

/-- R432: [31:0] GEN_B. -/
def Reg.NVM_GEN_B_LO : RegSpec :=
  ⟨0x1D, 0x101D010C, 1, 4, 1, 4, .fix, .ro, 0x0, [⟨31, 0, .live⟩]⟩

/-- R432: [31:0] GEN_B. -/
def Reg.NVM_GEN_B_HI : RegSpec :=
  ⟨0x1D, 0x101D0110, 1, 4, 1, 4, .fix, .ro, 0x0, [⟨31, 0, .live⟩]⟩

/-- R432: [31:16] SECTION; [15:8] SLOT; [7:0] REASON. -/
def Reg.NVM_LOAD_FAIL : RegSpec :=
  ⟨0x1D, 0x101D0114, 1, 4, 1, 4, .fix, .ro, 0x0, [⟨31, 16, .live⟩, ⟨15, 8, .live⟩, ⟨7, 0, .live⟩]⟩

/-- R432: [31:0] SKIP_CNT. -/
def Reg.NVM_SKIP_CNT : RegSpec :=
  ⟨0x1D, 0x101D0118, 1, 4, 1, 4, .fix, .rw, 0x0, [⟨31, 0, .live⟩]⟩

/-- R432: [15:0] MIB. -/
def Reg.NVM_DENSITY : RegSpec :=
  ⟨0x1D, 0x101D011C, 1, 4, 1, 4, .fix, .ro, 0x0, [⟨15, 0, .live⟩]⟩

/-- Registers of SYS, part 0. -/
def regMapSys0 : List RegSpec :=
  [Reg.SYS_RENDER_RATE, Reg.SYS_EPOCH, Reg.SYS_START, Reg.SYS_TAG_W0, Reg.SYS_TAG_W1, Reg.SYS_TAG_W2, Reg.SYS_TAG_W3, Reg.SYS_TAG_STAT, Reg.SYS_TAG_DROP_CNT, Reg.SYS_CTRL, Reg.SYS_EVT_FWD_IP, Reg.SYS_EVT_FWD_CFG, Reg.SYS_SESSION_LO, Reg.SYS_SESSION_HI, Reg.SYS_EVT_EN, Reg.SYS_SNAP_BASE_LO, Reg.SYS_SNAP_BASE_HI, Reg.SYS_CUE_POS, Reg.SYS_EVT_DROP_CNT, Reg.SYS_AUTH_FAIL_CNT, Reg.SYS_REPLAY_CNT, Reg.SYS_SESSION_MISS_CNT, Reg.SYS_STAT, Reg.SYS_TAG_PEND]

/-- Registers of SYS, part 1. -/
def regMapSys1 : List RegSpec :=
  [Reg.SYS_TAG_LATE_CNT, Reg.SYS_TAG_STALE_CNT]

/-- All registers and table words of SYS. -/
def regMapSys : List RegSpec := regMapSys0 ++ regMapSys1

/-- Registers of FEA, part 0. -/
def regMapFea0 : List RegSpec :=
  [Reg.FEA_OFFER_LO, Reg.FEA_OFFER_HI, Reg.FEA_IMAGE_REQ_LO, Reg.FEA_IMAGE_REQ_HI, Reg.FEA_DRIVER_REQ_LO, Reg.FEA_DRIVER_REQ_HI, Reg.FEA_ACCEPT_LO, Reg.FEA_ACCEPT_HI, Reg.FEA_STAT]

/-- All registers and table words of FEA. -/
def regMapFea : List RegSpec := regMapFea0

/-- Registers of SEC, part 0. -/
def regMapSec0 : List RegSpec :=
  [Reg.SEC_LC, Reg.SEC_LC_REQ, Reg.SEC_TAMPER, Reg.SEC_STAT, Reg.SEC_KEY_VALID, Reg.SEC_DENY_CNT]

/-- All registers and table words of SEC. -/
def regMapSec : List RegSpec := regMapSec0

/-- Registers of HLT, part 0. -/
def regMapHlt0 : List RegSpec :=
  [Reg.HLT_ABD_MASK, Reg.HLT_ABD_LIMITS, Reg.HLT_ABD_STAT, Reg.HLT_MARGIN, Reg.HLT_TIMING, Reg.HLT_SLACK_MIN, Reg.HLT_RETIRE, Reg.HLT_STAT, Reg.HLT_TJ, Reg.HLT_SELFTEST, Reg.HLT_WEAR_USED, Reg.HLT_DEADLINE_MISS_CNT, Reg.HLT_STEP_CNT, Reg.HLT_RETIRE_CNT, Reg.HLT_WEAR_REC_CNT, Reg.HLT_WEAR_BAD_CNT, Reg.HLT_UNIT_RESTART_CNT, Reg.HLT_UNIT_LAST, Reg.HLT_ISLAND]

/-- All registers and table words of HLT. -/
def regMapHlt : List RegSpec := regMapHlt0

/-- Registers of PAR, part 0. -/
def regMapPar0 : List RegSpec :=
  [Reg.PAR_CFG, Reg.PAR_CTRL, Reg.PAR_SNAP_BASE_LO, Reg.PAR_SNAP_BASE_HI, Reg.PAR_SNAP_NUM, Reg.PAR_TXQ, Reg.PAR_STATUS, Reg.PAR_CLAIM, Reg.PAR_EPOCH_SEEN, Reg.PAR_SNAP_SEQ, Reg.PAR_HIST, Reg.PAR_CUTIN_CNT, Reg.PAR_SNAP_SENT_CNT, Reg.PAR_SNAP_BAD_CNT, Reg.PAR_SNAP_SKIP_CNT, Reg.PAR_HB_MISS_CNT]

/-- All registers and table words of PAR. -/
def regMapPar : List RegSpec := regMapPar0

/-- Registers of CLK, part 0. -/
def regMapClk0 : List RegSpec :=
  [Reg.CLK_CTRL, Reg.CLK_HOLD, Reg.CLK_STAT, Reg.CLK_FREQ, Reg.CLK_PHASE, Reg.CLK_SEL_HIST, Reg.CLK_OUT, Reg.CLK_GLITCH_CNT, Reg.CLK_SWITCH_CNT, Reg.CLK_REDIRECT_CNT, Reg.CLK_CAND0, Reg.CLK_CAND1, Reg.CLK_CAND2, Reg.CLK_CAND3, Reg.CLK_CSTAT0, Reg.CLK_CSTAT1, Reg.CLK_HIST]

/-- All registers and table words of CLK. -/
def regMapClk : List RegSpec := regMapClk0

/-- Registers of TIM, part 0. -/
def regMapTim0 : List RegSpec :=
  [Reg.TIM_SIDX_LO, Reg.TIM_SIDX_HI, Reg.TIM_SCALE_CNT, Reg.TIM_CTRL, Reg.TIM_PTP_CFG, Reg.TIM_PTP_DS, Reg.TIM_PTP_VAR, Reg.TIM_STEP_NS, Reg.TIM_PTP_STAT, Reg.TIM_GM_ID_LO, Reg.TIM_GM_ID_HI, Reg.TIM_OFFSET_LO, Reg.TIM_OFFSET_HI, Reg.TIM_MEAN_DELAY, Reg.TIM_ASYM, Reg.TIM_PPS_SEC_LO, Reg.TIM_PPS_SEC_HI, Reg.TIM_TIME_SEC_LO, Reg.TIM_TIME_SEC_HI, Reg.TIM_TIME_NS, Reg.TIM_TIME_FRAC, Reg.TIM_STAT, Reg.TIM_PIN_CFG, Reg.TIM_SYNC_REJ_CNT]

/-- Registers of TIM, part 1. -/
def regMapTim1 : List RegSpec :=
  [Reg.TIM_ANN_TIMEOUT_CNT, Reg.TIM_TRIG_LATE_CNT, Reg.TIM_CAP_DROP_CNT, Reg.TIM_GM_CHANGE_CNT, Reg.TIM_UTC_OFS, Reg.TIM_TRIG0, Reg.TIM_TRIG1, Reg.TIM_TRIG2, Reg.TIM_TRIG3, Reg.TIM_TRIGREC, Reg.TIM_CAPCFG, Reg.TIM_CAPQ0, Reg.TIM_CAPQ1, Reg.TIM_CAPQ2, Reg.TIM_CAPQ3]

/-- All registers and table words of TIM. -/
def regMapTim : List RegSpec := regMapTim0 ++ regMapTim1

/-- Registers of NET, part 0. -/
def regMapNet0 : List RegSpec :=
  [Reg.NET_MODE, Reg.NET_MAX_FRAME, Reg.NET_FILTER, Reg.NET_VLAN, Reg.NET_IDLE_A, Reg.NET_IDLE_B, Reg.NET_STATUS, Reg.NET_HIST, Reg.NET_DA_LO, Reg.NET_DA_HI, Reg.NET_RX_OK_CNT, Reg.NET_TX_OK_CNT, Reg.NET_RUNT_CNT, Reg.NET_GIANT_CNT, Reg.NET_FCS_CNT, Reg.NET_PCS_ERR_CNT, Reg.NET_FILTER_CNT, Reg.NET_VLAN_CNT, Reg.NET_PAUSE_CNT, Reg.NET_TX_DISCARD_CNT]

/-- All registers and table words of NET. -/
def regMapNet : List RegSpec := regMapNet0

/-- Registers of QMG, part 0. -/
def regMapQmg0 : List RegSpec :=
  [Reg.QMG_POOL, Reg.QMG_POOL_MIN, Reg.QMG_OP, Reg.QMG_OP_ADDR_LO, Reg.QMG_OP_ADDR_HI, Reg.QMG_OP_MAX, Reg.QMG_OP_STAT, Reg.QMG_TXS_ADDR_LO, Reg.QMG_TXS_ADDR_HI, Reg.QMG_TXS_LEN, Reg.QMG_TXS_GO, Reg.QMG_TXS_STAT, Reg.QMG_STAT, Reg.QMG_NOCELL_CNT, Reg.QMG_NOSTEER_CNT, Reg.QMG_BAD_OP_CNT, Reg.QUEUE0, Reg.QUEUE1, Reg.QUEUE2, Reg.QSTAT0, Reg.QSTAT1, Reg.QSTAT2, Reg.STEER0, Reg.STEER1]

/-- Registers of QMG, part 1. -/
def regMapQmg1 : List RegSpec :=
  [Reg.STEER2, Reg.STEER3]

/-- All registers and table words of QMG. -/
def regMapQmg : List RegSpec := regMapQmg0 ++ regMapQmg1

/-- Registers of MST, part 0. -/
def regMapMst0 : List RegSpec :=
  [Reg.MST_PORT_IP, Reg.MST_IGMP, Reg.MST_STAT, Reg.MST_LATE_CNT, Reg.MST_EARLY_CNT, Reg.MST_BAD_CNT, Reg.MST_ARP_CNT, Reg.MRX0, Reg.MRX1, Reg.MRX2, Reg.MRX3, Reg.MRX4, Reg.MRX5, Reg.MRX6, Reg.MRX7, Reg.MRX8, Reg.MTX0, Reg.MTX1, Reg.MTX2, Reg.MTX3, Reg.MTX4, Reg.MTX5, Reg.MTX6, Reg.MTX7]

/-- Registers of MST, part 1. -/
def regMapMst1 : List RegSpec :=
  [Reg.MTX8, Reg.MTX9, Reg.MRXS0, Reg.MRXS1, Reg.MRXS2, Reg.MRXS3, Reg.MRXS4, Reg.MRXS5, Reg.MRXS6, Reg.MRXS7, Reg.MTXS0, Reg.MTXS1, Reg.MTXS2, Reg.MST_TAG_PEND, Reg.MST_TAG_LATE_CNT, Reg.MST_TAG_STALE_CNT]

/-- All registers and table words of MST. -/
def regMapMst : List RegSpec := regMapMst0 ++ regMapMst1

/-- Registers of LNK, part 0. -/
def regMapLnk0 : List RegSpec :=
  [Reg.LNK_CFG, Reg.LNK_RXQ0, Reg.LNK_RXQ1, Reg.LNK_SHED, Reg.LNK_MARGIN, Reg.LNK_ASYM, Reg.LNK_STATUS, Reg.LNK_HIST, Reg.LNK_PEER_CLK, Reg.LNK_LANE_MARGIN, Reg.LNK_RX_OK_CNT, Reg.LNK_TX_OK_CNT, Reg.LNK_RUNT_CNT, Reg.LNK_GIANT_CNT, Reg.LNK_ALIGN_CNT, Reg.LNK_CRC_CNT, Reg.LNK_PCS_ERR_CNT, Reg.LNK_BAD_CNT, Reg.LNK_TX_DISCARD_CNT, Reg.LNK_WIDTH_CNT, Reg.LNK_SHED_FAIL_CNT, Reg.LNK_SPARE_CNT, Reg.LTX0, Reg.LTX1]

/-- Registers of LNK, part 1. -/
def regMapLnk1 : List RegSpec :=
  [Reg.LRX0, Reg.LRXS0, Reg.LRXS1, Reg.LRXS2, Reg.LRXS3, Reg.LRXS4, Reg.LRXS5, Reg.LRXS7, Reg.LNK_TAG_PEND, Reg.LNK_TAG_LATE_CNT, Reg.LNK_TAG_STALE_CNT]

/-- All registers and table words of LNK. -/
def regMapLnk : List RegSpec := regMapLnk0 ++ regMapLnk1

/-- Registers of TDM, part 0. -/
def regMapTdm0 : List RegSpec :=
  [Reg.TDM_MCLK, Reg.TDM_CFG, Reg.TDM_CFG2, Reg.TDM_STAT, Reg.TDM_PPM, Reg.TDM_HIST, Reg.TDM_SLIP_CNT, Reg.TDM_GLITCH_CNT, Reg.TDM_LOST_CNT, Reg.RING0, Reg.RING1, Reg.RING2, Reg.RING3, Reg.RING4, Reg.RING5, Reg.RING6, Reg.TDM_TAG_PEND, Reg.TDM_TAG_LATE_CNT, Reg.TDM_TAG_STALE_CNT]

/-- All registers and table words of TDM. -/
def regMapTdm : List RegSpec := regMapTdm0

/-- Registers of AES, part 0. -/
def regMapAes0 : List RegSpec :=
  [Reg.AES_CFG, Reg.AES_CFG2, Reg.AES_STAT, Reg.AES_PPM, Reg.AES_HIST, Reg.AES_PARITY_CNT, Reg.AES_VALIDITY_CNT, Reg.AES_CS_CRC_CNT, Reg.AES_SLIP_CNT, Reg.AES_LOST_CNT, Reg.AES_GLITCH_CNT, Reg.AES_CS_TX0, Reg.AES_CS_TX1, Reg.AES_CS_RXA, Reg.AES_CS_RXB, Reg.AES_TAG_PEND, Reg.AES_TAG_LATE_CNT, Reg.AES_TAG_STALE_CNT]

/-- All registers and table words of AES. -/
def regMapAes : List RegSpec := regMapAes0

/-- Registers of INC, part 0. -/
def regMapInc0 : List RegSpec :=
  [Reg.INC_RMS_WIN, Reg.INC_ASRC_CAP, Reg.INC_ASRC_USED, Reg.INC_WF_COUNT, Reg.INC_STAT, Reg.INC_CLIP_CNT, Reg.INCH0, Reg.INCH1, Reg.INCH2, Reg.INCH3, Reg.INCS0, Reg.INCS1, Reg.INCS2, Reg.INCS3, Reg.INC_TAG_PEND, Reg.INC_TAG_LATE_CNT, Reg.INC_TAG_STALE_CNT]

/-- All registers and table words of INC. -/
def regMapInc : List RegSpec := regMapInc0

/-- Registers of RTE, part 0. -/
def regMapRte0 : List RegSpec :=
  [Reg.RTE_PATCH_CLIP_CNT, Reg.RTE_BUS_CLIP_CNT, Reg.RTE_PATH_CUT_CNT, Reg.RTE_ROUTE_BAD_CNT, Reg.RIN0, Reg.RIN1, Reg.ROUT0, Reg.ROUT1, Reg.XPT, Reg.RTE_TAG_PEND, Reg.RTE_TAG_LATE_CNT, Reg.RTE_TAG_STALE_CNT]

/-- All registers and table words of RTE. -/
def regMapRte : List RegSpec := regMapRte0

/-- Registers of MOT, part 0. -/
def regMapMot0 : List RegSpec :=
  [Reg.MOT_CTRL, Reg.MOT_OSC_PORT, Reg.MOT_NATIVE_PORT, Reg.MOT_TAI_UTC, Reg.MOT_STAT, Reg.MOT_OSC_BAD_CNT, Reg.MOT_OSC_WILD_CNT, Reg.MOT_NATIVE_BAD_CNT, Reg.MOT_PATH_CNT, Reg.MOT_LATE_CNT, Reg.MOT_FAR_CNT, Reg.MOT_JUMP_CNT, Reg.MOT_RANGE_CNT, Reg.MOT_INQ_DROP_CNT, Reg.MOT_COALESCE_CNT, Reg.OBJ0, Reg.OBJ1, Reg.OBJ2, Reg.OBJ3, Reg.OBJ4, Reg.OBJ5, Reg.OBJ6, Reg.OBJ7, Reg.INGEST]

/-- Registers of MOT, part 1. -/
def regMapMot1 : List RegSpec :=
  [Reg.INGEST5, Reg.INGEST7, Reg.MSTAT0, Reg.MSTAT3, Reg.MSTAT4, Reg.MSTAT5, Reg.MSTAT6, Reg.MOT_TAG_PEND, Reg.MOT_TAG_LATE_CNT, Reg.MOT_TAG_STALE_CNT]

/-- All registers and table words of MOT. -/
def regMapMot : List RegSpec := regMapMot0 ++ regMapMot1

/-- Registers of SLV, part 0. -/
def regMapSlv0 : List RegSpec :=
  [Reg.SLV_CTRL, Reg.SLV_SOUND_SPEED, Reg.SLV_AIR_TEMP, Reg.SLV_SOUND_EFF, Reg.SLV_C_SLEW, Reg.SLV_AIR, Reg.SLV_SPREAD_CFG, Reg.SLV_REFRESH, Reg.SLV_LOAD, Reg.SLV_STAT, Reg.SLV_LIST_DROP_CNT, Reg.SLV_GAIN_SAT_CNT, Reg.SLV_LATE_JOB_CNT, Reg.SLV_FIELD_FALLBACK_CNT, Reg.SLV_BAD_REF_CNT, Reg.SLV_SCAN_CNT, Reg.SLV_BULK_CLAMP_CNT, Reg.LAY0, Reg.LAY1, Reg.LAY2, Reg.LAY3, Reg.LAY4, Reg.SPK0, Reg.SPK3]

/-- Registers of SLV, part 1. -/
def regMapSlv1 : List RegSpec :=
  [Reg.SPK4, Reg.SPK5, Reg.VIRT0, Reg.VIRT3, Reg.VIRT4, Reg.TRI0, Reg.TRI1, Reg.TRI2, Reg.TRI3, Reg.LOOKUP, Reg.ARR0, Reg.ARR1, Reg.ARR2, Reg.ARR3, Reg.ARR4, Reg.ARR5, Reg.ZONE0, Reg.ZONE1, Reg.ZONE4, Reg.SLV_TAG_PEND, Reg.SLV_TAG_LATE_CNT, Reg.SLV_TAG_STALE_CNT]

/-- All registers and table words of SLV. -/
def regMapSlv : List RegSpec := regMapSlv0 ++ regMapSlv1

/-- Registers of DSX, part 0. -/
def regMapDsx0 : List RegSpec :=
  [Reg.DSX_QUOTA0, Reg.DSX_QUOTA1, Reg.DSX_QUOTA2, Reg.DSX_QUOTA3, Reg.DSX_QUOTA4, Reg.DSX_SUBMIT_W, Reg.DSX_SUBMIT_STAT, Reg.DSX_OCC, Reg.DSX_SRC_OCC, Reg.DSX_UNIT_ACTIVE, Reg.DSX_UNIT_RETIRED, Reg.DSX_STAT, Reg.DSX_BAD_CNT, Reg.DSX_BP_CNT, Reg.DSX_ROB_STALL_CNT, Reg.DSX_SPARE_CNT]

/-- All registers and table words of DSX. -/
def regMapDsx : List RegSpec := regMapDsx0

/-- Registers of LAN, part 0. -/
def regMapLan0 : List RegSpec :=
  [Reg.LAN_LIMIT_SLOPE, Reg.LAN_ROTATE, Reg.LAN_COUNT, Reg.LAN_STAT, Reg.LAN_CLAMP_CNT, Reg.LAN_GUARD_CNT, Reg.LAN_PRE_CLIP_CNT, Reg.LAN_PART_SAT_CNT, Reg.LAN_MEMERR_CNT, Reg.LAN_MIGRATE_CNT, Reg.LAN_MIG_REJECT_CNT, Reg.LAN_SITOUT_CNT, Reg.LAN_STATE, Reg.LOBJ0, Reg.LOBJ1, Reg.LSHL, Reg.LLVL, Reg.LSHH0, Reg.LSHH1, Reg.LSHH2, Reg.LSHH3, Reg.LSHH7, Reg.LLVH0, Reg.LLVH1]

/-- Registers of LAN, part 1. -/
def regMapLan1 : List RegSpec :=
  [Reg.LLVH2, Reg.LLVH3, Reg.LLVH7, Reg.LAN_TAG_PEND, Reg.LAN_TAG_LATE_CNT, Reg.LAN_TAG_STALE_CNT]

/-- All registers and table words of LAN. -/
def regMapLan : List RegSpec := regMapLan0 ++ regMapLan1

/-- Registers of RED, part 0. -/
def regMapRed0 : List RegSpec :=
  [Reg.RED_STAT, Reg.RED_SAT_CNT, Reg.RED_PARITY_CNT, Reg.RED_MIG_DISCARD_CNT, Reg.RED_REQUIRED, Reg.RED_LAST_LO, Reg.RED_LAST_HI, Reg.RED_TAG_PEND, Reg.RED_TAG_LATE_CNT, Reg.RED_TAG_STALE_CNT]

/-- All registers and table words of RED. -/
def regMapRed : List RegSpec := regMapRed0

/-- Registers of COR, part 0. -/
def regMapCor0 : List RegSpec :=
  [Reg.COR_CTRL, Reg.COR_SET_BASE_LO, Reg.COR_SET_BASE_HI, Reg.COR_POOL_CAP, Reg.COR_POOL_USED, Reg.COR_SWAP_STAT, Reg.COR_XF_CAP, Reg.COR_SLICE, Reg.COR_STAT, Reg.COR_SET_USE, Reg.COR_TRIM_CLIP_CNT, Reg.COR_EQ_CLIP_CNT, Reg.COR_OUT_CLIP_CNT, Reg.COR_LIM_CLAMP_CNT, Reg.COR_TAIL_LATE_CNT, Reg.COR_MEMERR_CNT, Reg.COR_SWAP_REJECT_CNT, Reg.COR_SWAP_SLIP_CNT, Reg.COR_XREAD_MISS_CNT, Reg.COR_SPARE_CNT, Reg.COUT0, Reg.COUT1, Reg.COUT2, Reg.COUT3]

/-- Registers of COR, part 1. -/
def regMapCor1 : List RegSpec :=
  [Reg.COUT4, Reg.COUT5, Reg.CBQ0, Reg.CBQ1, Reg.COST0, Reg.COST1, Reg.COST2, Reg.COST3, Reg.COR_TAG_PEND, Reg.COR_TAG_LATE_CNT, Reg.COR_TAG_STALE_CNT]

/-- All registers and table words of COR. -/
def regMapCor : List RegSpec := regMapCor0 ++ regMapCor1

/-- Registers of MEA, part 0. -/
def regMapMea0 : List RegSpec :=
  [Reg.MEA_LIVE_CFG, Reg.MEA_LIVE_CTRL, Reg.MEA_LIVE_BASE_LO, Reg.MEA_LIVE_BASE_HI, Reg.MEA_LIVE_TASK, Reg.MEA_START_IGN_CNT, Reg.MEA_NODELAY_CNT, Reg.GEN0, Reg.GEN1, Reg.GEN2, Reg.GEN3, Reg.GEN4, Reg.GEN5, Reg.RUN0, Reg.RUN1, Reg.RUN2, Reg.RUN3, Reg.RUN4, Reg.RUN5, Reg.RUN6, Reg.RUN7, Reg.RUN8, Reg.RUN9, Reg.RUN10]

/-- Registers of MEA, part 1. -/
def regMapMea1 : List RegSpec :=
  [Reg.RUN14, Reg.RUNS0, Reg.RUNS1, Reg.RUNS2, Reg.PAIR0, Reg.MEA_TAG_PEND, Reg.MEA_TAG_LATE_CNT, Reg.MEA_TAG_STALE_CNT]

/-- All registers and table words of MEA. -/
def regMapMea : List RegSpec := regMapMea0 ++ regMapMea1

/-- Registers of DRU, part 0. -/
def regMapDru0 : List RegSpec :=
  [Reg.DRU_PROG_BASE_LO, Reg.DRU_PROG_BASE_HI, Reg.DRU_TASK_MAX, Reg.DRU_DOORBELL, Reg.DRU_CORE_ACTIVE, Reg.DRU_CORE_RETIRED, Reg.DRU_STAT, Reg.DRU_FAULT_CNT, Reg.DRU_OVERRUN_CNT, Reg.DRU_OUT_CLIP_CNT, Reg.DRU_LOAD_CNT, Reg.DRU_SPARE_CNT, Reg.CORE0, Reg.CORE1, Reg.CORE2, Reg.CORE3, Reg.CORE_CMD, Reg.CORE5, Reg.CORE6, Reg.CORE7]

/-- All registers and table words of DRU. -/
def regMapDru : List RegSpec := regMapDru0

/-- Registers of MEM, part 0. -/
def regMapMem0 : List RegSpec :=
  [Reg.MEM_SCRATCH_PWR, Reg.MEM_SCRUB, Reg.MEM_STAT, Reg.MEM_UE_ADDR_LO, Reg.MEM_UE_ADDR_HI, Reg.MEM_CE_CNT, Reg.MEM_UE_CNT, Reg.MEM_REPAIR_CNT, Reg.MEM_FABRIC_ERR_CNT, Reg.MEM_GROUP]

/-- All registers and table words of MEM. -/
def regMapMem : List RegSpec := regMapMem0

/-- Registers of DRC, part 0. -/
def regMapDrc0 : List RegSpec :=
  [Reg.DRC_INFO, Reg.DRC_CFG, Reg.DRC_PANIC, Reg.DRC_RH, Reg.DRC_STAT, Reg.DRC_TOP_LO, Reg.DRC_TOP_HI, Reg.DRC_SCRUB_BASE_LO, Reg.DRC_SCRUB_BASE_HI, Reg.DRC_SCRUB_LIMIT_LO, Reg.DRC_SCRUB_LIMIT_HI, Reg.DRC_SCRUB_HOURS, Reg.DRC_RT_UE_SEC, Reg.DRC_LOG_WR, Reg.DRC_CE_CNT, Reg.DRC_UE_CNT, Reg.DRC_PANIC_CNT, Reg.DRC_RH_CNT, Reg.DRC_SR_CNT, Reg.DRC_LOG_LOST_CNT, Reg.DRC_PPR_CNT, Reg.DRC_LOG0, Reg.DRC_LOG1, Reg.DRC_LOG2]

/-- Registers of DRC, part 1. -/
def regMapDrc1 : List RegSpec :=
  [Reg.DRC_LOG3, Reg.DRC_LOG4]

/-- All registers and table words of DRC. -/
def regMapDrc : List RegSpec := regMapDrc0 ++ regMapDrc1

/-- Registers of DMA, part 0. -/
def regMapDma0 : List RegSpec :=
  [Reg.DMA_A_GO_LO, Reg.DMA_A_GO_HI, Reg.DMA_A_CTRL, Reg.DMA_A_STAT, Reg.DMA_A_CUR, Reg.DMA_A_BYTES, Reg.DMA_B_GO_LO, Reg.DMA_B_GO_HI, Reg.DMA_B_CTRL, Reg.DMA_B_STAT, Reg.DMA_B_CUR, Reg.DMA_B_BYTES, Reg.DMA_DONE_CNT, Reg.DMA_ERR_CNT, Reg.DMA_DENY_CNT, Reg.DMA_STAT, Reg.DMA_REQ_ADD, Reg.DMA_REQ_CNT]

/-- All registers and table words of DMA. -/
def regMapDma : List RegSpec := regMapDma0

/-- Registers of NVM, part 0. -/
def regMapNvm0 : List RegSpec :=
  [Reg.NVM_SLOT, Reg.NVM_GEN_A_LO, Reg.NVM_GEN_A_HI, Reg.NVM_GEN_B_LO, Reg.NVM_GEN_B_HI, Reg.NVM_LOAD_FAIL, Reg.NVM_SKIP_CNT, Reg.NVM_DENSITY]

/-- All registers and table words of NVM. -/
def regMapNvm : List RegSpec := regMapNvm0

/-- The registers of a unit, by its UNIT number (R458). -/
def unitMap (u : Nat) : List RegSpec :=
  match u with
  | 0x00 => regMapSys
  | 0x01 => regMapFea
  | 0x02 => regMapSec
  | 0x03 => regMapHlt
  | 0x04 => regMapPar
  | 0x05 => regMapClk
  | 0x06 => regMapTim
  | 0x08 => regMapNet
  | 0x09 => regMapQmg
  | 0x0A => regMapMst
  | 0x0B => regMapLnk
  | 0x0C => regMapTdm
  | 0x0D => regMapAes
  | 0x10 => regMapInc
  | 0x11 => regMapRte
  | 0x12 => regMapMot
  | 0x13 => regMapSlv
  | 0x14 => regMapDsx
  | 0x15 => regMapLan
  | 0x16 => regMapRed
  | 0x17 => regMapCor
  | 0x18 => regMapMea
  | 0x19 => regMapDru
  | 0x1A => regMapMem
  | 0x1B => regMapDrc
  | 0x1C => regMapDma
  | 0x1D => regMapNvm
  | _ => []

/-- The table windows: base, size in bytes, unit (R457 and the chapters' tables). -/
def windows : List (Nat × Nat × Nat) :=
  [(0x40100000, 0xC000, 0x10), (0x40120000, 0xC000, 0x10), (0x40200000, 0x8000, 0x11), (0x40210000, 0x8000, 0x11), (0x40240000, 0x40000, 0x11), (0x40300000, 0x10000, 0x12), (0x40340000, 0x10000, 0x12), (0x40360000, 0x10000, 0x12), (0x40400000, 0x20, 0x13), (0x40410000, 0x10000, 0x13), (0x40420000, 0x2000, 0x13), (0x40430000, 0x800, 0x13), (0x40440000, 0x20000, 0x13), (0x40460000, 0x8000, 0x13), (0x40480000, 0x20000, 0x13), (0x40500000, 0x200000, 0x15), (0x40700000, 0x200000, 0x15), (0x40900000, 0x10000, 0x15), (0x40910000, 0x10000, 0x15), (0x40920000, 0x4000, 0x15), (0x40A00000, 0x10000, 0x17), (0x40A40000, 0x8000, 0x17), (0x40B00000, 0x100000, 0x17), (0x40C00000, 0x200, 0x18), (0x40C10000, 0x400, 0x18), (0x40C10400, 0x100, 0x18), (0x40C20000, 0x800, 0x18), (0x40D00000, 0x2000, 0x09), (0x40D10000, 0x2000, 0x09), (0x40D20000, 0x1000, 0x09)] ++
  [(0x40E00000, 0x4000, 0x0A), (0x40E10000, 0x4000, 0x0A), (0x40E20000, 0x2000, 0x0A), (0x40E30000, 0x1000, 0x0A), (0x40E80000, 0x1000, 0x0B), (0x40E90000, 0x1000, 0x0B), (0x40EA0000, 0x2000, 0x0B), (0x40F00000, 0x400, 0x0C)]

end Sys2Proof.Machine
end

