-- ==== Sys2Proof/Machine/Ops.lean ====
section
/-! DEFINITION. The named operations over registers: presence, reset words, reads, device writes, counters, sticky
bits, time, events. -/

namespace Sys2Proof.Machine

open Sys2Proof

abbrev uSYS : Nat := 0x00
abbrev uFEA : Nat := 0x01
abbrev uSEC : Nat := 0x02
abbrev uHLT : Nat := 0x03
abbrev uPAR : Nat := 0x04
abbrev uCLK : Nat := 0x05
abbrev uTIM : Nat := 0x06
abbrev uNET : Nat := 0x08
abbrev uQMG : Nat := 0x09
abbrev uMST : Nat := 0x0A
abbrev uLNK : Nat := 0x0B
abbrev uTDM : Nat := 0x0C
abbrev uAES : Nat := 0x0D
abbrev uINC : Nat := 0x10
abbrev uRTE : Nat := 0x11
abbrev uMOT : Nat := 0x12
abbrev uSLV : Nat := 0x13
abbrev uDSX : Nat := 0x14
abbrev uLAN : Nat := 0x15
abbrev uRED : Nat := 0x16
abbrev uCOR : Nat := 0x17
abbrev uMEA : Nat := 0x18
abbrev uDRU : Nat := 0x19
abbrev uMEM : Nat := 0x1A
abbrev uDRC : Nat := 0x1B
abbrev uDMA : Nat := 0x1C
abbrev uNVM : Nat := 0x1D

/-- The word listed for an address among those that act, or its plain reset word. -/
def actOr (s : State) (a d : Nat) : Word := tabGet (BitVec.ofNat 32 d) s.words.act a

/-- A feature is in the accepted set (R426). -/
def accepted (s : State) (f : Nat) : Bool := bit (actOr s 0x10010118 1) f

/-- The render rate's code: 0, 1 or 2 for 48, 96 or 192 kHz; 192 kHz only where accepted (R72, R424). -/
def rateCode (s : State) : Nat :=
  let r := fld (actOr s 0x10000100 1) 1 0
  if r = 2 ∧ ¬ accepted s 1 then 1 else min r 2

/-- The render rate in Hz. -/
def rateHz (s : State) : Nat := 48000 * 2 ^ rateCode s

/-- Samples per tick (R13). -/
def tickLen (s : State) : Nat := 48 * 2 ^ rateCode s

/-- Blocks per tick (R13). -/
def tickBlocks (s : State) : Nat := 3 * 2 ^ rateCode s

/-- The grade's active lane count: 32, 16 or 8 (R1). -/
def activeLanes (s : State) : Nat :=
  match s.fuse.grade with
  | .ih1024 => 32
  | .ih0512 => 16
  | .ih0256 => 8

/-- Objects, and outputs, at the rate and grade (R5, R7). -/
def objCount (s : State) : Nat := (2048 / 2 ^ rateCode s) * activeLanes s / 32

/-- Objects per lane (R8). -/
def objsPerLane (s : State) : Nat := 64 / 2 ^ rateCode s

/-- Conditioned input channels (R74). -/
def chanCount (s : State) : Nat := 3072 / 2 ^ rateCode s

/-- The grade's tap pool at the rate (R5, R7). -/
def gradePool (s : State) : Nat := 8192 * objCount s

/-- Zwildo links of the grade (R1). -/
def linkCount (s : State) : Nat :=
  match s.fuse.grade with
  | .ih1024 => 8 | .ih0512 => 4 | .ih0256 => 2

/-- Serial ports of a class that the grade has (R1). -/
def serCount (aes : Bool) (s : State) : Nat :=
  match s.fuse.grade with
  | .ih0256 => if aes then 4 else 24
  | _ => if aes then 8 else 48

/-- A unit runs in this start (R3, R4, R425). -/
def unitPresent (s : State) (u : Nat) : Bool :=
  if u = uDRU then accepted s 3
  else if u = uMEA then accepted s 4
  else if u = uLNK then accepted s 6
  else if u = uAES then accepted s 7
  else if u = uPAR then accepted s 13
  else u ≤ 0x1D && u != 0x07 && u != 0x0E && u != 0x0F

/-- The units that honour tags (R73). -/
def honoursTags (u : Nat) : Bool :=
  [uSYS, uINC, uRTE, uMOT, uSLV, uLAN, uRED, uCOR, uMEA, uMST, uLNK, uTDM, uAES].contains u

/-- The loudspeaker count in force (R137). -/
def spkCount (s : State) : Nat := min (fld (actOr s 0x40400000 0) 11 0) (objCount s)

/-- Element `i` of a table exists at the rate and grade (R21, R90, R138). -/
def elementExists (s : State) (k : CountKind) (i : Nat) : Bool :=
  match k with
  | .fix => true
  | .chan => i < chanCount s
  | .obj => i < objCount s
  | .out => i < objCount s
  | .out16 => i < 16 * objCount s
  | .spk => i < spkCount s
  | .rin =>
    i < objCount s || (0x800 ≤ i && i < 0x900) || (0x900 ≤ i && i < 0xA00 && accepted s 3) ||
      (0xA00 ≤ i && i < 0xA40 && accepted s 4) || (0xB00 ≤ i && i < 0xC00)

/-- The element of a register description at an address: element and sub-element numbers. -/
def specAt (a : Nat) (r : RegSpec) : Option (Nat × Nat) :=
  if a < r.base then none else
    let o := a - r.base
    let i := o / r.s1
    let j := (o % r.s1) / r.s2
    if i < r.n1 ∧ j < r.n2 ∧ (o % r.s1) % r.s2 = 0 then some (i, j) else none

/-- The register description at an address, from a list. -/
def findSpecIn (a : Nat) : List RegSpec → Option (RegSpec × Nat × Nat)
  | [] => none
  | r :: rs =>
    match specAt a r with
    | some (i, j) => some (r, i, j)
    | none => findSpecIn a rs

/-- The unit that holds an address: a register block or a table window (R457, R458). -/
def unitOf (a : Nat) : Option Nat :=
  if 0x10000000 ≤ a ∧ a < 0x101E0000 then
    let u := (a - 0x10000000) / 0x10000
    if u = 0x07 ∨ u = 0x0E ∨ u = 0x0F then none else some u
  else
    match windows.find? (fun w => decide (w.1 ≤ a) && decide (a < w.1 + w.2.1)) with
    | some w => some w.2.2
    | none => none

/-- The register description at an address. -/
def findSpec (a : Nat) : Option (RegSpec × Nat × Nat) :=
  match unitOf a with
  | some u => findSpecIn a (unitMap u)
  | none => none

/-- The register description at an address, where the element exists at the rate and grade. -/
def liveSpec (s : State) (a : Nat) : Option (RegSpec × Nat × Nat) :=
  match findSpec a with
  | some (r, i, j) => if elementExists s r.kind i then some (r, i, j) else none
  | none => none

/-- The word an address holds after reset (R194's HOME_LANE depends on the rate). -/
def resetWord (s : State) (a : Nat) : Word :=
  match findSpec a with
  | some (r, i, _) =>
    if r.base = 0x40920000 then BitVec.ofNat 32 (min 31 (i / objsPerLane s)) else BitVec.ofNat 32 r.reset
  | none => 0

/-- The bits of a description that belong to a change class. -/
def classMask (r : RegSpec) (c : ChangeClass) : Word :=
  r.fields.foldl (fun m f => if f.cls = c then m ||| fldMask f.hi f.lo else m) 0

/-- The bits of a description that are fields at all. -/
def fieldsMask (r : RegSpec) : Word := r.fields.foldl (fun m f => m ||| fldMask f.hi f.lo) 0

/-- The word last written, the shadow copy, or the status the device shows (R15, R16, R20). -/
def regW (s : State) (a : Nat) : Word :=
  match tabFind? a s.words.wr with
  | some w => w
  | none => resetWord s a

/-- The word that acts. -/
def actW (s : State) (a : Nat) : Word :=
  match tabFind? a s.words.act with
  | some w => w
  | none => resetWord s a

/-- Bits [hi:lo] of the acting word. -/
def actF (s : State) (a hi lo : Nat) : Nat := fld (actW s a) hi lo

/-- Bits [hi:lo] of the acting word as two's complement. -/
def actS (s : State) (a hi lo : Nat) : Int := sfld (actW s a) hi lo

/-- Bit `i` of the acting word. -/
def actB (s : State) (a i : Nat) : Bool := bit (actW s a) i

/-- A word set by the device, in what a read returns and in what acts. -/
def setW (a : Nat) (v : Word) (s : State) : State :=
  { s with words := { s.words with wr := tabSet a v s.words.wr, act := tabSet a v s.words.act } }

/-- A field set by the device. -/
def setF (a hi lo v : Nat) (s : State) : State := setW a (putFld (regW s a) hi lo v) s

/-- A word set by the device from a number. -/
def setN (a v : Nat) (s : State) : State := setW a (BitVec.ofNat 32 v) s

/-- A sticky bit set (R22). -/
def stick (a i : Nat) (s : State) : State := setF a i i 1 s

/-- A counter field raised by `n`, stopping at all ones (R23). -/
def countF (a hi lo n : Nat) (s : State) : State :=
  setF a hi lo (min (fld (regW s a) hi lo + n) (2 ^ (hi + 1 - lo) - 1)) s

/-- A 32-bit counter raised by `n`, stopping at all ones (R23). -/
def countN (a n : Nat) (s : State) : State := countF a 31 0 n s

/-- A 32-bit counter raised by one. -/
def count (a : Nat) (s : State) : State := countN a 1 s

/-- Nothing where the condition fails. -/
def when (c : Bool) (f : State → State) (s : State) : State := if c then f s else s

/-- The device runs: the load has completed and nothing holds it in reset. -/
def running (s : State) : Bool := decide (5 ≤ s.start.stage) && decide (s.start.stage ≤ 6)

/-- Units of time in a second: nanoseconds × 2^16 × 3, which holds every render rate's sample exactly. -/
def subPerSec : Nat := 196608000000000

/-- One render sample in units of time. -/
def subPerSample (s : State) : Nat := subPerSec / rateHz s

/-- Nanoseconds of the TAI time (R42). -/
def timeNs (s : State) : Nat := s.time.sub / 196608

/-- The 16-bit fraction of a nanosecond (R42). -/
def timeFrac (s : State) : Nat := s.time.sub % 196608 / 3

/-- Nanoseconds of media time since supplies valid: the measure of every interval. -/
def monoNs (s : State) : Nat := s.time.mono / 196608

/-- The offset of the time scale at a sample counted, in ticks and in samples: a step is of whole ticks and acts at the
first sample of one (R62). -/
def ofsTicks (s : State) (x : Nat) : Int := ((s.time.steps.find? (fun p => decide (p.1 * tickLen s ≤ x))).map (·.2)).getD 0
def ofsAt (s : State) (x : Nat) : Int := ofsTicks s x * tickLen s

/-- The scale count at a sample counted: one more for each step, wrapping at 16 (R62). -/
def scaleAt (s : State) (x : Nat) : Nat := (s.time.steps.filter (fun p => decide (p.1 * tickLen s ≤ x))).length % 16

/-- The sample index, block index and tick index of a sample, block and tick counted (R42, R44). -/
def extSmp (s : State) (x : Nat) : Nat := ((x : Int) + ofsAt s x).toNat
def extBlk (s : State) (b : Nat) : Nat := extSmp s (16 * b) / 16
def extTick (s : State) (k : Nat) : Nat := extSmp s (k * tickLen s) / tickLen s

/-- The sample index of a sample counted, under the time scale at the present sample. -/
def extNow (s : State) (x : Nat) : Nat := ((x : Int) + ofsAt s s.time.idx).toNat

/-- The sample counted that has a sample index under the time scale at the present sample. -/
def smpOf (s : State) (n : Int) : Int := n - ofsAt s s.time.idx

/-- A step of the time scale takes effect at the first sample of a block (R62). -/
def isStepBlk (s : State) (b : Nat) : Bool := s.time.steps.any (fun p => p.1 * tickBlocks s == b)

/-- The scale count now (R72). -/
def scaleNow (s : State) : Nat := scaleAt s s.time.idx

/-- The sample index now (R42, R43). -/
def sampleIdx (s : State) : Nat := extSmp s s.time.idx

/-- The block counted that is in progress (R44). -/
def nowBlock (s : State) : Nat := s.time.idx / 16

/-- The tick counted that is in progress (R44). -/
def nowTick (s : State) : Nat := s.time.idx / tickLen s

/-- The tick of a block (R44). -/
def tickOfBlock (s : State) (b : Nat) : Nat := b / tickBlocks s

/-- The first block of a tick. -/
def tickStart (s : State) (t : Nat) : Nat := t * tickBlocks s

/-! ### Events (R452, R453) -/

/-- Offsets in the mailbox (R438, R439). -/
def cmdRing : Nat := 0x100
def rspRing : Nat := 0x8100
def evtRing : Nat := 0x10100
def ctlBlock : Nat := 0x18100

/-- `a − b` of two counts that wrap at 2^32. -/
def wrapSub (a b : Nat) : Nat := (a + 2 ^ 32 - b % 2 ^ 32) % 2 ^ 32

/-- Data bytes cut into the 6-byte parts of an event's records; an event without data still takes a record. -/
def eventParts (n : Nat) (data : List Byte) : List (List Byte) :=
  (List.range (max 1 n)).map (fun k => let p := slice data (6 * k) 6; p ++ List.replicate (6 - p.length) 0)

/-- The records of an event (R452). -/
def eventRecords (s : State) (code : Nat) (data : List Byte) : List (List Byte) :=
  let parts := eventParts ((data.length + 5) / 6) data
  let stamp := bytesOf 4 s.time.sec ++ bytesOf 4 (timeNs s)
  parts.mapIdx (fun k p =>
    [BitVec.ofNat 8 code, BitVec.ofNat 8 ((if k = 0 then 0 else 1) + 16 * scaleNow s)] ++ p ++ stamp)

/-- Event records written to the event ring, EVT_WR advanced past all of them in one write (R452). -/
def writeEvent (s : State) (recs : List (List Byte)) : State :=
  let wr := rd32 s (ctlBlock + 0x10)
  let rd := rd32 s (ctlBlock + 0x14)
  let level := rd32 s (ctlBlock + 0x1C)
  let s1 := (recs.zipIdx).foldl (fun t p => storeBytes t (evtRing + ((wr + p.2) % 2048) * 16) p.1) s
  let wr' := (wr + recs.length) % 2 ^ 32
  let s2 := wr32 s1 (ctlBlock + 0x10) wr'
  let s3 :=
    if level ≠ 0 ∧ wrapSub wr rd < level ∧ level ≤ wrapSub wr' rd then
      wr32 s2 (ctlBlock + 0x20) (rd32 s2 (ctlBlock + 0x20) + 1)
    else s2
  if actB s Reg.SYS_CTRL.base 1 then { s3 with sys := { s3.sys with fwd := s3.sys.fwd ++ recs } } else s3

/-- An event dropped whole (R452). -/
def dropEvent (s : State) : State :=
  stick Reg.SYS_STAT.base 1 (count Reg.SYS_EVT_DROP_CNT.base
    (wr32 s (ctlBlock + 0x18) (rd32 s (ctlBlock + 0x18) + 1)))

/-- An event raised with its data bytes (R452). -/
def raise (code : Nat) (data : List Byte) (s : State) : State :=
  if actB s (Reg.SYS_EVT_EN.at (code / 32)) (code % 32) then
    let recs := eventRecords s code data
    if wrapSub (rd32 s (ctlBlock + 0x10)) (rd32 s (ctlBlock + 0x14)) + recs.length ≤ 2048 then writeEvent s recs
    else dropEvent s
  else s

/-- The health unit changed. -/
def modHlt (f : HltSt → HltSt) (s : State) : State := { s with hlt := f s.hlt }

/-! ### The wear log (R571, R572) -/

/-- A record of 32 bytes: TYPE, CLASS, INST, CAUSE, RESULT and 8 bytes of DATA. -/
def wearRecord (s : State) (typ cls inst cause res : Nat) (data : List Byte) : List Byte :=
  let d := (data ++ List.replicate 8 0).take 8
  let b := bytesOf 1 typ ++ bytesOf 1 cls ++ bytesOf 2 inst ++ bytesOf 1 cause ++ bytesOf 1 res ++ [0, 0] ++
    bytesOf 8 s.time.sec ++ bytesOf 4 (s.start.epoch % 2 ^ 24) ++ d
  b ++ bytesOf 4 (crc32c b)

/-- A record appended to the log in flash, or lost where no slot is empty (R572). -/
def wearWrite (r : List Byte) (s : State) : State :=
  if s.hlt.wear.length < 32768 then
    let s1 := modHlt (fun h => { h with wear := h.wear ++ [r] }) s
    setN Reg.HLT_WEAR_USED.base (min 0xFFFF s1.hlt.wear.length) (count Reg.HLT_WEAR_REC_CNT.base s1)
  else raise 0x9C ([0] ++ bytesOf 2 1) (stick Reg.HLT_STAT.base 2 s)

/-- A record made: held before step 7 of the start, else appended (R572). -/
def wearAppend (r : List Byte) (s : State) : State :=
  if running s then wearWrite r s else modHlt (fun h => { h with held := h.held ++ [r] }) s

/-- The records held before step 7 are appended (R572). -/
def wearFlush (s : State) : State :=
  s.hlt.held.foldl (fun t r => wearWrite r t) (modHlt (fun h => { h with held := [] }) s)

/-- A role record (R562, R563): cut-in 0 or abdication 1, its cause, the criteria and the new claim. -/
def wearRole (cause what crit claim : Nat) (s : State) : State :=
  wearAppend (wearRecord s 3 0 0 cause 0 (bytesOf 1 what ++ bytesOf 1 crit ++ bytesOf 4 claim)) s

/-- A repair record (R505, R528): class 6 or 7, bank, cause, result, group or channel, row. -/
def wearRepair (cls bank cause res group row : Nat) (s : State) : State :=
  wearAppend (wearRecord s 2 cls bank cause res (bytesOf 1 group ++ bytesOf 4 row)) s

/-! ### Reports of memory errors (R504, R526) -/

/-- The first address above usable DRAM (R518). -/
def dramTop (s : State) : Nat := fld (regW s Reg.DRC_TOP_LO.base) 31 0 + 2 ^ 32 * fld (regW s Reg.DRC_TOP_HI.base) 7 0

/-- A byte range lies in the fitted DRAM. -/
def inDram (s : State) (a n : Nat) : Bool := decide (dramBase ≤ a) && decide (a + n ≤ dramTop s)

/-- The count of writable words of the error log (R533). -/
def drcLogEntry (s : State) (typ req inst addr syn : Nat) : State :=
  let e := fld (regW s Reg.DRC_LOG_WR.base) 31 0
  let i := e % 64
  let s1 := when (64 ≤ e) (count Reg.DRC_LOG_LOST_CNT.base) s
  setN Reg.DRC_LOG_WR.base (e + 1)
    (setN (Reg.DRC_LOG4.at i) (timeNs s)
      (setN (Reg.DRC_LOG3.at i) s.time.sec
        (setN (Reg.DRC_LOG2.at i) (syn % 256)
          (setN (Reg.DRC_LOG1.at i)
            ((typ % 4) * 2 ^ 24 + (inst % 256) * 2 ^ 16 + (req % 256) * 2 ^ 8 + addr / 2 ^ 32 % 256)
            (setN (Reg.DRC_LOG0.at i) (word8 addr % 2 ^ 32) s1)))))

/-- The DRAM channel of an address: blocks of 256 bytes go to the four in turn (R518). -/
def dramChannel (a : Nat) : Nat := (a - dramBase) / 256 % 4

/-- A DRAM row in its channel: 7 KiB of the channel's consecutive addresses (R525). -/
def dramRow (a : Nat) : Nat := ((a - dramBase) / 1024 * 256 + (a - dramBase) % 256) / 7168

/-- The number of a row among those of all channels. -/
def rowKey (a : Nat) : Nat := dramRow a * 4 + dramChannel a

/-- The wear-log record of a DRAM row that is marked failing (R528); which bank a row lies in is the device's own. -/
def rowRecord (addr : Nat) (s : State) : State :=
  wearRepair 7 (Config.dramBank (rowKey addr)) 0 0 (dramChannel addr) (dramRow addr) s

/-- A DRAM request ends self-refresh (R524). -/
def selfRefreshExit (s : State) : State := { s with drc := { s.drc with selfRefresh := false } }
def dramWake (a : Nat) (s : State) : State := if dramBase ≤ a then selfRefreshExit s else s

/-- The instance of a requester in the log: of a Druora core the physical number (R526). -/
def logInst (s : State) (req inst : Nat) : Nat := if req = 5 then (tabFind? inst s.dru.phys).getD inst else inst

/-- An uncorrectable DRAM error (R526, R528): log, counters and sticky bit; the event waits for the tick's end. -/
def reportDramUe (typ req inst addr : Nat) (s : State) : State :=
  let first := fld (regW s Reg.DRC_LOG_WR.base) 31 0
  let (syn, s0) := drawNat s 256
  let s1 := drcLogEntry s0 typ req (logInst s req inst) addr syn
  let s2 := stick Reg.DRC_STAT.base 1 (count Reg.DRC_UE_CNT.base s1)
  let d := s2.drc
  let row := rowKey addr
  let n := tabGet 0 d.rowUe row + 1
  let d1 := { d with
    ueFirst := if d.ueCount = 0 then first else d.ueFirst
    ueCount := d.ueCount + 1
    rtCount := if req ≤ 2 then d.rtCount + 1 else d.rtCount
    rowUe := tabSet row n d.rowUe
    failing := if n = 2 then setAdd row d.failing else d.failing }
  when (n == 2) (rowRecord addr) { s2 with drc := d1 }

/-- An uncorrectable error that a real-time port meets: BULK 0, ALIGN 1, TAIL 2. Where its structures lie in DRAM the spec
leaves open, so the address is a free one (R40, log 54). -/
def reportRtUe (req : Nat) (s : State) : State :=
  let (k, s1) := drawNat s ((dramTop s - dramBase) / 8)
  reportDramUe 1 req 0 (dramBase + 8 * k) s1

/-- Banks of a group have fabric addresses: the Druora memories, the scratchpad, and the tables of lanes and solver
(R500, R529). -/
def fabricGroup (g : Nat) : Bool := g == 1 || g == 4 || g == 5 || g == 7

/-- An uncorrectable SRAM error (R504) at a fabric address, in a group and bank; in an engine-private bank the address
reads all ones (R529). -/
def reportSramUe (at_ group bank : Nat) (s : State) : State :=
  let addr := if fabricGroup group then at_ else 2 ^ 40 - 1
  raise 0x70 (bytesOf 1 group ++ bytesOf 1 bank)
    (stick Reg.MEM_STAT.base 0 (setN Reg.MEM_UE_ADDR_HI.base (addr / 2 ^ 32 % 256)
      (setN Reg.MEM_UE_ADDR_LO.base (addr % 2 ^ 32) (count Reg.MEM_UE_CNT.base s))))

/-- Group and bank of a scratchpad or Druora address (R500). -/
def sramBank (a : Nat) : Nat × Nat :=
  if a < 0x100000 then (5, a / 0x10000) else (4, (a - druBase) / 0x100000)

/-- The error report for an uncorrectable word met by a read. -/
def reportUe (typ req inst w : Nat) (s : State) : State :=
  if dramBase ≤ w then reportDramUe typ req inst w s
  else reportSramUe w (sramBank w).1 (sramBank w).2 s

/-- A write by a requester, with the report of each uncorrectable word it meets only in part (R504, R526). -/
def storeMem (req inst : Nat) (s : State) (a : Nat) (bs : List Byte) : State :=
  let part := (ueIn s a bs.length).filter (fun w => !covers a bs.length w)
  part.foldl (fun t w => reportUe 2 req inst w t) (writeMem (dramWake a s) a bs)

/-- A read by a requester: the bytes, or zeros with the first uncorrectable word reported (R504, R526). -/
def loadMem (req inst : Nat) (s : State) (a n : Nat) : Bool × List Byte × State :=
  match ueIn s a n with
  | [] => (true, readBytes s a n, dramWake a s)
  | w :: _ => (false, List.replicate n 0, reportUe 1 req inst w (dramWake a s))

end Sys2Proof.Machine
end

