-- ==== Sys2Proof/Machine/Tags.lean ====
section
/-! DEFINITION. Tags: records, injection, arrival, pending queues and the point at which each acts (R50 to R69). -/

namespace Sys2Proof.Machine

open Sys2Proof

abbrev tCOMMIT : Nat := 0x01
abbrev tROUTE : Nat := 0x02
abbrev tRAMP : Nat := 0x03
abbrev tMIGRATE : Nat := 0x04
abbrev tSWAP : Nat := 0x05
abbrev tCUE : Nat := 0x06
abbrev tSNAP : Nat := 0x07
abbrev tSTART : Nat := 0x08
abbrev tSTOP : Nat := 0x09
abbrev tMARK : Nat := 0x0A
abbrev tEPOCH : Nat := 0x0B

/-- A unit that has not started. -/
def unitIdle : UnitSt := ⟨false, 0, [], [], [], none⟩

/-- A unit's place in the block stream. -/
def unitSt (s : State) (u : Nat) : UnitSt := tabGet unitIdle s.units u

/-- A unit's place changed. -/
def modUnit (u : Nat) (f : UnitSt → UnitSt) (s : State) : State :=
  { s with units := tabMod unitIdle u f s.units }

/-- A tag record from its four words (R50, R72): LATE, REBASED and the scale count are the device's. -/
def tagOfWords (w0 w1 w2 w3 : Word) : TagRec :=
  ⟨fld w0 7 0, false, false, 0, fld w0 23 16, fld w0 31 24, w1, w2.toNat + 2 ^ 32 * w3.toNat, false⟩

/-- Types that name a tick (R51). -/
def isTickType (t : Nat) : Bool := [tCOMMIT, tMIGRATE, tSWAP, tCUE, tSNAP, tEPOCH].contains t

/-- The units that honour a type (R51, R73). -/
def honoursType (u t : Nat) : Bool :=
  if t = tMARK ∨ t = tEPOCH then honoursTags u
  else if t = tCOMMIT then [uINC, uRTE, uMOT, uSLV, uLAN, uCOR, uMEA].contains u
  else if t = tROUTE then u == uRTE
  else if t = tRAMP then [uRTE, uINC, uCOR].contains u
  else if t = tMIGRATE then u == uLAN
  else if t = tSWAP then u == uCOR
  else if t = tCUE ∨ t = tSNAP then u == uSYS
  else if t = tSTART ∨ t = tSTOP then [uMST, uLNK, uTDM, uAES, uMEA].contains u
  else false

/-- The units a tag is for (R59, R73). -/
def tagUnits (s : State) (g : TagRec) : List Nat :=
  ((if g.unit = 0xFF then List.range 0x1E else [g.unit])).filter (fun u => honoursType u g.typ && unitPresent s u)

/-- A record the injector discards (R53). -/
def tagBad (s : State) (g : TagRec) : Bool :=
  decide (g.typ = 0) || decide (0x0B < g.typ) ||
    (g.unit != 0xFF && (!unitPresent s g.unit || !honoursType g.unit g.typ))

/-- A unit's queue has no room for a tag (R54, R68). DESIGN CHOICE (log 69): the tags on their way to the unit hold places of
its queue already. -/
def tagBlocked (s : State) (u : Nat) (g : TagRec) : Bool :=
  let x := unitSt s u
  decide (64 ≤ x.transit.length + x.pend.length) ||
    (g.typ == tCOMMIT && decide (4 ≤ (x.transit.filter (fun t => t.typ == tCOMMIT)).length +
      (x.pend.filter (fun t => t.tag.typ == tCOMMIT)).length)) ||
    s.heldTags.any (fun h => h.unit == u)

/-- One copy of a tag put on its way to a unit, or held by the injector (R52, R54). -/
def injectTo (src : Option Nat) (g : TagRec) (s : State) (u : Nat) : State :=
  if tagBlocked s u g then { s with heldTags := s.heldTags ++ [⟨u, g, src⟩] }
  else modUnit u (fun x => { x with transit := x.transit ++ [g] }) s

/-- A tag inserted: the scale count is stamped and each unit it is for gets a copy (R50, R52, R59). -/
def injectFrom (src : Option Nat) (g : TagRec) (s : State) : State :=
  let g1 := { g with late := false, rebased := false, scale := scaleNow s }
  (tagUnits s g1).foldl (injectTo src g1) s

/-- Samples in a boundary of the kind a type names (R51). -/
def kindLen (s : State) (typ : Nat) : Nat := if isTickType typ then tickLen s else 16

/-- A tag inserted by the device itself, for a tick or block counted: TARGET names it in the present time scale. -/
def inject (g : TagRec) (s : State) : State :=
  injectFrom none { g with target :=
    if g.target = 0 then 0 else extNow s (g.target * kindLen s g.typ) / kindLen s g.typ } s

/-- A tag's fields for the device's own insertions. -/
def mkTag (typ unit inst payload target : Nat) : TagRec :=
  ⟨typ, false, false, 0, unit, inst, BitVec.ofNat 32 payload, target, true⟩

/-- A record submitted through the SYS tag registers or by a trigger: checked under R53, then inserted. -/
def submitTag (g : TagRec) (s : State) : State :=
  if tagBad s g then count Reg.SYS_TAG_DROP_CNT.base s else injectFrom none g s

/-- A write to SYS_TAG_W3 (R53, R72). -/
def submitW3 (w3 : Word) (s : State) : State :=
  let s1 := setW (Reg.SYS_TAG_W3.base) w3 s
  if s.heldTags ≠ [] then count Reg.SYS_TAG_DROP_CNT.base s1
  else submitTag (tagOfWords (regW s1 (Reg.SYS_TAG_W0.base)) (regW s1 (Reg.SYS_TAG_W1.base))
    (regW s1 (Reg.SYS_TAG_W2.base)) w3) s1

/-- Register-block base of a unit (R458). -/
def unitBase (u : Nat) : Nat := 0x10000000 + u * 0x10000

/-- The first tick whose first block a unit has not begun. -/
def nextTick (s : State) (next : Nat) : Nat := (next + tickBlocks s - 1) / tickBlocks s

/-- The offset of the time scale under a scale count: the steps newer than the count left out. -/
def ofsOfScale (s : State) (c : Nat) : Int :=
  match s.time.steps.drop ((s.time.steps.length % 16 + 16 - c) % 16) with
  | [] => 0
  | p :: _ => p.2 * tickLen s

/-- TARGET re-based where the tag is one behind a unit's scale count `c` (R64). A TARGET of 0 names no number and
stays, and one that would not be positive stays, with its scale count: its point has passed (DESIGN CHOICE, log 55). -/
def rebase (s : State) (c : Nat) (g : TagRec) : TagRec :=
  let t : Int := g.target + (ofsOfScale s c - ofsOfScale s g.scale) / kindLen s g.typ
  if (c + 16 - g.scale) % 16 = 1 ∧ g.target ≠ 0 ∧ 0 < t then { g with target := t.toNat, rebased := true, scale := c }
  else g

/-- Two or more scale counts behind the count of a block (R64); a tag of the present count is never behind. -/
def isStale (s : State) (next : Nat) (g : TagRec) : Bool :=
  g.scale != scaleNow s && decide (2 ≤ (scaleAt s (16 * next) + 16 - g.scale) % 16)

/-- The tick or block counted that TARGET names, under the scale the tag carries (R50, R64). -/
def tagPoint (s : State) (g : TagRec) : Nat :=
  (((g.target * kindLen s g.typ : Nat) - ofsOfScale s g.scale) / kindLen s g.typ).toNat

/-- Whether a tag is late at a unit, and the block at whose first sample it acts (R55 to R57, R213). A stale tag counts
as late whatever its TARGET (DESIGN CHOICE, log 55). -/
def judge (s : State) (next : Nat) (g : TagRec) : Bool × Nat :=
  let stale := isStale s next g
  let pt := tagPoint s g
  if g.typ = tMIGRATE then
    let second := nextTick s next + 1
    if g.target = 0 then (stale, tickStart s second)
    else if stale ∨ tickStart s (pt - 1) < next then (true, tickStart s second)
    else (false, tickStart s pt)
  else if isTickType g.typ then
    if g.target ≠ 0 ∧ !stale ∧ next ≤ tickStart s pt then (false, tickStart s pt)
    else (g.target != 0 || stale, tickStart s (nextTick s next))
  else
    if g.target ≠ 0 ∧ !stale ∧ next ≤ pt then (false, pt)
    else (g.target != 0 || stale, next)

/-- The S words of a unit written since its last COMMIT (R67). -/
def dirtyOf (s : State) (u : Nat) : List Nat := s.words.dirtyS.filter (fun a => decide (unitOf a = some u))

/-- Shadow copies of addresses. -/
def copies (s : State) (as : List Nat) : List (Nat × Word) := as.map (fun a => (a, regW s a))

/-- A tag counted late and stale on arrival (R56, R64). -/
def countLate (s : State) (u : Nat) (late stale : Bool) : State :=
  when stale (count (unitBase u + 0xFFF8)) (when late (count (unitBase u + 0xFFF4)) s)

/-- A tag entered into a unit's pending queue with the block at which it acts and what it copied on arrival. -/
def enqueueTag (u : Nat) (g : TagRec) (block : Nat) (snap : List (Nat × Word)) (s : State) : State :=
  modUnit u (fun x => { x with pend := x.pend ++ [⟨g, block, snap⟩] }) s

/-- A COMMIT reaches a unit: the staged words form its pending set (R67, R68). -/
def arriveCommit (u : Nat) (g : TagRec) (s : State) : State :=
  let x := unitSt s u
  let (late, block) := judge s x.next g
  let last := (x.pend.filter (fun p => p.tag.typ == tCOMMIT)).foldl (fun m p => max m p.block) 0
  let joins := decide (block < last)
  let as := dirtyOf s u
  let s1 := countLate s u (late || joins) (isStale s x.next g)
  let s2 := { s1 with words := { s1.words with dirtyS := s1.words.dirtyS.filter (fun a => !as.contains a) } }
  enqueueTag u { g with late := late || joins } (max block last) (copies s as) s2

/-- A tag without work of its own on arrival (R55, R56). -/
def arrivePlain (u : Nat) (g : TagRec) (snap : List (Nat × Word)) (s : State) : State :=
  let (late, block) := judge s (unitSt s u).next g
  enqueueTag u { g with late := late } block snap (countLate s u late (isStale s (unitSt s u).next g))

/-- The tag at the head of a unit's stream taken from it, re-based where R64 says so. -/
def takeTransit (u : Nat) (s : State) : Option (TagRec × State) :=
  match (unitSt s u).transit with
  | [] => none
  | g :: t => some (rebase s (scaleAt s (16 * (unitSt s u).next)) g, modUnit u (fun x => { x with transit := t }) s)

/-- The tags of a unit due at the block it begins next: COMMITs first, each kind in order of arrival (R58). -/
def dueTags (s : State) (u : Nat) : List PendTag :=
  let x := unitSt s u
  let due := x.pend.filter (fun p => decide (p.block ≤ x.next))
  due.filter (fun p => p.tag.typ == tCOMMIT) ++ due.filter (fun p => p.tag.typ != tCOMMIT)

/-- A tag taken out of a unit's pending queue; the block at which a late tag acts carries LATE_TAG (R56). -/
def removePend (u : Nat) (p : PendTag) (s : State) : State :=
  modUnit u (fun x => { x with pend := x.pend.erase p, lateAt := if p.tag.late then x.next :: x.lateAt else x.lateAt }) s

/-- The S bits of a pending set made live, all at once (R67). -/
def applySet (vals : List (Nat × Word)) (s : State) : State :=
  vals.foldl (fun t v =>
    match findSpec v.1 with
    | some (r, _, _) =>
      { t with words := { t.words with act := tabSet v.1 (mergeMask (classMask r .staged) (actW t v.1) v.2) t.words.act } }
    | none => t) s

/-- L fields of a unit that wait for its next block made to act (R15, R66). -/
def applyLive (u : Nat) (s : State) : State :=
  let as := s.words.dirtyL.filter (fun a => decide (unitOf a = some u))
  let s1 := as.foldl (fun t a =>
    match findSpec a with
    | some (r, _, _) =>
      { t with words := { t.words with act := tabSet a (mergeMask (classMask r .live) (actW t a) (regW t a)) t.words.act } }
    | none => t) s
  { s1 with words := { s1.words with dirtyL := s1.words.dirtyL.filter (fun a => !as.contains a) } }

end Sys2Proof.Machine
end

