-- ==== Sys2Proof/Machine/Audio.lean ====
section
/-! DEFINITION. Audio blocks on their channels, gain ramps (R97, R98), biquad sections (R76, R228), levels. -/

namespace Sys2Proof.Machine

open Sys2Proof

/-- The block channels of the part, as spaces of numbered streams. -/
inductive Space where
  /-- received channels after stage 1: TDM, AES3, streams, links (R26) -/
  | tdmIn | aesIn | streamIn | linkIn
  /-- conditioned channels -/
  | chan
  | bus
  | gen
  | druOut
  /-- input-plane destinations by number (R90) -/
  | dest
  /-- reduced output sums in s8.31 (R208) -/
  | sum
  /-- corrected outputs -/
  | out
  /-- transmit channel slots -/
  | slot
  deriving DecidableEq, Repr

/-- The key of a numbered stream in the block store. -/
def Space.key (p : Space) (n : Nat) : Nat :=
  (match p with
    | .tdmIn => 0 | .aesIn => 1 | .streamIn => 2 | .linkIn => 3 | .chan => 4 | .bus => 5 | .gen => 6
    | .druOut => 7 | .dest => 8 | .sum => 9 | .out => 10 | .slot => 11) * 2 ^ 20 + n

/-- A block of zeros without flags. -/
def zeroBlk (b : Nat) : Blk := ⟨b, false, false, false, false, false, false, false, List.replicate 16 0, none⟩

/-- A block of zeros that carries SILENT. -/
def silentBlk (b : Nat) : Blk := { zeroBlk b with silent := true }

/-- A block of zeros that carries CONCEALED. -/
def concealedBlk (b : Nat) : Blk := { zeroBlk b with concealed := true }

/-- The blocks of a stream that are still held, newest first. -/
def stream (s : State) (p : Space) (n : Nat) : List Blk := tabGet [] s.audio (p.key n)

/-- Block `b` of a stream. -/
def blkAt (s : State) (p : Space) (n b : Nat) : Option Blk := (stream s p n).find? (fun x => x.idx == b)

/-- How many blocks of a stream the store keeps. -/
def keepBlocks : Nat := 16

/-- A block delivered on a stream. -/
def putBlk (p : Space) (n : Nat) (x : Blk) (s : State) : State :=
  { s with audio := tabMod [] (p.key n) (fun l => (x :: l.filter (fun y => y.idx != x.idx)).take keepBlocks) s.audio }

/-- Flags of a block that combines others (R49): the OR of each, SILENT only where every input carried it. -/
def combineFlags (x : Blk) (ins : List Blk) : Blk :=
  { x with
    unsettled := x.unsettled || ins.any (·.unsettled)
    silent := ins.all (·.silent)
    concealed := x.concealed || ins.any (·.concealed)
    memerr := x.memerr || ins.any (·.memerr)
    slip := x.slip || ins.any (·.slip)
    lateTag := x.lateTag || ins.any (·.lateTag)
    rebased := x.rebased || ins.any (·.rebased) }

/-- The marks a unit puts on a block: LATE_TAG where a tag acted late in it, and REBASED (R49, R56, R62). -/
def unitMarks (s : State) (u : Nat) (x : Blk) : Blk :=
  { x with lateTag := x.lateTag || (unitSt s u).lateAt.contains x.idx, rebased := x.rebased || isStepBlk s x.idx }

/-- The FLAGS byte of a block header (R49). -/
def flagsByte (x : Blk) : Nat :=
  (if x.unsettled then 1 else 0) + (if x.silent then 2 else 0) + (if x.concealed then 4 else 0) +
    (if x.memerr then 8 else 0) + (if x.slip then 16 else 0) + (if x.lateTag then 32 else 0) +
    (if x.rebased then 64 else 0)

/-- A block header as its 16 bytes (R48): source class and number, and how many tag records follow. -/
def headerBytes (s : State) (x : Blk) (cls num tags : Nat) : List Byte :=
  let h := bytesOf 8 (extBlk s x.idx) ++ bytesOf 2 (cls * 4096 + num) ++
    [BitVec.ofNat 8 (flagsByte x), BitVec.ofNat 8 tags, 0, 0, 0]
  h ++ [h.foldl (· ^^^ ·) 0]

/-! ### Ramps -/

/-- Ramp codes (R97). -/
def rampLen (code : Nat) : Nat :=
  match code with
  | 0 => 0 | 1 => 16 | 2 => 64 | 4 => 1024 | 5 => 4096 | _ => 256

/-- The gain of a ramp after `k` of its samples: a + (b − a) × k ÷ N with 40 fraction bits (R98). -/
def rampVal (r : Ramp) (k : Nat) : Int := if r.n ≤ k then r.b else r.a + roundDiv ((r.b - r.a) * k) r.n

/-- The instantaneous gain: that applied to the last sample, which a change without ramp has not reached before its first
sample is done. -/
def rampNow (r : Ramp) : Int := if r.k = 0 then r.a else rampVal r r.k

/-- A change to `b` over `n` samples, from the instantaneous gain (R98). -/
def rampTo (r : Ramp) (b : Int) (n : Nat) : Ramp := ⟨rampNow r, b, n, 0⟩

/-- The gains of the next 16 samples. -/
def rampGains (r : Ramp) : List Int := (List.range 16).map (fun j => rampVal r (r.k + j + 1))

/-- The ramp 16 samples on. -/
def rampSkip (r : Ramp) : Ramp := if r.n ≤ r.k + 16 then rampAt r.b else { r with k := r.k + 16 }

/-- A ramp that has reached zero and stays there. -/
def rampDead (r : Ramp) : Bool := r.b == 0 && (decide (r.n ≤ r.k) || (r.a == 0))

/-! ### Biquad sections -/

/-- Coefficients of a section in s2.29: b0, b1, b2, a1, a2. -/
structure Coefs where
  b0 : Int
  b1 : Int
  b2 : Int
  a1 : Int
  a2 : Int
  deriving DecidableEq, Repr

/-- One sample through a direct form I section (R76, R228): samples and 40-bit state are s7.32. -/
def biqStep (c : Coefs) (q : BiqSt) (x : Int) : Int × BiqSt :=
  let y := satS 40 (roundShift (c.b0 * x + c.b1 * q.x1 + c.b2 * q.x2 - c.a1 * q.y1 - c.a2 * q.y2) 29)
  (y, ⟨x, q.x1, y, q.y1⟩)

/-- Samples through a section. -/
def biqRun (c : Coefs) (q : BiqSt) : List Int → List Int × BiqSt
  | [] => ([], q)
  | x :: xs =>
    let (y, q1) := biqStep c q x
    let (ys, q2) := biqRun c q1 xs
    (y :: ys, q2)

/-- A real value narrowed to s2.29 (R10). -/
def toS229 (a : Int) : Int := satS 32 (fxNarrow 29 a)

/-- The high-pass section of R76 at corner `fc` (Hz) and render rate `r`, quality factor `q` in fixed point. -/
def highPass (fc r : Nat) (q : Int) : Coefs :=
  let k := fxTan (fxPi * fc / r)
  let kq := fxDiv k q
  let k2 := fxMul k k
  let n := fxOne + kq + k2
  ⟨toS229 (fxDiv fxOne n), toS229 (fxDiv (-2 * fxOne) n), toS229 (fxDiv fxOne n),
    toS229 (fxDiv (2 * (k2 - fxOne)) n), toS229 (fxDiv (fxOne - kq + k2) n)⟩

/-- s0.23 to s7.32. -/
def wide (x : Int) : Int := x * 512

/-- s7.32 to s0.23, saturating. -/
def narrow23 (x : Int) : Int := satS 24 (roundShift x 9)

/-- |x| of an s0.23 sample stands at or above −t dBFS. -/
def atLevel (t : Nat) (x : Int) : Bool := decide (fxDb (fxOf (-(t : Int))) * 2 ^ 23 ≤ x.natAbs * 2 ^ 64)

/-! ### Words of a table -/

/-- Element numbers of a table (base, stride, count) that have a word listed among those that act. -/
def listed (s : State) (base stride n : Nat) : List Nat :=
  (s.words.act.filterMap (fun p =>
    if base ≤ p.1 ∧ p.1 < base + stride * n then some ((p.1 - base) / stride) else none)).eraseDups

end Sys2Proof.Machine
end

