-- ==== Sys2Proof/Machine/Inc.lean ====
section
/-! DEFINITION. Input conditioning (R74 to R88): converters, filters, trim, metering, silence detection. -/

namespace Sys2Proof.Machine

open Sys2Proof

/-- The state that all channels share whose records have never been written. -/
def chanRest (s : State) : ChanSt := { chanZero with quiet := s.inc.quiet, wall := s.inc.wall }

/-- A channel's state. -/
def chanSt (s : State) (c : Nat) : ChanSt := tabGet (chanRest s) s.inc.chans c

/-- A channel's state changed. -/
def modChan (c : Nat) (f : ChanSt → ChanSt) (s : State) : State :=
  { s with inc := { s.inc with chans := tabMod (chanRest s) c f s.inc.chans } }

/-- Converters at the render rate (R80). -/
def asrcCap (s : State) : Nat := 1024 / 2 ^ rateCode s

/-- Converters in use. -/
def asrcUsed (s : State) : Nat := (s.inc.chans.filter (fun p => p.2.hasAsrc)).length

/-- Channels in the wallflower state. -/
def wfCount (s : State) : Nat :=
  (s.inc.chans.filter (fun p => p.2.wall != .active)).length +
    if s.inc.wall = .active then 0 else chanCount s - s.inc.chans.length

/-- Settling time of a preset in samples (R79): 50, 100 or 250 ms. -/
def settleLen (s : State) (preset : Nat) : Nat :=
  tickLen s * (match preset with | 0 => 50 | 2 => 250 | _ => 100)

/-- A status bit of a channel (R88). -/
def chanBit (c i : Nat) (v : Bool) (s : State) : State := setF (Reg.INCS0.at c) i i (if v then 1 else 0) s

/-- An INC fault: its sticky bit set and the event raised (R100). -/
def incFault (i c : Nat) (s : State) : State :=
  raise 0x10 (bytesOf 1 i ++ bytesOf 2 c) (stick Reg.INC_STAT.base i s)

/-- The stream a channel's source fields name (R87). -/
def chanSource (s : State) (c : Nat) : Option (Space × Nat) :=
  let w := actW s (Reg.INCH0.at c)
  let n := fld w 11 4 * 64 + fld w 17 12
  match fld w 3 0 with
  | 0 => some (.tdmIn, n)
  | 1 => some (.aesIn, n)
  | 2 => some (.streamIn, n)
  | 3 => some (.linkIn, n)
  | _ => none

/-- The stream of a link that INST names: the link in its low three bits (R375). -/
def linkStreamOf (inst : Nat) : Nat := inst % 8 * 32 + inst / 8

/-- The measured rate of a channel's source in Hz, zero where none is known: the port's measured rate, the stream's
declared rate, the rate that a link's AUDIO frames carry (R84, R374). -/
def sourceRate (s : State) (c : Nat) : Nat :=
  let w := actW s (Reg.INCH0.at c)
  let i := fld w 11 4
  match fld w 3 0 with
  | 0 => fld (regW s (Reg.TDM_STAT.at i)) 31 14
  | 1 => fld (regW s (Reg.AES_STAT.at i)) 31 14
  | 2 =>
    match fld (actW s (Reg.MRX0.at i)) 15 14 with
    | 0 => 48000 | 1 => 96000 | 2 => 192000 | _ => rateHz s
  | 3 =>
    match tabFind? (linkStreamOf i) s.lnk.rx with
    | some x => x.fs
    | none => 0
  | _ => 0

/-- A converter locks anew, at step 1 (R81, R83). -/
def relock (c : Nat) (s : State) : State :=
  when (chanSt s c).hasAsrc (fun t => chanBit c 0 false (chanBit c 1 true (chanBit c 3 false
    (modChan c (fun x => { x with lock := .measuring, rampIn := 256 }) t)))) s

/-- A source starts: the converters of the channels that take it begin at step 1 (R81). CLASS and number of the source;
a link stream by its record's number. -/
def sourceStarts (cls n : Nat) (s : State) : State :=
  let mine (c : Nat) : Bool :=
    let w := actW s (Reg.INCH0.at c)
    fld w 3 0 == cls && (if cls = 3 then linkStreamOf (fld w 11 4) else fld w 11 4) == n
  ((s.inc.chans.filter (fun p => p.2.hasAsrc && mine p.1)).map (·.1)).foldl (fun t c => relock c t) s

/-- A converter measures its input rate for 20 ms and declares lock (R81), or finds it out of range (R83). -/
def asrcLock (c rate : Nat) (s : State) : State :=
  let x := chanSt s c
  if !x.hasAsrc ∨ !(x.lock == .measuring || x.lock == .outOfRange) then s else
    let s1 := setF (Reg.INCS1.at c) 17 0 rate s
    if rate < 32000 ∨ 216000 < rate then
      incFault 1 c (chanBit c 3 true (chanBit c 0 false (modChan c (fun y => { y with lock := .outOfRange }) s1)))
    else
      let preset := fld (actW s (Reg.INCH1.at c)) 2 1
      chanBit c 3 false (chanBit c 1 true (chanBit c 0 true
        (modChan c (fun y => { y with lock := .unsettled (settleLen s preset) }) s1)))

/-- The settling time has passed (R81 step 3); a muted channel ramps in (R82). -/
def asrcSettled (c : Nat) (s : State) : State :=
  match (chanSt s c).lock with
  | .unsettled 0 =>
    let mute := bit (actW s (Reg.INCH1.at c)) 3
    chanBit c 1 false (modChan c (fun y => { y with lock := .settled, rampIn := if mute then 0 else 256 }) s)
  | _ => s

/-- Group delay of a preset in render samples (R34, R79). -/
def asrcDelay (preset : Nat) : Nat := match preset with | 0 => 16 | 2 => 128 | _ => 48

/-- The tap of a converter's filter `d` phases from its centre: the filter is symmetric, so that its delay is the same at
every frequency, and reaches `h` input samples to either side. -/
def asrcTap (preset rate render h : Nat) (d : Int) : Int :=
  if d.natAbs ≤ 256 * h then Config.asrcTap preset rate render d.natAbs else 0

/-- Output sample `j` of a block in which `n` input samples arrived (R79): the filter centred the group delay behind the
input, newest first, at one of 256 phases with interpolation between two, with a gain of 1 at DC; `at_` is the place between
two input samples, in 2^-16. -/
def asrcSample (preset rate render n j at_ : Nat) (hist : List Int) : Int :=
  let h := asrcDelay preset * n / 16
  let back := (15 - j + asrcDelay preset) * n / 16
  let mu := at_ % 256
  let t (i : Nat) : Int :=
    let d : Int := 256 * ((i : Int) - h) + (at_ / 256 % 256 : Nat)
    asrcTap preset rate render h d * (256 - mu : Nat) + asrcTap preset rate render h (d + 1) * mu
  let taps := (List.range (2 * h + 1)).map t
  let y := (taps.mapIdx (fun i v => v * nth 0 hist (back + h - i))).sum
  satS 24 (roundDiv (y * taps.sum.sign) taps.sum.natAbs)

/-- The samples a converter takes in a block, and the marks it carries on: of what replaced missing samples only where
the samples themselves say so (R395, R396). -/
def asrcTake (x : Blk) : List Int × Blk :=
  match x.raw with
  | none => (x.smp, { x with slip := false })
  | some (smp, hidden) => (smp, { x with concealed := hidden, slip := false, raw := none })

/-- A converter's block of samples (R79): where nothing arrived, zeros with CONCEALED, or with the source's SILENT. The
loop that follows the input rate is not given, so the place between two input samples is free. -/
def asrcRun (c : Nat) (new : List Int) (mark : Blk) (s : State) : Blk × State :=
  let n := new.length
  if n = 0 then ({ mark with smp := List.replicate 16 0, concealed := mark.concealed || !mark.silent }, s)
  else
    let preset := fld (actW s (Reg.INCH1.at c)) 2 1
    let rate := fld (regW s (Reg.INCS1.at c)) 17 0
    let hist := (chanSt s c).hist
    ({ mark with smp := (List.range 16).map (fun j => asrcSample preset rate (rateHz s) n j (Config.asrcPlace (s.free + j) % 65536) hist) },
      { s with free := s.free + 16 })

/-- The converter's part of a channel's block (R80 to R83). A channel that mutes unsettled samples marks its zeros with
UNSETTLED too, since the converter has not settled (R49, R82; DESIGN CHOICE, log 57). -/
def asrcBlock (s : State) (c b : Nat) (src : Blk) : Blk × State :=
  let x := chanSt s c
  if !x.hasAsrc then (concealedBlk b, s) else
    let mute := bit (actW s (Reg.INCH1.at c)) 3
    let (new, mark) := asrcTake src
    let s0 := modChan c (fun y => { y with hist := (new.reverse ++ y.hist).take 4096 }) s
    match x.lock with
    | .measuring => ({ concealedBlk b with unsettled := true }, s0)
    | .outOfRange => (concealedBlk b, s0)
    | .unsettled left =>
      let (y, s1) := asrcRun c new mark s0
      let s2 := asrcSettled c (modChan c (fun z => { z with lock := .unsettled (left - 16) }) s1)
      (if mute then { concealedBlk b with unsettled := true } else { y with unsettled := true }, s2)
    | .settled =>
      let (y, s1) := asrcRun c new mark s0
      let ramped := y.smp.mapIdx (fun j v => if x.rampIn + j < 256 then roundDiv (v * (x.rampIn + j + 1 : Nat)) 256 else v)
      ({ y with smp := ramped }, modChan c (fun z => { z with rampIn := min 256 (z.rampIn + 16) }) s1)

/-- The samples a channel takes directly (R84), or its converter's. A channel without a source gives zeros with SILENT
(R75), and with CONCEALED too where it asks for a converter and has none (R80); one whose record names a channel that no
port or stream supplies gives zeros with CONCEALED, as samples that did not arrive (DESIGN CHOICE, log 57). -/
def chanInput (s : State) (c b : Nat) : Blk × State :=
  let conv := bit (actW s (Reg.INCH1.at c)) 0
  match chanSource s c with
  | none => ({ silentBlk b with concealed := conv && !(chanSt s c).hasAsrc },
      when (bit (regW s (Reg.INCS0.at c)) 4) (chanBit c 4 false) s)
  | some (p, n) =>
    let src := (blkAt s p n b).getD (concealedBlk b)
    if conv then asrcBlock s c b src
    else
      let rate := sourceRate s c
      let r := rateHz s
      let s1 := when (rate != 0) (setF (Reg.INCS1.at c) 17 0 rate) s
      let was := bit (regW s (Reg.INCS0.at c)) 4
      if rate ≠ 0 ∧ (r * 101 < rate * 100 ∨ rate * 100 < r * 99) then
        (concealedBlk b, when (!was) (incFault 2 c) (chanBit c 4 true s1))
      else ({ src with raw := none }, when was (chanBit c 4 false) s1)

/-- Quality factors of the offset and wind sections (R76). -/
def qOffset : Int := fxSqrt (fxOne / 2)
def qWind1 : Int := fxRat 54120 100000
def qWind2 : Int := fxRat 130656 100000

/-- The samples through the high-pass filters (R76), in s7.32. -/
def chanFilter (s : State) (c : Nat) (x : ChanSt) (smp : List Int) : List Int × ChanSt :=
  let r := rateHz s
  let (y0, q0) := biqRun (highPass 5 r qOffset) x.offset (smp.map wide)
  let wind := fld (actW s (Reg.INCH1.at c)) 5 4
  if wind = 0 then (y0, { x with offset := q0 }) else
    let fc := match wind with | 1 => 20 | 2 => 40 | _ => 80
    let (y1, q1) := biqRun (highPass fc r qWind1) x.wind1 y0
    let (y2, q2) := biqRun (highPass fc r qWind2) x.wind2 y1
    (y2, { x with offset := q0, wind1 := q1, wind2 := q2 })

/-- Ramp of the wallflower state: 256 samples to zero (R85). -/
def wallFade (k : Nat) (smp : List Int) : List Int :=
  smp.mapIdx (fun j v => if k + j + 1 < 256 then roundDiv (v * (256 - (k + j + 1) : Nat)) 256 else 0)

/-- The silence detector over a block (R85, R247): threshold in −dBFS, hold in samples; the state after the block,
the quiet count, and the samples delivered. -/
def silenceRun (thr hold : Nat) (w : Wall) (quiet : Nat) (smp : List Int) : Wall × Nat × List Int × Bool :=
  if hold = 0 then (.active, 0, smp, false) else
    let loud := smp.any (atLevel (min thr 144))
    if loud then
      let tail := (smp.reverse.takeWhile (fun v => !atLevel (min thr 144) v)).length
      (.active, tail, smp, false)
    else
      let w0 := match w with
        | .active => if hold ≤ quiet then Wall.ramping 0 else .active
        | v => v
      match w0 with
      | .active => (.active, quiet + 16, smp, false)
      | .ramping k =>
        (if 256 ≤ k + 16 then .silent else .ramping (k + 16), quiet + 16, wallFade k smp, false)
      | .silent => (.silent, quiet + 16, List.replicate 16 0, true)

/-- One channel's block (R74). A channel of no source class delivers zeros; its trim ramp, its meters and its detector
run on (R77, R78, R85). -/
def chanBlock (b : Nat) (s : State) (c : Nat) : State :=
  let (inp, s1) := chanInput s c b
  let x := chanSt s1 c
  let (flt, x1) := chanFilter s1 c x inp.smp
  let prods := (flt.zip (rampGains x1.trim)).map (fun p => roundShift (p.1 * p.2) 49)
  let smp := if (chanSource s c).isNone then List.replicate 16 0 else prods.map (satS 24)
  let clips := if (chanSource s c).isNone then 0 else (prods.filter (satHit 24)).length
  let peak := smp.foldl (fun m v => max m v.natAbs) (fld (regW s1 (Reg.INCS2.at c)) 23 0)
  let w1 := actW s1 (Reg.INCH1.at c)
  let hold := actF s1 (Reg.INCH3.at c) 15 0 * tickLen s1
  let (wall, quiet, out, sil) := silenceRun (fld w1 23 16) hold x1.wall x1.quiet smp
  let x2 := { x1 with
    trim := rampSkip x1.trim
    wall := wall
    quiet := quiet
    sumNow := smp.foldl (fun m v => m + v.natAbs * v.natAbs) x1.sumNow }
  let s2 := countN Reg.INC_CLIP_CNT.base clips (modChan c (fun _ => x2) s1)
  let s3 := setF (Reg.INCS2.at c) 23 0 (min peak (2 ^ 24 - 1)) s2
  putBlk .chan c (unitMarks s uINC { inp with smp := out, silent := sil || inp.silent }) s3

/-- The channels whose records have been written. -/
def chansInUse (s : State) : List Nat :=
  (listed s Reg.INCH0.base 16 (chanCount s) ++ s.inc.chans.map (·.1)).eraseDups

/-- The silence detector of the other channels, which hear nothing: 10,000 ticks at −90 dBFS (R85, R87). -/
def restBlock (s : State) : State :=
  let (wall, quiet, _, _) := silenceRun 90 (10000 * tickLen s) s.inc.wall s.inc.quiet (List.replicate 16 0)
  { s with inc := { s.inc with wall := wall, quiet := quiet } }

/-- INC's block (R32 stage 2): every channel. -/
def incBlock (b : Nat) (s : State) : State := restBlock ((chansInUse s).foldl (chanBlock b) s)

/-- The WALLFLOWER bit and the rest of a channel's first status word (R88). -/
def chanWord (s : State) (c : Nat) : Nat :=
  (putFld (regW s (Reg.INCS0.at c)) 2 2 (if (chanSt s c).wall = .active then 0 else 1)).toNat

/-- The RMS window in ticks (R100). -/
def rmsWin (s : State) : Nat :=
  let w := actF s Reg.INC_RMS_WIN.base 10 0
  if w = 0 ∨ 1024 < w then 1024 else w

/-- A channel's RMS at a tick boundary, rounded half up (R10, R78). The sums of 1,024 ticks are held, so that a window made
longer takes in the ticks it reaches back to; ticks before the first count as silence. -/
def rmsUpdate (s : State) (c : Nat) : State :=
  let x := chanSt s c
  let sums := (x.sumNow :: x.sums).take 1024
  let mean4 := 4 * (sums.take (rmsWin s)).foldl (· + ·) 0 / (rmsWin s * tickLen s)
  setF (Reg.INCS3.at c) 23 0 (min ((isqrt mean4 + 1) / 2) (2 ^ 24 - 1))
    (modChan c (fun y => { y with sums := sums, sumNow := 0 }) s)

/-- INC's work at a tick boundary (R78). -/
def incTick (s : State) : State := (chansInUse s).foldl rmsUpdate s

/-- A channel enters the wallflower state once it has been quiet for its hold (R85). -/
def chanWallEnter (c : Nat) (s : State) : State :=
  let hold := actF s (Reg.INCH3.at c) 15 0 * tickLen s
  let x := chanSt s c
  if hold ≠ 0 ∧ hold ≤ x.quiet ∧ x.wall = .active then
    modChan c (fun y => { y with wall := .ramping 0 }) s
  else s

/-- The live trim of a channel with 40 fraction bits. -/
def trimOf (w : Word) : Int := sfld w 23 0 * 2 ^ 20

/-- A trim made live: it ramps from the instantaneous trim (R77). -/
def trimGo (c : Nat) (old new : Word) (s : State) : State :=
  if fld old 23 0 = fld new 23 0 then s else
    modChan c (fun x => { x with trim := rampTo x.trim (trimOf new) (rampLen (actF s (Reg.INCH1.at c) 8 6)) }) s

/-- The effects of a COMMIT on one channel: source, converter, preset, wind and trim (R76, R77, R80, R83). -/
def chanCommit (o n : State) (c : Nat) : State :=
  let src (t : State) := actW t (Reg.INCH0.at c)
  let w1 (t : State) := actW t (Reg.INCH1.at c)
  let en (t : State) := bit (w1 t) 0
  let n1 := trimGo c (actW o (Reg.INCH2.at c)) (actW n (Reg.INCH2.at c)) n
  let n2 := if fld (w1 o) 5 4 = 0 ∧ fld (w1 n) 5 4 ≠ 0 then
      modChan c (fun x => { x with wind1 := biqZero, wind2 := biqZero, windOn := true }) n1
    else n1
  let n3 := if en o ∧ !en n then
      chanBit c 0 false (chanBit c 1 false (chanBit c 3 false (chanBit c 5 false
        (modChan c (fun x => { x with hasAsrc := false, hist := [] }) n2))))
    else if !en o ∧ en n then chanBit c 4 false n2
    else n2
  if en n ∧ (src o ≠ src n ∨ en o ≠ en n ∨ fld (w1 o) 2 1 ≠ fld (w1 n) 2 1) then relock c n3 else n3

/-- Converters that were free before a COMMIT allotted to channels that ask for one, in ascending channel number: one that
the COMMIT itself frees is given at the next (R80). -/
def allotAsrc (free : Nat) (s : State) : State :=
  ((chansInUse s).mergeSort.foldl (fun (q : Nat × State) c =>
    let (k, t) := q
    if bit (actW t (Reg.INCH1.at c)) 0 ∧ !(chanSt t c).hasAsrc then
      if k ≠ 0 then (k - 1, relock c (chanBit c 5 false (modChan c (fun x => { x with hasAsrc := true }) t)))
      else (k, if bit (regW t (Reg.INCS0.at c)) 5 then t else incFault 0 c (chanBit c 5 true t))
    else q) (free, s)).2

/-- The effects of a COMMIT on INC, from the state before to the state after its values went live. -/
def incCommit (o n : State) (as : List Nat) : State :=
  let cs := (as.filterMap (fun a =>
    if Reg.INCH0.base ≤ a ∧ a < Reg.INCH0.base + 16 * chanCount n then some ((a - Reg.INCH0.base) / 16) else none)).eraseDups
  allotAsrc (asrcCap o - asrcUsed o) (cs.foldl (chanCommit o) n)

/-- The channels a RAMP tag to INC covers (R77). -/
def rampChans (s : State) (payload : Word) : List Nat :=
  let first := fld payload 11 0
  ((List.range (fld payload 23 12 + 1)).map (· + first)).filter (· < chanCount s)

/-- A RAMP tag to INC acts: the copied trims of its range go live (R77). -/
def incRamp (snap : List (Nat × Word)) (s : State) : State :=
  snap.foldl (fun t v =>
    let c := (v.1 - Reg.INCH0.base) / 16
    let old := actW t v.1
    trimGo c old v.2 { t with words := { t.words with act := tabSet v.1 (mergeMask (fldMask 23 0) old v.2) t.words.act } }) s

end Sys2Proof.Machine
end

