-- ==== Sys2Proof/Machine/Rte.lean ====
section
/-! DEFINITION. The routing fabric (R89 to R99): patch planes, mix crosspoint, route changes, ramps and crossfades. -/

namespace Sys2Proof.Machine

open Sys2Proof

/-- A source number of the input plane names a stream (R90). -/
def inSource (s : State) (n : Nat) : Option (Space × Nat) :=
  if n < 0xC00 then (if n < chanCount s then some (.chan, n) else none)
  else if n < 0xD00 then some (.bus, n - 0xC00)
  else if n < 0xD10 then (if accepted s 4 then some (.gen, n - 0xD00) else none)
  else if 0xE00 ≤ n ∧ n < 0xF00 then (if accepted s 3 then some (.druOut, n - 0xE00) else none)
  else none

/-- A source number of the output plane names a stream (R90); direct outputs keep their index through the matching
delay of R28. -/
def outSource (s : State) (n : Nat) : Option (Space × Nat) :=
  if n < 0x800 then (if n < objCount s then some (.out, n) else none)
  else if n < 0x900 then some (.dest, 0xB00 + (n - 0x800))
  else if n < 0xA00 then (if accepted s 3 then some (.druOut, n - 0x900) else none)
  else if n < 0xA10 then (if accepted s 4 then some (.gen, n - 0xA00) else none)
  else none

/-- The number under which the block of a bus without an open node stands in the block store: all of them put out the
same block. -/
def plainBus : Nat := 256

/-- A bus's block (R86). -/
def busOut (s : State) (k b : Nat) : Blk :=
  match blkAt s .bus k b with
  | some x => x
  | none => (blkAt s .bus plainBus b).getD (silentBlk b)

/-- A plane's source block, silence where the source does not exist (R86); at a crosspoint input a bus output is that of
the block before (R92). -/
def planeSource (out xpt : Bool) (s : State) (n b : Nat) : Blk :=
  match (if out then outSource s n else inSource s n) with
  | some (.bus, k) =>
    if !xpt then busOut s k b else if b = 0 then silentBlk b else { busOut s k (b - 1) with idx := b }
  | some (p, k) => (blkAt s p k b).getD (silentBlk b)
  | none => silentBlk b

/-- The one path of a destination whose record has never been live with another: silence at unity (R91, R93). -/
def restPaths : List RtePath := [⟨0xFFF, rampAt (2 ^ 40), 0⟩]

/-- The paths of a patch destination. -/
def pathsOf (out : Bool) (s : State) (d : Nat) : List RtePath :=
  tabGet restPaths (if out then s.rte.pathsOut else s.rte.pathsIn) d

/-- A destination's paths set. -/
def setPaths (out : Bool) (d : Nat) (ps : List RtePath) (s : State) : State :=
  if out then { s with rte := { s.rte with pathsOut := tabSet d ps s.rte.pathsOut } }
  else { s with rte := { s.rte with pathsIn := tabSet d ps s.rte.pathsIn } }

/-- The path to cut: the smallest instantaneous gain magnitude, the earliest taken on a tie (R99). -/
def cutPath (ps : List RtePath) : Option RtePath :=
  match ps with
  | [] => none
  | p :: t =>
    match cutPath t with
    | none => some p
    | some q =>
      if (rampNow q.ramp).natAbs < (rampNow p.ramp).natAbs ∨
        ((rampNow q.ramp).natAbs = (rampNow p.ramp).natAbs ∧ q.since < p.since) then some q else some p

/-- A change that brings source `x` with gain `g` over `n` samples (R99): the paths afterwards, and whether a path
was cut. -/
def pathChange (ps : List RtePath) (x : Nat) (g : Int) (n takes : Nat) : List RtePath × Bool :=
  let others := fun (l : List RtePath) =>
    l.map (fun p => if p.src = x then { p with ramp := rampTo p.ramp g n } else { p with ramp := rampTo p.ramp 0 n })
  if ps.any (fun p => p.src == x) then (others ps, false)
  else
    let new : RtePath := ⟨x, rampTo (rampAt 0) g n, takes⟩
    if ps.length < 3 then (others ps ++ [new], false)
    else
      match cutPath ps with
      | some c => (others (ps.erase c) ++ [new], true)
      | none => ([new], false)

/-- A destination's live record changes to (source, gain, ramp code) (R95, R99). -/
def nodeChange (out : Bool) (d x : Nat) (g : Int) (code : Nat) (s : State) : State :=
  let (ps, cut) := pathChange (pathsOf out s d) x (g * 2 ^ 20) (rampLen code) s.rte.takes
  let s1 := setPaths out d ps { s with rte := { s.rte with takes := s.rte.takes + 1 } }
  when cut (count Reg.RTE_PATH_CUT_CNT.base) s1

/-- One destination's block (R91): the sum of its active paths, rounded once; paths at zero are freed. -/
def destBlock (out : Bool) (p : Space) (b : Nat) (s : State) (d : Nat) : State :=
  let ps := pathsOf out s d
  let xpt := !out && decide (0x800 ≤ d) && decide (d < 0x900)
  let parts := ps.map (fun q => (planeSource out xpt s q.src b, rampGains q.ramp))
  let sums := (List.range 16).map (fun j =>
    parts.foldl (fun m q => m + nth 0 q.1.smp j * nth 0 q.2 j) 0)
  let vals := sums.map (fun v => roundShift v 40)
  let clips := (vals.filter (satHit 24)).length
  let live := parts.filter (fun q => q.2.any (· != 0))
  let x := combineFlags { zeroBlk b with smp := vals.map (satS 24) } (live.map (·.1))
  let next := (ps.map (fun q => { q with ramp := rampSkip q.ramp })).filter (fun q => !rampDead q.ramp)
  putBlk p d (unitMarks s uRTE x) (countN Reg.RTE_PATCH_CLIP_CNT.base clips (setPaths out d next s))

/-- Destinations of a plane that have paths. -/
def destsInUse (out : Bool) (s : State) : List Nat :=
  ((if out then s.rte.pathsOut else s.rte.pathsIn).filter (fun p => p.2 != [])).map (·.1)

/-- A bus input as the crosspoint reads it: destination 0x800 + i of the input plane. -/
def busInput (s : State) (i b : Nat) : Blk := (blkAt s .dest (0x800 + i) b).getD (silentBlk b)

/-- Crosspoint nodes of a bus that pass something: node number and ramp. -/
def busNodes (s : State) (bus : Nat) : List (Nat × Ramp) :=
  (s.rte.nodes.filter (fun p => p.1 / 256 == bus && !(rampDead p.2))).map (fun p => (p.1 % 256, p.2))

/-- One mix bus's block (R86, R91), from the blocks of all 256 crosspoint inputs: silent only where every one is. -/
def busBlock (b : Nat) (all : List Blk) (s : State) (bus : Nat) : State :=
  if all.all (·.silent) then putBlk .bus bus (unitMarks s uRTE (silentBlk b)) s else
    let ins := (busNodes s bus).map (fun n => (nth (silentBlk b) all n.1, rampGains n.2))
    let sums := (List.range 16).map (fun j => ins.foldl (fun m q => m + nth 0 q.1.smp j * nth 0 q.2 j) 0)
    let vals := sums.map (fun v => roundShift v 40)
    let clips := (vals.filter (satHit 24)).length
    let x := combineFlags { zeroBlk b with smp := vals.map (satS 24) } all
    putBlk .bus bus (unitMarks s uRTE x) (countN Reg.RTE_BUS_CLIP_CNT.base clips s)

/-- Buses with an open node, and the number that stands for all others. -/
def busesInUse (s : State) : List Nat :=
  ((s.rte.nodes.filter (fun p => !rampDead p.2)).map (fun p => p.1 / 256)).eraseDups ++ [plainBus]

/-- Stage 3 (R89, R92): crosspoint inputs, buses, then every other destination of the input plane. -/
def rteInBlock (b : Nat) (s : State) : State :=
  let ds := destsInUse false s
  let xs := ds.filter (fun d => 0x800 ≤ d && d < 0x900)
  let s1 := xs.foldl (destBlock false .dest b) s
  let s2 := (busesInUse s1).foldl (busBlock b ((List.range 256).map (fun i => busInput s1 i b))) s1
  let s3 := (ds.filter (fun d => !xs.contains d)).foldl (destBlock false .dest b) s2
  { s3 with rte := { s3.rte with
    nodes := (s3.rte.nodes.map (fun p => (p.1, rampSkip p.2))).filter (fun p => !rampDead p.2) } }

/-- Output-plane changes whose block has come. -/
def outChangesDue (b : Nat) (s : State) : State :=
  let due := s.rte.outChanges.filter (fun c => decide (c.block ≤ b))
  let s1 := { s with rte := { s.rte with outChanges := s.rte.outChanges.filter (fun c => !decide (c.block ≤ b)) } }
  due.foldl (fun t c => c.nodes.foldl (fun u n => nodeChange true n.1 n.2.1 (signed 24 n.2.2.1) n.2.2.2 u) t) s1

/-- Stage 7 (R89): the output plane. -/
def rteOutBlock (b : Nat) (s : State) : State :=
  let s1 := outChangesDue b s
  let s2 := (destsInUse true s1).foldl (destBlock true .slot b) s1
  { s2 with rte := { s2.rte with outNext := b + 1 } }

/-- The live record of a patch node: source, gain bits, ramp code. -/
def nodeOf (w0 w1 : Word) : Nat × Nat × Nat := (fld w0 11 0, fld w1 23 0, fld w0 14 12)

/-- A patch node's live words go from one record to another: nothing where source and gain stay (R95). DESIGN CHOICE
(log 69): a RAMP that goes live alone leaves a ramp in progress at its length. -/
def patchLive (out : Bool) (d : Nat) (old new : Nat × Nat × Nat) (block : Nat) (s : State) : State :=
  if old.1 = new.1 ∧ old.2.1 = new.2.1 then s
  else if out then
    { s with rte := { s.rte with outChanges := s.rte.outChanges ++ [⟨block, [(d, new.1, new.2.1, new.2.2)]⟩] } }
  else nodeChange false d new.1 (signed 24 new.2.1) new.2.2 s

/-- A crosspoint node's live word changes. -/
def xptLive (n : Nat) (old new : Word) (s : State) : State :=
  if fld old 23 0 = fld new 23 0 then s else
    { s with rte := { s.rte with
      nodes := tabMod (rampAt 0) n (fun r => rampTo r (sfld new 23 0 * 2 ^ 20) (rampLen (fld new 26 24))) s.rte.nodes } }

/-- Patch destinations among a list of addresses of a plane. -/
def nodesIn (base : Nat) (as : List Nat) : List Nat :=
  (as.filterMap (fun a => if base ≤ a ∧ a < base + 0x8000 then some ((a - base) / 8) else none)).eraseDups

/-- The changes that RTE's live words show between two states, at a block (R95). -/
def rteLive (block : Nat) (o n : State) (as : List Nat) : State :=
  let n1 := (nodesIn Reg.RIN0.base as).foldl (fun t d =>
    patchLive false d (nodeOf (actW o (Reg.RIN0.at d)) (actW o (Reg.RIN1.at d)))
      (nodeOf (actW n (Reg.RIN0.at d)) (actW n (Reg.RIN1.at d))) block t) n
  let n2 := (nodesIn Reg.ROUT0.base as).foldl (fun t d =>
    patchLive true d (nodeOf (actW o (Reg.ROUT0.at d)) (actW o (Reg.ROUT1.at d)))
      (nodeOf (actW n (Reg.ROUT0.at d)) (actW n (Reg.ROUT1.at d))) block t) n1
  (as.filter (fun a => decide (Reg.XPT.base ≤ a) && decide (a < Reg.XPT.base + 0x40000))).foldl
    (fun t a => xptLive ((a - Reg.XPT.base) / 4) (actW o a) (actW n a) t) n2

/-- The addresses a ROUTE or RAMP payload covers (R96); none where MATRIX is reserved. -/
def routeRange (payload : Word) : Option (List Nat) :=
  let first := fld payload 11 0
  let cnt := fld payload 23 12 + 1
  match fld payload 25 24 with
  | 0 => some (((List.range cnt).map (· + first)).filter (· < 4096) |>.flatMap (fun d => [Reg.RIN0.at d, Reg.RIN1.at d]))
  | 1 => some (((List.range cnt).map (· + first)).filter (· < 4096) |>.flatMap (fun d => [Reg.ROUT0.at d, Reg.ROUT1.at d]))
  | 2 => some (((List.range cnt).map (· + first)).filter (· < 256) |>.flatMap (fun bus =>
      (List.range 256).map (fun i => Reg.XPT.at (bus * 256 + i))))
  | _ => none

/-- The bits a tag takes from a copied word: all S bits for ROUTE; GAIN and RAMP for RAMP (R95). -/
def routeMask (ramp : Bool) (a : Nat) : Word :=
  if Reg.XPT.base ≤ a then fldMask 26 0
  else if a % 8 = 4 then fldMask 23 0
  else if ramp then fldMask 14 12 else fldMask 14 0

/-- A ROUTE or RAMP tag acts at RTE: the copied records of its range go live (R95). -/
def routeAct (ramp : Bool) (block : Nat) (snap : List (Nat × Word)) (s : State) : State :=
  let n := snap.foldl (fun t v =>
    { t with words := { t.words with act := tabSet v.1 (mergeMask (routeMask ramp v.1) (actW t v.1) v.2) t.words.act } }) s
  rteLive block s n (snap.map (·.1))

/-- A ROUTE or RAMP reaches RTE: its range is copied, or the tag is discarded (R95, R96), counted where it is stale
(R64). -/
def arriveRoute (g : TagRec) (s : State) : State :=
  match routeRange g.payload with
  | none => countLate (count Reg.RTE_ROUTE_BAD_CNT.base s) uRTE false (isStale s (unitSt s uRTE).next g)
  | some as => arrivePlain uRTE g (copies s (as.filter (fun a => (liveSpec s a).isSome))) s

end Sys2Proof.Machine
end

