-- ==== Sys2Proof/Machine/Dsx.lean ====
section
/-! DEFINITION. The dispatcher's lists (R179 to R191): descriptors, offers, quotas, ordered release, spare unit. -/

namespace Sys2Proof.Machine

open Sys2Proof

/-- A descriptor from its four words (R179), offered by a source. -/
def descOfWords (src : Nat) (w0 w1 w2 w3 : Word) : Desc :=
  ⟨fld w0 11 0, bit w0 12, fld w0 15 13, fld w0 23 16, src, fld w1 15 0, fld w1 23 16, bit w1 24,
    w2.toNat + 2 ^ 32 * w3.toNat, none⟩

/-- Logical Druora cores of the grade (R1, R181). -/
def druCores (s : State) : Nat :=
  match s.fuse.grade with
  | .ih1024 => 16 | .ih0512 => 8 | .ih0256 => 0

/-- A logical number that a present task core holds (R181, R461). -/
def taskCore (s : State) (n : Nat) : Bool :=
  decide (n < druCores s) && !bit (actW s (Reg.CORE0.at n)) 31 && (tabFind? n s.dru.phys).isSome

/-- A descriptor that is discarded when it is offered (R181). -/
def descBad (s : State) (d : Desc) : Bool :=
  decide (2 ≤ d.kind) || (d.kind == 0 && d.src != 0) || (d.kind == 1 && decide (d.flow < 0x800)) ||
    (d.kind == 1 && !accepted s 3) || (d.kind == 1 && d.affinity != 0xFF && !taskCore s d.affinity)

/-- Slots a source holds (R187, R190). -/
def srcOcc (s : State) (src : Nat) : Nat := (s.dsx.jobs.filter (fun j => j.desc.src == src)).length

/-- A source's quota (R190). -/
def quota (s : State) (src : Nat) : Nat := min 8192 (actF s (0x10140100 + 4 * src) 13 0)

/-- Reorder entries in use. -/
def robUsed (s : State) : Nat := (s.dsx.jobs.filter (fun j => decide (j.pos = .reorder))).length

/-- What became of an offered descriptor. -/
inductive Offer where
  | bad | refused | taken
  deriving DecidableEq, Repr

/-- Descriptors that a source holds refused: MOT's stay in its objects' slots, a core's at its SIGNAL (R129, R188, R482). -/
def srcHolds (s : State) (src : Nat) : Nat :=
  match src with
  | 0 => (s.mot.objs.filter (fun p => p.2.slot.isSome)).length
  | 1 => (s.dru.cores.filter (fun q => q.2.signal && q.2.state == 2)).length
  | _ => (tabGet [] s.dsx.held src).length

/-- Slots that sources before this one take first, since they offer again what they hold within their quota (R187). -/
def slotsAhead (s : State) (src : Nat) : Nat :=
  ((List.range src).map (fun k => min (srcHolds s k) (quota s k - srcOcc s k))).sum

/-- A descriptor offered (R181, R187, R188). -/
def offer (d : Desc) (s : State) : Offer × State :=
  if descBad s d then (.bad, count Reg.DSX_BAD_CNT.base s)
  else if quota s d.src ≤ srcOcc s d.src ∨ 8192 ≤ s.dsx.jobs.length + slotsAhead s d.src then
    if s.dsx.bp.contains d.src then (.refused, s)
    else (.refused, stick Reg.DSX_STAT.base 0 (count Reg.DSX_BP_CNT.base
      { s with dsx := { s.dsx with bp := d.src :: s.dsx.bp } }))
  else
    (.taken, { s with dsx := { s.dsx with
      jobs := s.dsx.jobs ++ [⟨s.dsx.nextSeq, d, .waiting, none⟩]
      nextSeq := s.dsx.nextSeq + 1
      bp := s.dsx.bp.filter (· != d.src) } })

/-- A descriptor offered by a source that holds it when it is refused (R188). -/
def offerHold (d : Desc) (s : State) : State :=
  match tabGet [] s.dsx.held d.src with
  | [] =>
    let (r, s1) := offer d s
    if r = .refused then { s1 with dsx := { s1.dsx with held := tabSet d.src [d] s1.dsx.held } } else s1
  | l =>
    if descBad s d then count Reg.DSX_BAD_CNT.base s
    else { s with dsx := { s.dsx with held := tabSet d.src (l ++ [d]) s.dsx.held } }

/-- CMD is back-pressured (R188). -/
def dsxBusy (s : State) : Bool := tabGet [] s.dsx.held 3 != []

/-- A write to DSX_SUBMIT_W3 (R188, R190). -/
def dsxSubmit (w3 : Word) (s : State) : State :=
  if dsxBusy s then count Reg.DSX_BAD_CNT.base s
  else offerHold (descOfWords 3 (regW s (Reg.DSX_SUBMIT_W.at 0)) (regW s (Reg.DSX_SUBMIT_W.at 1))
    (regW s (Reg.DSX_SUBMIT_W.at 2)) w3) (setW (Reg.DSX_SUBMIT_W.at 3) w3 s)

/-- The descriptor at the head of what a source holds is offered again (R187, R188). -/
def acceptHeld (src : Nat) (s : State) : State :=
  match tabGet [] s.dsx.held src with
  | [] => s
  | d :: t =>
    let (r, s1) := offer d s
    if r = .refused then s1 else { s1 with dsx := { s1.dsx with held := tabSet src t s1.dsx.held } }

/-- The engine a job occupies. -/
def engineOf (j : Job) : Option Nat :=
  match j.pos with
  | .running e => some e
  | .stalled e => some e
  | _ => none

/-- The engine number jobs carry while they run: the physical unit of a logical geometry unit (R189), the logical
number of a task core. -/
def engineNo (s : State) (kind e : Nat) : Nat := if kind = 0 then tabGet 0xFF s.dsx.phys e else e

/-- A logical engine of a kind has no job. -/
def engineIdle (s : State) (kind e : Nat) : Bool :=
  s.dsx.jobs.all (fun j => !(j.desc.kind == kind && engineOf j == some (engineNo s kind e)))

/-- No earlier job of an ordered flow waits undispatched (R182; DESIGN CHOICE, log 70, as for `headOfFlow`). -/
def firstOfFlow (s : State) (j : Job) : Bool :=
  !j.desc.ordered || s.dsx.jobs.all (fun k =>
    !(k.desc.ordered && k.desc.flow == j.desc.flow && decide (k.seq < j.seq) && decide (k.pos = .waiting)))

/-- The engines of a kind that may take jobs: geometry units that hold a logical number, task cores. -/
def engines (s : State) (kind : Nat) : List Nat :=
  if kind = 0 then
    (s.dsx.phys.filter (fun p => p.2 != 0xFF && !(s.dsx.leaving.any (fun l => l.1 == p.2)))).map (·.1)
  else (List.range (druCores s)).filter (fun n =>
    taskCore s n && s.dru.leaving != some n && (match tabFind? n s.dru.cores with
      | some c => [1, 2, 3, 4].contains c.state && !c.stopping
      | none => false))

/-- The lowest-numbered idle engine of a kind. -/
def lowestIdle (s : State) (kind : Nat) : Option Nat := (engines s kind).find? (engineIdle s kind)

/-- The job an idle engine takes (R182). -/
def pickJob (s : State) (kind e : Nat) : Option Job :=
  if !(engines s kind).contains e ∨ !engineIdle s kind e then none else
    let ok := s.dsx.jobs.filter (fun j =>
      j.desc.kind == kind && decide (j.pos = .waiting) && firstOfFlow s j &&
        (if kind = 1 ∧ j.desc.affinity ≠ 0xFF then j.desc.affinity == e else lowestIdle s kind == some e))
    minBy (fun j => j.desc.level * 2 ^ 64 + j.seq) ok

/-- A job replaced, found by its submission number. -/
def setJob (j : Job) (s : State) : State :=
  { s with dsx := { s.dsx with jobs := s.dsx.jobs.map (fun k => if k.seq = j.seq then j else k) } }

/-- A job taken off the lists. -/
def dropJob (seq : Nat) (s : State) : State :=
  { s with dsx := { s.dsx with
    jobs := s.dsx.jobs.filter (fun k => k.seq != seq)
    stallQ := s.dsx.stallQ.filter (· != seq) } }

/-- Release of a job (R184). -/
def releaseJob (j : Job) (s : State) : State :=
  let s1 := dropJob j.seq s
  if j.desc.kind = 0 then
    match j.result with
    | some r => { s1 with slv := { s1.slv with results := s1.slv.results ++ [r] } }
    | none => s1
  else when j.desc.notify (raise 0x15 (bytesOf 2 j.desc.flow ++ bytesOf 2 j.desc.entry)) s1

/-- A geometry unit that was to leave is powered off at the end of its job (R189 step 3). -/
def unitLeaves (e : Nat) (s : State) : State :=
  match s.dsx.leaving.find? (fun l => l.1 == e) with
  | none => s
  | some l =>
    let s1 := { s with dsx := { s.dsx with leaving := s.dsx.leaving.filter (fun x => x.1 != e) } }
    raise 0x16 (bytesOf 1 e ++ bytesOf 1 (l.2.getD 0xFF)) (count Reg.DSX_SPARE_CNT.base s1)

/-- The physical unit that has completed a solver job leaves, if it is to. -/
def afterEngine (j : Job) (s : State) : State :=
  match engineOf j with
  | some e => when (j.desc.kind == 0) (unitLeaves e) s
  | none => s

/-- Every earlier job of its ordered flow has been released (R185). DESIGN CHOICE (log 70): a job that is not ORDERED keeps no
other waiting, whatever its flow number. -/
def headOfFlow (s : State) (j : Job) : Bool :=
  !j.desc.ordered || s.dsx.jobs.all (fun k =>
    !(k.desc.ordered && k.desc.flow == j.desc.flow && decide (k.seq < j.seq)))

/-- Completed jobs of a flow that have become its head are released, in order (R185); at most `n` of them. -/
def releaseFlow (flow : Nat) : Nat → State → State
  | 0, s => s
  | n + 1, s =>
    match s.dsx.jobs.find? (fun j => j.desc.ordered && j.desc.flow == flow) with
    | some j =>
      match j.pos with
      | .reorder => releaseFlow flow n (releaseJob j s)
      | .stalled _ => releaseFlow flow n (afterEngine j (releaseJob j s))
      | _ => s
    | none => s

/-- Waiting completions take freed reorder entries, longest wait first (R186). -/
def takeEntries : Nat → State → State
  | 0, s => s
  | n + 1, s =>
    match s.dsx.stallQ with
    | [] => s
    | q :: t =>
      if 1024 ≤ robUsed s then s else
        match s.dsx.jobs.find? (fun j => j.seq == q) with
        | some j => takeEntries n (afterEngine j (setJob { j with pos := .reorder } { s with dsx := { s.dsx with stallQ := t } }))
        | none => takeEntries n { s with dsx := { s.dsx with stallQ := t } }

/-- A job completes on its engine (R184 to R186). -/
def completeJob (j : Job) (s : State) : State :=
  if headOfFlow s j then
    afterEngine j (takeEntries 1024 (releaseFlow j.desc.flow 8192 (releaseJob j s)))
  else if robUsed s < 1024 then afterEngine j (setJob { j with pos := .reorder } s)
  else
    match engineOf j with
    | some e => stick Reg.DSX_STAT.base 1 (count Reg.DSX_ROB_STALL_CNT.base
        (setJob { j with pos := .stalled e } { s with dsx := { s.dsx with stallQ := s.dsx.stallQ ++ [j.seq] } }))
    | none => s

/-- The running job of an engine. -/
def runningJob (s : State) (kind e : Nat) : Option Job :=
  s.dsx.jobs.find? (fun j => j.desc.kind == kind && decide (j.pos = .running (engineNo s kind e)))

end Sys2Proof.Machine
end

