-- ==== Sys2Proof/Machine/Mot.lean ====
section
/-! DEFINITION. Motion conditioning (R102 to R130): ingest, the conditioning chain, recovery, solver jobs. -/

namespace Sys2Proof.Machine

open Sys2Proof

/-- A conditioned value of zeros. -/
def valZero : ObjVal := ⟨0, 0, 0, 0, 0⟩

/-- An object at device start (R122). -/
def objZero : ObjSt :=
  { newest := none, ref := none, rejects := 0, window := [], meds := [], lastPos := none, intervals := [],
    avg1 := [], avg2 := [], gainNew := none, spreadNew := none, eventTick := 0, posCount := 0, tick12 := none,
    gsTick := none, settleAt := none, everSettled := false, held := valZero, forceBlend := none, lost := false,
    settled := false, coarse := true, aliveTick := 0, mode := 0, modeQueue := [], recordLive := false,
    modeLive := true, en := false, mute := false, fresh := false, out := valZero, lastJob := none, slot := none }

/-- An object's conditioning state. -/
def objSt (s : State) (n : Nat) : ObjSt := tabGet objZero s.mot.objs n

/-- An object's conditioning state changed. -/
def modObj (n : Nat) (f : ObjSt → ObjSt) (s : State) : State :=
  { s with mot := { s.mot with objs := tabMod objZero n f s.mot.objs } }

/-! ### The record (R103) -/

/-- Word 4 of an object's live record. -/
def objW4 (s : State) (n : Nat) : Word := actW s (Reg.OBJ4.at n)
def objW5 (s : State) (n : Nat) : Word := actW s (Reg.OBJ5.at n)
def objW6 (s : State) (n : Nat) : Word := actW s (Reg.OBJ6.at n)

def objEn (s : State) (n : Nat) : Bool := bit (objW4 s n) 30
def objMute (s : State) (n : Nat) : Bool := bit (objW4 s n) 28
def objHold (s : State) (n : Nat) : Bool := bit (objW4 s n) 29
def objMode (s : State) (n : Nat) : Nat := fld (objW4 s n) 1 0

/-- Gain in s7.8 dB, held at +18.0. -/
def clampGain (g : Int) : Int := clampI (-32768) 4608 g

/-- Spread in u8.2 degrees, held at 180. -/
def clampSpread (v : Int) : Int := clampI 0 720 v

/-- The HOME value of an object. -/
def homeVal (s : State) (n : Nat) : ObjVal :=
  let w3 := actW s (Reg.OBJ3.at n)
  ⟨actS s (Reg.OBJ0.at n) 23 0, actS s (Reg.OBJ1.at n) 23 0, actS s (Reg.OBJ2.at n) 23 0,
    clampGain (sfld w3 15 0), clampSpread (fld w3 25 16)⟩

/-- SOURCE of an object: 5 is STATIC, 6 and 7 act as 5 (R103). -/
def objSource (s : State) (n : Nat) : Nat := min 5 (actF s (Reg.OBJ6.at n) 2 0)

/-- A STATIC object. -/
def objStatic (s : State) (n : Nat) : Bool := objSource s n == 5

/-- MEDIAN_OFF of an object. -/
def medianOff (s : State) (n : Nat) : Bool := actB s (Reg.OBJ6.at n) 3

/-- The length L of an object's preset (R120). -/
def presetLen (s : State) (n : Nat) : Nat :=
  match fld (objW4 s n) 7 6 with | 0 => 3 | 1 => 9 | 2 => 25 | _ => 1

/-! ### Ingest (R105 to R115) -/

/-- Ingest paths (R103 SOURCE). -/
abbrev pathOsc : Nat := 1
abbrev pathNative : Nat := 2
abbrev pathCmd : Nat := 3
abbrev pathDru : Nat := 4

/-- Spherical to Cartesian (R114): azimuth wrapped, elevation clamped, each coordinate rounded to 1 mm. -/
def sphere (az el d : Int) : Int × Int × Int :=
  let rad (a : Int) : Int := a * fxPi / (180 * fxOne)
  let a := rad az
  let e := rad (clampI (-(90 * fxOne)) (90 * fxOne) el)
  (roundShift (-(d * fxMul (fxCos e) (fxSin a))) 64, roundShift (d * fxMul (fxCos e) (fxCos a)) 64,
    roundShift (d * fxSin e) 64)

/-- The largest coordinate (R115). -/
def maxCoord : Int := 8388607

/-- A position clamped, and how many of its coordinates were (R115). -/
def clampPos (x y z : Int) : (Int × Int × Int) × Nat :=
  let c := clampI (-maxCoord) maxCoord
  ((c x, c y, c z), ([x, y, z].filter (fun v => c v != v)).length)

/-- A sample enters the ingest queue; at a full queue it takes the place of the oldest of its object, at the
queue's end, or is discarded (R107). -/
def queueSample (p : Sample) (s : State) : State :=
  if s.mot.queue.length < 8192 then { s with mot := { s.mot with queue := s.mot.queue ++ [p] } }
  else
    let q := match s.mot.queue.find? (fun x => x.obj == p.obj) with
      | some o => s.mot.queue.erase o ++ [p]
      | none => s.mot.queue
    stick Reg.MOT_STAT.base 1 (count Reg.MOT_INQ_DROP_CNT.base { s with mot := { s.mot with queue := q } })

/-- The counter of bad messages of a path (R102, R109, R113, R114). -/
def badOf (path : Nat) (s : State) : State :=
  if path = pathOsc then count Reg.MOT_OSC_BAD_CNT.base s
  else if path = pathNative then count Reg.MOT_NATIVE_BAD_CNT.base s
  else count Reg.MOT_RANGE_CNT.base s

/-- A raw sample enters at a time by a path (R102, R105, R107, R114, R115); times are samples counted. DESIGN CHOICE
(log 69): a negative distance is met before a path that SOURCE does not accept. -/
def ingest (path time : Nat) (r : RawSample) (s : State) : State :=
  if objCount s ≤ r.obj then badOf path s
  else
    let bad := match r.pos with
      | some (.sph _ _ d) => decide (d < 0)
      | _ => false
    if bad then badOf path s
    else if objSource s r.obj ≠ 0 ∧ objSource s r.obj ≠ path then count Reg.MOT_PATH_CNT.base s
    else
      let cart := match r.pos with
        | some (.cart x y z) => some (x, y, z)
        | some (.sph a e d) => some (sphere a e d)
        | none => none
      match cart with
      | none => queueSample ⟨r.obj, path, time, none, r.gain.map clampGain, r.spread.map clampSpread, r.mode, r.cut⟩ s
      | some (x, y, z) =>
        let (p, n) := clampPos x y z
        queueSample ⟨r.obj, path, time, some p, r.gain.map clampGain, r.spread.map clampSpread, r.mode, r.cut⟩
          (countN Reg.MOT_RANGE_CNT.base n s)

/-- The arrival time of a sample: the first sample of the block MOT begins after it arrives (R105). -/
def arrival (s : State) : Nat :=
  let x := unitSt s uMOT
  16 * if x.begun then x.next + 1 else x.next

/-- The sample that latched words and a mask make (R108, R112): seven words and the mask. -/
def sampleOfWords (n mask mode : Nat) (w : List Word) : RawSample :=
  let i (k : Nat) : Int := (nth 0 w k).toInt
  let deg (k : Nat) : Int := i k * 2 ^ 48
  ⟨n,
    if mask % 2 = 0 then none
    else if mask / 16 % 2 = 1 then some (.sph (deg 0) (deg 1) (i 2)) else some (.cart (i 0) (i 1) (i 2)),
    if mask / 2 % 2 = 1 then some (roundShift (i 3) 8) else none,
    if mask / 4 % 2 = 1 then some (roundShift ((nth 0 w 4).toNat : Int) 14) else none,
    if mask / 8 % 2 = 1 then some (mode % 4) else none,
    mask / 32 % 2 == 1⟩

/-- A write to word 7 of an ingest slot (R108), by command or Druora core. A slot above the object count is a record that
is not there, so its sample is discarded; these paths have no counter of bad messages (R102; DESIGN CHOICE,
log 58). -/
def ingestSubmit (path n : Nat) (v : Word) (s : State) : State :=
  if objCount s ≤ n then s else
    let s1 := setW (Reg.INGEST7.at n) (v &&& 0x3F) s
    let ws := (List.range 5).map (fun k => regW s (Reg.INGEST.at n k))
    ingest path (arrival s) (sampleOfWords n (fld v 5 0) (fld (regW s (Reg.INGEST5.at n)) 1 0) ws) s1

/-! ### Native payloads (R111 to R113) -/

/-- One record of a native payload (R112). -/
def nativeRecord (timed : Bool) (base : Nat) (r : List Byte) (s : State) : State :=
  let obj := getLE r 0 2
  let mask := getLE r 2 1 % 64
  let ws := (List.range 5).map (fun k => BitVec.ofNat 32 (getLE r (8 + 4 * k) 4))
  let t : Int := ((base : Int) + signed 32 (getLE r 4 4)) * rateHz s / 192000
  ingest pathNative (if timed then (smpOf s t).toNat else arrival s) (sampleOfWords obj mask (getLE r 3 1 % 4) ws) s

/-- The senders after a payload is accepted: the newest SEQ, and at a seventeenth the least recently heard replaced
(R113). A payload that is discarded does not count as hearing from its sender (DESIGN CHOICE, log 58). -/
def heardFrom (m : MotSt) (id seq : Nat) : MotSt :=
  let rest := m.senders.filter (fun x => x.id != id)
  let kept := if rest.length < 16 then rest else
    match minBy (fun x => x.heard) rest with
    | some o => rest.erase o
    | none => rest
  { m with senders := kept ++ [⟨id, seq, m.heard⟩], heard := m.heard + 1 }

/-- A native payload (R111 to R113). -/
def nativePayload (p : List Byte) (s : State) : State :=
  let n := getLE p 2 1
  let id := getLE p 4 4
  let seq := getLE p 8 8
  let old := match s.mot.senders.find? (fun x => x.id == id) with
    | some x => decide (seq ≤ x.seq)
    | none => false
  if p.length < 32 ∨ getLE p 0 2 ≠ 1 ∨ n = 0 ∨ p.length ≠ 32 + 32 * n ∨ old = true then
    count Reg.MOT_NATIVE_BAD_CNT.base s
  else
    (List.range n).foldl (fun t k => nativeRecord (getLE p 3 1 % 2 == 1) (getLE p 16 8) (slice p (32 + 32 * k) 32) t)
      { s with mot := heardFrom s.mot id seq }

/-! ### OSC (R109, R110) -/

/-- An OSC string at an offset: its characters and the offset after its padding. -/
def oscString (bs : List Byte) (ofs : Nat) : Option (List Nat × Nat) :=
  let cs := ((bs.drop ofs).takeWhile (fun b => b != 0)).map (·.toNat)
  if ofs + cs.length < bs.length then some (cs, ofs + (cs.length / 4 + 1) * 4) else none

/-- The numbers of a text's characters. -/
def chars (t : String) : List Nat := t.toList.map (·.toNat)

/-- A decimal number of 1 to 4 digits. -/
def decimal (ds : List Nat) : Option Nat :=
  if ds.length = 0 ∨ 4 < ds.length ∨ ds.any (fun c => c < 48 || 57 < c) then none
  else some (ds.foldl (fun m c => m * 10 + (c - 48)) 0)

/-- An address of R109: object number and the quantity's name. -/
def oscAddress (cs : List Nat) : Option (Nat × List Nat) :=
  if cs.take 5 ≠ chars "/obj/" then none else
    let ds := (cs.drop 5).takeWhile (· != 47)
    match decimal ds with
    | none => none
    | some n => some (n, cs.drop (5 + ds.length))

/-- A 32-bit float as an exact ratio: numerator and the power of two of its denominator; none for NaN and
infinities. -/
def floatRat (v : Nat) : Option (Int × Nat) :=
  let e : Nat := v / 2 ^ 23 % 256
  let m : Nat := v % 2 ^ 23
  let sg : Int := if v / 2 ^ 31 % 2 = 1 then -1 else 1
  if e = 255 then none
  else if e = 0 then some (sg * m, 149)
  else if e < 150 then some (sg * (m + 2 ^ 23), 150 - e)
  else some (sg * ((m + 2 ^ 23) * 2 ^ (e - 150) : Nat), 0)

/-- An OSC argument of type `i` or `f` as an exact ratio. -/
def oscArg (t : Nat) (bs : List Byte) (ofs : Nat) : Option (Int × Nat) :=
  if t = 105 then some (signed 32 (getBE bs ofs 4), 0) else if t = 102 then floatRat (getBE bs ofs 4) else none

/-- A ratio times `m`, rounded half up. -/
def ratRound (m : Nat) (q : Int × Nat) : Int := roundShift (q.1 * (m : Int)) q.2

/-- A ratio in fixed point. -/
def ratFx (q : Int × Nat) : Int := q.1 * 2 ^ 64 / (2 ^ q.2 : Nat)

/-- The raw sample a message makes, or none where R109 discards it. DESIGN CHOICE (log 69): a mode that is not a whole number
is a bad message. -/
def oscSample (name : List Nat) (n : Nat) (args : List (Int × Nat)) : Option RawSample :=
  if name = chars "/pos" then
    match args with
    | [x, y, z] => some ⟨n, some (.cart (ratRound 1000 x) (ratRound 1000 y) (ratRound 1000 z)), none, none, none, false⟩
    | _ => none
  else if name = chars "/sph" then
    match args with
    | [a, e, d] => if d.1 < 0 then none else some ⟨n, some (.sph (ratFx a) (ratFx e) (ratRound 1000 d)), none, none, none, false⟩
    | _ => none
  else if name = chars "/gain" then
    match args with
    | [g] => some ⟨n, none, some (ratRound 256 g), none, none, false⟩
    | _ => none
  else if name = chars "/spread" then
    match args with
    | [v] => some ⟨n, none, none, some (ratRound 4 v), none, false⟩
    | _ => none
  else if name = chars "/mode" then
    match args with
    | [m] =>
      let v := roundShift m.1 m.2
      if v * (2 ^ m.2 : Nat) = m.1 ∧ 0 ≤ v ∧ v ≤ 3 then some ⟨n, none, none, none, some v.toNat, false⟩ else none
    | _ => none
  else none

/-- All of a list of options, or none. -/
def allSome {α : Type} : List (Option α) → Option (List α)
  | [] => some []
  | none :: _ => none
  | some a :: t => (allSome t).map (a :: ·)

/-- An OSC message parsed (R109): a sample, or none where it is discarded. DESIGN CHOICE (log 69): bytes after the last
argument make a message bad. -/
def oscMessage (bs : List Byte) : Option RawSample :=
  match oscString bs 0 with
  | none => none
  | some (addr, o1) =>
    match oscAddress addr, oscString bs o1 with
    | some (n, name), some (tags, o2) =>
      match tags with
      | 44 :: ts =>
        match allSome (ts.mapIdx (fun k t => oscArg t bs (o2 + 4 * k))) with
        | some args => if bs.length = o2 + 4 * ts.length then oscSample name n args else none
        | none => none
      | _ => none
    | _, _ => none

/-- An address pattern with wildcards (R109). -/
def oscWild (bs : List Byte) : Bool :=
  match oscString bs 0 with
  | some (cs, _) => cs.any (fun c => [63, 42, 91, 93, 123, 125, 44].contains c)
  | none => false

/-- The sample index of an OSC time tag (R110). -/
def oscIndex (s : State) (sec frac : Nat) : Int :=
  let e : Int := if sec < 2 ^ 31 then 1 else 0
  ((sec : Int) + 2 ^ 32 * e - 2208988800 + (actF s Reg.MOT_TAI_UTC.base 7 0 : Nat)) * rateHz s +
    (frac * rateHz s / 2 ^ 32 : Nat)

/-- A parsed message enters at once, is held, or is discarded (R110); `tag` is the time tag that governs it. -/
def oscEnter (tag : Option (Nat × Nat)) (r : RawSample) (s : State) : State :=
  if objCount s ≤ r.obj then count Reg.MOT_OSC_BAD_CNT.base s else
    match tag with
    | none => ingest pathOsc (arrival s) r s
    | some (sec, frac) =>
      let i := oscIndex s sec frac
      if i ≤ sampleIdx s then ingest pathOsc (smpOf s i).toNat r s
      else if (sampleIdx s : Int) + 10 * rateHz s < i then count Reg.MOT_FAR_CNT.base s
      else if 4096 ≤ s.mot.sched.length then
        stick Reg.MOT_STAT.base 2 (count Reg.MOT_FAR_CNT.base s)
      else { s with mot := { s.mot with sched := s.mot.sched ++ [⟨i.toNat, r⟩] } }

/-- One OSC element, message or bundle; bundles nest, `fuel` bounding the depth by the datagram's length (R110). -/
def oscElement : Nat → Option (Nat × Nat) → List Byte → State → State
  | 0, _, _, s => count Reg.MOT_OSC_BAD_CNT.base s
  | fuel + 1, tag, bs, s =>
    if (bs.take 8).map (·.toNat) = chars "#bundle" ++ [0] then
      let sec := getBE bs 8 4
      let frac := getBE bs 12 4
      let t : Option (Nat × Nat) := if sec = 0 ∧ frac = 1 then none else some (sec, frac)
      oscParts fuel t (bs.drop 16) s
    else if oscWild bs then count Reg.MOT_OSC_WILD_CNT.base s
    else
      match oscMessage bs with
      | some r => oscEnter tag r s
      | none => count Reg.MOT_OSC_BAD_CNT.base s
where
  /-- The elements of a bundle, each behind its size. -/
  oscParts : Nat → Option (Nat × Nat) → List Byte → State → State
    | 0, _, _, s => s
    | fuel + 1, t, bs, s =>
      if bs.length < 4 then s else
        let n := getBE bs 0 4
        if n = 0 ∨ bs.length < 4 + n then count Reg.MOT_OSC_BAD_CNT.base s
        else oscParts fuel t (bs.drop (4 + n)) (oscElement fuel t (slice bs 4 n) s)

/-- An OSC datagram (R109, R110). -/
def oscDatagram (bs : List Byte) (s : State) : State := oscElement (bs.length + 1) none bs s

/-- Held messages whose block boundary has come enter conditioning (R110). -/
def oscScheduled (s : State) : State :=
  let due (m : OscHeld) : Bool := decide (m.time ≤ extBlk s (unitSt s uMOT).next * 16)
  (s.mot.sched.filter due).foldl (fun t m => ingest pathOsc (smpOf s m.time).toNat m.raw t)
    { s with mot := { s.mot with sched := s.mot.sched.filter (fun m => !due m) } }

/-- A datagram is for a port of the device: to its UDP number, at the IPv4 address of one of its Ethernet ports (R105). -/
def toDevice (s : State) (dst dport want : Nat) : Bool :=
  dport == want && dst != 0 && (List.range 8).any (fun p => actF s (Reg.MST_PORT_IP.at p) 31 0 == dst)

/-! ### The conditioning chain (R116 to R121) -/

/-- A recovery event (R122): the fine path restarts empty; the held value is the last one delivered, and the newest gain
and spread stay the newest (R123). An object that was LOST is LOST again TIMEOUT ticks after the event (R126). A second
event in the same tick is the same event. -/
def recover (k : Nat) (x : ObjSt) : ObjSt :=
  if x.eventTick = k then x
  else { x with ref := none, rejects := 0, window := [], meds := [], avg1 := [], avg2 := [], eventTick := k, posCount := 0,
                tick12 := none, gsTick := none, settleAt := none, forceBlend := none, aliveTick := k, held := x.out, lost := false }

/-- The input period in 1/65,536 sample (R119). -/
def periodQ (s : State) (n : Nat) (x : ObjSt) : Nat :=
  let r := rateHz s
  let rate := actF s (Reg.OBJ6.at n) 15 4
  if rate ≠ 0 then r * 65536 / clampN 10 2000 rate
  else if x.intervals.length < 8 then r * 65536 / 100
  else clampN (r * 65536 / 2000) (r * 65536 / 10) (x.intervals.foldl (· + ·) 0 * 65536 / x.intervals.length)

/-- The delay a mode change takes, in samples (R121). -/
def modeDelay (s : State) (n : Nat) (x : ObjSt) : Nat :=
  let p := periodQ s n x
  ((if medianOff s n then 0 else 2 * p) + 4 * p) / 65536 + (presetLen s n - 1) * tickLen s

/-- The middle of three. -/
def med3 (a b c : Int) : Int := max (min a b) (min (max a b) c)

/-- The middle of five. -/
def med5 (l : List Int) : Int := nth 0 (l.mergeSort (fun a b => decide (a ≤ b))) 2

/-- The median output of a window, newest first, for one coordinate (R118). -/
def medianOut (w : List Int) : Int :=
  match w with
  | [] => 0
  | [a] => a
  | [a, _] => a
  | [a, b, c] => med3 a b c
  | [a, b, c, _] => med3 a b c
  | l => med5 (l.take 5)

/-- The median outputs that the point of tick `k` or of a later one can reach (R119), newest first: those of the half
second before the tick and all later ones, since 4P is at most 400 ms, and the four before them. -/
def keepMeds (k : Nat) (s : State) (l : List MedOut) : List MedOut :=
  let near := l.takeWhile (fun q => decide (k * tickLen s < q.time + rateHz s / 2))
  near ++ (l.drop near.length).take 4

/-- A position enters the median window (R118); a sample at the newest one's time replaces it (R106). -/
def pushPos (k : Nat) (s : State) (off : Bool) (p : MedOut) (x : ObjSt) : ObjSt :=
  let same := match x.window with
    | q :: _ => q.time == p.time
    | [] => false
  let w := (p :: (if same then x.window.drop 1 else x.window)).take 5
  let o : MedOut :=
    if off then p
    else ⟨p.time, medianOut (w.map (·.x)), medianOut (w.map (·.y)), medianOut (w.map (·.z))⟩
  let ivals := match x.lastPos with
    | some t => if t < p.time then ((p.time - t) :: x.intervals).take 32 else x.intervals
    | none => x.intervals
  { x with
    window := w
    meds := keepMeds k s (o :: (if same then x.meds.drop 1 else x.meds))
    intervals := ivals
    lastPos := some p.time
    posCount := if same then x.posCount else x.posCount + 1 }

/-- A position's distance from the jump limit's reference is beyond JUMP (R117). A position at the reference's own time
replaces it (R106) and is not tested (DESIGN CHOICE, log 58). -/
def jumps (s : State) (n : Nat) (x : ObjSt) (t : Nat) (p : Int × Int × Int) : Bool :=
  let j := actF s (Reg.OBJ5.at n) 31 16
  match x.ref with
  | none => false
  | some q =>
    let d2 := (p.1 - q.x) ^ 2 + (p.2.1 - q.y) ^ 2 + (p.2.2 - q.z) ^ 2
    -- JUMP × 0.1 m/s over dt samples is JUMP × 100 × dt ÷ r millimetres
    j != 0 && q.time != t && decide (((j * 100 * (t - q.time) : Nat) : Int) ^ 2 < d2 * (rateHz s : Int) ^ 2)

/-- A loss ends with the first sample after it (R126). -/
def endLoss (k n : Nat) (s : State) : State :=
  if (objSt s n).lost then raise 0x12 (bytesOf 2 n) (modObj n (fun x => { recover k x with lost := false }) s) else s

/-- The position of a sample, through the jump limit (R117), into the window. -/
def acceptPos (k : Nat) (p : Sample) (xyz : Int × Int × Int) (s : State) : State :=
  let n := p.obj
  let x := objSt s n
  let m : MedOut := ⟨p.time, xyz.1, xyz.2.1, xyz.2.2⟩
  let put (y : ObjSt) : ObjSt := pushPos k s (medianOff s n) m { y with ref := some m, rejects := 0 }
  let s1 := modObj n (fun y => put (if p.cut || (jumps s n x p.time xyz) then recover k y else y)) s
  modObj n (fun y => if y.posCount = 12 ∧ y.tick12 = none then { y with tick12 := some (p.time / tickLen s) } else y) s1

/-- The jump limit rejects a sample's position (R117): the fifth in a row is a teleport. -/
def jumpRejects (s : State) (p : Sample) (xyz : Int × Int × Int) : Bool :=
  !p.cut && jumps s p.obj (objSt s p.obj) p.time xyz && decide ((objSt s p.obj).rejects < 4)

/-- Gain, spread and mode of a sample taken (R116, R121), and its time as the newest accepted (R106, R126). -/
def takeRest (k : Nat) (p : Sample) (s : State) : State :=
  let n := p.obj
  let gs := p.gain.isSome || p.spread.isSome
  let s1 := modObj n (fun x => { x with
    newest := some p.time
    gainNew := p.gain.orElse (fun _ => x.gainNew)
    spreadNew := p.spread.orElse (fun _ => x.spreadNew)
    gsTick := if gs && x.gsTick.isNone then some (p.time / tickLen s) else x.gsTick
    aliveTick := max k x.aliveTick }) s
  match p.mode with
  | some m => modObj n (fun x => { x with
      modeQueue := x.modeQueue ++ [((p.time + modeDelay s1 n x) / tickLen s, m)] }) s1
  | none => s1

/-- A sample leaves the queue (R106, R117, R121). Of a sample whose position is rejected, the other quantities count as
accepted; one that holds nothing else is not accepted (DESIGN CHOICE, log 58). -/
def takeSample (k : Nat) (s : State) (p : Sample) : State :=
  let n := p.obj
  let old := match (objSt s n).newest with
    | some t => decide (p.time < t)
    | none => false
  if old then count Reg.MOT_LATE_CNT.base s else
    let s1 := endLoss k n s
    match p.pos with
    | some xyz =>
      if jumpRejects s1 p xyz then
        let s2 := count Reg.MOT_JUMP_CNT.base (modObj n (fun y => { y with rejects := y.rejects + 1 }) s1)
        when (p.gain.isSome || p.spread.isSome || p.mode.isSome) (takeRest k p) s2
      else takeRest k p (acceptPos k p xyz s1)
    | none => takeRest k p (when p.cut (modObj n (recover k)) s1)

/-- The Lagrange weight of tap `j` (−3 to 4) at phase `p`/32 in s1.22 (R119). -/
def lagrange8 (p : Nat) (j : Int) : Int :=
  let ms := ([-3, -2, -1, 0, 1, 2, 3, 4] : List Int).filter (· != j)
  let num := ms.foldl (fun a m => a * ((p : Int) - 32 * m)) 1
  let den := ms.foldl (fun a m => a * (32 * (j - m))) 1
  if 0 < den then roundDiv (num * 2 ^ 22) den.toNat else roundDiv (-num * 2 ^ 22) (-den).toNat

/-- The interpolated median output at a point in 1/65,536 sample (R119); outputs newest first. -/
def resample (meds : List MedOut) (pt : Int) : Option (Int × Int × Int) :=
  match meds with
  | [] => none
  | _ =>
    let arr := meds.reverse
    let cnt := (arr.filter (fun o => decide ((o.time : Int) * 65536 ≤ pt))).length
    let i0 := cnt - 1
    let z : MedOut := ⟨0, 0, 0, 0⟩
    let o0 := nth z arr i0
    let phase : Nat :=
      if cnt = 0 ∨ arr.length ≤ i0 + 1 then 0 else
        let o1 := nth z arr (i0 + 1)
        (roundDiv ((pt - o0.time * 65536) * 32) ((o1.time - o0.time) * 65536)).toNat
    let tap (j : Int) : MedOut := nth z arr (clampI 0 (arr.length - 1) ((i0 : Int) + j)).toNat
    let sum (f : MedOut → Int) : Int :=
      roundShift (([-3, -2, -1, 0, 1, 2, 3, 4] : List Int).foldl (fun a j => a + lagrange8 phase j * f (tap j)) 0) 22
    some (sum (·.x), sum (·.y), sum (·.z))

/-- A moving average of values, rounded half up per quantity (R120). -/
def average (l : List ObjVal) : ObjVal :=
  let m (f : ObjVal → Int) : Int := if l.length = 0 then 0 else roundDiv (l.foldl (fun a v => a + f v) 0) l.length
  ⟨m (·.x), m (·.y), m (·.z), m (·.gain), m (·.spread)⟩

/-- A weighted mix of two values: `a` of 8 parts of the second (R124). -/
def blendVal (u v : ObjVal) (a : Nat) : ObjVal :=
  let m (p q : Int) : Int := roundDiv (p * (8 - a : Nat) + q * a) 8
  ⟨m u.x v.x, m u.y v.y, m u.z v.z, m u.gain v.gain, m u.spread v.spread⟩

/-- The coarse value (R123): the newest median output, the newest gain and spread; what has not been received
since the event stays at the held value. -/
def coarseVal (held : ObjVal) (x : ObjSt) : ObjVal :=
  let g := x.gainNew.getD held.gain
  let w := x.spreadNew.getD held.spread
  match x.meds with
  | o :: _ => ⟨o.x, o.y, o.z, g, w⟩
  | [] => ⟨held.x, held.y, held.z, g, w⟩

/-- One conditioning step of an object that is not STATIC, at tick `k` (R119 to R125, R127): the new state, the value for
the solver, HELD, BLEND. An object that settled on gain or spread alone is unsettled again from its first position sample
until its 12th (R123). BLEND shows in all eight blend ticks, the last of which delivers the fine value (R124). Both are
DESIGN CHOICEs (log 58). -/
def condition (s : State) (k n : Nat) (x0 : ObjSt) : ObjSt × ObjVal × Bool × Bool :=
  let held := if x0.everSettled then x0.held else homeVal s n
  let pt : Int := ((k * tickLen s : Nat) : Int) * 65536 - 4 * periodQ s n x0
  let coarse := coarseVal held x0
  let fineIn : ObjVal := match resample x0.meds pt with
    | some (a, b, c) => ⟨a, b, c, coarse.gain, coarse.spread⟩
    | none => coarse
  let len := presetLen s n
  let some1 := x0.meds != [] || x0.gsTick.isSome
  let a1 := if some1 then (fineIn :: x0.avg1).take len else x0.avg1
  let a2 := if some1 then (average a1 :: x0.avg2).take len else x0.avg2
  let fine := average a2
  let settleAt := match x0.tick12, x0.gsTick with
    | some t, _ => some (t + 2 * (len - 1))
    | none, some t => if x0.posCount = 0 then some (t + 2 * (len - 1)) else none
    | none, none => none
  let settled := match settleAt with | some t => decide (t ≤ k) | none => false
  let x := { x0 with avg1 := a1, avg2 := a2, settleAt := settleAt, settled := settled, held := held,
                     everSettled := x0.everSettled || settled }
  if s.mot.forced then ({ x with coarse := true, forceBlend := none }, coarse, false, false)
  else
    match settled, settleAt with
    | true, some t =>
      match x.forceBlend with
      | some fb =>
        if k < fb + 8 then ({ x with coarse := decide (k < fb + 7) }, blendVal coarse fine (k - fb + 1), false, true)
        else ({ x with coarse := false, forceBlend := none }, fine, false, false)
      | none =>
        if k < t + 8 then
          let st := if objHold s n then held else coarse
          ({ x with coarse := decide (k < t + 7) }, blendVal st fine (k - t + 1), false, true)
        else ({ x with coarse := false }, fine, false, false)
    | _, _ =>
      let y := { x with coarse := true, forceBlend := none }
      if objHold s n then (y, held, true, false) else (y, coarse, false, false)

/-- The mode in effect at tick `k` (R121). -/
def modeAt (s : State) (k n : Nat) (x : ObjSt) : ObjSt :=
  let due := x.modeQueue.filter (fun m => decide (m.1 ≤ k))
  let m := match due.getLast? with | some p => p.2 | none => x.mode
  { x with
    mode := if x.modeLive || objStatic s n then objMode s n else m
    modeQueue := x.modeQueue.filter (fun p => !decide (p.1 ≤ k))
    modeLive := false }

/-- An object becomes LOST (R126). -/
def loseObj (n : Nat) (s : State) : State :=
  raise 0x11 (bytesOf 2 n) (stick Reg.MOT_STAT.base 0
    (setF (Reg.MSTAT4.at n) 2 2 1 (modObj n (fun x => { x with lost := true }) s)))

/-- TIMEOUT ticks have passed without a sample (R126). -/
def lossDue (s : State) (k n : Nat) : Bool :=
  let t := actF s (Reg.OBJ7.at n) 15 0
  let x := objSt s n
  t != 0 && objEn s n && !objStatic s n && !x.lost && decide (x.aliveTick + t ≤ k)

/-- A loss in progress at tick `k` (R126, R127): the last conditioned value; the coarse value while it is forced, and a blend
back after that where the fine path has settled. An unsettled object with POLICY HOLD keeps its held value (R125). -/
def lostTick (s : State) (k n : Nat) (x : ObjSt) : ObjSt × ObjVal × Bool × Bool :=
  let coarse := coarseVal x.held x
  if s.mot.forced then ({ x with coarse := true, forceBlend := none }, coarse, false, false)
  else if !x.settled && objHold s n then (x, x.held, true, false)
  else
    match x.forceBlend with
    | some fb =>
      if k < fb + 8 then ({ x with coarse := decide (k < fb + 7) }, blendVal coarse x.out (k - fb + 1), false, true)
      else ({ x with coarse := false, forceBlend := none }, x.out, false, false)
    | none => (x, x.out, false, false)

/-- The input period in whole microseconds, rounded half up (R10, R130). -/
def periodUs (s : State) (n : Nat) (x : ObjSt) : Nat :=
  let rate := actF s (Reg.OBJ6.at n) 15 4
  (if rate ≠ 0 then roundDiv 1000000 (clampN 10 2000 rate)
    else roundDiv ((periodQ s n x * 1000000 : Nat) : Int) (65536 * rateHz s)).toNat

/-- The status words of an object (R130). -/
def showObj (k n : Nat) (v : ObjVal) (held blend : Bool) (s : State) : State :=
  let x := objSt s n
  let b (c : Bool) : Nat := if c then 1 else 0
  setN (Reg.MSTAT6.at n) (extTick s k % 2 ^ 32) (setN (Reg.MSTAT5.at n) (periodUs s n x % 2 ^ 17)
    (setN (Reg.MSTAT4.at n) (x.mode * 64 + 32 * b (s.mot.forced && !objStatic s n) + 16 * b blend + 8 * b held +
        4 * b x.lost + 2 * b x.coarse + b x.settled)
      (setN (Reg.MSTAT3.at n) (lowBits 10 v.spread * 65536 + lowBits 16 v.gain)
        (setN (Reg.MSTAT0.at n 2) (lowBits 24 v.z) (setN (Reg.MSTAT0.at n 1) (lowBits 24 v.y)
          (setN (Reg.MSTAT0.at n 0) (lowBits 24 v.x) s))))))

/-- A solver job put into the object's slot and offered (R128, R129). -/
def issueJob (k n : Nat) (v : JobVal) (s : State) : State :=
  let d : Desc := ⟨n, true, fld v.w4 26 24, 0, 0, n, 0, false, k, some v⟩
  let s1 := when (objSt s n).slot.isSome (count Reg.MOT_COALESCE_CNT.base) s
  let (r, s2) := offer d s1
  modObj n (fun x => { x with lastJob := some v, slot := if r = .refused then some d else none }) s2

/-- A new shelf asked for with an object's job of tick `k` (R162). -/
def shelfAsk (k n : Nat) (s : State) : State :=
  { s with slv := { s.slv with shelfRefresh := (n, k) :: s.slv.shelfRefresh.filter (fun q => q.1 != n) } }

/-- One object at tick `k` (R116, R128): EN going to 0, or MUTE going to 1, gives one job that empties the list, but not at
the first tick after a start or a cut-in. -/
def objTick (k : Nat) (s : State) (n : Nat) : State :=
  let s0 := when (lossDue s k n) (loseObj n) s
  let x0 := modeAt s0 k n (objSt s0 n)
  let (x1, v, held, blend) :=
    if objStatic s0 n then
      ({ x0 with settled := true, coarse := false, lost := false, forceBlend := none }, homeVal s0 n, false, false)
    else if x0.lost then lostTick s0 k n x0
    else condition s0 k n x0
  let en := objEn s0 n
  let mute := objMute s0 n
  let shown := en && !mute
  let jv : JobVal := ⟨v, x1.mode, x1.settled, x1.coarse, !shown, objW4 s0 n, objW5 s0 n, objW6 s0 n⟩
  let emptied := !x1.fresh && ((x1.en && !en) || (!x1.mute && mute))
  let want := if shown then decide (x1.lastJob ≠ some jv) || x1.recordLive || s0.mot.refresh else emptied
  let s1 := modObj n (fun _ => { x1 with
    out := if x1.lost then x1.out else v, recordLive := false, en := en, mute := mute, fresh := false }) s0
  let s2 := showObj k n v held blend s1
  when want (issueJob k n jv) (when (shown && s0.mot.refresh) (shelfAsk k n) s2)

/-- Objects that have a record or a state of their own. -/
def objsInUse (s : State) : List Nat :=
  ((listed s Reg.OBJ0.base 32 (objCount s)) ++ (s.mot.objs.map (·.1))).eraseDups.mergeSort

/-- What words 4 and 6 of the status show of an object that has no state of its own yet (R124, R130): the coarse value
since the start, conditioned at every tick. -/
def restStatus (s : State) (n : Nat) : Option (Nat × Nat) :=
  if (tabFind? n s.mot.objs).isSome then none
  else (unitSt s uMOT).tickDone.map (fun k => (2 + (if s.mot.forced then 32 else 0), extTick s k % 2 ^ 32))

/-- MOT's tick (R107, R116, R128). -/
def motTick (k : Nat) (s : State) : State :=
  let s1 := (s.mot.queue.take 4096).foldl (takeSample k) { s with mot := { s.mot with queue := s.mot.queue.drop 4096 } }
  let force := actB s1 Reg.MOT_CTRL.base 2
  let cleared := s1.mot.forced && !force
  let s2 := { s1 with mot := { s1.mot with
    forced := force
    objs := if cleared then s1.mot.objs.map (fun p =>
      (p.1, if p.2.settled && !objStatic s1 p.1 then { p.2 with forceBlend := some k } else p.2)) else s1.mot.objs } }
  let s3 := (objsInUse s2).foldl (objTick k) s2
  { s3 with mot := { s3.mot with refresh := false, nextTick := k + 1 } }

/-- The effects of a COMMIT on MOT at tick `k`: recovery events, live record fields, mode (R121, R122, R128). DESIGN CHOICE
(log 69): a MODE that goes live with the value it had is no change of mode. -/
def motCommit (k : Nat) (o n : State) (as : List Nat) : State :=
  let objs := (as.filterMap (fun a =>
    if Reg.OBJ0.base ≤ a ∧ a < Reg.OBJ0.base + 32 * objCount n then some ((a - Reg.OBJ0.base) / 32) else none)).eraseDups
  objs.foldl (fun t i =>
    let w6 (u : State) := actW u (Reg.OBJ6.at i)
    let event := (!objEn o i && objEn n i) || fld (w6 o) 15 4 != fld (w6 n) 15 4 ||
      bit (w6 o) 3 != bit (w6 n) 3 || fld (objW4 o i) 7 6 != fld (objW4 n i) 7 6
    let u := modObj i (fun x =>
      let y := if event then recover k x else x
      { y with recordLive := true
               modeLive := y.modeLive || objMode o i != objMode n i }) t
    when (objW4 o i != objW4 n i) (fun x => { x with lan := { x.lan with
      recs := x.lan.recs ++ [(tickStart n k, i, objW4 n i)] } }) u) n

/-- MOT's pending job of the lowest object is offered again (R129, R187). -/
def acceptMot (s : State) : State :=
  match (s.mot.objs.find? (fun p => p.2.slot.isSome)) with
  | none => s
  | some (n, x) =>
    match x.slot with
    | none => s
    | some d =>
      let (r, s1) := offer d s
      if r = .refused then s1 else modObj n (fun y => { y with slot := none }) s1

end Sys2Proof.Machine
end

