-- ==== Sys2Proof/Machine/Slv.lean ====
section
/-! DEFINITION. The scene solver (R133 to R178): layout, gains by mode, air absorption, delays, lists, schedule. -/

namespace Sys2Proof.Machine

open Sys2Proof

/-- A vector in fixed point. -/
structure Vec where
  x : Int
  y : Int
  z : Int
  deriving DecidableEq, Repr

def Vec.dot (a b : Vec) : Int := fxMul a.x b.x + fxMul a.y b.y + fxMul a.z b.z
def Vec.cross (a b : Vec) : Vec :=
  ⟨fxMul a.y b.z - fxMul a.z b.y, fxMul a.z b.x - fxMul a.x b.z, fxMul a.x b.y - fxMul a.y b.x⟩
def Vec.scale (k : Int) (a : Vec) : Vec := ⟨fxMul k a.x, fxMul k a.y, fxMul k a.z⟩
def Vec.add (a b : Vec) : Vec := ⟨a.x + b.x, a.y + b.y, a.z + b.z⟩

/-- The length of an integer vector, in fixed point. -/
def lenOf (x y z : Int) : Int := (isqrt ((x * x + y * y + z * z).toNat * 2 ^ 128) : Nat)

/-- The unit direction of an integer vector; zero for the zero vector. -/
def dirOf (x y z : Int) : Vec :=
  let d := lenOf x y z
  if d = 0 then ⟨0, 0, 0⟩ else ⟨fxDiv (fxOf x) d, fxDiv (fxOf y) d, fxDiv (fxOf z) d⟩

/-- A vector brought to unit length; zero stays zero. -/
def Vec.unit (a : Vec) : Vec :=
  let d := fxSqrt (a.dot a)
  if d = 0 then ⟨0, 0, 0⟩ else ⟨fxDiv a.x d, fxDiv a.y d, fxDiv a.z d⟩

/-! ### The layout (R137 to R142) -/

def virtCount (s : State) : Nat := min 256 (actF s Reg.LAY0.base 24 16)
def arrayCount (s : State) : Nat := min 64 (actF s Reg.LAY1.base 22 16)
def triCount (s : State) : Nat := min 8192 (actF s Reg.LAY1.base 13 0)
def zoneCount (s : State) : Nat := min 256 (actF s Reg.LAY2.base 8 0)

/-- Position of a loudspeaker, mm. -/
def spkPos (s : State) (i : Nat) : Int × Int × Int :=
  (actS s (Reg.SPK0.at i 0) 23 0, actS s (Reg.SPK0.at i 1) 23 0, actS s (Reg.SPK0.at i 2) 23 0)

/-- A loudspeaker that takes contributions (R138). -/
def spkEn (s : State) (i : Nat) : Bool := decide (i < spkCount s) && actB s (Reg.SPK4.at i) 31

def spkGroup (s : State) (i : Nat) : Nat := actF s (Reg.SPK4.at i) 23 16

/-- Panning trim, s7.8 dB, held at +18.0 (R138). -/
def spkTrim (s : State) (i : Nat) : Int := clampGain (actS s (Reg.SPK5.at i) 15 0)

/-- The position of a triangle vertex (R140): none for a code outside the ranges or counts. -/
def vertexPos (s : State) (v : Nat) : Option (Int × Int × Int) :=
  if v < 0x800 then (if v < spkCount s then some (spkPos s v) else none)
  else if v < 0x900 then
    let k := v - 0x800
    if k < virtCount s then
      some (actS s (Reg.VIRT0.at k 0) 23 0, actS s (Reg.VIRT0.at k 1) 23 0, actS s (Reg.VIRT0.at k 2) 23 0)
    else none
  else none

/-- The vertex codes of a triangle. -/
def triVerts (s : State) (t : Nat) : Nat × Nat × Nat :=
  (actF s (Reg.TRI0.at t) 11 0, actF s (Reg.TRI0.at t) 27 16, actF s (Reg.TRI1.at t) 11 0)

/-- A neighbour or lookup code as a triangle number (R140). -/
def triCode (v : Nat) : Option Nat := if v < 8192 then some v else none

/-- The neighbours of a triangle, opposite V0, V1, V2. -/
def triNext (s : State) (t i : Nat) : Option Nat :=
  triCode (match i with
    | 0 => actF s (Reg.TRI2.at t) 13 0
    | 1 => actF s (Reg.TRI2.at t) 29 16
    | _ => actF s (Reg.TRI3.at t) 13 0)

/-- The unit directions of a triangle's vertices, where every one has a direction. -/
def triDirs (s : State) (t : Nat) : Option (Vec × Vec × Vec) :=
  let (a, b, c) := triVerts s t
  match vertexPos s a, vertexPos s b, vertexPos s c with
  | some p, some q, some r =>
    if p = (0, 0, 0) ∨ q = (0, 0, 0) ∨ r = (0, 0, 0) then none
    else some (dirOf p.1 p.2.1 p.2.2, dirOf q.1 q.2.1 q.2.2, dirOf r.1 r.2.1 r.2.2)
  | _, _, _ => none

/-- The determinant of three directions. -/
def det3 (d : Vec × Vec × Vec) : Int := d.1.dot (d.2.1.cross d.2.2)

/-- A triangle is unusable (R140). -/
def triBad (s : State) (t : Nat) : Bool :=
  let (a, b, c) := triVerts s t
  let real := [a, b, c].filter (· < 0x800)
  let lone := match real with
    | [i] => !spkEn s i
    | _ => false
  match triDirs s t with
  | none => true
  | some d => lone || decide ((det3 d).natAbs < 2 ^ 44)

/-- A bad reference counted for an object, or 0xFFFF for a rebuild (R177, R178). -/
def badRef (obj : Nat) (s : State) : State :=
  let was := bit (regW s Reg.SLV_STAT.base) 2
  when (!was) (raise 0x14 (bytesOf 2 obj)) (stick Reg.SLV_STAT.base 2 (count Reg.SLV_BAD_REF_CNT.base s))

/-- Downmix loudspeakers of a virtual loudspeaker (R139). -/
def downmix (s : State) (k : Nat) : List Nat :=
  let m := min 4 (actF s (Reg.VIRT3.at k) 2 0)
  ((List.range m).map (fun i =>
    let w := actW s (Reg.VIRT4.at k (i / 2))
    if i % 2 = 0 then fld w 11 0 else fld w 27 16))

/-- The unusable triangles of the layout (R140). -/
def unusableOf (s : State) : List Nat := (List.range (triCount s)).filter (triBad s)

/-- The rebuild of the vertex matrices (R140, R143, R149): unusable triangles and bad downmix indices counted. -/
def rebuild (s : State) : State :=
  let bad := unusableOf s
  let down := ((List.range (virtCount s)).flatMap (downmix s)).filter (fun i => decide (spkCount s ≤ i))
  let s1 := (List.replicate (bad.length + down.length) ()).foldl (fun t _ => badRef 0xFFFF t) s
  { s1 with slv := { s1.slv with unusable := bad, built := true, rebuilt := true } }

/-- A triangle that the scan and the walk may use. DESIGN CHOICE (log 70): a number at or above TRI_COUNT is a triangle that
may not be used. -/
def triUsable (s : State) (t : Nat) : Bool := decide (t < triCount s) && !s.slv.unusable.contains t

/-- The dot and cross products of integer vectors. -/
def Vec.idot (a b : Vec) : Int := a.x * b.x + a.y * b.y + a.z * b.z
def Vec.icross (a b : Vec) : Vec := ⟨a.y * b.z - a.z * b.y, a.z * b.x - a.x * b.z, a.x * b.y - a.y * b.x⟩

/-- The weights, in a triangle, of the direction of a vector `v` of length `n` (R148): of a vertex A over B and C,
|A| (v · B × C) / (n (A · B × C)), from the positions themselves, so that a zero weight is exactly zero. -/
def triWeights (s : State) (t : Nat) (v : Vec) (n : Int) : Option (Int × Int × Int) :=
  let (i, j, k) := triVerts s t
  match vertexPos s i, vertexPos s j, vertexPos s k with
  | some p, some q, some r =>
    let a : Vec := ⟨p.1, p.2.1, p.2.2⟩
    let b : Vec := ⟨q.1, q.2.1, q.2.2⟩
    let c : Vec := ⟨r.1, r.2.1, r.2.2⟩
    let d := a.idot (b.icross c) * n
    if d = 0 then none else
      let w (a m : Vec) : Int := lenOf a.x a.y a.z * v.idot m * 2 ^ 64 / d
      some (w a (b.icross c), w b (c.icross a), w c (a.icross b))
  | _, _, _ => none

/-- The weights contain the direction (R148). -/
def inside (g : Int × Int × Int) : Bool :=
  decide (-(2 ^ 44 : Int) ≤ g.1) && decide (-(2 ^ 44 : Int) ≤ g.2.1) && decide (-(2 ^ 44 : Int) ≤ g.2.2)

/-- The walk (R148) for a vector of length `m`: at most `n` tests from triangle `t`. -/
def walk (s : State) (v : Vec) (m : Int) : Nat → Nat → Option (Nat × (Int × Int × Int))
  | 0, _ => none
  | n + 1, t =>
    if !triUsable s t then none else
      match triWeights s t v m with
      | none => none
      | some g =>
        if inside g then some (t, g) else
          let i := if g.1 ≤ g.2.1 ∧ g.1 ≤ g.2.2 then 0 else if g.2.1 ≤ g.2.2 then 1 else 2
          match triNext s t i with
          | none => none
          | some t' => walk s v m n t'

/-- The full scan (R148). -/
def scan (s : State) (v : Vec) (m : Int) : Option (Nat × (Int × Int × Int)) :=
  (List.range (triCount s)).findSome? (fun t =>
    if triUsable s t then
      match triWeights s t v m with
      | some g => if inside g then some (t, g) else none
      | none => none
    else none)

/-- Four times the angle of the point (x, y); exact at the multiples of 45 degrees, where cells meet. -/
def angle4 (y x : Int) : Int :=
  if x = 0 then (if 0 < y then 2 * fxPi else if y < 0 then -2 * fxPi else 0)
  else if y.natAbs = x.natAbs then
    (if 0 < x then fxPi else 3 * fxPi) * (if 0 < y then 1 else -1)
  else 4 * fxAtan2 y x

/-- Four times the elevation asin(v_z) of a direction, the vector `v` over `m` (R148); exact at 45 degrees of a vector whose
length is `m`. -/
def elev4 (v : Vec) (m : Int) : Int :=
  let h := v.x * v.x + v.y * v.y
  if h = v.z * v.z ∧ h ≠ 0 ∧ m = lenOf v.x v.y v.z then (if 0 < v.z then fxPi else -fxPi)
  else
    let z := v.z * 2 ^ 64
    angle4 z (isqrt (m * m - z * z).toNat)

/-- The start cell of the direction of a vector over `m` (R148). -/
def startCell (v : Vec) (m : Int) : Nat :=
  let ca := ((angle4 (-v.x) v.y + 4 * fxPi) * 16 / fxPi) % 128
  let ce := (elev4 v m + 2 * fxPi) * 16 / fxPi
  ca.toNat * 64 + min 63 ce.toNat

/-- The containing triangle of the direction of a vector of length `m`, and whether a full scan was made. -/
def findTri (s : State) (v : Vec) (m : Int) : Option (Nat × (Int × Int × Int)) × Bool :=
  let start := triCode (actF s (Reg.LOOKUP.at (startCell v m)) 13 0)
  match start.bind (fun t => walk s v m 32 t) with
  | some r => (some r, false)
  | none => (scan s v m, true)

/-- Weights by loudspeaker, summed as amplitudes (R169). -/
def addWeight (i : Nat) (w : Int) (l : Tab Int) : Tab Int := tabMod 0 i (· + w) l

/-- What a vertex's weight goes to (R149). -/
def vertexShares (s : State) (v : Nat) (w : Int) (l : Tab Int) : Tab Int :=
  if v < 0x800 then (if spkEn s v then addWeight v w l else l)
  else
    let ds := downmix s (v - 0x800)
    let share := if ds = [] then 0 else fxDiv w (fxSqrt (fxOf ds.length))
    ds.foldl (fun m i => if spkEn s i then addWeight i share m else m) l

/-- One spread source (R148, R149), in the direction of a vector of length `m`: weights by loudspeaker, scans made,
whether no triangle holds it. -/
def solveDir (s : State) (m : Int) (v : Vec) : Tab Int × Nat × Bool :=
  let (r, scanned) := findTri s v m
  let k := if scanned then 1 else 0
  match r with
  | none => ([], k, true)
  | some (t, g) =>
    let c := max 0 g.1
    let d := max 0 g.2.1
    let e := max 0 g.2.2
    let nrm := fxSqrt (fxMul c c + fxMul d d + fxMul e e)
    let (v0, v1, v2) := triVerts s t
    (vertexShares s v2 (fxDiv e nrm) (vertexShares s v1 (fxDiv d nrm) (vertexShares s v0 (fxDiv c nrm) [])), k, false)

/-- Weights brought to unit power, taken first in proportion to the largest so that their squares keep their precision
(R136); weights that are but the truncation error of zero are zero. -/
def unitPower (l : Tab Int) : Tab Int :=
  let top := l.foldl (fun m p => max m p.2) 0
  if top < 2 ^ 8 then [] else
    let r := l.map (fun p => (p.1, fxDiv p.2 top))
    let n := fxSqrt (r.foldl (fun m p => m + fxMul p.2 p.2) 0)
    r.map (fun p => (p.1, fxDiv p.2 n))

/-- What a mode gives: raw weights by loudspeaker with the array each came from (FIELD), candidates evaluated,
full scans, directions without a triangle, bad references, a FIELD fallback. -/
structure ModeOut where
  weights : List (Nat × Int × Option Nat)
  cost : Nat
  scans : Nat
  bads : Nat
  fallback : Bool
  preemph : Bool
  decor : Nat
  deriving DecidableEq, Repr

/-- Weights without arrays. -/
def plainWeights (l : Tab Int) : List (Nat × Int × Option Nat) := l.map (fun p => (p.1, p.2, none))

/-- Degrees in fixed point as radians. -/
def radOf (d : Int) : Int := d * fxPi / (180 * fxOne)

/-- POINT (R147 to R152). -/
def solvePoint (s : State) (v : ObjVal) : ModeOut :=
  let d := lenOf v.x v.y v.z
  let u : Vec := if d < fxOne then ⟨0, fxOne, 0⟩ else dirOf v.x v.y v.z
  let main := if d < fxOne then solveDir s fxOne ⟨0, 1, 0⟩ else solveDir s d ⟨v.x, v.y, v.z⟩
  let inner := actF s Reg.LAY4.base 23 0
  let spread : Int := v.spread * 2 ^ 62
  let se : Int :=
    if inner ≠ 0 ∧ d < fxOf inner then max spread (180 * (fxOne - d / (inner : Int))) else spread
  if se ≤ 0 then
    let (l, k, miss) := main
    ⟨plainWeights (unitPower l), 33, k, if miss then 1 else 0, false, false, 0⟩
  else
    let q := 45 * fxOne
    let n : Nat := 4 * ((se + q - 1) / q).toNat
    let th := radOf (se / 2)
    let e1 := if 18444899399302180660 < u.z.natAbs then (⟨fxOne, 0, 0⟩ : Vec) else ((⟨0, 0, fxOne⟩ : Vec).cross u).unit
    let e2 := u.cross e1
    let dirs := (List.range n).map (fun (j : Nat) =>
      let ph := 2 * fxPi * (j : Int) / (n : Int)
      (u.scale (fxCos th)).add (((e1.scale (fxCos ph)).add (e2.scale (fxSin ph))).scale (fxSin th)))
    let subs := dirs.map (solveDir s (2 ^ 128))
    let frac := se / 180
    let own := main.1.map (fun p => (p.1, fxMul (fxOne - frac) p.2))
    let all := subs.foldl (fun m r => r.1.foldl (fun m p => addWeight p.1 (fxMul (frac / (n : Int)) p.2) m) m) own
    let scans := subs.foldl (fun m r => m + r.2.1) main.2.1
    let miss := (if main.2.2 then 1 else 0) + (subs.filter (fun r => r.2.2)).length
    let dec := if fxOf (actF s Reg.SLV_SPREAD_CFG.base 7 0) ≤ se then n / 4 else 0
    ⟨plainWeights (unitPower all), 33 * (1 + n), scans, miss, false, false, dec⟩

/-- Distance of an object to a loudspeaker, in fixed-point mm (R146). -/
def spkDist (s : State) (v : ObjVal) (i : Nat) : Int :=
  let p := spkPos s i
  lenOf (v.x - p.1) (v.y - p.2.1) (v.z - p.2.2)

/-- D_MIN of an object, at least 1 mm, in fixed point (R145, R146). -/
def dMin (jv : JobVal) : Int := fxOf (max 1 (fld jv.w5 15 0))

/-- cos θ of a candidate (R154): none where it is not visible. -/
def fieldCos (s : State) (v : ObjVal) (a i : Nat) : Option Int :=
  let p := spkPos s i
  let r : Vec := ⟨p.1 - v.x, p.2.1 - v.y, p.2.2 - v.z⟩
  let n : Vec := if actB s (Reg.ARR1.at a) 0 then
      ⟨actS s (Reg.SPK3.at i) 15 0, actS s (Reg.SPK3.at i) 31 16, actS s (Reg.SPK4.at i) 15 0⟩
    else ⟨actS s (Reg.ARR4.at a) 15 0, actS s (Reg.ARR4.at a) 31 16, actS s (Reg.ARR5.at a) 15 0⟩
  let c := r.idot n
  if spkEn s i ∧ 0 < c then some (c * 2 ^ 192 / (lenOf r.x r.y r.z * lenOf n.x n.y n.z)) else none

/-- Positions from the nearer end of the run of visible positions that holds position `q` (R155). -/
def runEnd (vis : List Bool) (q : Nat) : Nat :=
  let before := ((vis.take q).reverse.takeWhile id).length
  let after := ((vis.drop (q + 1)).takeWhile id).length
  min before after

/-- The taper (R155). -/
def taper (t q : Nat) : Int :=
  if q < t then (fxOne - fxCos (fxPi * (q + 1 : Nat) / (t + 1 : Nat))) / 2 else fxOne

/-- One array's weights (R155). -/
def arrayWeights (s : State) (jv : JobVal) (a : Nat) : List (Nat × Int × Option Nat) :=
  let first := actF s (Reg.ARR0.at a) 11 0
  let cnt := actF s (Reg.ARR0.at a) 27 16
  let coss := (List.range cnt).map (fun q => fieldCos s jv.val a (first + q))
  let vis := coss.map (·.isSome)
  let dref := actF s (Reg.ARR2.at a) 23 0
  let norm : Int := actS s (Reg.ARR3.at a) 23 0 * 2 ^ 44
  let tl := min 16 (actF s (Reg.ARR1.at a) 20 16)
  (List.range cnt).filterMap (fun q =>
    match nth none coss q with
    | none => none
    | some c =>
      let d := max (spkDist s jv.val (first + q)) (dMin jv)
      let w := fxMul (fxMul (fxMul norm (fxSqrt (fxDiv (fxOf dref) d))) c) (taper tl (runEnd vis q))
      some (first + q, w, some a))

/-- FIELD (R153 to R157), or POINT where no array serves. -/
def solveField (s : State) (group : Nat) (jv : JobVal) : ModeOut :=
  let arrays := (List.range (arrayCount s)).filter (fun a =>
    actF s (Reg.ARR1.at a) 15 8 == group && actF s (Reg.ARR2.at a) 23 0 != 0)
  let ws := if accepted s 2 then arrays.flatMap (arrayWeights s jv) else []
  let sets := (List.range (arrayCount s)).filter (fun a => actF s (Reg.ARR1.at a) 15 8 == group)
  let cost := sets.foldl (fun m a => m + ((List.range (actF s (Reg.ARR0.at a) 27 16)).filter (fun q =>
    spkEn s (actF s (Reg.ARR0.at a) 11 0 + q))).length) 0
  if ws = [] then { solvePoint s jv.val with fallback := true } else ⟨ws, cost, 0, 0, false, true, 0⟩

/-- ZONE (R158). -/
def solveZone (s : State) (group : Nat) (jv : JobVal) : ModeOut :=
  let cnt := min 128 (actF s (Reg.ZONE0.at group) 7 0)
  let mem := ((List.range cnt).map (fun m =>
    let w := actW s (Reg.ZONE4.at group (m / 2))
    if m % 2 = 0 then fld w 11 0 else fld w 27 16)).filter (spkEn s)
  if zoneCount s ≤ group then ⟨[], 0, 0, 1, false, false, 0⟩
  else if mem = [] then ⟨[], cnt, 0, 1, false, false, 0⟩
  else
    let blur := fxOf (actF s (Reg.ZONE1.at group) 23 0)
    let a : Int := (actF s (Reg.ZONE0.at group) 15 8 : Nat) * 2 ^ 58
    let q (i : Nat) : Int :=
      let d := max (spkDist s jv.val i) (dMin jv)
      fxMul d d + fxMul blur blur
    -- in proportion to the smallest: a common factor, which the normalisation removes
    let least := mem.foldl (fun m i => min m (q i)) (q (nth 0 mem 0))
    let w (i : Nat) : Int := fxPow (fxDiv (q i) least) (-(a / 2))
    ⟨plainWeights (unitPower (mem.foldl (fun l i => addWeight i (w i) l) [])), cnt, 0, 0, false, false, 0⟩

/-- DIRECT (R159). -/
def solveDirect (s : State) (group : Nat) (jv : JobVal) : ModeOut :=
  let spk := fld jv.w6 27 16
  if spk ≠ 0xFFF then
    if spkEn s spk then ⟨[(spk, fxOne, none)], 1, 0, 0, false, false, 0⟩ else ⟨[], 1, 0, 1, false, false, 0⟩
  else
    let ms := (List.range (spkCount s)).filter (fun i => spkEn s i && spkGroup s i == group)
    if ms = [] then ⟨[], spkCount s, 0, 1, false, false, 0⟩
    else
      let w := fxDiv fxOne (fxSqrt (fxOf ms.length))
      ⟨ms.map (fun i => (i, w, none)), spkCount s, 0, 0, false, false, 0⟩

/-- The distance law (R145). -/
def distLaw (s : State) (jv : JobVal) : Int :=
  let dref := actF s Reg.LAY3.base 23 0
  let al := min 0x100 (fld jv.w4 15 8)
  if dref = 0 ∨ al = 0 then fxOne
  else fxPow (fxDiv (fxOf dref) (max (lenOf jv.val.x jv.val.y jv.val.z) (dMin jv))) ((al : Int) * 2 ^ 57)

/-- Level factor of object gain and trim (R144): zero at −128.0. -/
def levelOf (gain trim : Int) : Int :=
  if gain = -32768 ∨ trim = -32768 then 0 else fxDb ((gain + trim) * 2 ^ 56)

/-! ### Air absorption and the speed of sound (R160 to R163) -/

/-- G_air in fixed-point dB; zero where AIR is 0 (R160). -/
def airGain (s : State) (air : Bool) (v : ObjVal) : Int :=
  if air then
    max (-(24 * fxOne)) (-((actF s Reg.SLV_AIR.base 11 0 : Nat) * lenOf v.x v.y v.z / (256 * 100000)))
  else 0

/-- The identity shelf. -/
def shelfIdentity : List Int := [2 ^ 29, 0, 0, 0, 0]

/-- The shelf's coefficients (R161). -/
def shelfOf (s : State) (g : Int) : List Int :=
  if -(fxOne / 20) < g ∨ g = 0 then shelfIdentity else
    let r := rateHz s
    let f0 : Int := min (fxOf (actF s Reg.SLV_AIR.base 31 16)) (fxOf (2 * r) / 5)
    let a := fxDb (g / 2)
    let w := fxMul (2 * fxPi) (f0 / (r : Int))
    let c := fxCos w
    let be := fxMul (fxMul (fxSqrt (2 * fxOne)) (fxSqrt a)) (fxSin w) / 2
    let p := a + fxOne
    let m := a - fxOne
    let b0 := fxMul a (p + fxMul m c + be)
    let b1 := -2 * fxMul a (m + fxMul p c)
    let b2 := fxMul a (p + fxMul m c - be)
    let a0 := p - fxMul m c + be
    let a1 := 2 * (m - fxMul p c)
    let a2 := p - fxMul m c - be
    [b0, b1, b2, a1, a2].map (fun x => toS229 (fxDiv x a0))

/-- The target speed of sound in u9.14 (R163). -/
def soundTarget (s : State) : Nat :=
  let v : Int :=
    if actB s Reg.SLV_CTRL.base 0 then
      -- 331.3 + 0.606 × TEMP, TEMP in s7.8: over 1000 × 2^8
      roundDiv ((331300 * 256 + 606 * actS s Reg.SLV_AIR_TEMP.base 15 0) * 2 ^ 14) (1000 * 256)
    else actF s Reg.SLV_SOUND_SPEED.base 22 0
  (clampI (300 * 2 ^ 14) (400 * 2 ^ 14) v).toNat

/-- The effective speed for the current tick. -/
def soundEff (s : State) : Nat := fld (regW s Reg.SLV_SOUND_EFF.base) 22 0

/-! ### What a job works from (R134) -/

/-- A solver job that waits for a unit, in the dispatcher or in its object's slot. -/
def jobWaits (s : State) (p : Desc → Bool) : Bool :=
  s.dsx.jobs.any (fun j => j.desc.kind == 0 && decide (j.pos = .waiting) && p j.desc) ||
    s.mot.objs.any (fun q => q.2.slot.any p)

/-- What a tick boundary changes is kept for as long as a job of an earlier tick waits. -/
def pastAdd (p : SlvPast) (s : State) : State :=
  { s with slv := { s.slv with
    past := (p :: s.slv.past).filter (fun q => jobWaits s (fun d => decide (d.arg < q.tick))) } }

/-- The layout tables, the registers and the effective speed as they are live at tick `k` (R134). -/
def asOf (k : Nat) (s : State) : State :=
  (s.slv.past.filter (fun p => decide (k < p.tick))).foldl (fun t p =>
    let u := p.words.foldl (fun x w => { x with words := { x.words with act := tabSet w.1 w.2 x.words.act } }) t
    setN Reg.SLV_SOUND_EFF.base p.eff { u with slv := { u.slv with unusable := p.unusable } }) s

/-! ### Jobs that the solver requests (R128, R143, R163, R177) -/

/-- A job of an object for a tick is on the lists or in the object's slot. -/
def hasJob (s : State) (k n : Nat) : Bool :=
  s.dsx.jobs.any (fun j => j.desc.kind == 0 && j.desc.entry == n && j.desc.arg == k) ||
    (objSt s n).slot.any (fun d => d.arg == k)

/-- A job requested for tick `k` of an object that MOT has conditioned already: its value is that of its last job. -/
def requestNow (k : Nat) (s : State) (n : Nat) : State :=
  if !objEn s n || objMute s n || hasJob s k n then s
  else
    match (objSt s n).lastJob with
    | some v => issueJob k n v s
    | none => s

/-- A request for every enabled object at tick `k` (R143): MOT issues the jobs with its tick, or at once where it has
begun the tick; they renew the shelves (R162). -/
def requestAll (k : Nat) (s : State) : State :=
  if (unitSt s uMOT).tickDone = some k then
    (objsInUse s).foldl (fun t n =>
      requestNow k (when (objEn t n && !objMute t n) (shelfAsk k n) t) n) s
  else { s with mot := { s.mot with refresh := true } }

/-- A request for every enabled object with a delay, in a tick in which the speed of sound changes (R163). DESIGN CHOICE
(log 70): it is no refresh in the sense of R162. -/
def requestDelayed (k : Nat) (s : State) : State :=
  let delayed (n : Nat) : Bool := objEn s n && decide (fld (objW4 s n) 3 2 < 2)
  if (unitSt s uMOT).tickDone = some k then ((objsInUse s).filter delayed).foldl (requestNow k) s
  else { s with mot := { s.mot with objs := s.mot.objs.map (fun p =>
    (p.1, if delayed p.1 then { p.2 with recordLive := true } else p.2)) } }

/-- A write to SLV_REFRESH (R177): a job for every enabled object at MOT's next tick. -/
def slvRefresh (v : Word) (s : State) : State :=
  when (bit v 0) (fun t => { t with mot := { t.mot with refresh := true } }) s

/-- The geometry units in service, over which a rebuild is shared (R143, R189). -/
def unitsInService (s : State) : Nat := max 1 (s.dsx.phys.filter (fun p => p.2 != 0xFF)).length

/-- The load of the tick that ends (R177): what a rebuild cost each unit, and the most a unit spent on jobs. -/
def loadShown (k : Nat) (s : State) : State :=
  let maxc := s.slv.share + s.slv.cycles.foldl (fun m p => max m p.2) 0
  { setN Reg.SLV_LOAD.base (min maxc (2 ^ 20 - 1)) s with slv := { s.slv with cycles := [], cycTick := k } }

/-- The solver's work at a tick boundary (R143, R163, R177): load shown, speed slewed, jobs requested; at the first
tick the speed takes its target and the matrices are rebuilt. -/
def slvTick (k : Nat) (s : State) : State :=
  let first := !s.slv.built
  let s1 := when first rebuild (loadShown k s)
  let s2 := { s1 with slv := { s1.slv with
    rebuilt := false
    share := if s1.slv.rebuilt then (64 * triCount s1 + unitsInService s1 - 1) / unitsInService s1 else 0 } }
  let t : Int := soundTarget s2
  let e : Int := soundEff s2
  let slew := actF s2 Reg.SLV_C_SLEW.base 15 0
  let e' : Int := if first ∨ slew = 0 then t else clampI (e - slew) (e + slew) t
  let s3 := pastAdd ⟨k, [], soundEff s, s.slv.unusable⟩ (setN Reg.SLV_SOUND_EFF.base e'.toNat s2)
  when (e' != e) (requestDelayed k) s3

/-- A loudspeaker's position or EN changed (R143). -/
def spkMoved (o n : State) (as : List Nat) : Bool :=
  (as.filter (fun a => decide (Reg.SPK0.base ≤ a) && decide (a < Reg.SPK0.base + 0x10000))).any (fun a =>
    let w := (a - Reg.SPK0.base) / 4 % 8
    if w < 3 then fld (actW o a) 23 0 != fld (actW n a) 23 0
    else if w = 4 then bit (actW o a) 31 != bit (actW n a) 31 else false)

/-- The effects of a COMMIT on the solver at tick `k` (R143): moved or switched loudspeakers rebuild, where the tick does
not rebuild anyway, and request jobs; what jobs of earlier ticks work from is kept. -/
def slvCommit (k : Nat) (o n : State) (as : List Nat) : State :=
  let n1 := pastAdd ⟨k, as.map (fun a => (a, actW o a)), soundEff o, o.slv.unusable⟩ n
  if spkMoved o n as then requestAll k (when n1.slv.built rebuild n1) else n1

/-! ### Delay and list (R164 to R172) -/

/-- Delay units per sample, *K* (R164). -/
def unitsPerSample (s : State) : Nat := 512 / 2 ^ rateCode s

/-- The reel window *W* (R5). -/
def reelWindow (s : State) : Nat := 8192 * 2 ^ rateCode s

/-- DIFF_MAX (R167). -/
def diffMax (s : State) : Nat := (reelWindow s - 4) * unitsPerSample s

/-- BULK_MAX: 2.0 s (R166). -/
def bulkMax (s : State) : Nat := 2 * rateHz s

/-- The full delay of a contribution in whole units (R164). -/
def tauOf (s : State) (v : ObjVal) (i : Nat) : Int :=
  roundDiv (spkDist s v i * 24576 * 2 ^ 14) (max 1 (soundEff s) * 2 ^ 64)

/-- A result before any was computed. -/
def resZero (obj : Nat) : SolveRes := ⟨obj, 0, [], 0, 0, false, false, false, 0, shelfIdentity, 0⟩

/-- An object's previous result (R170). -/
def prevRes (s : State) (n : Nat) : SolveRes := (tabFind? n s.slv.prev).getD (resZero n)

/-- Entries of a result that are live for the next comparison (R170). -/
def liveEntries (r : SolveRes) : List ListEntry := r.entries.filter (fun e => !e.fadeOut)

/-- A FADE_OUT entry for a live entry (R170). -/
def fadeOutOf (s : State) (prev : SolveRes) (bulk : Nat) (e : ListEntry) : ListEntry :=
  let k := unitsPerSample s
  let full : Int := ((prev.bulk * k + e.delay : Nat) : Int) - (bulk * k : Nat)
  ⟨e.out, 0, (clampI 0 (diffMax s) full).toNat, e.decor, false, true⟩

/-- Wanted entries ranked by gain magnitude, lower output first on a tie (R171). -/
def rankWanted (w : List ListEntry) : List ListEntry :=
  w.mergeSort (fun a b => decide (b.gain.natAbs < a.gain.natAbs) ||
    (a.gain.natAbs == b.gain.natAbs && decide (a.out ≤ b.out)))

/-- The largest number of ranked entries that fits with the fades it needs (R171), from `k` down. -/
def keepCount (ranked : List ListEntry) (live : List ListEntry) : Nat → Nat
  | 0 => 0
  | k + 1 =>
    let kept := (ranked.take (k + 1)).map (·.out)
    let fades := (live.filter (fun e => !kept.contains e.out)).length
    if k + 1 + fades ≤ 128 then k + 1 else keepCount ranked live k

/-- Wanted entries with gains and delays, before flags: output, encoded gain, delay to the loudspeaker, the deviation of
the delay written, and the arrays that the entry counts for (R157). -/
structure Wanted where
  out : Nat
  gain : Int
  tau : Int
  dev : Int
  arrays : List Nat
  deriving DecidableEq, Repr

/-- A gain narrowed to s3.20, with a free deviation that keeps it within 2 steps of the exact value (R136): `x` is the
computed value, which lies within 2^-40 of the exact one. -/
def gainWithin (x dev : Int) : Int :=
  clampI (fxNarrow 20 (x + 2 ^ 24) - 2) (fxNarrow 20 (x - 2 ^ 24) + 2) (fxNarrow 20 x + dev)

/-- The arrays an entry counts for (R157): those whose own gain narrows to something, and where only the sum of several
does, DESIGN CHOICE (log 70), those that it sums. -/
def entryArrays (g : Int → Int) (own : List (Int × Option Nat)) : List Nat :=
  let kept := own.filter (fun q => g q.1 != 0)
  (if kept = [] then own.filter (fun q => q.1 != 0) else kept).filterMap (·.2)

/-- The wanted entries of a mode's weights (R136, R144, R169), and how many gains saturated. -/
def wantedOf (s : State) (jv : JobVal) (m : ModeOut) : List Wanted × Nat :=
  let gd := distLaw s jv
  let sums := m.weights.foldl (fun l p => addWeight p.1 p.2.1 l) ([] : Tab Int)
  let raw := sums.mapIdx (fun k p =>
    let lev := levelOf jv.val.gain (spkTrim s p.1)
    let g (w : Int) : Int := fxMul (fxMul lev gd) w
    let x := if lev = 0 then 0 else gainWithin (g p.2) (Config.deviation (2 * (s.free + k)))
    (x, (⟨p.1, satS 24 x, tauOf s jv.val p.1, clampI (-1) 1 (Config.deviation (2 * (s.free + k) + 1)),
      entryArrays (fun w => fxNarrow 20 (g w)) ((m.weights.filter (fun q => q.1 == p.1)).map (·.2))⟩ : Wanted)))
  ((raw.map (·.2)).filter (fun w => w.gain != 0), (raw.filter (fun p => satHit 24 p.1)).length)

/-- A request for a new shelf of an object, made at a tick or before, is met or has lost its job (R162). -/
def shelfMet (k n : Nat) (s : State) : State :=
  { s with slv := { s.slv with shelfRefresh := s.slv.shelfRefresh.filter (fun q => !(q.1 == n && decide (q.2 ≤ k))) } }

/-- The shelf of a result for tick `k` and what is remembered of it (R162). -/
def shelfStep (v : State) (n k : Nat) (jv : JobVal) (prev : SolveRes) (s : State) : List Int × State :=
  let air := bit jv.w4 27
  let g := airGain v air jv.val
  let renew := match tabFind? n s.slv.airSent with
    | none => true
    | some (g0, a0) => decide (fxOne / 10 ≤ (g - g0).natAbs) || a0 != air ||
      s.slv.shelfRefresh.any (fun q => q.1 == n && decide (q.2 ≤ k))
  if renew then
    let c := shelfOf v g
    (c, shelfMet k n { s with slv := { s.slv with
      airSent := tabSet n (if c = shelfIdentity then 0 else g, air) s.slv.airSent } })
  else (prev.shelf, s)

/-- A job under R172: the list empties. -/
def solveEmpty (s : State) (n k : Nat) (jv : JobVal) : SolveRes × Nat :=
  let prev := prevRes s n
  let es := (liveEntries prev).map (fadeOutOf s prev prev.bulk)
  ({ prev with tick := k, entries := es, coarse := jv.coarse, settled := jv.settled, clamped := 0 }, 64 + 2 * es.length)

/-- The mode's solution for an object. -/
def solveMode (s : State) (jv : JobVal) : ModeOut :=
  let group := fld jv.w4 23 16
  match jv.mode with
  | 0 => solvePoint s jv.val
  | 1 => solveField s group jv
  | 2 => solveZone s group jv
  | _ => solveDirect s group jv

/-- BULK and the entries' differential delays (R165 to R167): bulk, whether it reached BULK_MAX, and for each entry the
delay and whether it was clamped. DESIGN CHOICE (log 70): an empty list keeps the previous BULK in every mode, and the least
delay of RELATIVE is that of all wanted entries, cut ones among them. -/
def delaysOf (s : State) (jv : JobVal) (prev : SolveRes) (ws : List Wanted) : Nat × Bool × List (Nat × Bool) :=
  let k := unitsPerSample s
  let mode := fld jv.w4 3 2
  let low := ws.foldl (fun m w => min m w.tau) ((ws.head?.map (·.tau)).getD 0)
  let us : List Int := ws.map (fun w => if mode = 0 then w.tau else if mode = 1 then w.tau - low else 0)
  let m := us.foldl min ((us.head?).getD 0)
  let raw := 16 * (m / (16 * k : Nat)).toNat
  let bulk := if ws = [] then prev.bulk else if mode = 0 then min raw (bulkMax s) else 0
  (bulk, decide (mode = 0) && ws != [] && decide (bulkMax s ≤ raw),
    (us.zip ws).map (fun p =>
      let d := p.1 - ((bulk * k : Nat) : Int)
      ((clampI 0 (diffMax s) (d + if mode < 2 then p.2.dev else 0)).toNat, decide ((diffMax s : Int) < d))))

/-- A job computed from what is live at its tick, `v` (R134 to R172, R175): the result and the state with its counts. DESIGN
CHOICE (log 70): a result that is not FIELD repeats the previous ALIAS (R135). -/
def solve (v : State) (n k : Nat) (jv : JobVal) (s : State) : SolveRes × Nat × State :=
  if jv.empty then
    let (r, c) := solveEmpty s n k jv
    (r, c, shelfMet k n { s with slv := { s.slv with prev := tabSet n r s.slv.prev } })
  else
    let prev := prevRes s n
    let m := solveMode v jv
    let (ws, sats) := wantedOf v jv m
    let (bulk, full, delays) := delaysOf v jv prev ws
    let live := liveEntries prev
    let want : List ListEntry := ws.mapIdx (fun i w =>
      ⟨w.out, w.gain, (nth (0, false) delays i).1, w.out % (m.decor + 1), !(live.any (fun e => e.out == w.out)), false⟩)
    let cut := keepCount (rankWanted want) live want.length
    let kept := (rankWanted want).take cut
    let isKept (o : Nat) : Bool := kept.any (fun e => e.out == o)
    let fades := (live.filter (fun e => !isKept e.out)).map (fadeOutOf s prev bulk)
    let es := (kept ++ fades).mergeSort (fun a b => decide (a.out ≤ b.out))
    let als := ws.filterMap (fun w => if isKept w.out then
      (w.arrays.map (fun a => actF v (Reg.ARR5.at a) 31 16)).min? else none)
    let alias1 := if m.preemph then (als.min?).getD prev.aliasHz else prev.aliasHz
    let (shelf, s1) := shelfStep v n k jv prev s
    let clamps := ((ws.zip delays).filter (fun p => p.2.2 && isKept p.1.out)).length
    let r : SolveRes := ⟨n, k, es, bulk, alias1, jv.coarse, jv.settled, m.preemph, m.decor, shelf, clamps⟩
    let usable := triCount v - v.slv.unusable.length
    let ranks := decide (128 < want.length + (live.filter (fun e => !(want.any (fun x => x.out == e.out)))).length)
    let cost := 64 + m.cost + 2 * es.length + (if ranks then 256 else 0) + m.scans * usable
    let s2 := countN Reg.SLV_LIST_DROP_CNT.base (want.length - cut)
      (when (sats != 0) (stick Reg.SLV_STAT.base 0) (countN Reg.SLV_GAIN_SAT_CNT.base sats
        (countN Reg.SLV_SCAN_CNT.base m.scans (when m.fallback (count Reg.SLV_FIELD_FALLBACK_CNT.base)
          (when full (count Reg.SLV_BULK_CLAMP_CNT.base) s1)))))
    let s3 := (List.replicate m.bads ()).foldl (fun t _ => badRef n t) s2
    (r, cost, { s3 with free := s3.free + ws.length, slv := { s3.slv with prev := tabSet n r s3.slv.prev } })

/-- A solver job is dispatched to a physical unit: it is computed, its cycles counted (R134, R175, R177). -/
def runSolver (j : Job) (e : Nat) (s : State) : State :=
  match j.desc.val with
  | none => setJob { j with pos := .running e } s
  | some jv =>
    let (r, cost, s1) := solve (asOf j.desc.arg s) j.desc.entry j.desc.arg jv s
    setJob { j with pos := .running e, result := some r }
      { s1 with slv := { s1.slv with cycles := tabMod 0 e (· + cost) s1.slv.cycles } }

/-- The solver has begun a tick: its tables and registers are those of the tick (R134). -/
def slvReached (s : State) (k : Nat) : Bool :=
  match (unitSt s uSLV).tickDone with
  | some d => decide (k ≤ d)
  | none => false

/-- An idle engine takes the job it is due (R182); a solver job waits for the solver to begin its tick. -/
def jobDispatch (kind e : Nat) (s : State) : State :=
  match pickJob s kind e with
  | none => s
  | some j =>
    if kind = 0 then when (slvReached s j.desc.arg) (runSolver j (engineNo s 0 e)) s
    else setJob { j with pos := .running e } s

/-- A solver job completes on a physical geometry unit (R184). -/
def jobComplete (kind e : Nat) (s : State) : State :=
  match s.dsx.jobs.find? (fun j => j.desc.kind == kind && decide (j.pos = .running e)) with
  | some j => completeJob j s
  | none => s

/-! ### The shadow tables (R173, R174, R195) -/

/-- A list entry as its two words (R168). -/
def entryWords (e : ListEntry) : Nat × Nat :=
  let v := e.out % 2 ^ 11 + lowBits 24 e.gain * 2 ^ 11 + (e.delay % 2 ^ 22) * 2 ^ 35 +
    (if e.fadeIn then 2 ^ 57 else 0) + (if e.fadeOut then 2 ^ 58 else 0) + (e.decor % 8) * 2 ^ 59
  (v % 2 ^ 32, v / 2 ^ 32)

/-- The header words of a result that is live at a tick (R195). -/
def headerWords (live : Nat) (r : SolveRes) : List Nat :=
  [r.aliasHz % 2 ^ 16 * 2 ^ 16 + (if r.coarse then 2 ^ 13 else 0) + (if r.settled then 2 ^ 12 else 0) +
      (if r.preemph then 2 ^ 11 else 0) + r.decor % 8 * 2 ^ 8 + min 128 r.entries.length,
    r.bulk % 2 ^ 19] ++ r.shelf.map (lowBits 32) ++ [live % 2 ^ 32]

/-- A window of 128 entries and a header written for an object whose result is live at a tick counted. -/
def writeWindow (list head n tick : Nat) (r : SolveRes) (s : State) : State :=
  let old := ((regW s (head + 32 * n)).toNat) % 256
  let s1 := (r.entries.zipIdx).foldl (fun t p =>
    let (lo, hi) := entryWords p.1
    setN (list + 1024 * n + 8 * p.2 + 4) hi (setN (list + 1024 * n + 8 * p.2) lo t)) s
  let s2 := (List.range (old - r.entries.length)).foldl (fun t i =>
    let a := list + 1024 * n + 8 * (r.entries.length + i)
    setN (a + 4) 0 (setN a 0 t)) s1
  ((headerWords (extTick s tick) r).zipIdx).foldl (fun t p => setN (head + 32 * n + 4 * p.2) p.1 t) s2

/-- A result is late at its write: its cutoff has passed (R173, R174). -/
def resultLate (s : State) (r : SolveRes) : Bool :=
  match s.slv.cutoff with
  | some c => decide (r.tick + 1 ≤ c)
  | none => false

/-- A result may be written: the last block of its tick has begun (R173). -/
def resultReady (s : State) (r : SolveRes) : Bool :=
  match s.slv.cutoff with
  | some c => decide (r.tick ≤ c)
  | none => false

/-- The lane COMMIT of a cutoff is on its way: results are written once it has reached the lanes (R173, R196), so that
it takes none written after the cutoff. -/
def commitOnWay (s : State) : Bool :=
  ((unitSt s uLAN).transit ++ (s.heldTags.filter (fun h => h.unit == uLAN)).map (·.tag)).any (fun g =>
    g.own && g.typ == tCOMMIT && s.slv.cutoff == some (tagPoint s g - 1))

/-- The tick at which a result is live that is written now: the next lane COMMIT's (R173, R174, R195). -/
def resultTick (s : State) (r : SolveRes) : Nat :=
  match s.slv.cutoff with
  | some c => c + 2
  | none => r.tick + 2

/-- A finished result is written into the shadow table (R173, R174); a late one is discarded where one of a later tick
has been written. -/
def resultWrite (obj : Nat) (s : State) : State :=
  match s.slv.results.find? (fun r => r.obj == obj && resultReady s r) with
  | none => s
  | some r =>
    if commitOnWay s then s else
    let newer := match tabFind? obj s.slv.shadow with
      | some q => decide (r.tick < q.tick)
      | none => false
    let s1 := { s with slv := { s.slv with results := s.slv.results.erase r } }
    let s2 := if resultLate s r then
        stick Reg.SLV_STAT.base 1 (count Reg.SLV_LATE_JOB_CNT.base
          { s1 with slv := { s1.slv with lateCount := s1.slv.lateCount + 1 } })
      else s1
    if newer then s2
    else
      let s3 := writeWindow Reg.LSHL.base Reg.LSHH0.base obj (resultTick s r) r s2
      { s3 with slv := { s3.slv with shadow := tabSet obj r s3.slv.shadow } }

/-- The cutoff at the last block of a tick (R173): the lane COMMIT for the next tick is inserted, and results of
this tick may be written. -/
def solverCutoff (s : State) : State :=
  let k := tickOfBlock s (unitSt s uSLV).next
  if (unitSt s uSLV).next % tickBlocks s ≠ tickBlocks s - 1 ∨ s.slv.cutoff = some k then s
  else inject (mkTag tCOMMIT uLAN 0xFF 0 (k + 1)) { s with slv := { s.slv with cutoff := some k } }

end Sys2Proof.Machine
end

