-- ==== Sys2Proof/Machine/Lan.lean ====
section
/-! DEFINITION. The render lanes (R192 to R220): placement, reels, contributions, migrations and sit-outs. -/

namespace Sys2Proof.Machine

open Sys2Proof

/-! ### Lanes and slots (R192, R193) -/

/-- A lane that is absent. -/
def laneNone : LaneSt := ⟨.absent, none, 0, false, none⟩

/-- A lane's state. -/
def laneSt (s : State) (p : Nat) : LaneSt := tabGet laneNone s.lan.lanes p

/-- A lane's state changed. -/
def modLane (p : Nat) (f : LaneSt → LaneSt) (s : State) : State :=
  { s with lan := { s.lan with lanes := tabMod laneNone p f s.lan.lanes } }

/-- An object in its lane, at rest. -/
def laneObjZero : LaneObj := ⟨none, 0, 0, [], 0, 0, biqZero, biqZero, false, 0, 0, shelfIdentity, [], 0, [], [], 0⟩

/-- An object's place and reel. -/
def laneObj (s : State) (n : Nat) : LaneObj := tabGet laneObjZero s.lan.objs n

/-- An object's place and reel changed. -/
def modLaneObj (n : Nat) (f : LaneObj → LaneObj) (s : State) : State :=
  { s with lan := { s.lan with objs := tabMod laneObjZero n f s.lan.objs } }

/-- Physical lanes the grade has (R192). -/
def presentLanes (s : State) : Nat :=
  match s.fuse.grade with
  | .ih1024 => 36
  | .ih0512 => 18
  | .ih0256 => 9

/-- The objects a lane holds, in ascending number. -/
def laneObjs (s : State) (p : Nat) : List Nat :=
  (s.lan.objs.filter (fun q => decide (q.2.lane = some p))).map (·.1)

/-- Lanes in a state, ascending. -/
def lanesIn (s : State) (x : LaneState) : List Nat :=
  (s.lan.lanes.filter (fun q => decide (q.2.state = x))).map (·.1)

/-- A lane's lowest free slot (R193). -/
def freeSlot (s : State) (p : Nat) : Option Nat :=
  let used := (laneObjs s p).map (fun n => (laneObj s n).slot)
  (List.range (objsPerLane s)).find? (fun k => !used.contains k)

/-- The physical lane with a logical number. -/
def laneOf (s : State) (k : Nat) : Option Nat :=
  (s.lan.lanes.find? (fun q => decide (q.2.logical = some k))).map (·.1)

/-- The lowest logical number no lane holds (R212). -/
def freeLogical (s : State) : Nat := ((List.range 64).find? (fun k => (laneOf s k).isNone)).getD 63

/-- An object placed at start, or left unplaced (R193). -/
def placeObj (s : State) (n : Nat) : State :=
  let b := (unitSt s uLAN).next
  let x := { laneObjZero with
    head := 16 * b, zeroBelow := 16 * b, decorMax := min 4 (actF s (Reg.LOBJ0.at n) 10 8), w4 := objW4 s n }
  match laneOf s (actF s (Reg.LOBJ0.at n) 4 0) with
  | none => stick Reg.LAN_STAT.base 5 (modLaneObj n (fun _ => x) s)
  | some p =>
    match freeSlot s p with
    | none => stick Reg.LAN_STAT.base 5 (modLaneObj n (fun _ => x) s)
    | some k => modLaneObj n (fun _ => { x with lane := some p, slot := k }) s

/-- Lanes assigned at start (R192): retired ones are given. -/
def lanStart (retired : List Nat) (s : State) : State :=
  let live := (List.range (presentLanes s)).filter (fun p => !retired.contains p)
  let act := live.take (activeLanes s)
  let lanes : Tab LaneSt := (List.range (presentLanes s)).map (fun p =>
    if retired.contains p then (p, ⟨.retired, none, 0, false, none⟩)
    else if act.contains p then (p, ⟨.active, some (act.idxOf p), 0, false, none⟩)
    else (p, ⟨.spare, none, 0, false, none⟩))
  let s1 := { s with lan := ⟨lanes, [], [], [], [], [], [], nowTick s⟩ }
  (List.range (objCount s)).foldl placeObj s1

/-! ### The bulk ring (R29) -/

/-- An empty bulk ring at a source index. -/
def bulkZero (i : Nat) : BulkRing := ⟨i, [], []⟩

/-- Samples a bulk ring holds: 2.048 s (R40). -/
def bulkLen (s : State) : Nat := 98304 * 2 ^ rateCode s

/-- The object input's block, as the patch delivers it; SILENT where nothing feeds it. -/
def objInput (s : State) (n b : Nat) : Blk := (blkAt s .dest n b).getD (silentBlk b)

/-- One object's block written to its bulk ring (R29 step 1). DESIGN CHOICE: at which DRAM addresses the bulk and the
alignment rings lie the spec does not say; the model keeps their samples in lists of their own, which no fabric access
meets (log 54). -/
def bulkWriteObj (b : Nat) (s : State) (n : Nat) : State :=
  let r := tabGet (bulkZero (16 * b)) s.lan.bulk n
  let x := objInput s n b
  if x.silent ∧ r.smp = [] then s else
    let gap := b - r.next / 16
    let r1 : BulkRing := ⟨16 * b + 16, (x.smp.reverse ++ List.replicate (16 * gap) 0 ++ r.smp).take (bulkLen s),
      (x.silent :: List.replicate gap true ++ r.silent).take (bulkLen s / 16)⟩
    { s with lan := { s.lan with bulk := tabSet n r1 s.lan.bulk } }

/-- Every object's block written to the bulk rings (R32 stage 3). -/
def bulkWrite (b : Nat) (s : State) : State := (List.range (objCount s)).foldl (bulkWriteObj b) s

/-- A source sample of an object; zero where the ring holds none (R413). -/
def bulkSample (s : State) (n : Nat) (i : Int) : Int :=
  match tabFind? n s.lan.bulk with
  | none => 0
  | some r => if i < 0 ∨ (r.next : Int) ≤ i then 0 else nth 0 r.smp ((r.next : Int) - 1 - i).toNat

/-- The SILENT bit of an object's source block (R207). -/
def bulkSilent (s : State) (n : Nat) (blk : Int) : Bool :=
  match tabFind? n s.lan.bulk with
  | none => true
  | some r =>
    let last := (r.next : Int) / 16 - 1
    if blk < 0 ∨ last < blk then true else nth true r.silent (last - blk).toNat

/-! ### Pre-filters, decorrelators and the reel (R198 to R202) -/

/-- Coefficients from a list b0, b1, b2, a1, a2. -/
def coefsOf (l : List Int) : Coefs := ⟨nth 0 l 0, nth 0 l 1, nth 0 l 2, nth 0 l 3, nth 0 l 4⟩

/-- Coefficients b0, b1, b2, a1, a2 in s2.29 that keep R201's limits of gain at DC, 1.0 within 2^-20, and of poles and
zeros, inside the unit circle. -/
def preWithin (c : List Int) : Bool :=
  let b0 := nth 0 c 0
  let b1 := nth 0 c 1
  let b2 := nth 0 c 2
  let a1 := nth 0 c 3
  let a2 := nth 0 c 4
  let one : Int := 2 ^ 29
  let dc := one + a1 + a2
  decide ((b0 + b1 + b2 - dc).natAbs * 2 ^ 20 ≤ dc.toNat) && decide (a2.natAbs < 2 ^ 29) &&
    decide ((a1.natAbs : Int) < one + a2) && decide (b2.natAbs < b0.natAbs) && decide (b1.natAbs < (b0 + b2).natAbs)

/-- The pre-emphasis target at a frequency, in dB (R201). -/
def preTarget (a f : Nat) : Int :=
  if 16 * f ≤ a then 0
  else if a ≤ f then 1204 * fxOne / 100
  else fxMul (301 * fxOne / 100) (fxLog2 (fxRat (16 * f : Nat) a))

/-- Squared magnitude of a polynomial of the delay at an angular frequency per sample. -/
def polyPower (c0 c1 c2 w : Int) : Int :=
  let re := c0 * fxOne + c1 * fxCos w + c2 * fxCos (2 * w)
  let im := c1 * fxSin w + c2 * fxSin (2 * w)
  re * re + im * im

/-- The response of a section at a frequency lies within 0.5 dB of the target (R201). -/
def preMeets (c : List Int) (rate a f : Nat) : Bool :=
  let w := 2 * fxPi * (f : Int) / (rate : Int)
  let num := polyPower (nth 0 c 0) (nth 0 c 1) (nth 0 c 2) w
  let den := polyPower (2 ^ 29) (nth 0 c 3) (nth 0 c 4) w
  let edge (d : Int) : Int := fxDb (2 * (preTarget a f + d))
  decide (den * edge (-(fxOne / 2)) ≤ num * fxOne) && decide (num * fxOne ≤ den * edge (fxOne / 2))

/-- The pre-emphasis section of an object (R201): the device's own rule, at ALIAS within its limits at every whole Hz from
10 Hz to 0.45 × render rate; none where the free coefficients break them, and the samples are free then. -/
def preCoefs (s : State) (aliasHz : Nat) : Option Coefs :=
  let a := clampN 100 (rateHz s * 2 / 5) aliasHz
  let c := (List.range 5).map (fun i => satS 32 (Config.preemph s.fuse.dieRev a (rateHz s) i))
  if preWithin c && (List.range (rateHz s * 9 / 20 - 9)).all (fun f => preMeets c (rateHz s) a (f + 10)) then some (coefsOf c)
  else none

/-- A section's output narrowed to s0.23: the sample, and 1 where it saturated (R201). -/
def narrowPre (y : Int) : Int × Nat :=
  let v := roundShift y 9
  (satS 24 v, if satHit 24 v then 1 else 0)

/-- One source sample through the pre-filters: the sample, the sections, saturations (R201); `free` is the sample of a
pre-emphasis that is not known. -/
def preFilter (pc : Option Coefs) (free : Int) (x : LaneObj) (v : Int) : Int × LaneObj × Nat :=
  let (y, q) := biqStep (coefsOf x.shelfC) x.shelf (wide v)
  let (a, n) := narrowPre y
  if x.preOn then
    match pc with
    | some k =>
      let (z, q2) := biqStep k x.pre (wide a)
      let (c, m) := narrowPre z
      (c, { x with shelf := q, pre := q2 }, n + m)
    | none => (signed 24 (lowBits 24 free), { x with shelf := q }, n)
  else (a, { x with shelf := q }, n)

/-- a_v in s0.23 and M_v at 48 kHz (R202). -/
def variantCoef (v : Nat) : Int × Nat :=
  match v with
  | 1 => (5033165, 19)
  | 2 => (-5033165, 27)
  | 3 => (4613734, 37)
  | _ => (-4613734, 49)

/-- Length of each sub-reel (R202). -/
def subLen (s : State) (decorMax : Nat) : Nat := 4 * (reelWindow s / (4 * (decorMax + 1)))

/-- One variant's sample from the histories before this sample (R202): the sample and whether it saturated. -/
def variantSample (rc v : Nat) (direct : List Int) (own : List Int) (x : Int) : Int × Nat :=
  let (a, m0) := variantCoef v
  let m := m0 * 2 ^ rc
  let y := roundShift (a * x + nth 0 direct (m - 1) * 2 ^ 23 - a * nth 0 own (m - 1)) 23
  (satS 24 y, if satHit 24 y then 1 else 0)

/-- One pre-filtered sample written to every sub-reel of the object. -/
def reelPush (rc len : Nat) (x : LaneObj) (v : Int) : LaneObj × Nat :=
  let direct := nth [] x.subs 0
  let vars := (List.range x.decorMax).map (fun k => variantSample rc (k + 1) direct (nth [] x.subs (k + 1)) v)
  let fresh := v :: vars.map (·.1)
  ({ x with subs := fresh.mapIdx (fun k y => (y :: nth [] x.subs k).take len), head := x.head + 1 },
    vars.foldl (fun m y => m + y.2) 0)

/-- The source samples an object writes in block `b` (R198, R199): how many, from its head on; 16 at most where the extra
fetch of a catch-up has not arrived. -/
def reelCount (b : Nat) (x : LaneObj) : Nat := min 32 (16 * (b : Int) + 16 - x.bulk - x.head).toNat

/-- The reel writes of one object in block `b` (R198 to R202); `lost1` and `lost2` where the first and the second 16 samples
of its bulk read failed (R200), `miss` where the extra fetch of a catch-up did not arrive (R199). At a BULK of 0 the
samples of the block itself are not read from DRAM (R29). Samples that were lost, and those before a layout of the
sub-reels, stand in the reel as zeros, whatever the pre-filters make of them. -/
def reelWrite (b : Nat) (gated lost1 lost2 miss : Bool) (s : State) (n : Nat) : State :=
  let x := laneObj s n
  let k := if miss then min 16 (reelCount b x) else reelCount b x
  let idxs : List Int := (List.range k).map (fun i => x.head + (i : Nat))
  let isLost (i : Int) : Bool :=
    (if i < x.head + 16 then lost1 else lost2) && !(x.bulk == 0 && decide (((16 * b : Nat) : Int) ≤ i))
  let blocks := (List.range ((k + 15) / 16)).map (fun i => x.head / 16 + (i : Nat))
  let sil := blocks.all (bulkSilent s n)
  let x0 := { x with quiet := if sil then x.quiet + k else 0 }
  if gated then
    modLaneObj n (fun _ => { x0 with head := x.head + k, subs := [], zeroBelow := x.head + k }) s
  else
    let pc := preCoefs s x.aliasHz
    let len := subLen s x.decorMax
    let (x1, clips) := idxs.foldl (fun (q : LaneObj × Nat) i =>
      let free := Config.freeNat (s.free + (i - x.head).toNat)
      let (v, y, c) := preFilter pc free q.1 (if isLost i then 0 else bulkSample s n i)
      let (z, d) := reelPush (rateCode s) len y (if isLost i ∨ i < x.zeroBelow then 0 else v)
      (z, q.2 + c + d)) (x0, 0)
    let bad := (idxs.filter isLost ++ x1.bad).filter (fun i => decide (x1.head - (len : Int) ≤ i))
    countN Reg.LAN_MEMERR_CNT.base (if idxs.any isLost then 1 else 0)
      (countN Reg.LAN_PRE_CLIP_CNT.base clips (modLaneObj n (fun _ => { x1 with bad := bad }) { s with free := s.free + k }))

/-! ### Reading a contribution (R203 to R206) -/

/-- The four Lagrange weights of the fraction u ÷ K in s1.22, for delays m − 1 to m + 2 (R203). -/
def readWeights (k u : Nat) : List Int :=
  let f : Int := u
  let one : Int := k
  let d := 6 * k * k * k
  let w (n : Int) : Int := satS 24 (roundDiv (n * 2 ^ 22) d)
  [w (-(f * (f - one) * (f - 2 * one))), w (3 * ((f + one) * (f - one) * (f - 2 * one))),
    w (-(3 * ((f + one) * f * (f - 2 * one)))), w ((f + one) * f * (f - one))]

/-- A read of a sub-reel at a whole-unit delay for sample `n`: the weighted sum with 45 fraction bits, whether the
guard moved it, and whether it took a lost sample (R200, R203, R206). -/
def readReel (kk len : Nat) (x : LaneObj) (variant : Nat) (n : Int) (d : Nat) : Int × Bool × Bool :=
  let m := d / kk
  let u := d % kk
  let h := x.head - 1
  let p0 := n - m
  let p := clampI (h - len + 3) (if m = 0 then h + 1 else h) p0
  let first := if m = 0 then p else p + 1
  let taps := [first, p, p - 1, p - 2].map (fun i => if i = h + 1 then h else i)
  let sub := nth [] x.subs variant
  let val (i : Int) : Int := if h < i then 0 else nth 0 sub (h - i).toNat
  ((taps.zip (readWeights kk u)).foldl (fun acc q => acc + val q.1 * q.2) 0, p != p0, taps.any (fun i => x.bad.contains i))

/-- The sub-reel an entry reads (R202). -/
def variantOf (decorMax decor : Nat) : Nat := if decor ≤ decorMax then decor else decor % (decorMax + 1)

/-- A delay in 2^-8 units rounded half up to whole units. -/
def wholeUnits (d : Int) : Nat := (roundShift d 8).toNat

/-- What sample `j` of a tick of `len` samples makes of an entry: its delay(s) and HOP weight (R205). -/
def delayAt (doppler : Nat) (slope : Int) (e : LiveEntry) (j tick : Nat) : Int :=
  match doppler with
  | 0 => e.dStart + roundDiv ((e.dEnd - e.dStart) * (j + 1)) tick
  | _ => e.dCur + clampI (-slope) slope (e.dEnd - e.dCur)

/-- One sample of an entry: the product in s8.31 before it is added, the entry, guard and lost marks (R204, R205). -/
def entrySample (s : State) (doppler : Nat) (x : LaneObj) (e : LiveEntry) (n : Nat) : Int × LiveEntry × Bool × Bool :=
  let tick := tickLen s
  let j := n % tick
  let kk := unitsPerSample s
  let len := subLen s x.decorMax
  let v := variantOf x.decorMax e.decor
  let g := e.gStart + roundDiv ((e.gEnd - e.gStart) * (j + 1)) tick
  if doppler < 2 then
    let slope : Int := (min 32 (actF s Reg.LAN_LIMIT_SLOPE.base 5 0) * kk : Nat)
    let d := delayAt doppler slope e j tick
    let (y, moved, lost) := readReel kk len x v n (wholeUnits d)
    (roundShift (g * y) 54, { e with dCur := d }, moved, lost)
  else if e.dStart = e.dEnd then
    let (y, moved, lost) := readReel kk len x v n (wholeUnits e.dStart)
    (roundShift (g * y) 54, { e with dCur := e.dEnd }, moved, lost)
  else
    let (y1, m1, l1) := readReel kk len x v n (wholeUnits e.dStart)
    let (y2, m2, l2) := readReel kk len x v n (wholeUnits e.dEnd)
    let w := roundDiv ((2 ^ 40 : Int) * (j + 1)) tick
    (roundShift (g * ((2 ^ 40 - w) * y1 + w * y2)) 94, { e with dCur := e.dEnd }, m1 || m2, l1 || l2)

/-- A lane's work on a block while it goes on: the partial's outputs, and what it counts. -/
structure LaneAcc where
  outs : Tab Blk
  sats : Nat
  guards : Nat

/-- A product added into an output's partial, which saturates at s8.31 (R204). -/
def addPartial (b out i : Nat) (v : Int) (acc : LaneAcc) : LaneAcc :=
  let x := tabGet (zeroBlk b) acc.outs out
  let sum := nth 0 x.smp i + v
  { acc with
    outs := tabSet out { x with smp := setNth x.smp i (satS 40 sum) } acc.outs
    sats := acc.sats + if satHit 40 sum then 1 else 0 }

/-- An entry's 16 samples added into the partials of its lane. -/
def entryBlock (s : State) (b doppler : Nat) (quiet : Bool) (marks : Blk) (x : LaneObj) (acc0 : LaneAcc)
    (e0 : LiveEntry) : LaneAcc × LiveEntry :=
  let (acc, e, moved, lost) := (List.range 16).foldl
    (fun (q : LaneAcc × LiveEntry × Bool × Bool) i =>
      let (v, e1, mv, ls) := entrySample s doppler x q.2.1 (16 * b + i)
      (addPartial b e0.out i v q.1, e1, q.2.2.1 || mv, q.2.2.2 || ls)) (acc0, e0, false, false)
  let fresh := (tabFind? e0.out acc0.outs).isNone
  let y := tabGet (zeroBlk b) acc.outs e0.out
  let y1 := combineFlags y [marks]
  let y2 := { y1 with silent := quiet && (fresh || y.silent), memerr := y1.memerr || lost }
  ({ acc with outs := tabSet e0.out y2 acc.outs, guards := acc.guards + if moved then 1 else 0 }, e)

/-- The flags an object's input brings to its contributions (R49): those of its block of the same index (R60); of SILENT
the lane knows by the bit beside the bulk ring. -/
def objMarks (s : State) (b n : Nat) : Blk := { objInput s n b with smp := [] }

/-- DOPPLER and EN as they are live in the lane's block (R46). -/
def laneDoppler (x : LaneObj) : Nat := min 2 (fld x.w4 5 4)
def laneEn (x : LaneObj) : Bool := bit x.w4 30

/-- One object's contributions in a block (R203 to R205). -/
def objBlock (b : Nat) (q : LaneAcc × State) (n : Nat) : LaneAcc × State :=
  let s := q.2
  let x := laneObj s n
  let quiet := !laneEn x || decide (reelWindow s ≤ x.quiet)
  let (acc, es) := x.entries.foldl (fun (a : LaneAcc × List LiveEntry) e =>
    let (a1, e1) := entryBlock s b (laneDoppler x) quiet (objMarks s b n) x a.1 e
    (a1, a.2 ++ [e1])) (q.1, [])
  (acc, modLaneObj n (fun y => { y with entries := es }) s)

/-- The reached values of an object's entries over a block of a gated lane (R207). -/
def objIdle (b : Nat) (s : State) (n : Nat) : State :=
  let dop := laneDoppler (laneObj s n)
  let slope : Int := (min 32 (actF s Reg.LAN_LIMIT_SLOPE.base 5 0) * unitsPerSample s : Nat)
  let go (e : LiveEntry) : LiveEntry := (List.range 16).foldl (fun y i =>
    { y with dCur := if dop < 2 then delayAt dop slope y ((16 * b + i) % tickLen s) (tickLen s) else y.dEnd }) e
  modLaneObj n (fun x => { x with entries := x.entries.map go }) s

/-- The lane that holds an object once the migrations that act before a tick have acted. -/
def laneAt (s : State) (obj tick : Nat) : Option Nat :=
  match minBy (fun m => 2 ^ 64 - m.tick) (s.lan.migs.filter (fun m => m.obj == obj && decide (m.tick < tick))) with
  | some m => some m.dest
  | none => (laneObj s obj).lane

/-- A lane is the source of an accepted migration, or its destination (R211). -/
def migInvolves (s : State) (p : Nat) (m : Migration) : Bool := laneAt s m.obj m.tick == some p || m.dest == p

/-- A lane may gate its clocks (R207). -/
def mayGate (s : State) (p : Nat) : Bool :=
  (laneObjs s p).all (fun n => !laneEn (laneObj s n) || decide (reelWindow s ≤ (laneObj s n).quiet)) &&
    !(s.lan.migs.any (migInvolves s p))

/-- A block brings a lane a sample that is not silent (R207). -/
def bringsSound (s : State) (p b : Nat) : Bool :=
  (laneObjs s p).any (fun n =>
    let x := laneObj s n
    laneEn x && (List.range (reelCount b x)).any (fun i => !bulkSilent s n ((x.head + (i : Nat)) / 16)))

/-- A gated lane wakes for the block it begins next (R207). -/
def laneWake (p : Nat) (s : State) : State :=
  if (laneSt s p).gated && (bringsSound s p (unitSt s uLAN).next || !mayGate s p) then
    modLane p (fun l => { l with gated := false }) s
  else s

/-- A lane whose objects are all silent gates (R207). -/
def laneGate (p : Nat) (s : State) : State :=
  if mayGate s p && !bringsSound s p (unitSt s uLAN).next then modLane p (fun l => { l with gated := true }) s
  else laneWake p s

/-- One lane's block (R32 stage 4): reels, contributions, partial; `lost` lists objects whose bulk read failed, `miss`
those whose extra fetch did not arrive. -/
def laneBlock (b : Nat) (lost miss : List Nat) (s0 : State) (p : Nat) : State :=
  let s1 := laneGate p s0
  let l := laneSt s1 p
  let objs := laneObjs s1 p
  let s2 := objs.foldl (fun t n => reelWrite b l.gated (lost.contains n) (lost.contains (n + 4096)) (miss.contains n) t n) s1
  if l.gated then objs.foldl (objIdle b) s2 else
    let (acc, s3) := objs.foldl (objBlock b) (⟨[], 0, 0⟩, s2)
    let marks := unitMarks s3 uLAN (zeroBlk b)
    let outs := acc.outs.map (fun q => (q.1, { q.2 with lateTag := q.2.lateTag || marks.lateTag, rebased := q.2.rebased || marks.rebased }))
    let pt : Partial := ⟨b, l.epoch, outs⟩
    let s4 := countN Reg.LAN_PART_SAT_CNT.base acc.sats s3
    let s5 := when (acc.guards != 0) (stick Reg.LAN_STAT.base 1) (countN Reg.LAN_GUARD_CNT.base acc.guards s4)
    { s5 with red := { s5.red with partials := tabMod [] p (fun q => q ++ [pt]) s5.red.partials } }

/-- LAN's block, its failed bulk reads reported (R526). -/
def lanBlock (b : Nat) (lost miss : List Nat) (s : State) : State :=
  (lanesIn s .active).foldl (laneBlock b lost miss) (lost.foldl (fun t _ => reportRtUe 0 t) s)

/-! ### Results going live (R196) -/

/-- Gain and delay an entry reached at the last sample of the tick before. -/
def reachedOf (e : LiveEntry) : Int × Int := (e.gEnd, e.dCur)

/-- An entry's start and target in a newly live result, from what its output has reached. -/
def entryLive (k bulk dlim : Nat) (reached : Tab (Int × Int)) (e : ListEntry) : LiveEntry :=
  let g := e.gain * 2 ^ 20
  let d : Int := ((bulk * k + min e.delay dlim) * 256 : Nat)
  match tabFind? e.out reached with
  | some (g0, d0) => if e.fadeOut then ⟨e.out, g0, 0, d0, d0, d0, e.decor, true⟩ else ⟨e.out, g0, g, d0, d, d0, e.decor, false⟩
  | none => if e.fadeOut then ⟨e.out, 0, 0, d, d, d, e.decor, true⟩ else ⟨e.out, 0, g, d, d, d, e.decor, false⟩

/-- A tick boundary without a new result: gains and delays go on from what was reached. -/
def entryHold (e : LiveEntry) : LiveEntry :=
  let (g, d) := reachedOf e
  { e with gStart := g, dStart := d, dCur := d }

/-- A newly live result in its lane (R196, R199, R201, R206), and the number of entries clamped: with decorrelators the
lane's limit is below the solver's, and an entry that the solver clamped is clamped again. -/
def objLive (s : State) (r : SolveRes) (x : LaneObj) : LaneObj × Nat :=
  let k := unitsPerSample s
  let dlim := (subLen s x.decorMax - 4) * k
  let es := r.entries.map (entryLive k r.bulk dlim x.reached)
  let gone := x.reached.filter (fun q => !(r.entries.any (fun y => y.out == q.1)))
  let fades := gone.map (fun q =>
    let dec := ((x.entries.find? (fun e => e.out == q.1)).map (·.decor)).getD 0
    (⟨q.1, q.2.1, 0, q.2.2, q.2.2, q.2.2, dec, true⟩ : LiveEntry))
  ({ x with
      entries := (es ++ fades).mergeSort (fun a c => decide (a.out ≤ c.out))
      bulk := r.bulk
      aliasHz := r.aliasHz
      shelfC := r.shelf
      pre := if r.preemph && !x.preOn then biqZero else x.pre
      preOn := r.preemph },
    max r.clamped (r.entries.filter (fun e => decide (dlim < e.delay))).length)

/-- A result goes live at a tick: the live windows show it, and a placed object takes it; an unplaced object's is
discarded (R193, R195, R196). -/
def resultLive (tick : Nat) (s : State) (r : SolveRes) : State :=
  let x := laneObj s r.obj
  if x.lane.isNone then s else
    let (y, clamps) := objLive s r x
    let s1 := writeWindow Reg.LLVL.base Reg.LLVH0.base r.obj tick r (modLaneObj r.obj (fun _ => y) s)
    when (clamps != 0) (stick Reg.LAN_STAT.base 0) (countN Reg.LAN_CLAMP_CNT.base clamps s1)

/-- What a COMMIT to LAN takes with it on arrival: the results written since the last one (R67, R70, R196). -/
def stageResults (block : Nat) (s : State) : State :=
  { s with
    lan := { s.lan with staged := s.lan.staged ++ s.slv.shadow.map (fun p => (block, p.2)) }
    slv := { s.slv with shadow := [] } }

/-- The block of the last COMMIT in LAN's queue. -/
def lastCommitBlock (s : State) : Nat :=
  ((unitSt s uLAN).pend.filter (fun p => p.tag.typ == tCOMMIT)).foldl (fun m p => max m p.block) 0

/-- A COMMIT reaches LAN (R67, R70, R196). -/
def arriveLanCommit (g : TagRec) (s : State) : State :=
  let s1 := arriveCommit uLAN g s
  stageResults (lastCommitBlock s1) s1

/-- A change of DECOR_MAX made live: sub-reels anew (R202). -/
def decorLive (b : Nat) (s : State) (n : Nat) : State :=
  let d := min 4 (actF s (Reg.LOBJ0.at n) 10 8)
  modLaneObj n (fun x => if x.decorMax = d then x else
    { x with decorMax := d, subs := [], zeroBelow := 16 * b, bad := [] }) s

/-- The effects of a COMMIT on LAN beyond its registers: results staged for this block go live. -/
def lanCommit (b : Nat) (s : State) : State :=
  let s1 := (s.lan.objs.map (·.1)).foldl (decorLive b) s
  let due := s1.lan.staged.filter (fun q => decide (q.1 ≤ b))
  let s2 := { s1 with lan := { s1.lan with staged := s1.lan.staged.filter (fun q => !decide (q.1 ≤ b)) } }
  due.foldl (fun t q => resultLive (b / tickBlocks s2) t q.2) s2

/-- The tick boundary in the lanes, before any result goes live: what each output has reached, entries that faded out
leave, the others hold (R196). -/
def lanHold (s : State) : State :=
  { s with lan := { s.lan with objs := s.lan.objs.map (fun q =>
    let kept := q.2.entries.filter (fun e => !e.fadeOut)
    (q.1, { q.2 with
      reached := kept.foldl (fun t e => tabSet e.out (reachedOf e) t) []
      entries := kept.map entryHold })) } }

/-- Words 4 of the object records that go live in the lanes at the block they begin (R46). -/
def lanRecords (s : State) : State :=
  let b := (unitSt s uLAN).next
  (s.lan.recs.filter (fun r => decide (r.1 ≤ b))).foldl (fun t r => modLaneObj r.2.1 (fun x => { x with w4 := r.2.2 }) t)
    { s with lan := { s.lan with recs := s.lan.recs.filter (fun r => !decide (r.1 ≤ b)) } }

/-! ### Migration (R211 to R214) -/

/-- The reason R211 rejects a migration of an object into a lane at a tick, if any. The source is the lane that holds
the object at that tick. -/
def migReason (s : State) (obj dest tick : Nat) : Option Nat :=
  match laneAt s obj tick with
  | none => some 1
  | some src =>
    let st := (laneSt s dest).state
    if (st ≠ .active ∧ st ≠ .spare) ∨ dest = src then some 2
    else
      let inn := (s.lan.migs.filter (fun m => m.dest == dest)).length
      let out := (s.lan.migs.filter (fun m => laneAt s m.obj m.tick == some dest && decide (m.tick ≤ tick))).length
      if objsPerLane s + out ≤ (laneObjs s dest).length + inn then some 3
      else if s.lan.migs.any (fun m => m.tick == tick && (migInvolves s src m || migInvolves s dest m)) then some 4
      else none

/-- A tag that a hand-over inserted (R216). -/
def handsOver (s : State) (g : TagRec) : Bool :=
  g.own && s.lan.sits.any (fun x => x.spare == fld g.payload 17 12)

/-- A rejected migration (R211); one that a hand-over inserted and that a busy lane turned away is reissued (R216). -/
def migReject (obj dest reason : Nat) (g : TagRec) (tick : Nat) (s : State) : State :=
  if reason = 4 ∧ handsOver s g then inject { g with target := tick + 1, late := false } s
  else
    raise 0x17 (bytesOf 2 obj ++ bytesOf 1 dest ++ bytesOf 1 reason)
      (stick Reg.LAN_STAT.base 2 (count Reg.LAN_MIG_REJECT_CNT.base s))

/-- A MIGRATE reaches LAN (R211 to R213): judged and counted, then rejected, or accepted with its slot reserved. -/
def arriveMigrate (g : TagRec) (s : State) : State :=
  let obj := fld g.payload 11 0
  let dest := fld g.payload 17 12
  let (late, block) := judge s (unitSt s uLAN).next g
  let tick := block / tickBlocks s
  let stale := isStale s (unitSt s uLAN).next g
  match migReason s obj dest tick with
  | some r =>
    if r = 4 ∧ handsOver s g then migReject obj dest r g tick s
    else migReject obj dest r g tick (countLate s uLAN late stale)
  | none =>
    let s1 := enqueueTag uLAN { g with late := late } block [] (countLate s uLAN late stale)
    { s1 with lan := { s1.lan with migs := s1.lan.migs ++ [⟨obj, dest, tick, false⟩] } }

/-- The first sample of T − 1: the copies of the migrations that name T begin (R212 step 2). -/
def migrationCopyStart (s : State) : State :=
  let t := tickOfBlock s (unitSt s uLAN).next
  { s with lan := { s.lan with migs := s.lan.migs.map (fun m => if m.tick ≤ t + 1 then { m with copying := true } else m) } }

/-- A lane's placement epoch one on (R210). -/
def bumpEpoch (p : Nat) (s : State) : State := modLane p (fun l => { l with epoch := (l.epoch + 1) % 16 }) s

/-- A spare that receives its first object becomes ACTIVE with the lowest free logical number (R212 step 4). -/
def activate (p : Nat) (s : State) : State :=
  if (laneSt s p).state = .spare then
    let k := freeLogical s
    modLane p (fun l => { l with state := .active, logical := some k }) s
  else s

/-! ### Sit-out and retirement (R215 to R217) -/

/-- The spare lanes that no hand-over uses, ascending. -/
def freeSpares (s : State) : List Nat :=
  (lanesIn s .spare).filter (fun p => !(s.lan.sits.any (fun x => x.spare == p && !x.testing)) &&
    !(s.lan.migs.any (fun m => m.dest == p)))

/-- Sit-outs at once (R218). -/
def sitConc (s : State) : Nat := clampN 1 4 (actF s Reg.LAN_ROTATE.base 3 1)

/-- Ticks between sit-outs: PERIOD × CONC ÷ A seconds (R215). -/
def sitPeriod (s : State) : Nat :=
  let p := actF s Reg.LAN_ROTATE.base 31 16
  (if p = 0 then 600 else p) * 1000 * sitConc s / activeLanes s

/-- The order of R215: never sat out first, then the sit-out that ended longest ago. -/
def sitOrder (s : State) (p : Nat) : Nat :=
  match (laneSt s p).lastSit with
  | none => 0
  | some t => t + 1

/-- A hand-over of a lane to a spare begins in tick T0 (R216 step 1, R217): the event, and the MIGRATE of the first object,
which names T0 + 2. -/
def handOver (lane spare : Nat) (retire : Bool) (s : State) : State :=
  let t := nowTick s
  let objs := laneObjs s lane
  let s1 := match objs with
    | n :: _ => inject (mkTag tMIGRATE uLAN 0xFF (n + spare * 4096) (t + 2)) s
    | [] => s
  raise 0x18 (bytesOf 1 lane ++ bytesOf 1 spare ++ [0]) { s1 with lan := { s1.lan with
    sits := s1.lan.sits ++ [⟨lane, spare, objs.drop 1, if objs = [] then t + 2 else t + 3, retire, false, 0⟩] } }

/-- The rotation starts a sit-out where one is due (R215, R216 step 1). -/
def sitOutStart (s : State) : State :=
  if !accepted s 14 || !actB s Reg.LAN_ROTATE.base 0 || decide (nowTick s < s.lan.lastStart + sitPeriod s) ||
      decide (sitConc s ≤ (s.lan.sits.filter (fun x => !x.retire)).length) then s
  else
    let s1 := { s with lan := { s.lan with lastStart := nowTick s } }
    let cands := (lanesIn s .active).filter (fun p => !(s.lan.sits.any (fun x => x.lane == p || (x.spare == p && !x.testing))))
    match minBy (sitOrder s) cands, freeSpares s with
    | some l, p :: _ => handOver l p false s1
    | some l, [] => raise 0x18 (bytesOf 1 l ++ [0xFF, 3]) (stick Reg.LAN_STAT.base 4 s1)
    | none, _ => s1

/-- A hand-over's entry replaced. -/
def putSit (x y : SitOut) (s : State) : State :=
  { s with lan := { s.lan with sits := s.lan.sits.map (fun z => if z = x then y else z) } }

/-- A lane that has given up its last object leaves ACTIVE, and the spare takes its logical number (R216 step 3). -/
def sitLeave (s : State) (x : SitOut) : State :=
  let k := tickOfBlock s (unitSt s uLAN).next
  if x.testing ∨ x.objs ≠ [] ∨ k + 1 < x.target ∨ laneObjs s x.lane ≠ [] ∨ s.lan.migs.any (migInvolves s x.lane) then s
  else
    let logical := (laneSt s x.lane).logical
    let s1 := modLane x.spare (fun l => { l with state := .active, logical := logical }) s
    let s2 := modLane x.lane (fun l => { l with state := if x.retire then .retired else .sittingOut, logical := none, gated := false }) s1
    if x.retire then { s2 with lan := { s2.lan with sits := s2.lan.sits.erase x } }
    else putSit x { x with testing := true, testTick := nowTick s } s2

/-- The hand-overs whose lane is empty. -/
def sitsLeave (s : State) : State := s.lan.sits.foldl sitLeave s

/-- A migration acts at its tick (R212 step 4, R214): the lane that holds the object gives it up, and RED learns of the
change of both epochs in the partial stream (R210). -/
def migrateAct (payload : Word) (s : State) : State :=
  let obj := fld payload 11 0
  let dest := fld payload 17 12
  match s.lan.migs.find? (fun m => m.obj == obj && m.dest == dest), (laneObj s obj).lane with
  | some m, some src =>
    let b := (unitSt s uLAN).next
    let s1 := activate dest s
    let slot := (freeSlot s1 dest).getD 0
    let s2 := bumpEpoch src (bumpEpoch dest (modLaneObj obj (fun x => { x with lane := some dest, slot := slot }) s1))
    count Reg.LAN_MIGRATE_CNT.base (sitsLeave { s2 with
      lan := { s2.lan with migs := s2.lan.migs.erase m }
      red := { s2.red with forwarded := s2.red.forwarded ++ [(src, b), (dest, b)] } })
  | _, _ => s

/-- One hand-over at a tick boundary: the next MIGRATE is inserted (R216 step 2). -/
def sitTick (s : State) (x : SitOut) : State :=
  match x.objs with
  | n :: rest =>
    if tickOfBlock s (unitSt s uLAN).next + 2 < x.target then s
    else inject (mkTag tMIGRATE uLAN 0xFF (n + x.spare * 4096) x.target) (putSit x { x with objs := rest, target := x.target + 1 } s)
  | [] => s

/-- The hand-overs at a tick boundary. -/
def sitsTick (s : State) : State := sitsLeave (s.lan.sits.foldl sitTick s)

/-- LAN's work at a tick boundary, before the tags of its first block act. -/
def lanTick (s : State) : State := sitsTick (migrationCopyStart (lanHold (lanRecords s)))

/-- A sitting-out lane's self-test may end: 2 s have passed (R216 step 4). -/
def sitDone (s : State) (p : Nat) : Option SitOut :=
  s.lan.sits.find? (fun x => x.lane == p && x.testing && decide (x.testTick + 2000 ≤ nowTick s))

/-- A sit-out ends passed: the lane becomes a spare (R216 step 5). -/
def sitPassed (x : SitOut) (s : State) : State :=
  raise 0x18 (bytesOf 1 x.lane ++ bytesOf 1 x.spare ++ [1]) (count Reg.LAN_SITOUT_CNT.base
    (modLane x.lane (fun l => { l with state := .spare, lastSit := some (nowTick s) })
      { s with lan := { s.lan with sits := s.lan.sits.erase x } }))

/-- A sit-out ends failed: the lane is retired (R216 step 5). -/
def sitFailed (x : SitOut) (s : State) : State :=
  raise 0x18 (bytesOf 1 x.lane ++ bytesOf 1 x.spare ++ [2]) (stick Reg.LAN_STAT.base 3
    (modLane x.lane (fun l => { l with state := .retired })
      { s with lan := { s.lan with sits := s.lan.sits.erase x } }))

/-- A lane retired by the health unit (R217): whether it is retired, or begins to be. -/
def laneRetire (p : Nat) (s : State) : Bool × State :=
  match (laneSt s p).state with
  | .active =>
    match freeSpares s with
    | q :: _ => (true, handOver p q true s)
    | [] => (false, s)
  | .spare => (true, modLane p (fun l => { l with state := .retired }) s)
  | .sittingOut =>
    (true, modLane p (fun l => { l with state := .retired })
      { s with lan := { s.lan with sits := s.lan.sits.filter (fun x => x.lane != p) } })
  | _ => (false, s)

/-! ### What reads show (R194, R218, R219) -/

/-- LAN_STATEp (R219). -/
def laneWord (s : State) (p : Nat) : Nat :=
  let l := laneSt s p
  let st := match l.state with
    | .absent => 0 | .active => 1 | .spare => 2 | .sittingOut => 3 | .retired => 4
  if st = 0 then 0 else
    l.epoch * 2 ^ 28 + (l.logical.getD 0x3F) * 2 ^ 16 + (laneObjs s p).length * 2 ^ 8 +
      (if s.lan.migs.any (fun m => m.copying && migInvolves s p m) then 32 else 0) +
      (if l.gated then 16 else 0) + st

/-- Word 1 of an object's lane record (R194). -/
def laneObjWord (s : State) (n : Nat) : Nat :=
  match tabFind? n s.lan.objs with
  | none => 0x3F
  | some x =>
    let mig := if s.lan.migs.any (fun m => m.obj == n) then 2 ^ 16 else 0
    match x.lane with
    | none => 2 ^ 17 + 0x3F + mig
    | some p => mig + x.slot * 2 ^ 8 + p

/-- LAN_COUNT (R218); before the lanes are assigned, its reset value for the grade. -/
def laneCount (s : State) : Nat :=
  if s.lan.lanes = [] then activeLanes s + (presentLanes s - activeLanes s) * 2 ^ 8
  else (lanesIn s .active).length + (lanesIn s .spare).length * 2 ^ 8

end Sys2Proof.Machine
end

