-- ==== Sys2Proof/Machine/Red.lean ====
section
/-! DEFINITION. The reduction ring (R208 to R210, R221). -/

namespace Sys2Proof.Machine

open Sys2Proof

/-- How many lanes are required for a block: those ACTIVE at it and not gated, each of which has sent a partial (R208). -/
def requiredLanes (s : State) (b : Nat) : Nat := (s.red.partials.filter (fun q => q.2.any (fun x => x.idx == b))).length

/-- Every lane has begun a block past `b`: the partials of the required lanes have arrived (R60, R208). -/
def partialsIn (s : State) (b : Nat) : Bool := decide (b < (unitSt s uLAN).next)

/-- The placement epoch that applies to a lane at a block (R210). -/
def epochAt (s : State) (p b : Nat) : Nat :=
  (tabGet 0 s.red.epochs p + (s.red.forwarded.filter (fun f => f.1 == p && decide (f.2 ≤ b))).length) % 16

/-- Forwarded migrations up to a block taken into the epochs. -/
def foldEpochs (b : Nat) (s : State) : State :=
  let due := s.red.forwarded.filter (fun f => decide (f.2 ≤ b))
  { s with red := { s.red with
    epochs := due.foldl (fun t f => tabMod 0 f.1 (fun e => (e + 1) % 16) t) s.red.epochs
    forwarded := s.red.forwarded.filter (fun f => !decide (f.2 ≤ b)) } }

/-- The partials of block `b` that carry the epoch that applies, and how many do not (R210). -/
def acceptedPartials (s : State) (b : Nat) : List Partial × Nat :=
  let all := s.red.partials.filterMap (fun q => (q.2.find? (fun x => x.idx == b)).map (fun x => (q.1, x)))
  let ok := all.filter (fun q => q.2.epoch == epochAt s q.1 b)
  (ok.map (·.2), all.length - ok.length)

/-- The sum of an output over the accepted partials, saturated at release, and how many sums saturated (R208). -/
def sumBlk (b : Nat) (parts : List Partial) (rejected : Bool) (out : Nat) : Blk × Nat :=
  let ins := parts.filterMap (fun p => tabFind? out p.outs)
  let sums := (List.range 16).map (fun i => ins.foldl (fun m x => m + nth 0 x.smp i) 0)
  let x := combineFlags { zeroBlk b with smp := sums.map (satS 40) } ins
  ({ x with concealed := x.concealed || rejected }, (sums.filter (satHit 40)).length)

/-- A parity error in a flit (R209): the sample and the ten outputs from FIRST on. -/
def spoil (errs : List (Nat × Nat)) (out : Nat) (x : Blk) : Blk :=
  let hit := errs.filter (fun e => e.1 / 10 == out / 10)
  if hit = [] then x else
    { x with concealed := true, silent := false, smp := x.smp.mapIdx (fun i v => if hit.any (fun e => e.2 == i) then 0 else v) }

/-- One parity error counted (R209). -/
def parityReport (b : Nat) (s : State) : State :=
  raise 0x19 (bytesOf 6 (extBlk s b)) (stick Reg.RED_STAT.base 1 (count Reg.RED_PARITY_CNT.base
    { s with red := { s.red with
      parity := monoNs s :: s.red.parity.filter (fun t => decide (monoNs s ≤ t + 1000000000)) } }))

/-- The outputs that a list of partials or of errors names. -/
def sumOutputs (parts : List Partial) (errs : List (Nat × Nat)) (limit : Nat) : List Nat :=
  let named := parts.flatMap (fun p => p.outs.map (·.1))
  let spoiled := errs.flatMap (fun e => (List.range 10).map (fun k => e.1 / 10 * 10 + k))
  ((named ++ spoiled).filter (· < limit)).eraseDups

/-- RED releases block `b` (R60, R208 to R210): `errs` are flits whose parity failed, by first output and sample. -/
def redRelease (b : Nat) (errs : List (Nat × Nat)) (s : State) : State :=
  let (parts, bad) := acceptedPartials s b
  let marks := unitMarks s uRED (zeroBlk b)
  let outs := if bad ≠ 0 ∨ marks.lateTag ∨ marks.rebased then List.range (objCount s) else sumOutputs parts errs (objCount s)
  let s1 := outs.foldl (fun t o =>
    let (x, n) := sumBlk b parts (bad != 0) o
    let y := spoil errs o { x with lateTag := x.lateTag || marks.lateTag, rebased := x.rebased || marks.rebased }
    when (n != 0) (stick Reg.RED_STAT.base 0) (countN Reg.RED_SAT_CNT.base n (putBlk .sum o y t))) s
  let s2 := when (bad != 0) (stick Reg.RED_STAT.base 2) (countN Reg.RED_MIG_DISCARD_CNT.base bad s1)
  let s3 := errs.foldl (fun t _ => parityReport b t) s2
  let s4 := setN Reg.RED_REQUIRED.base (requiredLanes s b) s3
  let s5 := setN Reg.RED_LAST_LO.base (extBlk s b % 2 ^ 32) s4
  foldEpochs b { s5 with red := { s5.red with
    last := extBlk s b
    partials := s5.red.partials.map (fun q => (q.1, q.2.filter (fun x => decide (b < x.idx)))) } }

/-- Reading RED_LAST_LO latches the upper half of the last released index into RED_LAST_HI (R221). -/
def redLastRead (s : State) : State := setN Reg.RED_LAST_HI.base (s.red.last / 2 ^ 32) s

end Sys2Proof.Machine
end

