-- ==== Sys2Proof/Machine/Cor.lean ====
section
/-! DEFINITION. The correction engine (R222 to R254). -/

namespace Sys2Proof.Machine

open Sys2Proof

/-! ### Outputs, lengths and the pool -/

/-- No filter (R238). -/
def filtNone : Filt := ⟨none, false, 0, 0, 0, [], true⟩

/-- An output left with FIR_EN 0 by a restore, its LIVE_SET shown (R564). -/
def filtVoid (t : Nat) : Filt := ⟨some t, false, 0, 0, 0, [], true⟩

/-- An output's chain at rest. -/
def corOutZero : CorOut :=
  ⟨rampAt (2 ^ 40), [], 0, false, none, [], [], [(filtNone, 0)], none, [], [], 2 ^ 31, .active, 0, rampAt (2 ^ 40)⟩

/-- An output's chain. -/
def corOut (s : State) (o : Nat) : CorOut := tabGet corOutZero s.cor.outs o

/-- An output's chain changed. -/
def modOut (o : Nat) (f : CorOut → CorOut) (s : State) : State :=
  { s with cor := { s.cor with outs := tabMod corOutZero o f s.cor.outs } }

/-- L of a filter (R229). -/
def filtLen (f : Filt) : Nat := if f.firEn then 512 + 256 * f.nNear + 1024 * f.nF1 + 4096 * f.nF4 else 0

/-- The live filter of an output. -/
def liveFilt (x : CorOut) : Filt := ((x.filts.head?).map (·.1)).getD filtNone

/-- Outputs per slice and per batch (R222). -/
def sliceOutputs (s : State) : Nat := 256 / 2 ^ rateCode s

/-- The logical slice of an output (R222). -/
def sliceOf (s : State) (o : Nat) : Nat := o / sliceOutputs s

/-- Pool eighths of the speed code (R518). -/
def poolEighths (s : State) : Nat :=
  match fld (regW s Reg.DRC_INFO.base) 10 8 with
  | 0 => 8 | 1 => 6 | 2 => 5 | _ => 4

/-- The tap pool of the rate, grade and DRAM speed (R233, R519). -/
def tapPool (s : State) : Nat := min (gradePool s) (8192 * (2048 / 2 ^ rateCode s) * poolEighths s / 8)

/-- An output's charge (R233). -/
def chargeOf (s : State) (o : Nat) : Nat :=
  let x := corOut s o
  let held := x.charges.foldl (fun m c => max m c.1) (filtLen (liveFilt x))
  s.cor.swaps.foldl (fun m w => max m (tabGet 0 w.news o)) held

/-! ### Filter sets (R234 to R236) -/

/-- The base of a filter set. -/
def setBase (s : State) (t : Nat) : Nat :=
  fld (regW s (Reg.COR_SET_BASE_LO.at t)) 31 6 * 64 + 2 ^ 32 * fld (regW s (Reg.COR_SET_BASE_HI.at t)) 7 0

/-- A descriptor's fields (R235). -/
structure FiltDesc where
  firEn : Bool
  nNear : Nat
  nF1 : Nat
  nF4 : Nat
  addr : Nat
  exps : List Nat

/-- The descriptor of an output in a set; FIR_EN 0 at or above OUTPUTS (R234). -/
def filtDesc (s : State) (t o : Nat) : FiltDesc :=
  let b := setBase s t
  if rdN s 2 (b + 2) ≤ o then ⟨false, 0, 0, 0, 0, []⟩ else
    let d := b + 64 + 64 * o
    let len := rdN s 2 d
    ⟨len / 1024 % 2 = 1, len % 8, len / 8 % 8, len / 64 % 16, rdN s 8 (d + 8),
      (readBytes s (d + 16) 27).map (fun x => x.toNat % 64)⟩

/-- Bytes of a coefficient block (R236). -/
def coefBytes (d : FiltDesc) : Nat := 1536 + 1536 * d.nNear + 6144 * d.nF1 + 24576 * d.nF4

/-- A descriptor keeps the limits and fill order of R229 and its block lies in DRAM (R240 reason 2). -/
def descOk (s : State) (d : FiltDesc) : Bool :=
  !d.firEn || (decide (d.nNear ≤ 6) && decide (d.nF1 ≤ 6) && decide (d.nF4 ≤ 14) &&
    (d.nF1 == 0 || d.nNear == 6) && (d.nF4 == 0 || d.nF1 == 6) && d.addr % 8 == 0 && inDram s d.addr (coefBytes d))

/-- L of a descriptor. -/
def descLen (d : FiltDesc) : Nat := if d.firEn then 512 + 256 * d.nNear + 1024 * d.nF1 + 4096 * d.nF4 else 0

/-- A stored mantissa as a real value in units of 2^-64: m × 2^(E − 32), m as s0.23 (R236). -/
def mantissa (s : State) (a e : Nat) : Int := signed 24 (rdN s 3 a) * 2 ^ (e + 9)

/-- A partition's spectrum of P + 1 bins (R236). -/
def spectrum (s : State) (a p e : Nat) : List (Int × Int) :=
  (List.range (p + 1)).map (fun j =>
    if j = 0 then (mantissa s a e, 0) else if j = p then (mantissa s (a + 3) e, 0)
    else (mantissa s (a + 6 * j) e, mantissa s (a + 6 * j + 3) e))

/-- The P taps whose transform of 2P points the spectrum is (R236): the inverse transform. -/
def partTaps (sp : List (Int × Int)) (p : Nat) : List Int :=
  (List.range p).map (fun i =>
    let mid := (sp.zipIdx).foldl (fun acc q =>
      let w := fxPi * ((q.2 * i % (2 * p) : Nat) : Int) / (p : Nat)
      let term := fxMul q.1.1 (fxCos w) - fxMul q.1.2 (fxSin w)
      acc + if q.2 = 0 ∨ q.2 = p then term else 2 * term) 0
    roundDiv mid (2 * p))

/-- The partitions of a length: tap offset, size (R229). -/
def partitions (nNear nF1 nF4 : Nat) : List (Nat × Nat) :=
  (List.range nNear).map (fun i => (512 + 256 * i, 256)) ++
    (List.range nF1).map (fun i => (2048 + 1024 * i, 1024)) ++
    (List.range nF4).map (fun i => (8192 + 4096 * i, 4096))

/-- The taps of a coefficient block (R236). -/
def loadTaps (s : State) (d : FiltDesc) : List Int :=
  let head := (List.range 512).map (fun i => mantissa s (d.addr + 3 * i) (nth 0 d.exps 0))
  let parts := partitions d.nNear d.nF1 d.nF4
  let (_, taps) := (parts.zipIdx).foldl (fun (q : Nat × List Int) p =>
    (q.1 + 6 * p.1.2, q.2 ++ partTaps (spectrum s q.1 p.1.2 (nth 0 d.exps (p.2 + 1))) p.1.2)) (d.addr + 1536, head)
  taps

/-- The filter of an output in a set. -/
def loadFilt (s : State) (t o : Nat) : Filt :=
  let d := filtDesc s t o
  if d.firEn then ⟨some t, true, d.nNear, d.nF1, d.nF4, loadTaps s d, false⟩
  else ⟨some t, false, 0, 0, 0, [], false⟩

/-- An uncorrectable word in what an output's load reads, head and near tail (R242); far tails are fetched as they are
used (R232). -/
def loadBad (s : State) (t o : Nat) : List Nat :=
  let d := filtDesc s t o
  if d.firEn then ueIn s d.addr (1536 + 1536 * d.nNear) else []

/-! ### The convolution (R229 to R232, R243, R244) -/

/-- The sample counted at which the input hop of sample `m` ends, for partitions of size `p` of slice `sl`: boundaries
lie where the sample index is a multiple of `p` past the slice's offset (R231). -/
def hopEnd (s : State) (p sl m : Nat) : Nat :=
  let ofs := if p = 256 then 0 else 512 * sl % p
  m + p - (extSmp s m + p - ofs) % p

/-- The filter whose coefficients a far tail uses for an input hop that ended at `e` (R244). -/
def tailFilt (e : Nat) : List (Filt × Nat) → Filt
  | [] => filtNone
  | (f, b) :: t => if b < e then f else tailFilt e t

/-- Partition number and size of a far tap: 1 to 6 near, then short, then long. -/
def farPart (k : Nat) : Nat × Nat := if k < 8192 then (7 + (k - 2048) / 1024, 1024) else (13 + (k - 8192) / 4096, 4096)

/-- Tap `k` of a filter; zero where it has no such partition. -/
def tapOf (f : Filt) (k : Nat) : Int := if f.firEn then nth 0 f.taps k else 0

/-- The head and near tail of a filter at sample `n`, in units of 2^-87; `back` are the inputs from `n` back. -/
def nearSum (f : Filt) (back : List Int) : Int :=
  if f.firEn then ((f.taps.take 2048).zip back).foldl (fun m q => m + q.1 * q.2) 0 else 0

/-- The far tail at sample `n`, in units of 2^-87 (R244); partitions in `holes` contribute zero (R232). -/
def farSum (s : State) (sl n : Nat) (filts : List (Filt × Nat)) (holes : List Nat) (back : List Int) : Int :=
  let len := filts.foldl (fun m f => max m f.1.taps.length) 0
  ((back.take (min len (n + 1))).drop 2048).zipIdx.foldl (fun (acc : Int) (q : Int × Nat) =>
    let k := 2048 + q.2
    let (part, p) := farPart k
    if q.1 = 0 ∨ holes.contains part then acc else acc + tapOf (tailFilt (hopEnd s p sl (n - k)) filts) k * q.1) (0 : Int)

/-- Σ|h[k]| of a filter, in units of 2^-64. -/
def tapAbs (f : Filt) : Nat := f.taps.foldl (fun m h => m + h.natAbs) 0

/-- The holes that cover a sample. -/
def holesAt (x : CorOut) (n : Nat) : List TailHole := x.holes.filter (fun h => decide (h.first ≤ n) && decide (n < h.first + h.len))

/-- The sample from which no old input reaches an output through a filter's far tail, where the new filter took over at
sample `b`: the last old hop has left the longest partition (R244). -/
def oldReach (s : State) (sl b : Nat) (f : Filt) : Nat :=
  let last (p len : Nat) : Nat := hopEnd s p sl b - p + len - 1
  if !f.firEn || f.nF1 == 0 then 0
  else max (last 1024 (2048 + 1024 * f.nF1)) (if f.nF4 = 0 then 0 else last 4096 (8192 + 4096 * f.nF4))

/-- The filters an output still reads at a sample: the live one, the one a crossfade leaves, and those whose far tails old
input still uses (R237, R243, R244). -/
def filtsRead (s : State) (sl n : Nat) (x : CorOut) : List Filt :=
  let old := (x.filts.zip x.filts.tail).zipIdx.filter (fun q =>
    (q.2 == 0 && x.xfade.isSome) || decide (n < oldReach s sl q.1.1.2 q.1.2.1))
  liveFilt x :: old.map (fun q => q.1.2.1)

/-- An output is in transition at a sample: its far tail still reads old coefficients (R244). -/
def inTransition (s : State) (sl n : Nat) (x : CorOut) : Bool :=
  (x.filts.zip x.filts.tail).any (fun q => decide (n < oldReach s sl q.1.2 q.2.1))

/-- The convolution at sample `n` (R229, R230, R243): exact, rounded to s7.32, within the tolerance of R230 that the
filters read at the sample allow; `key` numbers the free deviation. -/
def convSample (s : State) (sl n key : Nat) (x : CorOut) (back : List Int) : Int :=
  let f := liveFilt x
  let holes := (holesAt x n).map (·.part)
  let old := ((x.filts.tail.head?).map (·.1)).getD filtNone
  let reads := filtsRead s sl n x
  if reads.all (fun g => !g.firEn) then wide (nth 0 back 0) else
    let pass (g : Filt) : Int := if g.firEn then nearSum g back else nth 0 back 0 * 2 ^ 64
    let far := farSum s sl n x.filts holes back
    let exact := match x.xfade with
      | none => (pass f + far) * 2 ^ 40
      | some (b, len) =>
        let w := roundDiv ((2 ^ 40 : Int) * ((n - b : Nat) + 1)) len
        far * 2 ^ 40 + (2 ^ 40 - w) * pass old + w * pass f
    let most := reads.foldl (fun m g => max m (tapAbs g)) 0
    let bound : Int := (((2 ^ 64 + most) * 2 ^ 11) / 2 ^ 64 : Nat)
    satS 40 (roundShift exact 95 + clampI (-bound) bound (Config.deviation key))

/-! ### Limiter (R246) -/

/-- θ in units of 2^-64. -/
def theta (thresh : Int) : Int := fxDb (clampI (-12288) 0 thresh * 2 ^ 56)

/-- 1 − e^(−1/x) for x = num / den, in units of 2^-64; 1 for x = 0. -/
def expCoef (num den : Nat) : Int :=
  if num = 0 then fxOne else fxOne - fxExp2 (-(fxDiv (fxRat den num) fxLn2))

/-- The coefficients α and ρ of an output's words (R246). -/
def limCoefs (s : State) (o : Nat) : Int × Int :=
  let rel := max 1 (actF s (Reg.COUT4.at o) 11 0)
  (expCoef (actF s (Reg.COUT3.at o) 23 16) 1, expCoef (rel * rateHz s) 1000)

/-- One sample through the limiter: the output in units of 2^-64, the gain held as u1.31, whether ±θ altered it (R246). -/
def limStep (th al rho : Int) (g : Nat) (x : Int) : Int × Nat × Bool :=
  let mag : Int := x.natAbs * 2 ^ 32
  let t : Int := if mag ≤ th then fxOne else fxDiv th mag
  let g0 : Int := g * 2 ^ 33
  let g1 := (clampI 0 (2 ^ 31) (fxNarrow 31 (g0 + fxMul (t - g0) (if t < g0 then al else rho)))).toNat
  let y := x * g1 * 2
  let y1 := clampI (-th) th y
  (y1, g1, y1 != y)

/-- −20 log₁₀ of a u1.31 gain in u8.8 dB. -/
def gainDb (g : Nat) : Nat :=
  if g = 0 then 0xFFFF else
    (clampI 0 0xFFFF (roundDiv (fxDiv (-20 * (fxLog2 ((g : Int) * 2 ^ 33))) fxLog2Ten * 256) (2 ^ 64))).toNat

/-! ### The chain (R224 to R228, R246 to R248) -/

/-- A history with a block's samples in front, held to a length; all-zero history is not listed. -/
def pushHist (len : Nat) (smp hist : List Int) : List Int :=
  if hist = [] ∧ smp.all (· == 0) then [] else (smp.reverse ++ hist).take len

/-- Trim and polarity (R225): samples of s0.23, saturations. -/
def trimBlock (pol : Bool) (r : Ramp) (sums : List Int) : List Int × Nat :=
  let prods := (sums.zip (rampGains r)).map (fun q => roundShift (q.1 * q.2) 48)
  let a := prods.map (satS 24)
  let b := if pol then a.map (fun v => satS 24 (-v)) else a
  (b, (prods.filter (satHit 24)).length + if pol then (a.filter (fun v => v == -8388608)).length else 0)

/-- A read at a delay, for sample `i` of the block whose samples head the history. -/
def readDelay (hist : List Int) (d i : Nat) : Int := nth 0 hist (15 - i + d)

/-- FINE + ALIGN of an output's acting words (R226). -/
def delayOf (s : State) (o : Nat) : Nat :=
  fld (actW s (Reg.COUT1.at o)) 7 0 + min (rateHz s) (fld (actW s (Reg.COUT2.at o)) 17 0)

/-- An output's delay takes the DRAM round trip (R226). -/
def alignDram (s : State) (o : Nat) : Bool := fld (actW s (Reg.COUT2.at o)) 17 0 != 0

/-- Samples an output's alignment ring and its fine delay hold: 1.024 s (R40), 255 samples, and the block. -/
def histLen (s : State) : Nat := 49152 * 2 ^ rateCode s + 271

/-- The delay step (R226, R227): `lost1` where the read, or the old read of a crossfade, failed, `lost2` where its second
read failed, `miss` where the second read did not arrive. -/
def delayBlock (lost1 lost2 miss : Bool) (x : CorOut) : List Int × CorOut :=
  match x.fade with
  | none => ((List.range 16).map (fun i => if lost1 && x.dram then 0 else readDelay x.hist x.delay i), x)
  | some f =>
    let out := (List.range 16).map (fun i =>
      let old := f.old.foldl (fun m q => m + if lost1 && q.2.2 then 0 else q.2.1 * readDelay x.hist q.1 i) 0
      if miss && x.dram then satS 24 (roundShift old 40)
      else
        let fresh := if lost2 && x.dram then 0 else readDelay x.hist x.delay i
        let w := if f.n ≤ f.k + i then 2 ^ 40 else roundDiv ((2 ^ 40 : Int) * (f.k + i + 1 : Nat)) f.n
        satS 24 (roundShift ((2 ^ 40 - w) * old + w * fresh * 2 ^ 40) 80))
    (out, { x with fade := if f.n ≤ f.k + 16 then none else some { f with k := f.k + 16 } })

/-- A read of DRAM that failed in a block of an output: the read, or the old read of a crossfade; the second read. -/
def alignFails (x : CorOut) (lost1 lost2 : Bool) : Bool :=
  match x.fade with
  | none => lost1 && x.dram
  | some f => (lost1 && f.old.any (·.2.2)) || (lost2 && x.dram)

/-- Section `q` of an output. -/
def bqCoefs (s : State) (o q : Nat) : Coefs :=
  let w (i : Nat) : Int := signed 32 (actW s (0x40B00000 + o * 512 + q * 32 + 4 * i)).toNat
  ⟨w 0, w 1, w 2, w 3, w 4⟩

/-- Sections in use (R250). -/
def bqCount (s : State) (o : Nat) : Nat := min 16 (fld (actW s (Reg.COUT1.at o)) 24 20)

/-- The biquads (R228): samples of s0.23, sections, saturations. -/
def bqBlock (s : State) (o : Nat) (x : CorOut) (smp : List Int) : List Int × CorOut × Nat :=
  let n := bqCount s o
  if n = 0 then (smp, { x with bqs := [] }, 0) else
    let (ys, qs) := (List.range n).foldl (fun (a : List Int × List BiqSt) q =>
      let (y, st) := biqRun (bqCoefs s o q) (nth biqZero x.bqs q) a.1
      (y, a.2 ++ [st])) (smp.map wide, [])
    let vals := ys.map (fun v => roundShift v 9)
    (vals.map (satS 24), { x with bqs := qs }, (vals.filter (satHit 24)).length)

/-- The convolution over a block (R229). -/
def convBlock (s : State) (sl b : Nat) (smp : List Int) (x : CorOut) : List Int × CorOut :=
  let hist := pushHist 65552 smp x.conv
  let ys := (List.range 16).map (fun i => convSample s sl (16 * b + i) (s.free + i) x (hist.drop (15 - i)))
  (ys, { x with conv := hist })

/-- The limiter over a block (R246): s0.23 samples, gain, largest reduction, samples clamped. -/
def limBlock (th al rho : Int) (g0 : Nat) (smp : List Int) : List Int × Nat × Nat × Nat :=
  smp.foldl (fun (a : List Int × Nat × Nat × Nat) x =>
    let (y, g, hit) := limStep th al rho a.2.1 x
    (a.1 ++ [satS 24 (roundShift y 41)], g, min a.2.2.1 g, a.2.2.2 + if hit then 1 else 0)) ([], g0, 2 ^ 31, 0)

/-- One output's block (R224). -/
def outBlock (b : Nat) (alignLost readMiss : List Nat) (s : State) (o : Nat) : State :=
  let src := (blkAt s .sum o b).getD (silentBlk b)
  let x := corOut s o
  let w1 := actW s (Reg.COUT1.at o)
  let (t, c1) := trimBlock (bit w1 29) x.trim src.smp
  let x1 := { x with trim := rampSkip x.trim, hist := pushHist (histLen s) t x.hist }
  let lost1 := alignLost.contains o
  let lost2 := alignLost.contains (o + 4096)
  let lost := alignFails x lost1 lost2
  let miss := readMiss.contains o && x.fade.isSome && x.dram
  let (d, x2) := delayBlock lost1 lost2 miss x1
  let (e, x3, c2) := bqBlock s o x2 d
  let (y, x4) := convBlock s (sliceOf s o) b e x3
  let th := theta (sfld (actW s (Reg.COUT3.at o)) 15 0)
  let (al, rho) := limCoefs s o
  let (z, g, low, c4) := if bit w1 28 then limBlock th al rho x.lim y else (y.map narrow23, x.lim, 2 ^ 31, 0)
  let c3 := if bit w1 28 then 0 else (y.filter (fun v => satHit 24 (roundShift v 9))).length
  let peak := z.foldl (fun m v => max m v.natAbs) (fld (regW s (Reg.COST2.at o)) 23 0)
  let hold := actF s (Reg.COUT5.at o) 15 0 * tickLen s
  let (wall, quiet, q, sil) := silenceRun (actF s (Reg.COUT4.at o) 23 16) hold x.wall x.quiet z
  let out := (q.zip (rampGains x.mute)).map (fun p => satS 24 (roundShift (p.1 * p.2) 40))
  let muted := rampDead x.mute
  let holes := (List.range 16).flatMap (fun i => holesAt x (16 * b + i))
  let blk := unitMarks s uCOR { src with
    smp := out
    silent := sil || (muted && bit w1 30)
    memerr := src.memerr || lost || holes.any (·.memerr)
    concealed := src.concealed || holes.any (fun h => !h.memerr) }
  let x5 := { x4 with
    lim := g, wall := wall, quiet := quiet, mute := rampSkip x.mute
    holes := x.holes.filter (fun h => decide (16 * b + 16 < h.first + h.len)) }
  let s1 := modOut o (fun _ => x5) { s with free := s.free + 16 }
  let s2 := countN Reg.COR_TRIM_CLIP_CNT.base c1 (countN Reg.COR_EQ_CLIP_CNT.base c2
    (countN Reg.COR_OUT_CLIP_CNT.base c3 (countN Reg.COR_LIM_CLAMP_CNT.base c4 s1)))
  let s3 := when (c1 + c2 + c3 != 0) (stick Reg.COR_STAT.base 0) s2
  let s4 := when lost (count Reg.COR_MEMERR_CNT.base) (when miss (count Reg.COR_XREAD_MISS_CNT.base) s3)
  let s5 := setF (Reg.COST2.at o) 23 0 (min peak (2 ^ 24 - 1)) s4
  putBlk .out o blk (setF (Reg.COST3.at o) 15 0 (max (gainDb low) (fld (regW s (Reg.COST3.at o)) 15 0)) s5)

/-- A far-tail fetch that failed (R232): output, partition, by an uncorrectable error. -/
def tailFail (b : Nat) (s : State) (f : Nat × Nat × Bool) : State :=
  let (o, part, ue) := f
  let p := if part < 13 then 1024 else 4096
  let s1 := modOut o (fun x => { x with holes := x.holes ++ [⟨part, hopEnd s p (sliceOf s o) (16 * b), p, ue⟩] }) s
  if ue then count Reg.COR_MEMERR_CNT.base (reportRtUe 2 s1)
  else raise 0x1A (bytesOf 2 o ++ bytesOf 1 part) (stick Reg.COR_STAT.base 1 (count Reg.COR_TAIL_LATE_CNT.base s1))

/-- COR's block: every output of the rate (R222), its failed reads reported (R526). -/
def corBlock (b : Nat) (alignLost readMiss : List Nat) (fails : List (Nat × Nat × Bool)) (s : State) : State :=
  (List.range (objCount s)).foldl (outBlock b alignLost readMiss)
    (alignLost.foldl (fun t _ => reportRtUe 1 t) (fails.foldl (tailFail b) s))

/-- An output enters the wallflower state once it has been quiet for its hold (R247). -/
def outWallEnter (o : Nat) (s : State) : State :=
  let hold := actF s (Reg.COUT5.at o) 15 0 * tickLen s
  let x := corOut s o
  if hold ≠ 0 ∧ hold ≤ x.quiet ∧ x.wall = .active then modOut o (fun y => { y with wall := .ramping 0 }) s else s

/-! ### What a COMMIT and a RAMP change (R225, R227, R228, R248) -/

/-- TRIM as a gain of 40 fraction bits. -/
def outTrim (w : Word) : Int := signed 32 w.toNat * 2 ^ 13

/-- RAMP of an output in samples. -/
def outRamp (s : State) (o : Nat) : Nat := rampLen (actF s (Reg.COUT1.at o) 27 25)

/-- A trim that goes live ramps from the instantaneous trim (R225). -/
def outTrimGo (o : Nat) (old new : Word) (s : State) : State :=
  if old = new then s else modOut o (fun x => { x with trim := rampTo x.trim (outTrim new) (outRamp s o) }) s

/-- A delay that goes live: a step, or a crossfade from what the chain delivers (R227). -/
def outDelayGo (o : Nat) (s : State) : State :=
  let d := delayOf s o
  let n := outRamp s o
  modOut o (fun x =>
    if d = x.delay ∧ alignDram s o = x.dram then x
    else if n = 0 then { x with delay := d, dram := alignDram s o, fade := none }
    else
      let old : List (Nat × Int × Bool) := match x.fade with
        | none => [(x.delay, 2 ^ 40, x.dram)]
        | some f =>
          let w := roundDiv ((2 ^ 40 : Int) * f.k) f.n
          f.old.map (fun q => (q.1, roundShift (q.2.1 * (2 ^ 40 - w)) 40, q.2.2)) ++ [(x.delay, w, x.dram)]
      { x with delay := d, dram := alignDram s o, fade := some ⟨old, n, 0⟩ }) s

/-- Mute that goes live (R248). -/
def outMuteGo (o : Nat) (old new : Bool) (s : State) : State :=
  if old = new then s else modOut o (fun x => { x with mute := rampTo x.mute (if new then 0 else 2 ^ 40) (outRamp s o) }) s

/-- The effects of a COMMIT on one output. -/
def outCommit (o n : State) (k : Nat) : State :=
  let n1 := outTrimGo k (actW o (Reg.COUT0.at k)) (actW n (Reg.COUT0.at k)) n
  let n2 := outMuteGo k (bit (actW o (Reg.COUT1.at k)) 31) (bit (actW n (Reg.COUT1.at k)) 31) n1
  modOut k (fun x => { x with bqs := x.bqs.take (bqCount n k) }) (outDelayGo k n2)

/-- The effects of a COMMIT on COR. -/
def corCommit (o n : State) (as : List Nat) : State :=
  let ks := (as.filterMap (fun a => if Reg.COUT0.base ≤ a ∧ a < Reg.COUT0.base + 0x10000 then
    some ((a - Reg.COUT0.base) / 32) else none)).eraseDups
  ks.foldl (outCommit o) n

/-- The outputs a RAMP tag covers (R225). -/
def rampOutputs (s : State) (payload : Word) : List Nat :=
  ((List.range (fld payload 23 12 + 1)).map (· + fld payload 11 0)).filter (· < objCount s)

/-- A RAMP tag to COR acts: the copied trims go live (R225). -/
def corRamp (snap : List (Nat × Word)) (s : State) : State :=
  snap.foldl (fun t v =>
    let o := (v.1 - Reg.COUT0.base) / 32
    outTrimGo o (actW t v.1) v.2 { t with words := { t.words with act := tabSet v.1 v.2 t.words.act } }) s

/-! ### Swaps (R239 to R245) -/

/-- The outputs of a SWAP payload, cut off at the rate's count (R239). -/
def swapRange (s : State) (p : Word) : List Nat :=
  ((List.range (fld p 29 19 + 1)).map (· + fld p 18 8)).filter (· < objCount s)

/-- The set an output will hold once the swaps accepted before have run. -/
def setAfter (s : State) (o : Nat) : Option Nat :=
  s.cor.swaps.foldl (fun m w => if w.cur.contains o || w.rest.any (·.contains o) then some w.set else m)
    (if (liveFilt (corOut s o)).void then none else (liveFilt (corOut s o)).set)

/-- The reason R240 rejects a swap, if any. -/
def swapReason (s : State) (t : Nat) (outs : List Nat) : Option Nat :=
  let b := setBase s t
  if b = 0 ∨ !inDram s b 64 ∨ rdN s 2 b ≠ 1 ∨ !(ueIn s b 8).isEmpty then some 1
  else
    let ds := outs.map (fun o => (o, filtDesc s t o))
    if ds.any (fun d => !descOk s d.2) || outs.any (fun o =>
        decide (o < rdN s 2 (b + 2)) && !(ueIn s (b + 64 + 64 * o) 64).isEmpty) then some 2
    else if !accepted s 11 ∧ ds.any (fun d => decide (8192 < descLen d.2)) then some 3
    else
      let total := (List.range (objCount s)).foldl (fun m o =>
        m + match ds.find? (fun d => d.1 == o) with
          | some d => max (chargeOf s o) (descLen d.2)
          | none => chargeOf s o) 0
      if tapPool s < total then some 4 else none

/-- A swap discarded (R240). -/
def swapReject (t reason : Nat) (s : State) : State :=
  raise 0x1B (bytesOf 1 t ++ bytesOf 1 3 ++ bytesOf 1 reason ++ bytesOf 2 0)
    (stick Reg.COR_STAT.base 2 (count Reg.COR_SWAP_REJECT_CNT.base s))

/-- A list cut into pieces of `q`; `fuel` bounds the pieces. -/
def chunks (q : Nat) : Nat → List Nat → List (List Nat)
  | 0, _ => []
  | fuel + 1, l => if l = [] then [] else l.take q :: chunks q fuel (l.drop q)

/-- The payload that names a batch (R241). -/
def batchPayload (p : Word) (outs : List Nat) : Word :=
  let first := (outs.head?).getD 0
  let last := (outs.getLast?).getD 0
  BitVec.ofNat 32 (fld p 7 0 + first * 2 ^ 8 + (last - first) * 2 ^ 19)

/-- A swap accepted for tick `tick` (R240, R241). -/
def swapAccept (p : Word) (tick : Nat) (outs : List Nat) (s : State) : State :=
  let t := fld p 2 0
  let rem := outs.filter (fun o => setAfter s o != some t)
  let bs := chunks (sliceOutputs s) (rem.length + 1) rem
  let news : Tab Nat := rem.foldl (fun m o => tabSet o (descLen (filtDesc s t o)) m) []
  let w : SwapRec := ⟨s.cor.nextId, t, fld p 7 4, p, tick, 0, (bs.head?).getD [], bs.tail, .waiting, 0, [], news, false⟩
  { s with cor := { s.cor with swaps := s.cor.swaps ++ [w], nextId := s.cor.nextId + 1 } }

/-- The uncorrectable words that the check of a swap meets in its set's header and descriptors, in order; it stops at the
first (R240, R526). -/
def swapErrs (s : State) (t : Nat) (outs : List Nat) : List Nat :=
  let b := setBase s t
  if b = 0 ∨ !inDram s b 64 then []
  else ueIn s b 8 ++ (outs.filter (fun o => decide (o < rdN s 2 (b + 2)))).flatMap (fun o => ueIn s (b + 64 + 64 * o) 64)

/-- The first of them reported to the log, as a swap load's. -/
def swapReport (t : Nat) (outs : List Nat) (s : State) : State :=
  match swapErrs s t outs with
  | w :: _ => reportDramUe 1 8 0 w s
  | [] => s

/-- A swap checked: accepted, or discarded with its reason; whether it was accepted (R240). -/
def swapCheck (p : Word) (tick : Nat) (s : State) : Bool × State :=
  let outs := swapRange s p
  match swapReason s (fld p 2 0) outs with
  | some r => (false, swapReject (fld p 2 0) r (swapReport (fld p 2 0) outs s))
  | none => (true, swapAccept p tick outs s)

/-- The engine's own SWAP for a later batch of the swap in progress (R241). -/
def isOwnSwap (s : State) (g : TagRec) : Bool :=
  match s.cor.swaps with
  | w :: _ => g.own && decide (w.batch ≠ 0) && w.payload == g.payload
  | [] => false

/-- A mark on a queued SWAP that waits for a place among the accepted swaps (R245). -/
def swapWaits : List (Nat × Word) := [(0, 0)]

/-- The mark on the tag of an accepted swap: the swap's number. -/
def swapMark (id : Nat) : List (Nat × Word) := [(id + 1, 0)]

/-- A SWAP reaches COR (R240, R245). -/
def arriveSwap (g : TagRec) (s : State) : State :=
  let (late, block) := judge s (unitSt s uCOR).next g
  let g1 := { g with late := late }
  if isOwnSwap s g then enqueueTag uCOR g1 block (swapMark ((s.cor.swaps.head?.map (·.id)).getD 0)) s
  else
    let s1 := countLate s uCOR late (isStale s (unitSt s uCOR).next g)
    if 8 ≤ s1.cor.swaps.length ∨ (unitSt s uCOR).pend.any (fun p => decide (p.snap = swapWaits)) then enqueueTag uCOR g1 block swapWaits s1
    else
      let (ok, s2) := swapCheck g.payload (block / tickBlocks s) s1
      if ok then enqueueTag uCOR g1 block (swapMark s1.cor.nextId) s2 else s2

/-- The tick of the block that COR is in, or else begins next. -/
def corTickNow (s : State) : Nat := tickOfBlock s (unitSt s uCOR).next

/-- The swap in progress changed. -/
def modHead (f : SwapRec → SwapRec) (s : State) : State :=
  match s.cor.swaps with
  | [] => s
  | w :: t => { s with cor := { s.cor with swaps := f w :: t } }

/-- Tick B − 2: the old coefficients go to the crossfade store (R242 step 1). -/
def swapPrepare (s : State) : State :=
  match s.cor.swaps with
  | [] => s
  | w :: _ =>
    let t := corTickNow s
    if w.phase = .waiting ∧ w.start ≤ t + 2 ∧ s.cor.slot ≤ t + 2 then modHead (fun y => { y with phase := .prepared, prepTick := t }) s else s

/-- One output's new coefficients loaded, or the output taken out of the batch (R242). -/
def loadOne (t : Nat) (s : State) (o : Nat) : State :=
  match loadBad s t o with
  | [] => modHead (fun w => { w with fresh := tabSet o (loadFilt s t o) w.fresh }) s
  | a :: _ =>
    raise 0x1B (bytesOf 1 t ++ bytesOf 1 4 ++ bytesOf 1 5 ++ bytesOf 2 o)
      (count Reg.COR_MEMERR_CNT.base (reportDramUe 1 8 0 a
        (modHead (fun w => { w with cur := w.cur.filter (· != o), news := tabErase o w.news }) s)))

/-- Tick B − 1: the new head and near-tail coefficients load (R242 steps 2 and 3). -/
def swapLoad (s : State) : State :=
  match s.cor.swaps with
  | [] => s
  | w :: _ =>
    if w.phase = .prepared ∧ w.prepTick < corTickNow s then
      modHead (fun y => { y with phase := .loaded }) (w.cur.foldl (loadOne w.set) s)
    else s

/-- An output's crossfade starts (R242 step 4, R233); while an earlier transition runs, the largest of the lengths stays
charged until both have ended (R245). -/
def fadeStart (w : SwapRec) (b : Nat) (s : State) (o : Nat) : State :=
  let n0 := 16 * b
  modOut o (fun x => { x with
    filts := (tabGet filtNone w.fresh o, n0) :: x.filts
    xfade := some (n0, (w.xf + 1) * tickLen s)
    charges := [(x.charges.foldl (fun m c => max m c.1) (max (filtLen (liveFilt x)) (tabGet 0 w.news o)), n0 + 65536)] }) s

/-- Every due SWAP that cannot start waits a tick, and the swap in progress with it (R242, R245). -/
def swapSlip (s : State) : State :=
  let due := (dueTags s uCOR).filter (fun p => p.tag.typ == tSWAP)
  let s1 := due.foldl (fun t p => modUnit uCOR (fun x => { x with
    pend := x.pend.map (fun q => if q = p then { q with block := q.block + tickBlocks s } else q) }) t) s
  let s2 := countN Reg.COR_SWAP_SLIP_CNT.base due.length s1
  modHead (fun w => if w.phase ≠ .fading ∧ due.any (fun p => decide (p.snap = swapMark w.id)) then
    { w with start := corTickNow s + 1 } else w) s2

/-- A due SWAP acts: the crossfade of the batch it names starts, or it waits (R242, R245). -/
def swapAct (s : State) : State :=
  let due := (dueTags s uCOR).filter (fun p => p.tag.typ == tSWAP)
  match s.cor.swaps, due with
  | w :: _, _ :: _ =>
    let b := (unitSt s uCOR).next
    match due.find? (fun q => decide (q.snap = swapMark w.id)) with
    | some q =>
      if (w.phase = .loaded ∨ w.cur = []) ∧ s.cor.slot ≤ b / tickBlocks s then
        let s1 := removePend uCOR q s
        let s2 := w.cur.foldl (fadeStart w b) s1
        let s3 := modHead (fun y => { y with phase := .fading, start := b / tickBlocks s, begun := true }) s2
        swapSlip (when (!w.begun) (raise 0x1B (bytesOf 1 w.set ++ bytesOf 1 1 ++ bytesOf 1 0 ++ bytesOf 2 ((w.cur.head?).getD 0))) s3)
      else swapSlip s
    | none => swapSlip s
  | [], _ :: _ => swapSlip s
  | _, [] => s

/-- Waiting SWAPs are checked, the oldest first, while a place among the accepted swaps is free (R245); at most `n`. -/
def swapQueued : Nat → State → State
  | 0, s => s
  | n + 1, s =>
    if 8 ≤ s.cor.swaps.length then s else
      match (unitSt s uCOR).pend.find? (fun p => p.tag.typ == tSWAP && decide (p.snap = swapWaits)) with
      | none => s
      | some p =>
        let (ok, s1) := swapCheck p.tag.payload (p.block / tickBlocks s) s
        let keep (l : List PendTag) : List PendTag :=
          if ok then l.map (fun q => if q = p then { q with snap := swapMark s.cor.nextId } else q) else l.erase p
        swapQueued n (modUnit uCOR (fun x => { x with pend := keep x.pend }) s1)

/-- A crossfade has ended: the outputs deliver the new filter alone, and the next batch or swap is scheduled
(R241, R242 step 5, R245). -/
def crossfadeEnd (s : State) : State :=
  match s.cor.swaps with
  | [] => s
  | w :: t =>
    if w.phase ≠ .fading || decide (corTickNow s < w.start + w.xf + 1) then s else
      let s1 := w.cur.foldl (fun u o => modOut o (fun x => { x with xfade := none }) u) s
      let nextB := w.start + w.xf + 3
      let s2 := { s1 with cor := { s1.cor with slot := nextB } }
      match w.rest with
      | c :: cs =>
        let pl := batchPayload w.payload c
        inject (mkTag tSWAP uCOR 0xFF pl.toNat nextB) (modHead (fun y => { y with
          payload := pl, start := nextB, batch := y.batch + 1, cur := c, rest := cs, phase := .waiting, fresh := [] }) s2)
      | [] =>
        let s3 := { s2 with cor := { s2.cor with swaps := t } }
        swapQueued (unitSt s3 uCOR).pend.length (raise 0x1B (bytesOf 1 w.set ++ bytesOf 1 2 ++ bytesOf 1 0 ++ bytesOf 2 0) s3)

/-- Filters whose far tails no input hop uses any more leave (R244). -/
def transitionEnd (s : State) : State :=
  let n := 16 * (unitSt s uCOR).next
  { s with cor := { s.cor with outs := s.cor.outs.map (fun q =>
    let x := q.2
    let keep := (x.filts.zip x.filts.tail).zipIdx.foldl (fun m p =>
      if decide (n < oldReach s (sliceOf s q.1) p.1.1.2 p.1.2.1) || (p.2 == 0 && x.xfade.isSome) then p.2 + 2 else m) 1
    (q.1, { x with filts := x.filts.take keep })) } }

/-- Charges return to the live length 65,536 samples after their batch started (R233). -/
def chargeReturn (s : State) : State :=
  let n := 16 * (unitSt s uCOR).next
  { s with cor := { s.cor with outs := s.cor.outs.map (fun q =>
    (q.1, { q.2 with charges := q.2.charges.filter (fun c => decide (n < c.2)) })) } }

/-- At start outputs take BOOT_SET, or run with FIR_EN 0 where its check fails (R238). -/
def bootSet (s : State) : State :=
  if !bit (actW s Reg.COR_CTRL.base) 3 then s else
    let t := fld (actW s Reg.COR_CTRL.base) 2 0
    let outs := List.range (objCount s)
    match swapReason s t outs with
    | some r => raise 0x1B (bytesOf 1 t ++ bytesOf 1 3 ++ bytesOf 1 r ++ bytesOf 2 0) (stick Reg.COR_STAT.base 2 (swapReport t outs s))
    | none => outs.foldl (fun u o => modOut o (fun x => { x with filts := [(loadFilt u t o, 0)] }) u) s

/-! ### Slices (R222, R249) -/

/-- Physical slices the grade has, the spare among them. -/
def sliceCount (s : State) : Nat := activeLanes s / 4 + 1

/-- Slices assigned at start (R222). -/
def slicesStart (s : State) : State :=
  let live := (List.range (sliceCount s)).filter (fun p => !s.cor.retired.contains p)
  let act := live.take (sliceCount s - 1)
  { s with cor := { s.cor with slices := act.mapIdx (fun k p => (k, p)), asked := [], leaving := [] } }

/-- The spare slice, if one remains. -/
def spareSlice (s : State) : Option Nat :=
  (List.range (sliceCount s)).find? (fun p => !s.cor.retired.contains p && !(s.cor.slices.any (fun q => q.2 == p)) &&
    !(s.cor.leaving.any (fun l => l.1 == p || l.2.1 == p)))

/-- A swap batch holds an output of a logical slice. -/
def sliceBusy (s : State) (k : Nat) : Bool :=
  match s.cor.swaps with
  | w :: _ => w.phase != .waiting && w.cur.any (fun o => sliceOf s o == k)
  | [] => false

/-- The next tick that COR begins. -/
def corTickAhead (s : State) : Nat :=
  nextTick s ((unitSt s uCOR).next + if (unitSt s uCOR).begun then 1 else 0)

/-- A working slice asked to retire (R249 steps 1 and 2). -/
def sliceAsk (p : Nat) (s : State) : State :=
  match s.cor.slices.find? (fun q => q.2 == p) with
  | none => s
  | some (k, _) =>
    match spareSlice s with
    | none => raise 0x1C (bytesOf 1 p ++ [0xFF]) (stick Reg.COR_STAT.base 3 s)
    | some q =>
      if sliceBusy s k then { s with cor := { s.cor with asked := setAdd p s.cor.asked } }
      else { s with cor := { s.cor with
        slices := tabSet k q s.cor.slices
        asked := setDel p s.cor.asked
        leaving := s.cor.leaving ++ [(p, q, corTickAhead s + 1)] } }

/-- Slices whose spare computes from this tick on are powered off (R249 step 5). -/
def slicesTick (s : State) : State :=
  let t := corTickNow s
  let done := s.cor.leaving.filter (fun l => decide (l.2.2 ≤ t))
  let s1 := { s with cor := { s.cor with leaving := s.cor.leaving.filter (fun l => !decide (l.2.2 ≤ t)) } }
  let s2 := done.foldl (fun u l => raise 0x1C (bytesOf 1 l.1 ++ bytesOf 1 l.2.1) (count Reg.COR_SPARE_CNT.base
    { u with cor := { u.cor with retired := setAdd l.1 u.cor.retired } })) s1
  s2.cor.asked.foldl (fun u p => sliceAsk p u) s2

/-- A slice retired by the health unit: whether a spare takes over (R249). -/
def sliceRetire (p : Nat) (s : State) : Bool × State :=
  if s.cor.slices.any (fun q => q.2 == p) then ((spareSlice s).isSome, sliceAsk p s)
  else if p < sliceCount s then (true, { s with cor := { s.cor with retired := setAdd p s.cor.retired } })
  else (false, s)

/-- COR's work at a tick boundary. -/
def corTick (s : State) : State := slicesTick (chargeReturn (transitionEnd (swapPrepare (crossfadeEnd s))))

/-! ### What reads show (R252, R253) -/

/-- Word 0 of an output's status (R252). -/
def outStatus (s : State) (o : Nat) : Nat :=
  let x := corOut s o
  let n := 16 * (unitSt s uCOR).next
  let prep := match s.cor.swaps with
    | w :: _ => w.phase != .waiting && w.cur.contains o
    | [] => false
  (if rampDead x.mute then 128 else 0) + (if x.wall ≠ .active then 64 else 0) + (if inTransition s (sliceOf s o) n x then 32 else 0) +
    (if x.xfade.isSome || prep then 16 else 0) + (if (liveFilt x).firEn then 8 else 0) + ((liveFilt x).set.getD 0)

/-- COR_POOL_USED (R233). -/
def poolUsed (s : State) : Nat := (List.range (objCount s)).foldl (fun m o => m + chargeOf s o) 0

/-- A set is in use (R237). -/
def setInUse (s : State) (t : Nat) : Bool :=
  s.cor.swaps.any (fun w => w.set == t) || s.cor.outs.any (fun q =>
    (filtsRead s (sliceOf s q.1) (16 * (unitSt s uCOR).next) q.2).any (fun f => decide (f.set = some t)))

/-- COR_SWAP_STAT (R253). -/
def swapStat (s : State) : Nat :=
  match s.cor.swaps with
  | [] => 0
  | w :: t => w.set * 2 ^ 16 + w.batch % 256 * 2 ^ 8 + min 7 t.length * 2 + 1

/-- COR_SLICE (R253); before the slices are assigned, its reset value for the grade. -/
def sliceWord (s : State) : Nat :=
  let act := if s.cor.slices = [] then List.range (sliceCount s - 1) else s.cor.slices.map (·.2)
  s.cor.retired.foldl (fun m p => m + 2 ^ (16 + p)) (act.foldl (fun m p => m + 2 ^ p) 0)

end Sys2Proof.Machine
end

