-- ==== Sys2Proof/Machine/Mea.lean ====
section
/-! DEFINITION. The measurement engine (R255 to R275). -/

namespace Sys2Proof.Machine

open Sys2Proof

/-! ### Generators (R256 to R258) -/

/-- A run that has not been started. -/
def runZero : MeaRun := ⟨0, [], [], 0, 0, 0, [], [], [], none⟩

/-- A run. -/
def meaRun (s : State) (k : Nat) : MeaRun := tabGet runZero s.mea.runs k

/-- A run changed. -/
def modRun (k : Nat) (f : MeaRun → MeaRun) (s : State) : State :=
  { s with mea := { s.mea with runs := tabMod runZero k f s.mea.runs } }

/-- A run's state and reason shown (R275), with its event. -/
def runShow (k st reason : Nat) (s : State) : State :=
  raise 0x1D (bytesOf 1 k ++ bytesOf 1 st ++ bytesOf 1 reason)
    (setN (Reg.RUNS0.at k) (reason * 256 + st) (modRun k (fun r => { r with state := st }) s))

/-- A run's state shown without an event. -/
def runState (k st : Nat) (s : State) : State :=
  setN (Reg.RUNS0.at k) st (modRun k (fun r => { r with state := st }) s)

/-- A record's word. -/
def recW (l : List Word) (i : Nat) : Word := nth 0 l i

/-- TYPE of a generator record: 0 where off (R256). -/
def genType (g : List Word) : Nat := let t := fld (recW g 0) 2 0; if 4 < t then 0 else t

/-- A of a generator (R257), in fixed point. -/
def genLevel (g : List Word) : Int := fxDb (min 0 (sfld (recW g 0) 31 16) * 2 ^ 56)

/-- ORDER (R256). -/
def genOrder (g : List Word) : Nat := let o := fld (recW g 0) 12 8; if o < 12 ∨ 20 < o then 16 else o

/-- F1 and F2 in fixed-point Hz (R256). -/
def genF1 (g : List Word) : Int := (fld (recW g 1) 23 0 : Int) * 2 ^ 57

def genF2 (s : State) (g : List Word) : Int := min ((fld (recW g 2) 23 0 : Int) * 2 ^ 57) (fxOf (rateHz s) * 45 / 100)

/-- LENGTH (R256). -/
def genLength (g : List Word) : Nat := clampN 256 262144 (fld (recW g 3) 21 0)

/-- The half-cosine fade window of a sweep (R256). -/
def fadeWindow (len fade n : Nat) : Int :=
  let k := min n (len - 1 - n)
  if fade ≤ k then fxOne else (fxOne - fxCos (fxPi * k / fade)) / 2

/-- Natural logarithm and exponential. -/
def fxLn (a : Int) : Int := fxMul (fxLog2 a) fxLn2

def fxExp (x : Int) : Int := fxExp2 (fxDiv x fxLn2)

/-- Sample `n` of a sweep of LENGTH samples (R257), in fixed point. -/
def sweepSample (s : State) (g : List Word) (n : Nat) : Int :=
  let len := genLength g
  if len ≤ n then 0 else
    let q := fxLn (fxDiv (genF2 s g) (genF1 g))
    let k := fxDiv (fxMul (2 * fxPi) (genF1 g * len / rateHz s)) q
    let phase := fxMul k (fxExp (q * n / len) - fxOne)
    fxMul (fxMul (genLevel g) (fxSin phase)) (fadeWindow len (fld (recW g 4) 15 0) n)

/-- Taps of the shift register (R258). -/
def mlsTaps (order : Nat) : List Nat :=
  match order with
  | 12 => [12, 6, 4, 1] | 13 => [13, 4, 3, 1] | 14 => [14, 5, 3, 1] | 15 => [15, 14] | 16 => [16, 15, 13, 4]
  | 17 => [17, 14] | 18 => [18, 11] | 19 => [19, 6, 2, 1] | _ => [20, 17]

/-- One sample of the sequence: the bit at position ORDER, and the register after it (R258); position 1 is bit 0. -/
def mlsStep (order reg : Nat) : Bool × Nat :=
  let bitAt (p : Nat) : Bool := reg.testBit (p - 1)
  let x := (mlsTaps order).foldl (fun b p => b != bitAt p) false
  (bitAt order, (reg * 2 + if x then 0 else 1) % 2 ^ order)

/-- The first `n` bits of the sequence. -/
def mlsBits (order : Nat) : Nat → Nat → List Bool
  | 0, _ => []
  | n + 1, reg => let (b, r) := mlsStep order reg; b :: mlsBits order n r

/-- The whole period of the sequence (R257). -/
def mlsPeriod (order : Nat) : List Bool := mlsBits order (2 ^ order - 1) (2 ^ order - 1)

/-- A sample computed within the accuracy of 2^-22 (R257) and rounded to s0.23. -/
def genRound (dev : Int) (v : Int) : Int := satS 24 (fxNarrow 23 v + clampI (-2) 2 dev)

/-- SEED (R256). -/
def genSeed (g : List Word) : Nat := let v := (recW g 5).toNat; if v = 0 then 1 else v

/-- IR_LEN of a run record (R259). -/
def runIr (r : MeaRun) : Nat := 2 ^ clampN 8 16 (fld (recW r.cfg 0) 26 22)

/-- Averages of a run (R259). -/
def runAvg (r : MeaRun) : Nat := fld (recW r.cfg 0) 15 8 + 1

/-- 2^NFFT of a run (R259). -/
def runFft (r : MeaRun) : Nat := 2 ^ clampN 12 18 (fld (recW r.cfg 0) 31 27)

/-- The period T (R260). -/
def runPeriod (r : MeaRun) : Nat :=
  match genType r.gen with
  | 1 => genLength r.gen + runIr r
  | 3 => 2 ^ genOrder r.gen - 1
  | _ => runFft r

/-- The capture length C (R260). -/
def runCapture (r : MeaRun) : Nat :=
  let a := runAvg r
  match genType r.gen with
  | 1 => a * runPeriod r
  | 3 => (a + 1) * runPeriod r
  | 2 => (a + 1) * (runFft r / 2)
  | _ => a * runFft r

/-- The least power of two at or above `n`. -/
def pow2Up (n : Nat) : Nat := if n ≤ 1 then 1 else 2 ^ ((n - 1).log2 + 1)

/-- The transform size N (R260); zero for MLS. -/
def runSize (r : MeaRun) : Nat :=
  match genType r.gen with
  | 1 => pow2Up (runPeriod r)
  | 3 => 0
  | _ => runFft r

/-! ### Spectra -/

def Cx.add (a b : Cx) : Cx := ⟨a.re + b.re, a.im + b.im⟩
def Cx.sub (a b : Cx) : Cx := ⟨a.re - b.re, a.im - b.im⟩
def Cx.mul (a b : Cx) : Cx := ⟨fxMul a.re b.re - fxMul a.im b.im, fxMul a.re b.im + fxMul a.im b.re⟩
def Cx.conj (a : Cx) : Cx := ⟨a.re, -a.im⟩
def Cx.scale (k : Int) (a : Cx) : Cx := ⟨fxMul k a.re, fxMul k a.im⟩
def Cx.norm2 (a : Cx) : Int := fxMul a.re a.re + fxMul a.im a.im
def Cx.over (a : Cx) (d : Int) : Cx := ⟨fxDiv a.re d, fxDiv a.im d⟩

/-- e^(−j2π·num/den). -/
def cxTurn (num den : Nat) : Cx :=
  let w := 2 * fxPi * ((num % den : Nat) : Int) / (den : Nat)
  ⟨fxCos w, -fxSin w⟩

/-- Bin `k` of the N-point transform of real values. -/
def dftBin (n : Nat) (x : List Int) (k : Nat) : Cx :=
  (x.zipIdx).foldl (fun acc q => acc.add ((cxTurn (k * q.2) n).scale q.1)) ⟨0, 0⟩

/-- Bins 0 to N ÷ 2 of the transform of real values. -/
def dft (n : Nat) (x : List Int) : List Cx := (List.range (n / 2 + 1)).map (dftBin n x)

/-- Sample `i` of the inverse transform of the half spectrum of a real signal. -/
def idftAt (n : Nat) (h : List Cx) (i : Nat) : Int :=
  let sum := (h.zipIdx).foldl (fun acc q =>
    let v := (q.1.mul (cxTurn (q.2 * i) n).conj).re
    acc + if q.2 = 0 ∨ 2 * q.2 = n then v else 2 * v) 0
  sum / (n : Nat)

/-- A period of pink noise of RMS 1 in fixed point (R257): the transform of white noise, each bin between F1 and F2
scaled by 1 ÷ √f and every other bin zero. -/
def pinkPeriod (s : State) (g : List Word) (t : Nat) : List Int :=
  let white := (List.range t).map (fun n => signed 32 (Config.noiseWord (genSeed g) n).toNat * 2 ^ 33)
  let shape (k : Nat) (x : Cx) : Cx :=
    let f := fxOf (k * rateHz s) / (t : Nat)
    if 0 < k ∧ genF1 g ≤ f ∧ f ≤ genF2 s g then x.over (fxSqrt f) else ⟨0, 0⟩
  let h := (dft t white).mapIdx shape
  let raw := (List.range t).map (idftAt t h)
  let rms := fxSqrt (raw.foldl (fun m v => m + fxMul v v) 0 / (t : Nat))
  raw.map (fun v => fxDiv v rms)

/-- The generator's sample `n` since its run began (R257, R262): its period again and again; free where the spec gives no
value. -/
def genSample (s : State) (r : MeaRun) (n0 : Nat) : Int :=
  let g := r.gen
  let n := n0 % runPeriod r
  let dev := Config.waveDeviation (rateHz s :: runPeriod r :: g.map (·.toNat)) n
  match genType g with
  | 1 =>
    if genF1 g ≤ 0 ∨ genF2 s g ≤ 0 ∨ genF1 g = genF2 s g then signed 24 (Config.freeNat (s.free + n0))
    else if genLength g ≤ n then 0 else genRound dev (sweepSample s g n)
  | 2 =>
    let p := pinkPeriod s g (runPeriod r)
    if p.all (· == 0) then signed 24 (Config.freeNat (s.free + n0)) else genRound dev (fxMul (genLevel g) (nth 0 p n))
  | 3 =>
    let b := nth false (mlsPeriod (genOrder g)) n
    genRound dev (if b then genLevel g else -genLevel g)
  | 4 => genRound dev (fxMul (genLevel g) (fxSin (fxMul (2 * fxPi) (genF1 g * n / rateHz s))))
  | _ => 0

/-- The generator a run uses. -/
def runGen (r : MeaRun) : Nat := fld (recW r.cfg 0) 3 0

/-- One generator's block (R257, R262, R266): the samples, and the run after it. -/
def genBlock (b : Nat) (r : MeaRun) (s : State) : MeaRun × State :=
  let raw := (List.range 16).map (fun i => genSample s r (r.played + i))
  let smp := match r.fade with
    | none => raw
    | some d => raw.mapIdx (fun i v => if d + i < 256 then roundDiv (v * (255 - (d + i) : Nat)) 256 else 0)
  ({ r with played := r.played + 16, fade := r.fade.map (· + 16) },
    putBlk .gen (runGen r) (unitMarks s uMEA { zeroBlk b with smp := smp }) { s with free := s.free + 16 })

/-- The generators of stopped runs ramp on, then those of the running runs play. -/
def genBlocks (b : Nat) (s : State) : State :=
  let (left, s1) := s.mea.fades.foldl (fun (q : List MeaRun × State) r =>
    let (x, t) := genBlock b r q.2
    (if x.fade.getD 256 < 256 then q.1 ++ [x] else q.1, t)) ([], s)
  let s2 := { s1 with mea := { s1.mea with fades := left } }
  ((s2.mea.runs.filter (fun q => q.2.state == 2)).map (·.1)).foldl (fun t k =>
    let (x, u) := genBlock b (meaRun t k) t
    modRun k (fun _ => x) u) s2

/-! ### Runs (R259 to R263, R266) -/

/-- The live record of a run and of its generator. -/
def liveRun (s : State) (k : Nat) : MeaRun :=
  let cfg := (List.range 16).map (fun i => actW s (0x40C10000 + 64 * k + 4 * i))
  let g := fld (recW cfg 0) 3 0
  { runZero with cfg := cfg, gen := (List.range 8).map (fun i => actW s (0x40C00000 + 32 * g + 4 * i)) }

/-- The selected capture channels, ascending. -/
def runChans (r : MeaRun) : List Nat :=
  (List.range 64).filter (fun c => bit (recW r.cfg (1 + c / 32)) (c % 32))

/-- An address from a low and a high word. -/
def addrOf (lo hi : Word) : Nat := fld lo 31 6 * 64 + 2 ^ 32 * fld hi 7 0

def runResult (r : MeaRun) : Nat := addrOf (recW r.cfg 3) (recW r.cfg 4)

def runWork (r : MeaRun) : Nat := addrOf (recW r.cfg 5) (recW r.cfg 6)

/-- Bins of a result (R259). -/
def runBins (r : MeaRun) : Nat := 2 ^ clampN 8 13 (fld (recW r.cfg 0) 21 18)

/-- Bytes of a result block (R265). -/
def blockSize (ir bins : Nat) : Nat := (64 + 4 * ir + 8 * bins + 63) / 64 * 64

/-- Samples of the IR a run's result holds. -/
def resultIr (r : MeaRun) : Nat := if genType r.gen = 4 then 0 else runIr r

/-- The work area a run needs, in bytes (R260). -/
def workNeed (r : MeaRun) : Nat := ((runChans r).length + 1) * runCapture r * 3

/-- The reason R261 fails a run at its START, if any. -/
def runReason (s : State) (k : Nat) (r : MeaRun) : Option Nat :=
  let held := s.mea.runs.any (fun q => q.1 != k && [1, 2, 3].contains q.2.state && runGen q.2 == runGen r)
  let results := (runChans r).length * blockSize (resultIr r) (runBins r)
  if genType r.gen = 0 ∨ held then some 1
  else if runChans r = [] then some 2
  else if 262144 < runSize r ∨ (genType r.gen = 3 ∧ runPeriod r < runIr r) ∨
      (genType r.gen ≠ 3 ∧ genType r.gen ≠ 4 ∧ runSize r < runIr r) then some 3
  else if fld (recW r.cfg 7) 15 0 * 2 ^ 20 < workNeed r ∨ !inDram s (runResult r) results ∨
      !inDram s (runWork r) (fld (recW r.cfg 7) 15 0 * 2 ^ 20) then some 4
  else none

/-- A START reaches MEA for one run (R261): ignored, failed or armed for a block; whether it was armed. -/
def runArm (block : Nat) (q : Bool × State) (k : Nat) : Bool × State :=
  let s := q.2
  if [1, 2, 3].contains (meaRun s k).state then (q.1, count Reg.MEA_START_IGN_CNT.base s)
  else
    let r := liveRun s k
    match runReason s k r with
    | some e => (q.1, runShow k 5 e (modRun k (fun _ => r) s))
    | none =>
      let s1 := setN (Reg.RUNS2.at k 1) (extBlk s block / 2 ^ 32) (setN (Reg.RUNS2.at k 0) (extBlk s block % 2 ^ 32) s)
      (true, runState k 1 (modRun k (fun _ => { r with block := block }) s1))

/-- The runs a START or STOP names (R261). -/
def runsOf (inst : Nat) : List Nat := if inst = 0xFF then List.range 16 else if inst < 16 then [inst] else []

/-- A START tag reaches MEA (R261). -/
def arriveRun (g : TagRec) (s : State) : State :=
  let (late, block) := judge s (unitSt s uMEA).next g
  let s1 := countLate s uMEA late (isStale s (unitSt s uMEA).next g)
  let (armed, s2) := (runsOf g.inst).foldl (runArm block) (false, s1)
  if armed then enqueueTag uMEA { g with late := late } block [] s2 else s2

/-- Armed runs enter RUNNING at their block (R262). -/
def runBegin (inst : Nat) (s : State) : State :=
  let b := (unitSt s uMEA).next
  (runsOf inst).foldl (fun t k =>
    let r := meaRun t k
    if r.state = 1 ∧ r.block ≤ b then runState k 2 (modRun k (fun x => { x with block := b, played := 0, taken := 0, caps := [] }) t) else t) s

/-- A run fails (R261). -/
def runFail (k reason : Nat) (s : State) : State := runShow k 5 reason (modRun k (fun r => { r with caps := [] }) s)

/-- A STOP acts on running runs (R266). -/
def runStop (inst : Nat) (s : State) : State :=
  (runsOf inst).foldl (fun t k =>
    let r := meaRun t k
    if r.state = 2 then
      runFail k 6 { t with mea := { t.mea with fades := t.mea.fades ++ [{ r with fade := some 0, caps := [] }] } }
    else t) s

/-- One captured channel's samples of a block. -/
def capBlock (s : State) (c b : Nat) : Blk := (blkAt s .dest (0xA00 + c) b).getD (silentBlk b)

/-- A running run records block `b` (R262, R263): the samples it keeps go to the work area as they come. DESIGN CHOICE
(log 54): where in the area a sample lies, and in what form, no rule says; the model writes free bytes in the order of capture. -/
def runCaptureBlock (b : Nat) (s : State) (k : Nat) : State :=
  let r := meaRun s k
  if r.state ≠ 2 ∨ b < r.block ∨ runCapture r ≤ r.taken then s else
    let need := min 16 (runCapture r - r.taken)
    let blks := (runChans r).map (fun c => (c, capBlock s c b))
    let ref := (blkAt s .gen (runGen r) b).getD (silentBlk b)
    let put (t : Tab (List Int)) (c : Nat) (smp : List Int) : Tab (List Int) :=
      tabMod [] c (fun l => (smp.take need).reverse ++ l) t
    let caps := put (blks.foldl (fun t q => put t q.1 q.2.smp) r.caps) 64 ref.smp
    let width := ((runChans r).length + 1) * 3
    let bytes := (List.range (need * width)).map (fun i => BitVec.ofNat 8 (Config.freeNat (s.free + i)))
    let marked (p : Blk → Bool) : List Nat := (blks.filter (fun q => p q.2)).map (·.1)
    modRun k (fun x => { x with
      caps := caps, taken := x.taken + need
      memerr := (x.memerr ++ marked (·.memerr)).eraseDups
      concealed := (x.concealed ++ marked (·.concealed)).eraseDups })
      (storeMem 6 0 { s with free := s.free + need * width } (runWork r + r.taken * width) bytes)

/-- After the last captured sample the run enters COMPUTING (R264). -/
def captureEnd (k : Nat) (s : State) : State :=
  let r := meaRun s k
  if r.state ≠ 2 ∨ r.taken < runCapture r then s
  else runState k 3 { s with mea := { s.mea with queue := s.mea.queue ++ [k] } }

/-! ### Processing (R264) -/

/-- s0.23 samples as real values in fixed point. -/
def realOf (l : List Int) : List Int := l.map (· * 2 ^ 41)

/-- The average of periods `from` to `from + a − 1` of a capture. -/
def averagePeriods (x : List Int) (t first a : Nat) : List Int :=
  (List.range t).map (fun i => ((List.range a).foldl (fun m p => m + nth 0 x ((first + p) * t + i)) 0) / (a : Nat))

/-- Hann window of `n` points. -/
def hann (n i : Nat) : Int := (fxOne - fxCos (2 * fxPi * i / n)) / 2

/-- Windowed frame `f` of a signal, hop `hop`. -/
def frameAt (x : List Int) (n hop f : Nat) : List Int := (List.range n).map (fun i => fxMul (nth 0 x (f * hop + i)) (hann n i))

/-- What a run's processing yields for a channel: IR, source bins with coherence, their transform size. -/
structure RunRes where
  ir : List Int
  h : List Cx
  coh : List Int
  size : Nat

/-- H of a sweep (R264). -/
def sweepH (n : Nat) (avg one : List Int) : List Cx :=
  let y := dft n avg
  let x := dft n one
  let top := x.foldl (fun m v => max m v.norm2) 0
  (y.zip x).map (fun q => (q.1.mul q.2.conj).over (q.2.norm2 + top / 2 ^ 20))

/-- Sums of spectra over frames: S_xy, S_xx, S_yy (R264). -/
def sumSpectra (n hop a : Nat) (x y : List Int) : List Cx × List Int × List Int :=
  let fr := (List.range a).map (fun f => (dft n (frameAt x n hop f), dft n (frameAt y n hop f)))
  let bins := List.range (n / 2 + 1)
  let at0 (l : List Cx) (k : Nat) : Cx := nth ⟨0, 0⟩ l k
  (bins.map (fun k => fr.foldl (fun m f => m.add ((at0 f.2 k).mul (at0 f.1 k).conj)) ⟨0, 0⟩),
    bins.map (fun k => fr.foldl (fun m f => m + (at0 f.1 k).norm2) 0),
    bins.map (fun k => fr.foldl (fun m f => m + (at0 f.2 k).norm2) 0))

/-- γ² of summed spectra. -/
def coherence (sxy : Cx) (sxx syy : Int) : Int := fxDiv sxy.norm2 (fxMul sxx syy)

/-- A channel's processing (R264). -/
def runProcess (s : State) (r : MeaRun) (c : Nat) : RunRes :=
  let y := realOf ((tabGet [] r.caps c).reverse)
  let x := realOf ((tabGet [] r.caps 64).reverse)
  let t := runPeriod r
  let a := runAvg r
  let ir := runIr r
  match genType r.gen with
  | 1 =>
    let n := runSize r
    let one := (List.range t).map (sweepSample s r.gen)
    let h := sweepH n (averagePeriods y t 0 a) one
    let imp := (List.range ir).map (idftAt n h)
    ⟨imp, dft ir imp, [], ir⟩
  | 3 =>
    let avg := averagePeriods y t 1 a
    let seq := mlsPeriod (genOrder r.gen)
    let den := fxOf ((a * (t + 1) : Nat) : Int)
    let imp := (List.range ir).map (fun k => fxDiv ((List.range t).foldl (fun m i =>
      let v := nth 0 avg ((i + k) % t)
      if nth false seq i then m + v else m - v) 0) den)
    ⟨imp, dft ir imp, [], ir⟩
  | 2 =>
    let n := runFft r
    let (sxy, sxx, syy) := sumSpectra n (n / 2) a x y
    let h := (sxy.zip sxx).map (fun q => q.1.over q.2)
    ⟨(List.range ir).map (idftAt n h), h, (sxy.zip (sxx.zip syy)).map (fun q => coherence q.1 q.2.1 q.2.2), n⟩
  | _ =>
    let n := runFft r
    let (_, _, syy) := sumSpectra n n a x y
    -- amplitude of a sine at full scale: 4 ÷ N under the Hann window
    ⟨[], syy.map (fun p => ⟨4 * fxSqrt (p / (a : Nat)) / (n : Nat), 0⟩), List.replicate (n / 2 + 1) 0, n⟩

/-! ### Result blocks (R265) -/

/-- Position of the largest magnitude. -/
def argMax (l : List Int) : Nat :=
  (l.zipIdx.foldl (fun (m : Nat × Nat) q => if m.2 < q.1.natAbs then (q.2, q.1.natAbs) else m) (0, 0)).1

/-- 20 log₁₀ of a magnitude squared, in s7.8 dB. -/
def magDb (p : Int) : Int := if p ≤ 0 then -32768 else satS 16 (fxNarrow 8 (fxDiv (10 * fxLog2 p) fxLog2Ten))

/-- f_i of a bin (R265). -/
def binFreq (flo fhi : Int) (bins i : Nat) : Int := fxMul flo (fxPow (fxDiv fhi flo) (fxRat i (bins - 1 : Nat)))

/-- A bin's power, complex average and coherence from the source bins (R265). -/
def binValue (rate : Nat) (z : RunRes) (flo fhi : Int) (bins i : Nat) (delay : Int) : Int × Cx × Int :=
  let f := binFreq flo fhi bins i
  let half := fxPow (fxDiv fhi flo) (fxRat 1 (2 * (bins - 1) : Nat))
  let pos (v : Int) : Nat := (fxMul v (fxOf z.size) / (rate : Int) / 2 ^ 64).toNat
  let lo := (fxDiv f half * z.size / rate + fxOne - 1) / fxOne
  let ks := (List.range (pos (fxMul f half) + 1 - lo.toNat)).map (· + lo.toNat) |>.filter (· ≤ z.size / 2)
  let turn (k : Nat) : Cx :=
    let w := fxMul (2 * fxPi * k / z.size) (delay * 2 ^ 56)
    ⟨fxCos w, fxSin w⟩
  let hv (k : Nat) : Cx := (nth ⟨0, 0⟩ z.h k).mul (turn k)
  match ks with
  | [] =>
    let x := fxMul f (fxOf z.size) / (rate : Int)
    let k := (x / 2 ^ 64).toNat
    let w := x % 2 ^ 64
    let mix (a b : Int) : Int := a + fxMul w (b - a)
    let h := (hv k).add (((hv (k + 1)).sub (hv k)).scale w)
    (h.norm2, h, mix (nth fxOne z.coh k) (nth fxOne z.coh (k + 1)))
  | _ =>
    let n : Int := ks.length
    (ks.foldl (fun m k => m + (nth ⟨0, 0⟩ z.h k).norm2) 0 / n,
      ks.foldl (fun m k => m.add (hv k)) ⟨0, 0⟩,
      ks.foldl (fun m k => m + nth fxOne z.coh k) 0 / n)

/-- A bin's record of 8 bytes (R265). -/
def binBytes (v : Int × Cx × Int) : List Byte :=
  let phase := satS 16 (fxNarrow 15 (fxDiv (fxAtan2 v.2.1.im v.2.1.re) fxPi))
  let coh := (satU 16 (fxNarrow 16 v.2.2)).toNat
  bytesOf 2 (lowBits 16 (magDb v.1)) ++ bytesOf 2 (lowBits 16 phase) ++ bytesOf 2 coh ++ [0, 0]

/-- A number of bits that holds the largest magnitude of an IR, as a power of two of full scale. -/
def irExp (ir : List Int) : Int :=
  let top := ir.foldl (fun m v => max m v.natAbs) 1
  (top.log2 : Int) + 1 - 64

/-- γ² threshold in fixed point (R274). -/
def cohMin (s : State) : Int :=
  let c := actF s Reg.MEA_LIVE_CFG.base 31 24
  ((if c = 0 then 0x80 else c : Nat) : Int) * 2 ^ 56

/-- What a result block needs beside its data: `turn` is the part of DELAY whose phase the source bins still carry, `freq`
a tone's frequency. -/
structure BlockHead where
  kind : Nat
  flags : Nat
  block : Nat
  index : Nat
  avg : Nat
  delay : Int
  turn : Int
  flo : Nat
  fhi : Nat
  freq : Int

/-- The amplitude of the averaged spectrum at a frequency: the linear interpolation of the two nearest source bins, as
R265 has it for bins; zero at and above half the rate. -/
def toneAt (rate : Nat) (z : RunRes) (f : Int) : Int :=
  let x := fxMul f (fxOf z.size) / (rate : Int)
  let k := (x / 2 ^ 64).toNat
  let v (i : Nat) : Int := (nth ⟨0, 0⟩ z.h i).re
  if z.size / 2 ≤ k then 0 else v k + fxMul (x % 2 ^ 64) (v (k + 1) - v k)

/-- TONE_LEVEL, TONE_PHASE and HARM2 to HARM5 (R264, R265): levels from the averaged spectrum at the tone's frequency and
its multiples; against what the phase is taken no rule says, and it is free. -/
def toneBytes (s : State) (z : RunRes) (f : Int) : List Byte :=
  let level (i : Nat) : Int := let v := toneAt (rateHz s) z (f * (i : Nat)); magDb (fxMul v v)
  let rel (i : Nat) : Int := if level i = -32768 ∨ level 1 = -32768 then -32768 else satS 16 (level i - level 1)
  bytesOf 2 (lowBits 16 (level 1)) ++ bytesOf 2 (Config.freeNat (s.free + 1)) ++
    [2, 3, 4, 5].flatMap (fun i => bytesOf 2 (lowBits 16 (rel i)))

/-- A result block written at an address, SEQ last (R265); `key` is the place whose SEQ it counts. The IR's exponent is
left open above the least one that holds it. -/
def writeResult (key a : Nat) (hd : BlockHead) (z : RunRes) (bins : Nat) (s : State) : State :=
  let e := irExp z.ir + (Config.freeNat s.free % 32 : Nat)
  let seq := tabGet 0 s.mea.seqs key + 1
  let rate := rateHz s
  let vals := (List.range bins).map (fun i => binValue rate z ((hd.flo : Int) * 2 ^ 57) ((hd.fhi : Int) * 2 ^ 57) bins i hd.turn)
  let low := (vals.filter (fun v => decide (v.2.2 < cohMin s))).length
  let flags := hd.flags + if bins < 2 * low then 8 else 0
  let shift := 33 + e
  let irv (v : Int) : Nat := lowBits 32 (satS 32 (if 0 ≤ shift then roundShift v shift.toNat else v * (2 ^ (-shift).toNat : Nat)))
  let tone := if hd.kind = 4 then toneBytes s z hd.freq else List.replicate 12 0
  let head := bytesOf 2 1 ++ bytesOf 1 hd.kind ++ bytesOf 1 flags ++ bytesOf 4 0 ++ bytesOf 8 hd.block ++
    bytesOf 4 z.ir.length ++ bytesOf 2 bins ++ bytesOf 2 hd.index ++ bytesOf 1 (lowBits 8 e) ++ bytesOf 2 hd.avg ++ [0] ++
    bytesOf 4 (lowBits 32 hd.delay) ++ bytesOf 4 hd.flo ++ bytesOf 4 hd.fhi ++ tone ++ List.replicate 12 0
  let body := z.ir.flatMap (fun v => bytesOf 4 (irv v)) ++ vals.flatMap binBytes
  let s1 := storeMem 6 0 { s with free := s.free + 8 } a (head ++ body)
  storeMem 6 0 { s1 with mea := { s1.mea with seqs := tabSet key (seq % 2 ^ 32) s1.mea.seqs } } (a + 4) (bytesOf 4 seq)

/-- A sample at full scale. -/
def fullScale (v : Int) : Bool := v == 8388607 || v == -8388608

/-- A channel's result of a run written (R265). -/
def runResultWrite (r : MeaRun) (s : State) (q : Nat × Nat) : State :=
  let (c, rank) := q
  let z := runProcess s r c
  let bins := runBins r
  let flags := (if r.memerr.contains c then 1 else 0) + (if r.concealed.contains c then 2 else 0) +
    if (tabGet [] r.caps c).any fullScale then 4 else 0
  let delay : Int := (argMax z.ir : Int) * 256
  let a := runResult r + rank * blockSize z.ir.length bins
  writeResult a a ⟨genType r.gen, flags, extBlk s r.block, c, runAvg r, delay, delay, fld (recW r.cfg 8) 23 0,
      fld (recW r.cfg 9) 23 0, genF1 r.gen⟩ z bins s

/-- A TASK descriptor submitted as source MEA (R264, R270). -/
def meaTask (w : List Word) (s : State) : State := offerHold (descOfWords 4 (recW w 0) (recW w 1) (recW w 2) (recW w 3)) s

/-- A run's computation finishes (R264, R265): results written and DONE entered, or an error in the work area. -/
def runDone (s : State) : State :=
  match s.mea.queue with
  | [] => s
  | k :: rest =>
    let r := meaRun s k
    let s0 := { s with mea := { s.mea with queue := rest } }
    match ueIn s (runWork r) (workNeed r) with
    | a :: _ => runFail k 7 (reportDramUe 1 6 0 a s0)
    | [] =>
      let s1 := ((runChans r).zipIdx).foldl (runResultWrite r) s0
      let s2 := count (Reg.RUNS1.at k) (modRun k (fun x => { x with caps := [] }) s1)
      let s3 := runShow k 4 0 s2
      when (bit (recW r.cfg 14) 0) (meaTask (r.cfg.drop 10)) s3

/-! ### Live estimation (R267 to R271) -/

/-- Live estimation runs (R255, R274). -/
def liveOn (s : State) : Bool := accepted s 4 && accepted s 5 && actB s Reg.MEA_LIVE_CTRL.base 31

/-- Enabled pairs (R267). -/
def enabledPairs (s : State) : List Nat := (List.range 256).filter (fun p => actB s (Reg.PAIR0.at p) 31)

/-- Enabled pairs whose output is computed at the rate. -/
def livePairs (s : State) : List Nat := (enabledPairs s).filter (fun p => decide (actF s (Reg.PAIR0.at p) 10 0 < objCount s))

/-- MIC and OUT of a pair. -/
def pairMic (s : State) (p : Nat) : Nat := actF s (Reg.PAIR0.at p) 21 16

def pairOut (s : State) (p : Nat) : Nat := actF s (Reg.PAIR0.at p) 10 0

/-- A pair not yet estimated. -/
def pairZero : PairSt := ⟨none, [], [], [], [], 0, none, 0, false⟩

/-- A pair's estimate. -/
def pairSt (s : State) (p : Nat) : PairSt := tabGet pairZero s.mea.pairs p

/-- A pair's estimate changed. -/
def modPair (p : Nat) (f : PairSt → PairSt) (s : State) : State :=
  { s with mea := { s.mea with pairs := tabMod pairZero p f s.mea.pairs } }

/-- Samples a listened signal keeps: what a delay search reads of it, ±1 s about 65,536 samples of 48 kHz (R269). -/
def listenLen (s : State) : Nat := 2 * rateHz s + 65536 * 2 ^ rateCode s + 1024

/-- The effects of a COMMIT on MEA: a newly enabled pair is searched first (R269). -/
def meaCommit (o n : State) (as : List Nat) : State :=
  let ps := as.filterMap (fun a =>
    if Reg.PAIR0.base ≤ a ∧ a < Reg.PAIR0.base + 2048 ∧ !actB o a 31 ∧ actB n a 31 then some ((a - Reg.PAIR0.base) / 8) else none)
  ps.foldl (fun t p => modPair p (fun x => { x with searched := none }) t) n

/-- A block heard on a signal. -/
def hear (s : State) (x : Blk) (l : Listen) : Listen :=
  ⟨(x.smp.reverse ++ l.smp).take (listenLen s), ((x.silent || x.concealed || x.memerr) :: l.bad).take (listenLen s / 16)⟩

/-- Every signal of the enabled pairs heard for block `b` (R267). What was heard of a signal that no enabled pair listens to
is dropped, so that a frame holds consecutive samples only (R268). -/
def hearAll (b : Nat) (s0 : State) : State :=
  if !liveOn s0 then { s0 with mea := { s0.mea with mics := [], refs := [] } } else
    let s := { s0 with mea := { s0.mea with
      mics := s0.mea.mics.filter (fun q => (livePairs s0).any (fun p => pairMic s0 p == q.1))
      refs := s0.mea.refs.filter (fun q => (livePairs s0).any (fun p => pairOut s0 p == q.1)) } }
    let mics := ((livePairs s).map (pairMic s)).eraseDups
    let outs := ((livePairs s).map (pairOut s)).eraseDups
    let s1 := mics.foldl (fun t c => { t with mea := { t.mea with mics := tabMod ⟨[], []⟩ c (hear t (capBlock t c b)) t.mea.mics } }) s
    outs.foldl (fun t o => { t with mea := { t.mea with
      refs := tabMod ⟨[], []⟩ o (hear t ((blkAt t .out o b).getD (silentBlk b))) t.mea.refs } }) s1

/-- Captures of every block that the router and the correction engine have completed. -/
def captureUpTo : Nat → State → State
  | 0, s => s
  | n + 1, s =>
    let b := s.mea.capNext
    if (unitSt s uRTE).next ≤ b ∨ (unitSt s uCOR).next ≤ b then s else
      let s1 := (s.mea.runs.map (·.1)).foldl (runCaptureBlock b) s
      let s2 := (s1.mea.runs.map (·.1)).foldl (fun t k => captureEnd k t) (hearAll b s1)
      captureUpTo n { s2 with mea := { s2.mea with capNext := b + 1 } }

/-- MEA's block: generators play, and captures follow (R257, R262); `full` lists runs whose staging area filled. -/
def meaBlock (b : Nat) (full : List Nat) (s : State) : State :=
  let s1 := genBlocks b s
  captureUpTo 16 (full.foldl (fun t k => if (meaRun t k).state = 2 then runFail k 5 t else t) s1)

/-- 2^LNFFT and the average's weight 1 ÷ 2^LAVG (R274). -/
def liveFft (s : State) : Nat := 2 ^ clampN 12 16 (actF s Reg.MEA_LIVE_CFG.base 4 0)

def liveAvg (s : State) : Nat := 2 ^ actF s Reg.MEA_LIVE_CFG.base 11 8

/-- A frame of a listened signal that ended `ofs` samples ago, oldest first. -/
def liveFrame (l : Listen) (n ofs : Nat) : List Int := (slice l.smp ofs n).reverse

/-- A frame meets a marked block (R268). -/
def frameBad (l : Listen) (n ofs : Nat) : Bool :=
  decide (l.smp.length < ofs + n) || (slice l.bad (ofs / 16) ((ofs + n - 1) / 16 + 1 - ofs / 16)).any id

/-- The reference frame stands at or above LIVE_FLOOR (R268). -/
def loudEnough (s : State) (fr : List Int) : Bool :=
  let f := actF s Reg.MEA_LIVE_CFG.base 23 16
  let th := fxDb (fxOf (-((if f = 0 then 60 else f : Nat) : Int)))
  decide (fxMul th th * fr.length * 2 ^ 46 ≤ fr.foldl (fun m v => m + v * v) 0 * 2 ^ 64)

/-- One pair's frame (R268). -/
def pairFrame (s : State) (p : Nat) : State :=
  let n := liveFft s
  let x := pairSt s p
  let ref := tabGet ⟨[], []⟩ s.mea.refs (pairOut s p)
  let mic := tabGet ⟨[], []⟩ s.mea.mics (pairMic s p)
  match x.lag with
  | none => s
  | some lag =>
    let d := roundShift lag 8
    let ro := d.toNat
    let mo := (-d).toNat
    let fr := liveFrame ref n ro
    if frameBad ref n ro || frameBad mic n mo || !loudEnough s fr then s else
      let win (l : List Int) : List Int := (realOf l).mapIdx (fun i v => fxMul v (hann n i))
      let fx := dft n (win fr)
      let fy := dft n (win (liveFrame mic n mo))
      let w : Int := fxOne / (liveAvg s : Nat)
      let ema (old v : Int) : Int := old + fxMul w (v - old)
      let sxx := fx.mapIdx (fun k v => ema (nth 0 x.sxx k) v.norm2)
      let syy := fy.mapIdx (fun k v => ema (nth 0 x.syy k) v.norm2)
      let sxy := (fx.zip fy).mapIdx (fun k v =>
        let o := nth ⟨0, 0⟩ x.sxy k
        o.add (((v.2.mul v.1.conj).sub o).scale w))
      let h := sxy.mapIdx (fun k v =>
        let g := coherence v (nth 0 sxx k) (nth 0 syy k)
        let o := nth ⟨0, 0⟩ x.h k
        if g < cohMin s then o else o.add (((v.over (nth 0 sxx k)).sub o).scale (fxMul g w)))
      modPair p (fun y => { y with
        sxx := sxx, syy := syy, sxy := sxy, h := h, frames := y.frames + 1, block := s.mea.capNext - 1
        full := (liveFrame mic n mo).any fullScale }) s

/-- Every half frame each enabled pair takes a frame (R268). -/
def liveFrames (s : State) : State :=
  let n := 16 * s.mea.capNext
  if !liveOn s || decide (n < s.mea.lastFrame + liveFft s / 2) then s else
    (livePairs s).foldl pairFrame { s with mea := { s.mea with lastFrame := n / (liveFft s / 2) * (liveFft s / 2) } }

/-- FIND_PERIOD in seconds (R274). -/
def findPeriod (s : State) : Nat := let f := actF s Reg.MEA_LIVE_CTRL.base 23 16; if f = 0 then 10 else f

/-- Seconds of media time. -/
def monoSec (s : State) : Nat := s.time.mono / subPerSec

/-- The pair whose delay is searched next (R269). -/
def searchPair (s : State) : Option Nat :=
  match (livePairs s).find? (fun p => (pairSt s p).searched.isNone) with
  | some p => some p
  | none => (livePairs s).find? (fun p => decide ((pairSt s p).searched.getD 0 + findPeriod s ≤ monoSec s))

/-- A listened signal at 48 kHz, newest sample first (R269 step 1): itself at that rate, else decimated by a filter that is
not given. -/
def decimated (s : State) (x : List Int) : List Int :=
  let q := 2 ^ rateCode s
  if q = 1 then x.map (· * 2 ^ 23)
  else (List.range (x.length / q)).map (fun m =>
    ((slice x (m * q) 64).mapIdx (fun j v => v * Config.decimTap (rateHz s) j)).foldl (· + ·) 0)

/-- The correlation of `n` reference samples, the newest of them `age` samples old, with a microphone `lag` samples later;
both newest first. -/
def correlate (ref mic : List Int) (n age : Nat) (lag : Int) : Int :=
  (((ref.drop age).take n).zip (mic.drop ((age : Int) - lag).toNat)).foldl (fun m q => m + q.1 * q.2) 0

/-- The peak exceeds every other peak by at least 6.02 dB (R269): a peak is a correlation whose neighbours are no larger. -/
def peakClear (c : List Int) (k : Nat) : Bool :=
  let m (i : Nat) : Nat := (nth 0 c i).natAbs
  let top := m k
  top != 0 && ((c.zip (0 :: c)).zip (c.drop 1 ++ [0])).zipIdx.all (fun q =>
    let v := q.1.1.1.natAbs
    q.2 == k || decide (v < q.1.1.2.natAbs) || decide (v < q.1.2.natAbs) ||
      decide (fxMul (fxOf v) (fxDb (602 * fxOne / 100)) ≤ fxOf top))

/-- What a delay search of two signals finds (R269): the lag in s23.8. -/
def lagOf (s : State) (ref mic : List Int) : Option Int :=
  if ref.all (· == 0) || mic.all (· == 0) then none
  else
    let r := decimated s ref
    let m := decimated s mic
    let c := (List.range 96001).map (fun i => correlate r m 65536 48000 ((i : Int) - 48000))
    let k := argMax c
    if !peakClear c k then none
    else
      let q : Nat := 2 ^ rateCode s
      let mid : Int := ((k : Int) - 48000) * q
      let at1 (i : Nat) : Int := correlate ref mic (65536 * q) (48000 * q + 65) (mid + i - 65)
      let fine := (List.range 131).map at1
      let j := 1 + argMax ((fine.drop 1).take 129)
      let a : Int := (nth 0 fine (j - 1)).natAbs
      let b : Int := (nth 0 fine j).natAbs
      let d : Int := (nth 0 fine (j + 1)).natAbs
      let den := a - 2 * b + d
      let part := if den = 0 then 0 else roundDiv (128 * (d - a) * (if den < 0 then 1 else -1)) den.natAbs
      some ((mid + j - 65) * 256 + part)

/-- A delay search of one pair (R269). -/
def delaySearch (s : State) : State :=
  match searchPair s with
  | none => s
  | some p =>
    if !liveOn s then s
    else
      let s1 := modPair p (fun x => { x with searched := some (monoSec s) }) s
      match lagOf s (tabGet ⟨[], []⟩ s.mea.refs (pairOut s p)).smp (tabGet ⟨[], []⟩ s.mea.mics (pairMic s p)).smp with
      | none => count Reg.MEA_NODELAY_CNT.base s1
      | some lag =>
        match (pairSt s p).lag with
        | none => modPair p (fun x => { x with lag := some lag }) s1
        | some old =>
          if 64 * 256 < (lag - old).natAbs then
            raise 0x1E (bytesOf 1 p ++ [0] ++ bytesOf 4 (lowBits 32 old) ++ bytesOf 4 (lowBits 32 lag))
              (modPair p (fun x => { x with lag := some lag, sxx := [], syy := [], sxy := [], h := [], frames := 0 }) s1)
          else modPair p (fun x => { x with lag := some lag }) s1

/-- LBINS (R274). -/
def liveBins (s : State) : Nat := 2 ^ clampN 8 13 (actF s Reg.MEA_LIVE_CFG.base 15 12)

/-- One pair's estimate written to a copy (R270); its SEQ counts the writes of both copies. The frames were taken with the
lag in whole samples removed. -/
def pairPublish (base copy : Nat) (s : State) (p : Nat) : State :=
  let x := pairSt s p
  let bins := liveBins s
  let coh := (x.sxy.zip (x.sxx.zip x.syy)).map (fun q => coherence q.1 q.2.1 q.2.2)
  let z : RunRes := ⟨[], x.h, coh, liveFft s⟩
  let lag := x.lag.getD 0
  let place (c : Nat) : Nat := base + (2 * p + c) * blockSize 0 bins
  writeResult (place 0) (place copy) ⟨5, if x.full then 4 else 0, extBlk s x.block, p, min 65535 x.frames, lag,
    lag - 256 * roundShift lag 8, 0xA00, 0x271000, 0⟩ z bins s

/-- Every PUBLISH ticks each enabled pair's estimate is written (R270). -/
def livePublish (s : State) : State :=
  let every := let q := actF s Reg.MEA_LIVE_CTRL.base 15 0; if q = 0 then 1000 else q
  if !liveOn s || decide (nowTick s < s.mea.lastPub + every) then s else
    let base := addrOf (actW s Reg.MEA_LIVE_BASE_LO.base) (actW s Reg.MEA_LIVE_BASE_HI.base)
    let ps := enabledPairs s
    let copy := s.mea.copy
    let s1 := ps.foldl (pairPublish base copy) { s with mea := { s.mea with lastPub := nowTick s, copy := 1 - copy } }
    let s2 := raise 0x1F (bytesOf 1 copy ++ bytesOf 2 ps.length) s1
    when (actB s Reg.MEA_LIVE_CTRL.base 30) (meaTask ((List.range 4).map (fun i => actW s (Reg.MEA_LIVE_TASK.at i)))) s2

end Sys2Proof.Machine
end

