-- ==== Sys2Proof/Machine/Dma.lean ====
section
/-! DEFINITION. The DMA engines' channels, request lines and state (R535 to R548). What a chain moves goes over the
control fabric and stands with it. -/

namespace Sys2Proof.Machine

open Sys2Proof

/-- A channel that has not run. -/
def dmaChanZero : DmaChan := ⟨0, 0, 0, 0, [], false, 0, 0xFFFFFFFF, []⟩

/-- An engine: B or A. -/
def dmaEng (s : State) (b : Bool) : DmaEngine := if b then s.dma.b else s.dma.a

/-- An engine changed. -/
def modEng (b : Bool) (f : DmaEngine → DmaEngine) (s : State) : State :=
  { s with dma := if b then { s.dma with b := f s.dma.b } else { s.dma with a := f s.dma.a } }

/-- A channel. -/
def dmaChan (s : State) (b : Bool) (c : Nat) : DmaChan := tabGet dmaChanZero (dmaEng s b).chans c

/-- Channels of an engine (R535). -/
def dmaCount (b : Bool) : Nat := if b then 4 else 16

/-- First register of a channel (R546). -/
def dmaBase (b : Bool) (c : Nat) : Nat := (if b then 0x101C0400 else 0x101C0100) + c * 0x20

/-- A channel's status, current descriptor and byte count shown (R546). -/
def dmaShow (b : Bool) (c : Nat) (s : State) : State :=
  let x := dmaChan s b c
  setN (dmaBase b c + 0x14) (x.done % 2 ^ 24)
    (setN (dmaBase b c + 0x10) (x.cur / 32) (setN (dmaBase b c + 0x0C) (x.code % 8 * 256 + x.state) s))

/-- A channel changed and shown. -/
def modChanD (b : Bool) (c : Nat) (f : DmaChan → DmaChan) (s : State) : State :=
  dmaShow b c (modEng b (fun e => { e with chans := tabMod dmaChanZero c f e.chans }) s)

/-- PAR owns the channel (R535). -/
def dmaOwned (s : State) (b : Bool) (c : Nat) : Bool := b && decide (c < 2) && accepted s 13

/-- A privileged channel (R535). -/
def dmaPriv (b : Bool) (c : Nat) : Bool := !b && decide (c < 4)

/-- A channel holds its engine. -/
def dmaRuns (x : DmaChan) : Bool := x.state == 2 || x.state == 3

/-- A write to `DMA_CH_GO_HI` (R535, R536, R545). -/
def dmaGo (b : Bool) (c : Nat) (v : Word) (s : State) : State :=
  if dmaRuns (dmaChan s b c) then count Reg.DMA_DENY_CNT.base s
  else
    let s1 := setN (dmaBase b c + 4) (fld v 7 0) s
    let first := fld (regW s1 (dmaBase b c)) 31 5 * 32 + 2 ^ 32 * fld v 7 0
    modChanD b c (fun _ => { dmaChanZero with state := 1, first := first, cur := first }) s1

/-- A channel's chain ends in a state (R544); its engine is free again. -/
def dmaEnd (b : Bool) (c st code : Nat) (s : State) : State :=
  modEng b (fun e => { e with run := if e.run = some c then none else e.run })
    (modChanD b c (fun x => { x with state := st, code := code }) s)

/-- STOP written to `DMA_CH_CTRL` (R544): a chain that runs or waits its turn stops; each burst is whole already. -/
def dmaStop (b : Bool) (c : Nat) (s : State) : State :=
  let x := dmaChan s b c
  if x.state = 1 ∨ dmaRuns x then dmaEnd b c 5 0 s else s

/-- Credits of a request line (R541, R547); line 0 is none. -/
def credits (s : State) (l : Nat) : Nat := if l = 0 ∨ 31 < l then 0 else fld (regW s (Reg.DMA_REQ_CNT.at (l - 1))) 15 0

/-- A fetched descriptor's fields (R538, R539). -/
structure DmaDesc where
  src : Nat
  dst : Nat
  cnt : Nat
  last : Bool
  crcEn : Bool
  crcCont : Bool
  notify : Bool
  fill : Bool
  sw : Nat
  dw : Nat
  req : Nat
  burst : Nat
  next : Nat
  deriving DecidableEq, Repr

/-- The fields of 32 bytes. -/
def dmaDesc (bs : List Byte) : DmaDesc :=
  let c := getLE bs 20 2
  ⟨getLE bs 0 8, getLE bs 8 8, getLE bs 16 4, c.testBit 0, c.testBit 1, c.testBit 2, c.testBit 3, c.testBit 4,
    c / 32 % 8, c / 256 % 8, getLE bs 22 1, getLE bs 23 1, getLE bs 24 4⟩

/-- RUNNING or WAITING, as the running channel's request line stands (R541, R546). -/
def dmaPace (b : Bool) (s : State) : State :=
  match (dmaEng s b).run with
  | none => s
  | some c =>
    let x := dmaChan s b c
    let d := dmaDesc x.desc
    let left := x.fetched && (decide (x.done < d.cnt) || !x.hold.isEmpty)
    let waits := left && decide (d.req ≠ 0) && decide (credits s d.req = 0)
    modChanD b c (fun y => { y with state := if waits then 3 else 2 }) s

/-- Both engines' paces, after credits have changed. -/
def dmaPaces (s : State) : State := dmaPace true (dmaPace false s)

/-- Credits set on a line. -/
def creditSet (l n : Nat) (s : State) : State := dmaPaces (setN (Reg.DMA_REQ_CNT.at (l - 1)) (n % 2 ^ 16) s)

/-- A write to `DMA_REQ_ADD`l (R541): credits beyond 65,535 are lost and counted. -/
def reqAdd (l : Nat) (v : Word) (s : State) : State :=
  let n := credits s l + fld v 15 0
  if l = 0 ∨ 15 < l then s
  else creditSet l (min n 65535) (countN Reg.DMA_DENY_CNT.base (n - 65535) s)

/-- A fabric write to a channel's register, refused and counted while PAR owns the channel (R535). -/
def dmaOwnerGate (b : Bool) (c : Nat) (f : State → State) (s : State) : State :=
  if dmaCount b ≤ c then s else if dmaOwned s b c then count Reg.DMA_DENY_CNT.base s else f s

/-- The next ready channel of a kind, round robin from the one after the channel last run (R536). -/
def dmaNext (s : State) (b priv : Bool) : Option Nat :=
  let e := dmaEng s b
  let n := dmaCount b
  let last := if priv then e.lastPriv else e.lastOrd
  ((List.range n).map (fun (k : Nat) => (last + 1 + k) % n)).find?
    (fun c => (dmaChan s b c).state == 1 && dmaPriv b c == priv)

/-- An engine takes the next ready channel (R536). -/
def channelTake (b : Bool) (s : State) : State :=
  if (dmaEng s b).run ≠ none then s
  else
    match dmaNext s b true with
    | some c => modEng b (fun e => { e with run := some c, lastPriv := c })
        (modChanD b c (fun x => { x with state := 2 }) s)
    | none =>
      match dmaNext s b false with
      | some c => modEng b (fun e => { e with run := some c, lastOrd := c })
          (modChanD b c (fun x => { x with state := 2 }) s)
      | none => s

/-- The channel byte of the DMA events (R548). -/
def dmaByte (b : Bool) (c : Nat) : Nat := (if b then 16 else 0) + c

/-- A chain ends in ERROR (R544). -/
def dmaError (b : Bool) (c code : Nat) (s : State) : State :=
  let cur := (dmaChan s b c).cur
  raise 0x81 (bytesOf 1 (dmaByte b c) ++ bytesOf 1 code ++ bytesOf 4 (cur / 32))
    (stick Reg.DMA_STAT.base 0 (count Reg.DMA_ERR_CNT.base (dmaEnd b c 6 code s)))

/-- The end (exclusive) of the region of R457 that holds an address; none outside every region. -/
def regionEnd (a : Nat) : Option Nat :=
  if a < 0x100000 then some 0x100000
  else if 0x10000000 ≤ a ∧ a < 0x101E0000 then some 0x101E0000
  else if 0x40000000 ≤ a ∧ a < 0x41000000 then some 0x41000000
  else if druBase ≤ a ∧ a < druBase + 17 * 0x100000 then some (druBase + 17 * 0x100000)
  else if dramBase ≤ a ∧ a < 0x1400000000 then some 0x1400000000
  else none

/-- A register-block address. -/
def inBlocks (a : Nat) : Bool := decide (0x10000000 ≤ a) && decide (a < 0x101E0000)

/-- Bytes of one sample of a layout (R542). -/
def sampleSize (w : Nat) : Nat := if w = 1 then 3 else 4

/-- Destination bytes of a descriptor (R542). -/
def dmaDstLen (d : DmaDesc) : Nat := if d.sw = 0 then d.cnt else d.cnt / sampleSize d.sw * sampleSize d.dw

/-- A range of `n` bytes runs past the end of its region (R540 code 5); an address outside every region is unassigned
and no error. -/
def pastRegion (a n : Nat) : Bool :=
  match regionEnd a with
  | some e => decide (e < a + n)
  | none => false

/-- The refusal code of a fetched descriptor on a channel, 0 where it is sound (R540). -/
def descCode (b : Bool) (c : Nat) (bs : List Byte) : Nat :=
  let d := dmaDesc bs
  let n := dmaDstLen d
  let reg (a : Nat) : Bool := inBlocks a && decide (a % 4 ≠ 0 ∨ d.cnt % 4 ≠ 0)
  if 2 ^ 40 ≤ d.src ∨ 2 ^ 40 ≤ d.dst ∨ d.cnt = 0 ∨ 2 ^ 24 ≤ d.cnt ∨ 2048 ≤ getLE bs 20 2 ∨ 31 < d.req ∨ 5 < d.burst ∨
      3 < d.sw ∨ 3 < d.dw then 2
  else if (!dmaPriv b c && decide (d.sw ≠ 0 ∨ d.dw ≠ 0)) || decide ((d.sw = 0) ≠ (d.dw = 0)) then 3
  else if d.sw ≠ 0 ∧ (d.cnt % sampleSize d.sw ≠ 0 ∨ (¬ d.fill ∧ d.src % sampleSize d.sw ≠ 0) ∨
      d.dst % sampleSize d.dw ≠ 0) then 4
  else if (!d.fill && (pastRegion d.src d.cnt || reg d.src)) || pastRegion d.dst n || reg d.dst then 5
  else 0

/-- A descriptor address lies in the scratchpad or usable DRAM (R540 code 1). -/
def descPlace (s : State) (a : Nat) : Bool := decide (a + 32 ≤ 0x100000) || inDram s a 32

end Sys2Proof.Machine
end

