-- ==== Sys2Proof/Machine/Flags.lean ====
section
/-! DEFINITION. Flag computations of the Druora cores (R467, R469, R470, R475) and their accumulator arithmetic
(R473, R474). -/

namespace Sys2Proof.Machine

open Sys2Proof

/-- What an instruction does to the flags: a flag that is `none` is unchanged; `sv` and `av` set their sticky bits. -/
structure FlagSet where
  n : Option Bool
  z : Option Bool
  c : Option Bool
  v : Option Bool
  sv : Bool
  av : Bool
  deriving DecidableEq, Repr

/-- No flag changes. -/
def noFlags : FlagSet := ⟨none, none, none, none, false, false⟩

/-- N and Z of a result. -/
def nzOf (r : Word) : FlagSet := { noFlags with n := some r.msb, z := some (r == 0) }

/-- One status bit replaced where there is a new value. -/
def putBit (w : Word) (i : Nat) : Option Bool → Word
  | none => w
  | some b => putFld w i i (if b then 1 else 0)

/-- SR after an instruction (R467). -/
def putFlags (f : FlagSet) (sr : Word) : Word :=
  let w := putBit (putBit (putBit (putBit sr 0 f.n) 1 f.z) 2 f.c) 3 f.v
  let w1 := if f.sv then putFld w 4 4 1 else w
  if f.av then putFld w1 5 5 1 else w1

/-- Ra + Rb with NZCV. -/
def aluAdd (a b : Word) : Word × FlagSet :=
  let r := a + b
  (r, { nzOf r with c := some (decide (2 ^ 32 ≤ a.toNat + b.toNat)), v := some (satHit 32 (a.toInt + b.toInt)) })

/-- Ra − Rb with NZCV; C is 1 when no borrow occurs. -/
def aluSub (a b : Word) : Word × FlagSet :=
  let r := a - b
  (r, { nzOf r with c := some (decide (b.toNat ≤ a.toNat)), v := some (satHit 32 (a.toInt - b.toInt)) })

/-- A saturated result: NZ, V where it saturates, SV with it. -/
def aluSat (x : Int) : Word × FlagSet :=
  let r := wordOfInt (satS 32 x)
  (r, { nzOf r with v := some (satHit 32 x), sv := satHit 32 x })

/-- A saturated result that leaves V alone (ABS, NEG). -/
def aluSatNz (x : Int) : Word × FlagSet :=
  let r := wordOfInt (satS 32 x)
  (r, { nzOf r with sv := satHit 32 x })

/-- A result with NZ only. -/
def aluNz (r : Word) : Word × FlagSet := (r, nzOf r)

/-- Shift left by 0 to 31; C is the last bit shifted out, a free value where none is (R469). -/
def aluShl (free : Bool) (a : Word) (k : Nat) : Word × FlagSet :=
  let r := a <<< k
  (r, { nzOf r with c := some (if k = 0 then free else a.getLsbD (32 - k)) })

/-- Logical right shift. -/
def aluShr (free : Bool) (a : Word) (k : Nat) : Word × FlagSet :=
  let r := a >>> k
  (r, { nzOf r with c := some (if k = 0 then free else a.getLsbD (k - 1)) })

/-- Arithmetic right shift. -/
def aluAsr (free : Bool) (a : Word) (k : Nat) : Word × FlagSet :=
  let r := a.sshiftRight k
  (r, { nzOf r with c := some (if k = 0 then free else a.getLsbD (k - 1)) })

/-- Leading bits of a number equal to its sign bit, from bit `i` − 1 down. -/
def signRun (a : Word) : Nat → Nat
  | 0 => 0
  | i + 1 => if a.getLsbD i == a.msb then 1 + signRun a i else 0

/-- CLS: leading sign bits minus 1, with Z only. -/
def aluCls (a : Word) : Word × FlagSet :=
  let r := wordOf (signRun a 32 - 1)
  (r, { noFlags with z := some (r == 0) })

/-- The 72-bit sum of an accumulator and a value, and whether it wrapped (R473). -/
def accAdd (a : BitVec 72) (x : Int) : BitVec 72 × Bool := (BitVec.ofInt 72 (a.toInt + x), satHit 72 (a.toInt + x))

/-- RND (R475): shift, SAT code: the result and its flags. -/
def accRound (a : BitVec 72) (sh sat : Nat) : Word × FlagSet :=
  let v := roundShift a.toInt sh
  let w := match sat with | 0 => 32 | 1 => 32 | 2 => 24 | _ => 16
  let r := wordOfInt (if sat = 0 then v else satS w v)
  (r, { nzOf r with v := some (satHit w v), sv := satHit w v })

/-- A condition code holds under SR (R476). -/
def condHolds (sr : Word) (cond : Nat) : Bool :=
  let n := bit sr 0
  let z := bit sr 1
  let c := bit sr 2
  let v := bit sr 3
  match cond with
  | 0 => true
  | 1 => z
  | 2 => !z
  | 3 => n != v
  | 4 => n == v
  | 5 => !z && n == v
  | 6 => z || n != v
  | 7 => c
  | 8 => !c
  | 9 => n
  | 10 => !n
  | 11 => v
  | _ => !v

end Sys2Proof.Machine
end

