-- ==== Sys2Proof/Machine/Operands.lean ====
section
/-! DEFINITION. Operand forms of the Druora cores: registers by code (R466), instruction decoding (R468 to R476),
addressing modes (R472), and the sequence of instructions with its delay slots, repeats and loops (R476 to R478). -/

namespace Sys2Proof.Machine

open Sys2Proof

/-! ### Cores and their registers -/

/-- A stopped core. -/
def coreZero : CoreSt :=
  ⟨0, [], [], 0, none, none, [], false, false, false, [], 0, false, 0, 2, 0, 0, false, false, 0, 0, none, false, 0, none, [], []⟩

/-- A logical core's state. -/
def coreOf (s : State) (n : Nat) : CoreSt := tabGet coreZero s.dru.cores n

/-- A logical core's state changed. -/
def modCore (n : Nat) (f : CoreSt → CoreSt) (s : State) : State :=
  { s with dru := { s.dru with cores := tabMod coreZero n f s.dru.cores } }

/-- A logical number is held by a physical core (R460). -/
def corePresent (s : State) (n : Nat) : Bool := accepted s 3 && (tabFind? n s.dru.phys).isSome

/-- MODE of a core: it is a stream core (R461). -/
def coreStream (s : State) (n : Nat) : Bool := bit (actW s (Reg.CORE0.at n)) 31

/-- A core's window in the address space (R462). -/
def coreWindow (n : Nat) : Nat := druBase + n * 0x100000

/-- The mask of a register's bits, by code (R466, R467). -/
def regMask (code : Nat) : Word :=
  if code < 32 then 0xFFFFFFFF
  else if code < 36 then 0x7FFFF
  else
    match code with
    | 36 => 0x37F
    | 37 => 0x1FF
    | 38 => 0xFFFF | 39 => 0xFFFF | 42 => 0xFFFF
    | 40 => 0x3FFF | 41 => 0x3FFF | 43 => 0x3FFF
    | _ => 0xFFFFFFFF

/-- A register code that names a register (R466). -/
def regCode (code : Nat) : Bool := decide (code ≤ 45) || (decide (48 ≤ code) && decide (code ≤ 59))

/-- Accumulator `a`. -/
def accOf (c : CoreSt) (a : Nat) : BitVec 72 := tabGet 0 c.accs a

/-- An accumulator set. -/
def setAcc (a : Nat) (v : BitVec 72) (c : CoreSt) : CoreSt := { c with accs := tabSet a v c.accs }

/-- A register read by code (R466). -/
def readReg (s : State) (n : Nat) (code : Nat) : Word :=
  let c := coreOf s n
  if code = 45 then wordOf (tabGet 0 s.dru.phys n * 256 + n)
  else if 48 ≤ code ∧ code ≤ 59 then
    let v := (accOf c ((code - 48) / 3)).toNat
    match (code - 48) % 3 with
    | 0 => wordOf v
    | 1 => wordOf (v / 2 ^ 32)
    | _ => wordOfInt (signed 8 (v / 2 ^ 64))
  else tabGet 0 c.regs code

/-- A register of a core written by code: the low bits go to a narrower register; CORE is read-only (R466). -/
def writeReg (code : Nat) (v : Word) (c : CoreSt) : CoreSt :=
  if code = 45 then c
  else if 48 ≤ code ∧ code ≤ 59 then
    let a := (code - 48) / 3
    let old := (accOf c a).toNat
    let new := match (code - 48) % 3 with
      | 0 => old / 2 ^ 32 * 2 ^ 32 + v.toNat
      | 1 => old / 2 ^ 64 * 2 ^ 64 + v.toNat * 2 ^ 32 + old % 2 ^ 32
      | _ => v.toNat % 256 * 2 ^ 64 + old % 2 ^ 64
    setAcc a (BitVec.ofNat 72 new) c
  else { c with regs := tabSet code (v &&& regMask code) c.regs }

/-- Data, address, offset and modulo registers, and the status register, of a core. -/
def dReg (c : CoreSt) (i : Nat) : Word := tabGet 0 c.regs i
def aReg (c : CoreSt) (i : Nat) : Word := tabGet 0 c.regs (16 + i)
def oReg (c : CoreSt) (i : Nat) : Word := tabGet 0 c.regs (24 + i)
def mReg (c : CoreSt) (i : Nat) : Word := tabGet 0 c.regs (32 + i % 4)
def srReg (c : CoreSt) : Word := tabGet 0 c.regs 36

/-- SR changed by an instruction's flags. -/
def setFlags (f : FlagSet) (c : CoreSt) : CoreSt := writeReg 36 (putFlags f (srReg c)) c

/-! ### Decoding (R468 to R476) -/

/-- The instructions by name. -/
inductive DruMn where
  | add | sub | adds | subs | and | or | xor | shl | shr | asr | min | max | abs | neg | mul | cmp | mov | cls
  | addi | andi | ori | xori | shli | shri | asri | cmpi | movi | movhi
  | ld | ldh | ldb | ld24 | st | sth | stb | st24
  | mac | msu | mpy | dmac
  | nop | movr | setr | rnd | clr | ldacc | addacc | drain | signal | halt | blkend | wait | ei | di | evt
  | br | call | ret | rti | jmp | rep | loop
  deriving DecidableEq, Repr

/-- ALU register class (R469). -/
def decodeAlu (w : Word) : Option DruMn :=
  let op := fld w 28 23
  if fld w 10 0 ≠ 0 then none
  else
    match op with
    | 0x00 => some .add | 0x01 => some .sub | 0x02 => some .adds | 0x03 => some .subs
    | 0x04 => some .and | 0x05 => some .or | 0x06 => some .xor
    | 0x07 => some .shl | 0x08 => some .shr | 0x09 => some .asr
    | 0x0A => some .min | 0x0B => some .max | 0x0C => some .abs | 0x0D => some .neg | 0x0E => some .mul
    | 0x0F => if fld w 22 19 = 0 then some .cmp else none
    | 0x10 => if fld w 14 11 = 0 then some .mov else none
    | 0x11 => some .cls
    | _ => none

/-- ALU immediate class (R470). -/
def decodeImm (w : Word) : Option DruMn :=
  let shift (m : DruMn) : Option DruMn := if fld w 16 5 = 0 then some m else none
  match fld w 28 25 with
  | 0 => some .addi | 1 => some .andi | 2 => some .ori | 3 => some .xori
  | 4 => shift .shli | 5 => shift .shri | 6 => shift .asri
  | 7 => if fld w 24 21 = 0 then some .cmpi else none
  | 8 => if fld w 20 17 = 0 then some .movi else none
  | 9 => if fld w 20 17 = 0 then some .movhi else none
  | _ => none

/-- Load and store class (R471, R472): with a MOD that updates An the immediate is zero. -/
def decodeMem (w : Word) : Option DruMn :=
  if fld w 18 17 ≠ 0 ∧ fld w 16 0 ≠ 0 then none
  else
    match fld w 28 26 with
    | 0 => some .ld | 1 => some .ldh | 2 => some .ldb | 3 => some .ld24
    | 4 => some .st | 5 => some .sth | 6 => some .stb | _ => some .st24

/-- Multiply-accumulate class (R473). -/
def decodeMac (w : Word) : Option DruMn :=
  if fld w 2 0 ≠ 0 then none
  else match fld w 28 27 with | 0 => some .mac | 1 => some .msu | 2 => some .mpy | _ => some .dmac

/-- Control class (R476). -/
def decodeCtl (w : Word) : Option DruMn :=
  match fld w 28 25 with
  | 0 => if fld w 24 21 ≤ 12 then some .br else none
  | 1 => if fld w 24 21 = 0 then some .call else none
  | 2 => if fld w 24 0 = 0 then some .ret else none
  | 3 => if fld w 24 0 = 0 then some .rti else none
  | 4 => if fld w 20 0 = 0 then some .jmp else none
  | 5 => if fld w 7 0 = 0 ∧ (bit w 24 = false ∨ fld w 23 12 = 0) then some .rep else none
  | 6 => if bit w 24 = false ∨ fld w 23 16 = 0 then some .loop else none
  | _ => none

/-- Move and special class (R474, R475). -/
def decodeMove (w : Word) : Option DruMn :=
  let zeros (hi : Nat) (m : DruMn) : Option DruMn := if fld w hi 0 = 0 then some m else none
  match fld w 28 24 with
  | 0 => zeros 23 .nop
  | 1 => if regCode (fld w 23 18) ∧ regCode (fld w 17 12) ∧ fld w 23 18 ≠ 45 then zeros 11 .movr else none
  | 2 => if regCode (fld w 23 18) ∧ fld w 23 18 ≠ 45 then some .setr else none
  | 3 => zeros 9 .rnd
  | 4 => zeros 21 .clr
  | 5 => zeros 11 .ldacc
  | 6 => zeros 19 .addacc
  | 7 => zeros 23 .drain
  | 8 => zeros 21 .signal
  | 9 => zeros 23 .halt
  | 10 => zeros 23 .blkend
  | 11 => zeros 23 .wait
  | 12 => zeros 23 .ei
  | 13 => zeros 23 .di
  | 14 => if fld w 23 22 = 0 then zeros 17 .evt else none
  | _ => none

/-- The instruction a word spells; none for an illegal one (R468, R479). -/
def druDecode (w : Word) : Option DruMn :=
  match fld w 31 29 with
  | 0 => decodeAlu w
  | 1 => decodeImm w
  | 2 => decodeMem w
  | 3 => decodeMac w
  | 4 => decodeCtl w
  | 5 => decodeMove w
  | _ => none

/-- Instructions of the control class. -/
def isControl (m : DruMn) : Bool := [.br, .call, .ret, .rti, .jmp, .rep, .loop].contains m

/-- Instructions a REP may not repeat whatever they reach (R478). -/
def isUnrepeatable (m : DruMn) : Bool := isControl m || [.drain, .signal, .wait, .halt, .blkend].contains m

/-- The instruction word at a core's PC. -/
def fetchWord (s : State) (n : Nat) : Word := wordOf (rd32 s (coreWindow n + 0x40000 + 4 * (coreOf s n).pc))

/-! ### Addressing (R472) -/

/-- The smallest power of two at or above `m`. -/
def powAbove (m : Nat) : Nat := if m ≤ 1 then 1 else 2 ^ (m - 1).log2 * 2

/-- The modulo update of an address: none where R472 leaves the result undefined. -/
def moduloStep (a o : Word) (m : Nat) : Option Word :=
  if m = 0 then some (a + o)
  else
    let p := powAbove m
    let base := a.toNat / p * p
    let off : Int := a.toNat - base
    if 2 ^ 18 < m ∨ m < o.toInt.natAbs ∨ (m : Int) ≤ off then none
    else
      let t := off + o.toInt
      let t1 := if (m : Int) ≤ t then t - m else if t < 0 then t + m else t
      some (wordOfInt (base + t1))

/-- Address and updated An of an access of `size` bytes; the updated An is none where it is undefined. -/
def druAddr (c : CoreSt) (an mode imm size : Nat) : Nat × Option Word :=
  let a := aReg c an
  match mode with
  | 0 => ((a + wordOfInt (signed 17 imm)).toNat, some a)
  | 1 => (a.toNat, some (a + wordOf size))
  | 2 => (a.toNat, some (a + oReg c an))
  | _ => (a.toNat, moduloStep a (oReg c an) (mReg c an).toNat)

/-- An written after an access; an undefined update is a free value (R472). -/
def updateAn (n an : Nat) (v : Option Word) (s : State) : State :=
  match v with
  | some a => modCore n (writeReg (16 + an) a) s
  | none => modCore n (writeReg (16 + an) (Config.freeWord s.free)) { s with free := s.free + 1 }

/-- An ordinary access whose bytes cross an aligned 8-byte boundary (R465). -/
def crosses8 (a size : Nat) : Bool := a / 8 != (a + size - 1) / 8

/-- A core address outside shared memory (R464). -/
def isLocal (a : Nat) : Bool := decide (a < 2 ^ 31)

/-- Bytes of a core's own data memory: zero beyond it (R464). -/
def localRead (s : State) (n a size : Nat) : List Byte :=
  (List.range size).map (fun k => if a + k < 0x40000 then readByte s (coreWindow n + a + k) else 0)

/-- A read of a core's own data memory, an uncorrectable word reading as zeros (R464, R504). -/
def localLoad (n a size : Nat) (s : State) : List Byte × State :=
  if a + size ≤ 0x40000 then
    let (_, bs, s1) := loadMem 5 n s (coreWindow n + a) size
    (bs, s1)
  else (localRead s n a size, s)

/-- Bytes stored in a core's own data memory: ignored beyond it (R464). -/
def localWrite (n a : Nat) (bs : List Byte) (s : State) : State :=
  bs.zipIdx.foldl (fun t p => if a + p.2 < 0x40000 then writeMem t (coreWindow n + a + p.2) [p.1] else t) s

/-- The fabric address of a shared core address (R464). -/
def sharedAddr (c : CoreSt) (a : Nat) : Nat := (tabGet 0 c.regs 37).toNat * 2 ^ 31 + (a - 2 ^ 31)

/-! ### The sequence of instructions (R476 to R480, R483) -/

/-- STATE of a core set and shown (R497). -/
def coreState (n st : Nat) (s : State) : State := setF (Reg.CORE5.at n) 2 0 st (modCore n (fun c => { c with state := st }) s)

/-- A source that is pending and enabled lets a core go on from WAIT with IE 0, and in a delay slot, where it is not
taken yet (R483). -/
def coreWake (n : Nat) (s : State) : State :=
  let c := coreOf s n
  let sr := srReg c
  if c.state = 3 ∧ ((c.doorbell && bit sr 8) || (c.timer && bit sr 9)) ∧ (!bit sr 6 || c.branch.isSome) then coreState n 2 s
  else s

/-- TMR counts down by one cycle; at zero TIMER becomes pending (R466, R483). -/
def timerTick (n : Nat) (s : State) : State :=
  let t := (tabGet 0 (coreOf s n).regs 44).toNat
  if t = 0 then s
  else modCore n (fun c => { writeReg 44 (wordOf (t - 1)) c with timer := c.timer || decide (t = 1) }) s

/-- The register that counts a loop (R466, R478): LC0 or LC1. -/
def loopReg (l : LoopSt) : Nat := if l.second then 39 else 38

/-- The instruction index after `pc` where loops end (R478): an innermost loop whose last instruction this was counts
down, and starts again or leaves. -/
def loopNext (pc : Nat) : List LoopSt → CoreSt → CoreSt
  | [], c => { c with pc := (pc + 1) % 16384, loops := [] }
  | l :: ls, c =>
    if l.last ≠ pc then { c with pc := (pc + 1) % 16384, loops := l :: ls }
    else
      let k := (tabGet 0 c.regs (loopReg l)).toNat - 1
      let c1 := writeReg (loopReg l) (wordOf k) c
      if k = 0 then loopNext pc ls c1 else { c1 with pc := l.first, loops := l :: ls }

/-- The instruction at `pc` ends a loop's body. -/
def endsLoop (c : CoreSt) : Bool :=
  match c.loops with
  | l :: _ => l.last == c.pc
  | [] => false

/-- A core moves to its next instruction: a repeat, a delay slot, the end of a loop, or the next index. -/
def coreNext (c : CoreSt) : CoreSt :=
  match c.rep with
  | some (k + 2) => { c with rep := some (k + 1) }
  | _ =>
    let c0 := { c with rep := none }
    match c.branch with
    | some ⟨k + 2, t, r⟩ => { c0 with branch := some ⟨k + 1, t, r⟩, pc := (c.pc + 1) % 16384 }
    | some b =>
      let c1 := { c0 with branch := none, pc := b.target }
      if b.rti then { writeReg 36 (tabGet 0 c.regs 42) c1 with handler := false } else c1
    | none => loopNext c.pc c.loops c0

/-- An instruction has been executed: one cycle, and the next instruction (R480). -/
def coreDone (n : Nat) (s : State) : State :=
  modCore n (fun c => { coreNext c with cycles := c.cycles + 1 }) (timerTick n s)

/-- A core takes instructions. -/
def coreRuns (s : State) (n : Nat) : Bool := corePresent s n && (coreOf s n).state == 2 && !inFollow s

/-- An instruction stands where R477 and R478 leave the result undefined: a control instruction in a delay slot or at
the end of a loop's body, a delay slot there, an instruction that REP may not repeat. -/
def outsideContract (c : CoreSt) (m : DruMn) : Bool :=
  (c.branch.isSome && isControl m) || (c.rep.isSome && isUnrepeatable m) ||
    (endsLoop c && (isControl m || c.branch.isSome))

/-- One instruction of a core: it acts where the core runs and the word at its PC spells it. -/
def druStep (n : Nat) (m : DruMn) (body : Word → State → Except Fault State) (s : State) : Except Fault State :=
  let w := fetchWord s n
  if !coreRuns s n || druDecode w != some m then .ok s
  else if outsideContract (coreOf s n) m then .error .coreContract
  else body w s

/-- An instruction that ends in one cycle and never stops. -/
def druPlain (n : Nat) (m : DruMn) (f : Word → State → State) (s : State) : Except Fault State :=
  druStep n m (fun w t => .ok (coreDone n (f w t))) s

/-! ### Instruction shapes -/

/-- Rd and flags from two data registers (R469). -/
def aluRow (n : Nat) (f : Word → Word → Word × FlagSet) (w : Word) (s : State) : State :=
  modCore n (fun c =>
    let q := f (dReg c (fld w 18 15)) (dReg c (fld w 14 11))
    setFlags q.2 (writeReg (fld w 22 19) q.1 c)) s

/-- A shift by a register: it draws the value of C for a shift by 0. -/
def shiftRow (n : Nat) (f : Bool → Word → Nat → Word × FlagSet) (w : Word) (s : State) : State :=
  let (b, s1) := drawBit s
  aluRow n (fun x y => f b x (y.toNat % 32)) w s1

/-- Flags of a comparison of two data registers. -/
def cmpRow (n : Nat) (w : Word) (s : State) : State :=
  modCore n (fun c => setFlags (aluSub (dReg c (fld w 18 15)) (dReg c (fld w 14 11))).2 c) s

/-- Rd and flags from a data register and the 17-bit immediate (R470). -/
def immRow (n : Nat) (f : Word → Nat → Word × FlagSet) (w : Word) (s : State) : State :=
  modCore n (fun c =>
    let q := f (dReg c (fld w 20 17)) (fld w 16 0)
    setFlags q.2 (writeReg (fld w 24 21) q.1 c)) s

/-- A shift by an immediate. -/
def shiftImmRow (n : Nat) (f : Bool → Word → Nat → Word × FlagSet) (w : Word) (s : State) : State :=
  let (b, s1) := drawBit s
  immRow n (fun x k => f b x (k % 32)) w s1

/-- The immediate sign-extended. -/
def sext17 (k : Nat) : Word := wordOfInt (signed 17 k)

/-- A parallel load (R473): 4 bytes of the core's own data memory; one that is not local or that crosses 8 bytes has
an undefined result, a free value. -/
def parallelLoad (n d an mode : Nat) (c : CoreSt) (s : State) : State :=
  let (a, up) := druAddr c an mode 0 4
  if isLocal a ∧ !crosses8 a 4 then
    let (bs, s1) := localLoad n a 4 s
    updateAn n an up (modCore n (writeReg d (wordOf (ofBytes bs))) s1)
  else
    updateAn n an up (modCore n (writeReg d (Config.freeWord s.free)) { s with free := s.free + 1 })

/-- A multiply-accumulate instruction (R473): the accumulators from the registers before the loads, then the loads. -/
def macRow (n : Nat) (f : CoreSt → Nat → Nat → Nat → CoreSt) (w : Word) (s : State) : State :=
  let c := coreOf s n
  let s1 := modCore n (fun c => f c (fld w 26 25) (fld w 24 22) (fld w 21 19 + 8)) s
  let s2 := if bit w 18 then parallelLoad n (fld w 17 15) (fld w 14 13) (fld w 12 11) c s1 else s1
  if bit w 10 then parallelLoad n (fld w 9 7 + 8) (fld w 6 5 + 4) (fld w 4 3) c s2 else s2

/-- The product of two data registers. -/
def product (c : CoreSt) (x y : Nat) : Int := (dReg c x).toInt * (dReg c y).toInt

/-- An accumulator with a value added, AV set where it wraps. -/
def accPlus (a : Nat) (x : Int) (c : CoreSt) : CoreSt :=
  let (v, wrap) := accAdd (accOf c a) x
  setFlags { noFlags with av := wrap } (setAcc a v c)

/-- A register code with bit 0 inverted (X′ and Y′). -/
def flipBit (x : Nat) : Nat := if x % 2 = 0 then x + 1 else x - 1

/-- A branch to `t` after two delay slots (R477): none where R476 and R478 leave the result undefined. -/
def branchTo (t : Int) (rti : Bool) (c : CoreSt) : Option CoreSt :=
  let inBody := match c.loops with
    | l :: _ => c.handler || (decide ((l.first : Int) ≤ t) && decide (t ≤ l.last) && decide (c.pc + 2 ≤ l.last))
    | [] => true
  if t < 0 ∨ 16384 ≤ t ∨ !inBody then none else some { c with branch := some ⟨3, t.toNat, rti⟩ }

/-- A taken branch: the branch instruction itself counts down the first of its three places. -/
def takeBranch (n : Nat) (t : Int) (rti : Bool) (f : CoreSt → CoreSt) (s : State) : Except Fault State :=
  match branchTo t rti (coreOf s n) with
  | none => .error .coreContract
  | some c => .ok (coreDone n (modCore n (fun _ => f c) s))

end Sys2Proof.Machine
end

