-- ==== Sys2Proof/Machine/Dru.lean ====
section
/-! DEFINITION. The Druora cluster's programs, tasks, stream runs, faults and spare (R483 to R499). -/

namespace Sys2Proof.Machine

open Sys2Proof

/-! ### Programs (R485, R486) -/

/-- An entry of the program table. -/
structure ProgEntry where
  code : Nat
  words : Nat
  reload : Bool
  data : Nat
  dbytes : Nat
  ddst : Nat
  start : Nat
  ivec : Nat
  delay : Nat
  deriving DecidableEq, Repr

/-- The fields of an entry within their ranges, for a stream or a task (R485). -/
def entryOf (bs : List Byte) (stream : Bool) : Option ProgEntry :=
  let f := getLE bs 7 1
  let e : ProgEntry := ⟨getLE bs 0 5, getLE bs 5 2, f % 2 == 1, getLE bs 8 5, getLE bs 13 3, getLE bs 16 4, getLE bs 20 2,
    getLE bs 22 2, getLE bs 24 1⟩
  let bad := e.code % 4 != 0 || decide (e.code < dramBase) || e.words == 0 || decide (16384 < e.words) ||
    decide (8 ≤ f) || (e.dbytes != 0 && decide (e.data < dramBase)) || e.dbytes % 4 != 0 || e.ddst % 4 != 0 ||
    decide (262144 < e.ddst + e.dbytes) || decide (16384 ≤ e.start) || decide (16384 ≤ e.ivec) ||
    (bs.drop 25).any (· != 0) || (if stream then f / 2 % 2 == 0 || decide (e.delay < 2) || decide (15 < e.delay) else f / 4 % 2 == 0)
  if bad then none else some e

/-- Entry `e` of the program table for a core, read by the cluster loader: none where it is invalid or cannot be read. -/
def readEntry (n e : Nat) (s : State) : Option ProgEntry × State :=
  let base := fld (regW s Reg.DRU_PROG_BASE_HI.base) 7 0 * 2 ^ 32 + fld (regW s Reg.DRU_PROG_BASE_LO.base) 31 0
  let (ok, h, s1) := loadMem 9 n s base 16
  if !ok || getLE h 0 2 != 1 || decide (getLE h 2 2 ≤ e) || decide (1024 < getLE h 2 2) then (none, s1)
  else
    let (ok2, b, s2) := loadMem 9 n s1 (base + 16 + e * 32) 32
    (if ok2 then entryOf b (coreStream s n) else none, s2)

/-- RESIDENT of a core (R497). -/
def resident (s : State) (n : Nat) : Nat := fld (regW s (Reg.CORE6.at n)) 15 0

/-! ### Tasks, faults and ends (R487, R488, R493, R494) -/

/-- The task a core runs. -/
def coreJob (s : State) (n : Nat) : Option Job := runningJob s 1 n

/-- RUN_MAX takes the cycles of a run or task (R497). -/
def runMax (n : Nat) (s : State) : State :=
  let c := (coreOf s n).cycles
  if fld (regW s (Reg.CORE7.at n)) 31 0 < c then setN (Reg.CORE7.at n) (min c (2 ^ 32 - 1)) s else s

/-- Retired physical cores. -/
def coreRetired (s : State) (p : Nat) : Bool := bit (regW s Reg.DRU_CORE_RETIRED.base) p

/-- DRU_CORE_ACTIVE shows the physical cores that hold a logical number (R496). -/
def showActive (s : State) : State :=
  setN Reg.DRU_CORE_ACTIVE.base (s.dru.phys.foldl (fun m p => m + 2 ^ p.2) 0) s

/-- The spare takes the registers, the entry and the number of the core whose memories it holds, and that core is
powered off (R495 step 4). -/
def spareTake (n : Nat) (s : State) : State :=
  match s.dru.leaving, s.dru.spare with
  | some m, some q =>
    if m ≠ n ∨ !s.dru.copied then s
    else
      let p := tabGet 0 s.dru.phys n
      let s1 := zeroRange (copyRange (coreWindow 16) (coreWindow n) 0x50000 s) (coreWindow 16) 0x50000
      raise 0x62 (bytesOf 1 p ++ bytesOf 1 q) (stick Reg.DRU_STAT.base 2 (count Reg.DRU_SPARE_CNT.base
        (setF Reg.DRU_CORE_RETIRED.base p p 1
          (showActive { s1 with dru := { s1.dru with
            phys := tabSet n q s.dru.phys, spare := none, leaving := none, copied := false } }))))
  | _, _ => s

/-- A core falls idle, or stops where a STOP waits (R497). -/
def coreRest (n : Nat) (s : State) : State :=
  let st := if (coreOf s n).stopping then 0 else 1
  spareTake n (coreState n st (modCore n (fun c => { c with
    stopping := false, branch := none, rep := none, loops := [], handler := false, signal := false }) s))

/-- A task ends and its job completes (R184, R488). -/
def taskEnd (n : Nat) (s : State) : State :=
  let job := coreJob s n
  let s1 := coreRest n (runMax n s)
  match job with
  | some j => completeJob j s1
  | none => s1

/-- A fault stops a core (R494): its write buffer is discarded, and a task core's flow moves on. -/
def coreFault (n code : Nat) (s : State) : State :=
  let pc := (coreOf s n).pc
  let s1 := stick Reg.DRU_STAT.base 0 (count Reg.DRU_FAULT_CNT.base
    (setF (Reg.CORE5.at n) 7 4 code (setF (Reg.CORE5.at n) 29 16 pc (modCore n (fun c => { c with wbuf := [] }) s))))
  let s2 := raise 0x60 (bytesOf 1 n ++ bytesOf 1 code ++ bytesOf 2 pc) s1
  if coreStream s n then
    spareTake n (coreState n 5 (modCore n (fun c => { c with
      runBlock := none, branch := none, rep := none, loops := [], handler := false, loaded := false, stopping := false, signal := false }) (runMax n s2)))
  else taskEnd n s2

/-- A core whose program is in place: a task core waits for its start, a stream core for its inputs (R490). -/
def coreReady (n : Nat) (s : State) : State :=
  let s1 := modCore n (fun c => { c with loaded := true }) s
  if coreStream s n then
    coreState n 1 (modCore n (fun c => { c with
      runBlock := none, overrun := false, nextRun := (unitSt s uRTE).next, firstRun := none, inputs := [], outputs := [], cycles := 0 }) s1)
  else s1

/-- Registers cleared except CORE, with IVEC of the entry (R487, R490); a pending source stays pending (R483). -/
def coreClear (e : ProgEntry) (c : CoreSt) : CoreSt :=
  writeReg 43 (wordOf e.ivec) { c with
    regs := [], accs := [], branch := none, rep := none, loops := [], handler := false, signal := false
    start := e.start, delay := e.delay, dataAt := e.ddst, dataLen := e.dbytes }

/-- Entry `e` started on a core (R486): invalid entries fault; one that is resident and not reloaded needs no copy. -/
def coreLoad (n e : Nat) (s : State) : State :=
  let (entry, s1) := readEntry n e (modCore n (fun c => { c with entry := e, loaded := false }) s)
  match entry with
  | none => coreFault n 4 s1
  | some p =>
    let s2 := modCore n (coreClear p) s1
    if resident s n = e ∧ !p.reload then coreReady n (coreState n 4 s2) else coreState n 4 s2

/-- The copy of a program completes (R486): CODE where the entry is not resident, then DATA. -/
def loadDone (n : Nat) (s : State) : State :=
  let c := coreOf s n
  if !corePresent s n ∨ c.state ≠ 4 ∨ c.loaded then s
  else
    let (entry, s1) := readEntry n c.entry s
    match entry with
    | none => coreFault n 4 s1
    | some p =>
      let full := resident s n != c.entry
      let (ok1, code, s2) := if full then loadMem 9 n s1 p.code (4 * p.words) else (true, [], s1)
      let (ok2, data, s3) := loadMem 9 n s2 p.data p.dbytes
      if !ok1 ∨ !ok2 then coreFault n 4 (setF (Reg.CORE6.at n) 15 0 0xFFFF s3)
      else
        let s4 := writeMem (writeMem s3 (coreWindow n + 0x40000) code) (coreWindow n + p.ddst) data
        coreReady n (setF (Reg.CORE6.at n) 15 0 c.entry (when full (count Reg.DRU_LOAD_CNT.base) s4))

/-- A task begins on its core (R487). -/
def taskStart (n : Nat) (s : State) : State :=
  let c := coreOf s n
  if !corePresent s n ∨ coreStream s n ∨ c.state ≠ 4 ∨ !c.loaded then s
  else
    match coreJob s n with
    | none => s
    | some j =>
      let arg := j.desc.arg
      coreState n 2 (modCore n (fun x => { writeReg 16 (wordOf (2 ^ 31 + arg % 2 ^ 31)) (writeReg 37 (wordOf (arg / 2 ^ 31)) x) with
        pc := x.start, cycles := 0, began := monoNs s }) s)

/-- A task still running DRU_TASK_MAX µs after its start (R488). -/
def taskWatchdog (n : Nat) (s : State) : State :=
  let c := coreOf s n
  let max := fld (actW s Reg.DRU_TASK_MAX.base) 31 0
  if corePresent s n ∧ !coreStream s n ∧ (c.state = 2 ∨ c.state = 3) ∧ max ≠ 0 ∧ c.began + 1000 * max ≤ monoNs s then coreFault n 3 s
  else s

/-! ### CORE_CMD, interrupts (R483, R497) -/

/-- CMD START (R497). -/
def coreStart (n : Nat) (s : State) : State :=
  let c := coreOf s n
  if !corePresent s n ∨ !(c.state == 0 || c.state == 5) then s
  else if coreStream s n then coreLoad n (actF s (Reg.CORE0.at n) 15 0) (modCore n (fun x => { x with stopping := false }) s)
  else coreState n 1 (modCore n (fun x => { x with stopping := false }) s)

/-- CMD STOP: at once where nothing runs, else after the task or run (R497); a core in FAULT stays there (R494). -/
def coreStop (n : Nat) (s : State) : State :=
  let c := coreOf s n
  if !corePresent s n ∨ c.state = 0 ∨ c.state = 5 then s
  else if (c.state = 1 ∧ c.runBlock.isNone) ∨ (c.state = 4 ∧ coreStream s n) then coreState n 0 s
  else modCore n (fun x => { x with stopping := true }) s

/-- CMD RESET: STOPPED at once; the write buffer is discarded, and a task ends (R497). -/
def coreReset (n : Nat) (s : State) : State :=
  if !corePresent s n then s
  else
    let s1 := modCore n (fun x => { x with wbuf := [], stopping := true, runBlock := none }) s
    if !coreStream s n ∧ (coreJob s n).isSome then taskEnd n s1 else coreRest n s1

/-- A write to CORE_CMD (R497). -/
def coreCmd (n : Nat) (v : Word) (s : State) : State :=
  match fld v 1 0 with
  | 1 => coreStart n s
  | 2 => coreStop n s
  | 3 => coreReset n s
  | _ => s

/-- A write to DRU_DOORBELL (R483). -/
def doorbell (v : Word) (s : State) : State :=
  (List.range 16).foldl (fun t n =>
    if bit v n ∧ corePresent t n then coreWake n (modCore n (fun c => { c with doorbell := true }) t) else t) s

/-- TMR runs out while the core stalls or waits (R483). -/
def timerExpiry (n : Nat) (s : State) : State :=
  if corePresent s n ∧ (coreOf s n).state ≠ 0 ∧ (tabGet 0 (coreOf s n).regs 44).toNat ≠ 0 then
    coreWake n (modCore n (fun c => { writeReg 44 0 c with timer := true }) s)
  else s

/-- An enabled pending source is taken at an instruction boundary (R483). -/
def interruptTake (n src : Nat) (s : State) : State :=
  let c := coreOf s n
  let sr := srReg c
  let pending := if src = 0 then c.doorbell && bit sr 8 else src == 1 && c.timer && bit sr 9
  if corePresent s n ∧ (c.state = 2 ∨ c.state = 3) ∧ pending ∧ bit sr 6 ∧ c.branch.isNone ∧ c.rep.isNone then
    coreState n 2 (modCore n (fun x =>
      let y := writeReg 36 (putFld sr 6 6 0) (writeReg 42 sr (writeReg 41 (wordOf c.pc) x))
      { y with
        pc := ((tabGet 0 x.regs 43).toNat + 4 * src) % 16384, handler := true, signal := false
        doorbell := x.doorbell && src != 0, timer := x.timer && src != 1 }) s)
  else s

/-! ### Stream runs (R489 to R492) -/

/-- A core's program inputs and outputs, first and count. -/
def coreIns (s : State) (n : Nat) : Nat × Nat := let w := actW s (Reg.CORE1.at n); (fld w 7 0, fld w 15 8 + 1)
def coreOuts (s : State) (n : Nat) : Nat × Nat := let w := actW s (Reg.CORE1.at n); (fld w 23 16, fld w 31 24 + 1)

/-- The input slot and the output slot of a block, by its index, as local addresses (R489). -/
def inSlot (s : State) (n b : Nat) : Nat := actF s (Reg.CORE2.at n) 17 6 * 64 + extBlk s b % 2 * 80 * (coreIns s n).2
def outSlot (s : State) (n b : Nat) : Nat :=
  actF s (Reg.CORE3.at n) 17 6 * 64 + extBlk s b % (max 1 (coreOf s n).delay) * 80 * (coreOuts s n).2

/-- Stream cores that have been started and not stopped. -/
def streamCores (s : State) : List Nat :=
  (List.range (druCores s)).filter (fun n => corePresent s n && coreStream s n && (coreOf s n).loaded &&
    [1, 2, 3].contains (coreOf s n).state)

/-- One overrun or skipped block (R491). -/
def overrunCount (n b : Nat) (s : State) : State :=
  raise 0x61 (bytesOf 1 n ++ [0] ++ bytesOf 4 (extBlk s b % 2 ^ 32)) (stick Reg.DRU_STAT.base 1 (count Reg.DRU_OVERRUN_CNT.base s))

/-- The run of block `x` − 2 is due when the fabric begins block `x` (R491). -/
def runDue (x : Nat) (s : State) (n : Nat) : State :=
  let c := coreOf s n
  if x < 2 then s
  else if c.runBlock = some (x - 2) then
    if c.overrun then s else overrunCount n (x - 2) (modCore n (fun y => { y with overrun := true }) s)
  else if c.nextRun ≤ x - 2 then overrunCount n (x - 2) (modCore n (fun y => { y with nextRun := x - 1 }) s)
  else s

/-- Flags of a block from a FLAGS byte (R49). -/
def withFlags (f : Nat) (x : Blk) : Blk :=
  let on (i : Nat) : Bool := Nat.testBit f i
  { x with
    unsettled := on 0, silent := on 1, concealed := on 2, memerr := on 3, slip := on 4, lateTag := on 5, rebased := on 6 }

/-- A core's outputs as the fabric reads them for block `b` (R492); words that cannot be read are zeros with MEMERR
(R504). -/
def coreDeliver (b : Nat) (s : State) (n : Nat) : State :=
  let c := coreOf s n
  let (o0, k) := coreOuts s n
  let put (x : Nat → Blk) (t : State) : State :=
    (List.range k).foldl (fun u i => if o0 + i < 256 then putBlk .druOut (o0 + i) (x i) u else u) t
  if c.state = 5 then put (fun _ => concealedBlk b) s
  else if !(streamCores s).contains n then put (fun _ => silentBlk b) s
  else
    let ran := if c.delay ≤ b then c.outputs.find? (fun p => p.1 == b - c.delay) else none
    match ran with
    | some (r, fl) =>
      let at_ (i : Nat) : Nat := outSlot s n r + 80 * i
      let lost (i j : Nat) : Bool := !(ueIn s (coreWindow n + at_ i + 16 + 4 * j) 4).isEmpty
      let raw (i : Nat) : List Int :=
        (List.range 16).map (fun j => if lost i j then 0 else signed 32 (ofBytes (localRead s n (at_ i + 16 + 4 * j) 4)))
      let clips := (List.range k).foldl (fun m i => m + ((raw i).filter (satHit 24)).length) 0
      let x (i : Nat) : Blk :=
        let f := (localRead s n (at_ i + 10) 1).headD 0
        let m := if (List.range 16).any (lost i) then 8 else 0
        withFlags ((fl &&& 0xFD) ||| f.toNat ||| m) { zeroBlk b with smp := (raw i).map (satS 24) }
      let s1 := (List.range k).foldl (fun u i => (localLoad n (at_ i) 80 u).2) s
      countN Reg.DRU_OUT_CLIP_CNT.base clips (put x s1)
    | none =>
      let early := match c.firstRun with
        | some f => decide (b < f + c.delay)
        | none => true
      put (fun _ => if early then silentBlk b else concealedBlk b) s

/-- Before the fabric begins block `b` of the input plane: due runs, and the outputs of every stream core (R491, R492). -/
def druOutBlock (b : Nat) (s : State) : State :=
  if !accepted s 3 then s
  else
    let s1 := (streamCores s).foldl (runDue b) s
    ((List.range (druCores s1)).filter (fun n => corePresent s1 n && coreStream s1 n)).foldl (coreDeliver b) s1

/-- Source class and number (R48) of what a conditioned channel takes: its port channel, stream or link stream, numbered
as the record rings number port channels (log 56); zero where it takes nothing. -/
def chanOrigin (s : State) (c : Nat) : Nat × Nat :=
  let w := actW s (Reg.INCH0.at c)
  match fld w 3 0 with
  | 2 => (1, fld w 11 4)
  | 3 => (2, linkStreamOf (fld w 11 4))
  | k => if k < 2 then (0, fld w 11 4 * 64 + fld w 17 12) else (0, 0)

/-- Source class and number (R48) of the block an input-plane destination delivers: those of its newest path. -/
def destOrigin (s : State) (d : Nat) : Nat × Nat :=
  match (pathsOf false s d).getLast? with
  | none => (0, 0)
  | some q =>
    match inSource s q.src with
    | some (.chan, c) => chanOrigin s c
    | some (.gen, k) => (3, k)
    | some (.bus, k) => (4, k)
    | some (.druOut, k) => (8, k)
    | _ => (0, 0)

/-- The 80-byte record of a program input (R489): the header of the block with its own source (R48), and its samples. -/
def inputRecord (s : State) (x : Blk) (i : Nat) : List Byte :=
  headerBytes s x (destOrigin s (0x900 + i)).1 ((destOrigin s (0x900 + i)).2 % 4096) 0 ++ x.smp.flatMap (fun v => bytesOf 4 (lowBits 32 v))

/-- A core's inputs of block `b` written to its data memory (R489, R490). -/
def coreFeed (b : Nat) (s : State) (n : Nat) : State :=
  let (i0, k) := coreIns s n
  let blk (i : Nat) : Blk := (blkAt s .dest (0x900 + i0 + i) b).getD (silentBlk b)
  let s1 := (List.range k).foldl (fun t i => localWrite n (inSlot s n b + 80 * i) (inputRecord s (blk i) (i0 + i)) t) s
  let fl := (List.range k).foldl (fun m i => m ||| flagsByte (blk i)) 0
  modCore n (fun c => { c with inputs := ((b, fl) :: c.inputs).take 4 }) s1

/-- After the fabric has delivered block `b` of the input plane: the inputs of every stream core (R490). -/
def druInBlock (b : Nat) (s : State) : State := (streamCores s).foldl (coreFeed b) s

/-- A core's stream buffers leave the data memory, or meet the data of its program (R489). -/
def buffersBad (s : State) (n : Nat) : Bool :=
  let c := coreOf s n
  let a := actF s (Reg.CORE2.at n) 17 6 * 64
  let b := actF s (Reg.CORE3.at n) 17 6 * 64
  let bad (p k : Nat) : Bool := decide (0x40000 < p + k) ||
    (decide (0 < c.dataLen) && decide (p < c.dataAt + c.dataLen) && decide (c.dataAt < p + k))
  bad a (2 * 80 * (coreIns s n).2) || bad b (max 1 c.delay * 80 * (coreOuts s n).2)

/-- A stream core is at rest with inputs for its next run. -/
def runReady (n : Nat) (s : State) : Bool :=
  let c := coreOf s n
  (streamCores s).contains n && c.state == 1 && c.runBlock.isNone && c.inputs.any (fun p => decide (c.nextRun ≤ p.1))

/-- A stream core starts its next run (R490). -/
def streamRunStart (n : Nat) (s : State) : State :=
  let c := coreOf s n
  if !(streamCores s).contains n ∨ c.state ≠ 1 ∨ c.runBlock.isSome then s
  else
    match c.inputs.reverse.find? (fun p => decide (c.nextRun ≤ p.1)) with
    | none => s
    | some (b, _) =>
      coreState n 2 (modCore n (fun x =>
        let y := writeReg 15 (wordOf (extBlk s b)) (writeReg 17 (wordOf (outSlot s n b)) (writeReg 16 (wordOf (inSlot s n b)) x))
        { y with
          pc := x.start, runBlock := some b, nextRun := b + 1, overrun := false, cycles := 0
          firstRun := some (x.firstRun.getD b) }) s)

/-- A run ends (R490, R491): its output slot counts unless it has overrun. -/
def streamRunEnd (n : Nat) (s : State) : State :=
  match (coreOf s n).runBlock with
  | none => s
  | some b =>
    coreRest n (modCore n (fun x => { x with
      runBlock := none
      outputs := if x.overrun then x.outputs
        else ((b, ((x.inputs.find? (fun p => p.1 == b)).map (·.2)).getD 0) :: x.outputs).take 16 }) (runMax n s))

/-- The row RUN_OVERRUN: the fabric is about to begin the block at which a core's run is due (R491). -/
def runOverrun (n : Nat) (s : State) : State :=
  if (streamCores s).contains n then runDue (unitSt s uRTE).next s n else s

/-! ### The cluster and its spare (R460, R495) -/

/-- The cluster assigns logical numbers at start (R460). -/
def druAssign (s : State) : State :=
  let free := (List.range (if s.fuse.grade = .ih1024 then 17 else if s.fuse.grade = .ih0512 then 9 else 0)).filter
    (fun p => !coreRetired s p)
  let k := druCores s
  showActive { s with dru := ⟨(free.take k).zipIdx.map (fun q => (q.2, q.1)), (free.drop k).head?, none, false, []⟩ }

/-- HLT retires a logical core: the spare wakes and the copy begins, or there is no spare (R495). -/
def coreRetire (n : Nat) (s : State) : State :=
  match tabFind? n s.dru.phys with
  | none => s
  | some p =>
    if !accepted s 3 ∨ s.dru.leaving.isSome then s
    else
      match s.dru.spare with
      | some _ => { s with dru := { s.dru with leaving := some n } }
      | none => raise 0x62 (bytesOf 1 p ++ bytesOf 1 0xFF) (stick Reg.DRU_STAT.base 3 s)

/-- The copy to the spare is complete (R495 steps 3 and 4): the spare takes a task core's number, or a stream core's
between two runs. A task core's copy begins only when its task has completed. An uncorrectable word is copied as the
zeros a reader meets (R504). -/
def spareCopyEnd (s : State) : State :=
  match s.dru.leaving with
  | none => s
  | some n =>
    if s.dru.spare.isNone ∨ s.dru.copied ∨ (!coreStream s n ∧ (coreJob s n).isSome) then s
    else
      let bad := s.ue.filter (fun w => decide (coreWindow n ≤ w) && decide (w < coreWindow n + 0x50000))
      let s1 := bad.foldl (fun t w => reportUe 1 5 n w t) s
      let s2 := copyRange (coreWindow n) (coreWindow 16) 0x50000 s1
      let s3 := bad.foldl (fun t w => storeBytes t (w - coreWindow n + coreWindow 16) (List.replicate 8 0)) s2
      let s4 := { s3 with dru := { s3.dru with copied := true } }
      if coreStream s n ∧ (coreOf s n).runBlock.isSome then s4 else spareTake n s4

/-- A dispatched task goes to its core (R486, R487). -/
def taskDispatch (n : Nat) (j : Job) (s : State) : State :=
  coreLoad n j.desc.entry (setJob { j with pos := .running n } s)

end Sys2Proof.Machine
end

