-- ==== Sys2Proof/Machine/Net.lean ====
section
/-! DEFINITION. Ethernet ports and frame queues (R312 to R340). -/

namespace Sys2Proof.Machine

open Sys2Proof

/-! ### Queues and cells (R322 to R330) -/

/-- An empty queue. -/
def queueZero : QueueSt := ⟨[], 0, 0, 0, 0⟩

/-- A queue. -/
def queueSt (s : State) (q : Nat) : QueueSt := tabGet queueZero s.net.queues q

/-- A queue changed. -/
def modQueue (q : Nat) (f : QueueSt → QueueSt) (s : State) : State :=
  { s with net := { s.net with queues := tabMod queueZero q f s.net.queues } }

/-- A queue of the device's own: one to each Ethernet port and link, for the frames that the device builds and for which
no register names a queue (R331). DESIGN CHOICE (log 28). -/
def ownQ (q : Nat) : Bool := decide (512 ≤ q) && decide (q < 528)

/-- A queue's record words; a queue of the device's own is a best-effort transmit queue bounded by the pool alone. -/
def qEn (s : State) (q : Nat) : Bool := ownQ q || (decide (q < 512) && bit (actW s (Reg.QUEUE0.at q)) 31)
def qTx (s : State) (q : Nat) : Bool := ownQ q || bit (actW s (Reg.QUEUE0.at q)) 30
def qClass (s : State) (q : Nat) : Nat :=
  let c := fld (actW s (Reg.QUEUE0.at q)) 29 28
  if ownQ q ∨ c = 3 then 0 else c
def qPort (s : State) (q : Nat) : Nat := if ownQ q then q - 512 else fld (actW s (Reg.QUEUE0.at q)) 23 20
def qConsumer (s : State) (q : Nat) : Nat := let c := fld (actW s (Reg.QUEUE0.at q)) 3 0; if 6 < c then 0 else c
def qQuota (s : State) (q : Nat) : Nat := if ownQ q then 32768 else min 32768 (fld (actW s (Reg.QUEUE1.at q)) 15 0)
def qLevel (s : State) (q : Nat) : Nat := max 1 (fld (actW s (Reg.QUEUE1.at q)) 31 16)
def qLevelEn (s : State) (q : Nat) : Bool := decide (q < 512) && bit (actW s (Reg.QUEUE2.at q)) 0

/-- A queue that some link's queue map names: the taker of its type works it, whatever its CONSUMER (R374). -/
def qMapped (s : State) (q : Nat) : Bool :=
  q != 0x1FF && (List.range 8).any (fun n =>
    let a := actW s (Reg.LNK_RXQ0.at n)
    let b := actW s (Reg.LNK_RXQ1.at n)
    [fld a 8 0, fld a 24 16, fld b 8 0, fld b 24 16].contains q)

/-- Cells of linked frames (R325). -/
def cellsOf (x : QueueSt) : Nat := x.frames.foldl (fun m f => m + f.cells) x.held

/-- Free cells of the pool (R328). -/
def freeCells (s : State) : Nat := 32768 - s.net.queues.foldl (fun m p => m + cellsOf p.2) 0

/-- Cells a frame of length L takes, FCS included (R322). -/
def cellsFor (len : Nat) : Nat := (len + 28 + 255) / 256

/-- QMG_POOL_MIN follows the fewest free cells (R328). -/
def poolLow (n : Nat) (s : State) : State :=
  setF Reg.QMG_POOL_MIN.base 15 0 (min (fld (regW s Reg.QMG_POOL_MIN.base) 15 0) n) s

/-- Cells a frame gets before one is refused (R327). -/
def cellsGranted (s : State) (q len : Nat) : Nat :=
  min (cellsFor len) (min (freeCells s) (qQuota s q - cellsOf (queueSt s q)))

/-- A frame refused a cell is discarded (R327). -/
def noCell (q : Nat) (s : State) : State :=
  stick Reg.QMG_STAT.base 0 (when (!ownQ q) (countF (Reg.QSTAT2.at q) 15 0 1) (count Reg.QMG_NOCELL_CNT.base s))

/-- A whole, sound frame linked at the tail of its queue, with the level event (R324, R329). -/
def linkFrame (q : Nat) (f : FrameRec) (s : State) : State :=
  let before := cellsOf (queueSt s q)
  let s1 := modQueue q (fun x => { x with frames := x.frames ++ [f] }) s
  let after := cellsOf (queueSt s1 q)
  let s2 := poolLow (freeCells s1) s1
  when (qLevelEn s q && decide (before < qLevel s q) && decide (qLevel s q ≤ after))
    (raise 0x29 (bytesOf 2 q ++ bytesOf 2 after)) s2

/-- A prefix (R323). -/
def prefixOf (len port flags tci entry : Nat) (s : State) (ofs : Nat) : List Byte :=
  let sub := s.time.sub + ofs * 49152
  let sec := s.time.sec + sub / subPerSec
  let r := sub % subPerSec
  bytesOf 2 len ++ bytesOf 1 port ++ bytesOf 1 flags ++ bytesOf 2 tci ++ bytesOf 1 entry ++ bytesOf 1 (scaleNow s % 16) ++
    bytesOf 8 sec ++ bytesOf 4 (r / 196608) ++ bytesOf 2 (r % 196608 / 3 / 0x4000 * 0x4000) ++ List.replicate 10 0

/-- A frame stored whole for a queue, or discarded where a cell is refused (R327); whether it was stored. -/
def storeMsg (q : Nat) (pre bytes : List Byte) (len : Nat) (msg : Option Out) (s : State) : Bool × State :=
  let got := cellsGranted s q len
  if got < cellsFor len then (false, noCell q (poolLow (freeCells s - got) s))
  else (true, linkFrame q ⟨pre ++ bytes, cellsFor len, msg, []⟩ s)

/-- A frame that carries no message of the device's own, stored. -/
def storeFrame (q : Nat) (pre bytes : List Byte) (len : Nat) (s : State) : Bool × State := storeMsg q pre bytes len none s

/-- A queue's frames freed: RELEASE frees what stands before the read pointer (R326). -/
def queueRelease (q : Nat) (s : State) : State :=
  modQueue q (fun x => ⟨x.frames.drop x.read, 0, x.mark - x.read, x.held, x.heldFrames⟩) s

def queueFlush (q : Nat) (s : State) : State := modQueue q (fun _ => queueZero) s
def queueMark (q : Nat) (s : State) : State := modQueue q (fun x => { x with mark := x.read }) s
def queueRewind (q : Nat) (s : State) : State := modQueue q (fun x => { x with read := x.mark }) s

/-- A frame's bytes as a reader gets them: zeros for a word with an uncorrectable error (R504). -/
def frameBytes (f : FrameRec) : List Byte :=
  if f.bad = [] then f.bytes else f.bytes.mapIdx (fun k b => if f.bad.any (fun w => w.1 == k / 8 * 8) then 0 else b)

/-- The words with an uncorrectable error that a reader of a frame meets, reported (R504). -/
def frameReport (bad : List (Nat × Nat)) (s : State) : State := bad.foldl (fun t w => reportSramUe 0 3 w.2 t) s

/-- QMG_OP_STAT after an operation (R340). -/
def opResult (res len : Nat) (s : State) : State := setN Reg.QMG_OP_STAT.base (res * 2 ^ 16 + len % 2 ^ 14) s

/-- A queue that the controller may work (R326, R340). -/
def opAllowed (s : State) (q : Nat) : Bool := qEn s q && !qTx s q && qConsumer s q == 0 && !qMapped s q

/-- An operation on a queue that moves no bytes, or is not allowed (R326, R340). -/
def queueKeep (op q : Nat) (s : State) : State :=
  if op = 0 ∨ 5 < op then count Reg.QMG_BAD_OP_CNT.base s
  else if !opAllowed s q then opResult 4 0 s
  else
    match op with
    | 2 => opResult 0 0 (queueMark q s)
    | 3 => opResult 0 0 (queueRewind q s)
    | 4 => opResult 0 0 (queueRelease q s)
    | 5 => opResult 0 0 (queueFlush q s)
    | _ => s

/-- The staged frame would be sent with LEN outside 60 to 9,596 (R332). -/
def txsBad (v : Word) (s : State) : Bool :=
  let n := fld (regW s Reg.QMG_TXS_LEN.base) 13 0
  qEn s (fld v 8 0) && qTx s (fld v 8 0) && (decide (n < 60) || decide (9596 < n))

/-- A hardware consumer reads and releases its queue's next frame (R326): prefix and bytes. -/
def consume (consumer q : Nat) (s : State) : Option (List Byte × List Byte × State) :=
  let x := queueSt s q
  if !qEn s q || qTx s q || qMapped s q || qConsumer s q != consumer then none else
    match x.frames[x.read]? with
    | none => none
    | some f => some (f.bytes.take 32, f.bytes.drop 32, queueRelease q (modQueue q (fun y => { y with read := y.read + 1 }) s))

/-- Cells of a frame taken by a stream stay in use until it gives them back (R350); the frame is not yet released (R338). -/
def queueHold (q n : Nat) (s : State) : State :=
  modQueue q (fun x => { x with held := x.held + n, heldFrames := x.heldFrames + 1 }) s
def queueGive (q n : Nat) (s : State) : State :=
  if n = 0 then s else modQueue q (fun x => { x with held := x.held - n, heldFrames := x.heldFrames - 1 }) s

/-! ### Reading headers -/

/-- Big-endian number of `n` bytes at an offset. -/
def beAt (bs : List Byte) (o n : Nat) : Nat := ofBytesBE (slice bs o n)

/-- A frame's tag: VID and TCI, and where its EtherType stands (R319). -/
def vlanOf (bs : List Byte) : Option Nat × Nat := if beAt bs 12 2 = 0x8100 then (some (beAt bs 14 2), 16) else (none, 12)

/-- EtherType. -/
def etherType (bs : List Byte) : Nat := beAt bs (vlanOf bs).2 2

/-- An IPv4 UDP datagram in a frame. -/
structure Udp where
  src : Nat
  dst : Nat
  sport : Nat
  dport : Nat
  payload : List Byte

/-- Offset of the IPv4 header, where the frame carries one. -/
def ipOfs (bs : List Byte) : Option Nat :=
  let o := (vlanOf bs).2 + 2
  if etherType bs = 0x0800 ∧ beAt bs o 1 / 16 = 4 then some o else none

/-- The UDP datagram of a frame: IPv4, protocol 17, fragment offset 0 (R320). -/
def udpOf (bs : List Byte) : Option Udp :=
  match ipOfs bs with
  | none => none
  | some o =>
    let h := 4 * (beAt bs o 1 % 16)
    if beAt bs (o + 9) 1 ≠ 17 ∨ beAt bs (o + 6) 2 % 2 ^ 13 ≠ 0 then none else
      let u := o + h
      some ⟨beAt bs (o + 12) 4, beAt bs (o + 16) 4, beAt bs u 2, beAt bs (u + 2) 2,
        (bs.drop (u + 8)).take (beAt bs (u + 4) 2 - 8)⟩

/-! ### Receiving (R313 to R321) -/

/-- A port that has not run. -/
def portZero : PortSt := ⟨false, 0, 0, 0, [], none, 0, []⟩

/-- A port. -/
def portSt (s : State) (p : Nat) : PortSt := tabGet portZero s.net.ports p

/-- A port changed. -/
def modPort (p : Nat) (f : PortSt → PortSt) (s : State) : State :=
  { s with net := { s.net with ports := tabMod portZero p f s.net.ports } }

/-- Ethernet ports of the grade (R312). -/
def netPorts (s : State) : Nat :=
  match s.fuse.grade with
  | .ih0256 => 4
  | _ => 8

/-- MODE of a port, 0 where off (R312). -/
def netMode (s : State) (p : Nat) : Nat :=
  let m := fld (actW s (Reg.NET_MODE.at p)) 3 1
  if !bit (actW s (Reg.NET_MODE.at p)) 0 || decide (4 < m) then 0 else m

/-- The port's perfect-match address of entry `e`. -/
def daEntry (s : State) (p e : Nat) : Nat :=
  fld (actW s (Reg.NET_DA_HI.at p e)) 15 0 * 2 ^ 32 + fld (actW s (Reg.NET_DA_LO.at p e)) 31 0

/-- The destination address is accepted (R318). -/
def daAccepted (s : State) (p da : Nat) : Bool :=
  let f := actW s (Reg.NET_FILTER.at p)
  (da == 0xFFFFFFFFFFFF && bit f 16) || (List.range 16).any (fun e => bit f e && daEntry s p e == da)

/-- PVID (R335). -/
def pvid (s : State) (p : Nat) : Nat := let v := fld (actW s (Reg.NET_VLAN.at p)) 11 0; if v = 0 ∨ v = 4095 then 1 else v

/-- The VID used for steering, where the frame is admitted (R319). -/
def vlanTake (s : State) (p : Nat) (bs : List Byte) : Option Nat :=
  let w := actW s (Reg.NET_VLAN.at p)
  match (vlanOf bs).1 with
  | some tci =>
    let vid := tci % 4096
    if vid = 4095 then none
    else if vid = 0 then (if bit w 15 then none else some (pvid s p))
    else if bit w 14 then none else some vid
  | none => if bit w 15 then none else some (pvid s p)

/-- A steering entry matches (R320); headers are read from the first 96 bytes. -/
def steerMatch (s : State) (p vid : Nat) (bs : List Byte) (e : Nat) : Bool :=
  let w0 := actW s (Reg.STEER0.at e)
  let w1 := actW s (Reg.STEER1.at e)
  let ip := fld (actW s (Reg.STEER2.at e)) 31 0
  let udp := fld (actW s (Reg.STEER3.at e)) 31 16
  let h := bs.take 96
  let ipOk := ip == 0 || (match ipOfs h with
    | some o => beAt h (o + 16) 4 == ip
    | none => false)
  let udpOk := udp == 0 || (match ipOfs h, udpOf h with
    | some o, some u => u.dport == udp && decide (o + 4 * (beAt h o 1 % 16) + 8 ≤ 96)
    | _, _ => false)
  bit w0 31 && bit w0 (16 + p) && (bit w0 30 || fld w0 11 0 == vid) && (bit w1 16 || fld w1 15 0 == etherType bs) && ipOk && udpOk

/-- The queue steering gives a frame, and its entry (R320, R321). -/
def steer (s : State) (p vid : Nat) (bs : List Byte) : Option (Nat × Nat) :=
  match (List.range 256).find? (steerMatch s p vid bs) with
  | none => none
  | some e =>
    let q := fld (actW s (Reg.STEER3.at e)) 8 0
    if qEn s q && !qTx s q then some (e, q) else none

/-- The port's maximum frame length (R317). -/
def maxFrame (s : State) (p : Nat) : Nat := clampN 64 9600 (fld (actW s (Reg.NET_MAX_FRAME.at p)) 13 0)

/-- Where a received frame ends up: the checks of R316 in order. `pcs`: a code error; `fcs`: a wrong FCS. -/
def frameCheck (s : State) (p : Nat) (bs : List Byte) (pcs : Bool) : Sum Nat (Nat × Nat × Nat) :=
  let len := bs.length + 4
  let da := beAt bs 0 6
  if pcs then .inl 1
  else if len < 64 then .inl 2
  else if !daAccepted s p da then .inl 3
  else if etherType bs = 0x8808 then .inl 4
  else
    match vlanTake s p bs with
    | none => .inl 5
    | some vid =>
      match steer s p vid bs with
      | none => .inl 6
      | some (e, q) => .inr (vid, e, q)

/-- FLAGS of a frame of an Ethernet port without the timestamp's bit: tagged, multicast, broadcast (R323). -/
def frameFlags (bs : List Byte) : Nat :=
  let da := beAt bs 0 6
  (if (vlanOf bs).1.isSome then 2 else 0) + (if da / 2 ^ 40 % 2 = 1 ∧ da ≠ 0xFFFFFFFFFFFF then 4 else 0) +
    if da = 0xFFFFFFFFFFFF then 8 else 0

/-- TCI of a frame, or PVID with priority 0 (R323). -/
def frameTci (s : State) (p : Nat) (bs : List Byte) : Nat := (vlanOf bs).1.getD (pvid s p)

/-- A frame received on a port (R314, R316 to R324): bytes without the FCS, and the 250 ps steps of its timestamp
into the current sample. The cells that a frame has taken before its discard count toward the fewest free (R328). -/
def frameReceive (p : Nat) (bs : List Byte) (pcs fcs : Bool) (ofs : Nat) (s : State) : State :=
  let len := bs.length + 4
  let low (q : Nat) : State := poolLow (freeCells s - cellsGranted s q (min len (maxFrame s p + 1))) s
  if netMode s p = 0 ∨ !(portSt s p).link then s else
    match frameCheck s p bs pcs with
    | .inl 1 =>
      stick (Reg.NET_HIST.at p) 0 (count (Reg.NET_PCS_ERR_CNT.at p) (match frameCheck s p bs false with
        | .inr (_, _, q) => low q
        | .inl _ => s))
    | .inl 2 => count (Reg.NET_RUNT_CNT.at p) s
    | .inl 3 => count (Reg.NET_FILTER_CNT.at p) s
    | .inl 4 => count (Reg.NET_PAUSE_CNT.at p) s
    | .inl 5 => count (Reg.NET_VLAN_CNT.at p) s
    | .inl _ => stick Reg.QMG_STAT.base 1 (count Reg.QMG_NOSTEER_CNT.base s)
    | .inr (_, e, q) =>
      if maxFrame s p < len then count (Reg.NET_GIANT_CNT.at p) (low q)
      else if fcs then count (Reg.NET_FCS_CNT.at p) (low q)
      else
        let (ok, s1) := storeFrame q (prefixOf len p (1 + frameFlags bs) (frameTci s p bs) e s ofs) bs len s
        if ok then count (Reg.NET_RX_OK_CNT.at p) s1 else s1

/-! ### Transmitting (R333, R334) -/

/-- Port rate in kb/s by rate code (R335). -/
def rateKbps (code : Nat) : Nat :=
  match code with
  | 1 => 25000000 | 2 => 10000000 | 3 => 1000000 | 4 => 100000 | _ => 0

/-- idleSlope of class 1 (A) or 2 (B) of a port in kb/s. -/
def idleSlope (s : State) (p c : Nat) : Nat :=
  min (rateKbps (portSt s p).rate)
    (fld (actW s (if c = 1 then Reg.NET_IDLE_A.at p else Reg.NET_IDLE_B.at p)) 24 0)

/-- The class a queue's frames are served in: an unshaped class joins best effort (R333). -/
def servedClass (s : State) (p q : Nat) : Nat := let c := qClass s q; if c ≠ 0 ∧ idleSlope s p c = 0 then 0 else c

/-- Transmit queues of a port with a frame waiting, ascending. -/
def txWaiting (s : State) (p : Nat) : List Nat :=
  (s.net.queues.filter (fun x => x.2.frames != [] && qEn s x.1 && qTx s x.1 && qPort s x.1 == p)).map (·.1)

/-- The queues of a class that wait on a port. -/
def classWaiting (s : State) (p c : Nat) : List Nat := (txWaiting s p).filter (fun q => servedClass s p q == c)

/-- Credit of a class. -/
def creditOf (s : State) (p c : Nat) : Int := if c = 1 then (portSt s p).creditA else (portSt s p).creditB

/-- Credit of a class set. -/
def setCredit (p c : Nat) (v : Int) (s : State) : State :=
  modPort p (fun x => if c = 1 then { x with creditA := v } else { x with creditB := v }) s

/-- The credit of a class set to 0 where it is positive and no frame of it waits (R333). -/
def creditRest (p c : Nat) (s : State) : State :=
  when (decide (0 < creditOf s p c) && classWaiting s p c == []) (setCredit p c 0) s

/-- The device's time in 2^-16 ns. -/
def timeFx (s : State) : Int := ((s.time.sec * 1000000000 * 65536 + s.time.sub / 3 : Nat) : Int)

/-- Monotonic time in units of 10 ps. -/
def now10 (s : State) : Nat := monoNs s * 100

/-- Credits from one instant to another, in 10 ps, in which a frame of another class, or none of A and B, is sent: a
class whose frame arrived meanwhile rises as one with a frame waiting from then on (R333). -/
def creditRun (p t0 t1 : Nat) (s : State) : State :=
  [1, 2].foldl (fun t c =>
    let v := creditOf t p c
    let up (n : Nat) : Int := if v < 0 then min 0 (v + idleSlope t p c * n) else 0
    if classWaiting t p c ≠ [] then
      let w := max t0 (min t1 (tabGet 0 (portSt t p).since c))
      let v0 : Int := if w = t0 then v else up (w - t0)
      setCredit p c (v0 + idleSlope t p c * (t1 - w : Nat)) t
    else setCredit p c (up (t1 - t0)) t) s

/-- Credits over a time, in 10 ps, of an idle port: a waiting frame starts as soon as its class reaches 0 (R333). -/
def creditIdle (p n : Nat) (s : State) : State :=
  [1, 2].foldl (fun t c =>
    let v := creditOf t p c
    if v < 0 then setCredit p c (min 0 (v + idleSlope t p c * n)) t else creditRest p c t) s

/-- The next queue of a class in round robin (R333). -/
def nextQueue (s : State) (p c : Nat) : Option Nat :=
  let qs := classWaiting s p c
  match tabFind? c (portSt s p).last with
  | none => qs.head?
  | some l => match qs.find? (fun q => decide (l < q)) with
    | some q => some q
    | none => qs.head?

/-- The class and queue a port serves next (R333). -/
def nextTx (s : State) (p : Nat) : Option (Nat × Nat) :=
  let can (c : Nat) : Bool := classWaiting s p c != [] && (c == 0 || decide (0 ≤ creditOf s p c))
  match ([1, 2, 0].find? can) with
  | none => none
  | some c => (nextQueue s p c).map (fun q => (c, q))

/-- While the link of a port is down, each frame at the head of a transmit queue is released unsent (R334). -/
def txDiscard (p : Nat) (s : State) : State :=
  (txWaiting s p).foldl (fun t q =>
    countN (Reg.NET_TX_DISCARD_CNT.at p) (queueSt t q).frames.length (queueFlush q t)) s

/-- The class of a queue waits from now on, where nothing of it waited. -/
def classSince (q : Nat) (s : State) : State :=
  let p := qPort s q
  let c := servedClass s p q
  when (classWaiting s p c == []) (modPort p (fun x => { x with since := tabSet c (now10 s) x.since })) s

/-- A producer enqueues a frame on a transmit queue, padded to 60 bytes (R331); whether it was stored. A frame for a port
whose link is down is released as it reaches the head of its queue (R334). -/
def enqueueMsg (q : Nat) (bytes : List Byte) (msg : Option Out) (s : State) : Bool × State :=
  if !qEn s q || !qTx s q then (false, s) else
    let p := qPort s q
    let b := bytes ++ List.replicate (60 - bytes.length) 0
    let (flags, tci) := if p < 8 then (frameFlags b, frameTci s p b) else (0, 0)
    let (ok, s1) := storeMsg q (prefixOf (b.length + 4) p flags tci 0xFF s 0) b (b.length + 4) msg (classSince q s)
    (ok, when (decide (p < netPorts s) && !(portSt s p).link) (txDiscard p) s1)

/-- A frame of a producer that is told its queue. -/
def enqueueTx (q : Nat) (bytes : List Byte) (s : State) : Bool × State := enqueueMsg q bytes none s

/-- A frame that the device builds for an Ethernet port, enqueued on that port's own queue (R331): the ARP and IGMP
responder, the PTP instance and the control agent. -/
def sendOwn (p : Nat) (bytes : List Byte) (msg : Option Out) (s : State) : State :=
  if netPorts s ≤ p then s else (enqueueMsg (512 + p) bytes msg s).2

/-- Length of a PTP message by messageType. PRESUMED (log 28): IEEE 1588. -/
def ptpLen (kind : Nat) : Nat := if kind = 11 then 64 else if kind = 2 ∨ kind = 3 ∨ kind = 9 ∨ kind = 10 then 54 else 44

/-- A message of the PTP instance enqueued, with perfect-match entry 0 as its source (R318, R331). -/
def sendPtp (p kind : Nat) (unicast : Bool) (fields : List Int) (s : State) : State :=
  let sa := daEntry s p 0
  sendOwn p (List.replicate 6 0 ++ bytesBE 6 sa ++ bytesBE 2 0x88F7 ++ List.replicate (ptpLen kind) 0)
    (some (.ptp p kind unicast sa fields)) s

/-- A PTP event message starts: its timestamp is kept, and a Sync or a Pdelay_Resp is followed by the message that carries
it (R297, R314). -/
def ptpStart (p ofs : Nat) (msg : Option Out) (s : State) : State :=
  match msg with
  | some (.ptp _ kind _ _ _) =>
    if 3 < kind then s
    else
      let t := (timeFx s + (ofs * 16384 : Nat)) / 16384 * 16384
      let s1 := { s with tim := { s.tim with txStamp := tabSet kind t s.tim.txStamp } }
      if kind = 0 then sendPtp p 8 false [t] s1 else if kind = 3 then sendPtp p 10 false [t] s1 else s1
  | _ => s

/-- A frame starts at an instant, `ofs` steps of 250 ps into the current sample: it stays in its queue until its
transmission ends (R333). -/
def txStart (p c q t0 ofs : Nat) (s : State) : State :=
  match (queueSt s q).frames with
  | [] => s
  | f :: _ =>
    ptpStart p ofs f.msg (frameReport f.bad (modPort p (fun x => { x with
      last := tabSet c q x.last, sending := some ⟨c, q, (frameBytes f).drop 32, true, f.msg⟩, began := t0 }) s))

/-- The frame being sent leaves its queue. -/
def txRelease (p : Nat) (x : Sending) (s : State) : State :=
  modPort p (fun y => { y with sending := none }) (when x.linked
    (modQueue x.queue (fun q => { q with frames := q.frames.drop 1, read := q.read - 1, mark := q.mark - 1 })) s)

/-- Bits that a frame is charged: its length with FCS and 20 bytes of preamble and gap (R333). -/
def txBits (x : Sending) : Nat := (x.bytes.length + 4 + 20) * 8

/-- The instant, in 10 ps, at which a port's frame has been sent: at every rate a bit takes whole units (R333). -/
def txStop (s : State) (p : Nat) (x : Sending) : Nat :=
  (portSt s p).began + txBits x * 100000000 / max 1 (rateKbps (portSt s p).rate)

/-- A frame has been sent: it is released and counted, its class charged with it, its preamble and gap (R333). -/
def txEnd (p : Nat) (x : Sending) (s : State) : State :=
  let t0 := (portSt s p).began
  let t1 := txStop s p x
  let s1 := txRelease p x s
  let own := creditOf s1 p x.cls
  let s2 := creditRun p t0 t1 s1
  let s3 := if x.cls = 0 then s2
    else creditRest p x.cls (setCredit p x.cls (own + idleSlope s p x.cls * (t1 - t0 : Nat) - (txBits x * 100000000 : Nat)) s2)
  emit (x.msg.getD (.eth p x.bytes)) (count (Reg.NET_TX_OK_CNT.at p) s3)

/-- The next frame of a port starts, where one may (R333). -/
def txPick (p t0 ofs : Nat) (s : State) : State :=
  match nextTx s p with
  | none => s
  | some (c, q) => txStart p c q t0 ofs s

/-- A frame is finished, or the port has been idle for a while: the next one starts (R333, R334). Bits 31:0 of the
operand are the idle time in ns, those above the steps of 250 ps into the current sample. -/
def frameTransmit (p idle : Nat) (s : State) : State :=
  let ofs := idle / 2 ^ 32
  if netPorts s ≤ p then s
  else if !(portSt s p).link then txDiscard p s
  else match (portSt s p).sending with
    | some x => txPick p (txStop s p x) ofs (txEnd p x s)
    | none => txPick p (now10 s + 25 * ofs) ofs (creditIdle p (idle % 2 ^ 32 * 100) s)

/-- A waiting frame of class A or B on an idle port starts when its credit has risen back to 0 (R333). -/
def shaperZero (p : Nat) (s : State) : State :=
  let wait (c : Nat) : Bool := classWaiting s p c != [] && decide (creditOf s p c < 0)
  let due (c : Nat) : Nat := ((-(creditOf s p c)).toNat + idleSlope s p c - 1) / max 1 (idleSlope s p c)
  if !(portSt s p).link ∨ (portSt s p).sending.isSome ∨ (nextTx s p).isSome then s else
    match minBy due ([1, 2].filter wait) with
    | none => s
    | some c => txPick p (now10 s) 0 (setCredit p c 0 (creditIdle p (due c) s))

/-- A queue's EN changes (R330): what is linked is freed, packets that a stream holds among it; a frame being sent goes
on. -/
def queueEn (q : Nat) (s : State) : State :=
  let free (x : RxSt) : RxSt := { x with pkts := x.pkts.map (fun p => if p.queue = q then { p with cells := 0 } else p) }
  let s1 := queueFlush q s
  { s1 with
    mst := { s1.mst with rx := s1.mst.rx.map (fun x => (x.1, free x.2)) }
    lnk := { s1.lnk with rx := s1.lnk.rx.map (fun x => (x.1, free x.2)) }
    net := { s1.net with ports := s1.net.ports.map (fun p => (p.1, { p.2 with
      sending := p.2.sending.map (fun x => if x.queue = q then { x with linked := false } else x) })) } }

/-- The rate code of a port that comes up (R312): its mode's, for SGMII with auto-negotiation what the control word
reports; none where the link stays down. -/
def netRate (s : State) (p report : Nat) : Option Nat :=
  match netMode s p with
  | 1 => some 1
  | 2 => some 2
  | 3 => some 3
  | 4 =>
    if bit (actW s (Reg.NET_MODE.at p)) 7 then (if report = 3 ∨ report = 4 then some report else none)
    else some (if bit (actW s (Reg.NET_MODE.at p)) 6 then 4 else 3)
  | _ => none

/-- The SerDes reference of an Ethernet port (R593), which runs. -/
def netRef (s : State) : Bool := Nat.testBit s.start.refs 0

/-- A port's link comes up at a rate. -/
def netUp (p rate : Nat) (s : State) : State :=
  setN (Reg.NET_STATUS.at p) (rate % 8 * 2 + 1)
    (modPort p (fun x => { x with link := true, rate := rate, creditA := 0, creditB := 0 }) s)

/-- A port's link falls: a frame cut short and every frame that waits are released unsent (R315, R334). -/
def netDown (p : Nat) (s : State) : State :=
  let s1 := match (portSt s p).sending with
    | some x => count (Reg.NET_TX_DISCARD_CNT.at p) (txRelease p x s)
    | none => s
  let s2 := modPort p (fun x => { x with link := false, rate := 0, creditA := 0, creditB := 0 }) s1
  raise 0x28 (bytesOf 1 p ++ bytesOf 1 0) (stick (Reg.NET_HIST.at p) 1 (setN (Reg.NET_STATUS.at p) 0 (txDiscard p s2)))

/-- An Ethernet port's link rises, with the speed a PHY's control word reports, or falls (R312, R315, R335); without its
reference it stays down (R593). -/
def netLink (p : Nat) (up : Bool) (report : Nat) (s : State) : State :=
  if netPorts s ≤ p ∨ (portSt s p).link = up then s
  else if !up then netDown p s
  else match netRate s p report with
    | some r => if netRef s then netUp p r s else s
    | none => s

/-! ### What reads show (R338, R340) -/

/-- Words 0 and 1 of a queue's status (R338). -/
def queueWord (s : State) (q i : Nat) : Nat :=
  let x := queueSt s q
  let n := cellsOf x
  if i = 0 then n % 2 ^ 16 * 2 ^ 16 + n % 2 ^ 16 else (x.frames.length - x.read) * 2 ^ 16 + (x.frames.length + x.heldFrames)

end Sys2Proof.Machine
end

