-- ==== Sys2Proof/Machine/Clk.lean ====
section
/-! DEFINITION. Media clocks: reference candidates, selection, the DPLL (R276 to R296, R306, R307). Frequencies and
phases come with the measurements that bring them. -/

namespace Sys2Proof.Machine

open Sys2Proof

/-! ### Candidates (R278 to R284) -/

/-- A candidate that is off. -/
def candZero : CandSt := ⟨0, 0, 0, 0, [], [], 0, 0, 0, true, 0, 0⟩

/-- A candidate. -/
def cand (s : State) (c : Nat) : CandSt := tabGet candZero s.clk.cands c

/-- A candidate's state word shown (R307). -/
def candShow (c : Nat) (s : State) : State :=
  let x := cand s c
  let typ := fld (actW s (Reg.CLK_CAND0.at c)) 19 16
  let pps := actF s Reg.TIM_PPS_SEC_LO.base 31 0 + actF s Reg.TIM_PPS_SEC_HI.base 31 0
  let bears := decide (x.state = 3) && (typ == 0 || typ == 1 || (typ == 4 && pps != 0))
  setN (Reg.CLK_CSTAT1.at c) (x.shown % 2 ^ 18) (setN (Reg.CLK_CSTAT0.at c)
    ((if bears then 2 ^ 12 else 0) + (if s.clk.tgt = some c then 2 ^ 9 else 0) + (if s.clk.sel = some c then 2 ^ 8 else 0) +
      x.state) s)

/-- Every candidate's status shown. -/
def candsShow (s : State) : State := (List.range 8).foldl (fun t c => candShow c t) s

/-- A candidate changed. -/
def modCand (c : Nat) (f : CandSt → CandSt) (s : State) : State :=
  { s with clk := { s.clk with cands := tabMod candZero c f s.clk.cands } }

/-- The selector's and the loop's part changed. -/
def modClk (f : ClkSt → ClkSt) (s : State) : State := { s with clk := f s.clk }

/-- TYPE, INST, PRIORITY and NOMINAL of a candidate's record (R307). -/
def candType (s : State) (c : Nat) : Nat := fld (actW s (Reg.CLK_CAND0.at c)) 19 16
def candInst (s : State) (c : Nat) : Nat := fld (actW s (Reg.CLK_CAND0.at c)) 7 0
def candPrio (s : State) (c : Nat) : Nat := fld (actW s (Reg.CLK_CAND0.at c)) 27 24
def candNominal (s : State) (c : Nat) : Nat := fld (actW s (Reg.CLK_CAND3.at c)) 17 0

/-- A candidate may leave OFF: enabled, of a known type whose unit runs (R278, R280). -/
def candUsable (s : State) (c : Nat) : Bool :=
  let t := candType s c
  bit (actW s (Reg.CLK_CAND0.at c)) 31 && decide (t < 6) && (t != 1 || (unitPresent s uLNK && decide (candInst s c < linkCount s))) &&
    (t != 3 || (unitPresent s uAES && decide (candInst s c < serCount true s))) && (t != 2 || decide (candInst s c < 2))

/-- Qualification time in ms (R278). -/
def candQual (s : State) (c : Nat) : Nat :=
  let q := fld (actW s (Reg.CLK_CAND1.at c)) 15 0
  if q ≠ 0 ∧ candType s c ≠ 5 then q else
    match candType s c with
    | 0 => 2000 | 1 => 500 | 2 => 100 | 3 => 100 | 4 => 5000 | _ => 0

/-- Loop bandwidth in 0.01 Hz: the default for 0, held within the type's range, the type's own where it is fixed
(R278). -/
def candBw (s : State) (c : Nat) : Nat :=
  let w := fld (actW s (Reg.CLK_CAND2.at c)) 15 0
  match candType s c with
  | 0 => if w = 0 then 10 else clampN 1 200 w
  | 1 => 100
  | 2 => if w = 0 then 2000 else clampN 200 10000 w
  | 3 => 2000
  | 4 => 2
  | _ => 0

/-- Rates a word clock or AES3 candidate accepts (R279). -/
def clockRates : List Nat := [32000, 44100, 48000, 88200, 96000, 176400, 192000]

/-- The supported rate a measured period (ps) stands for, within 1% of it and of NOMINAL (R279, R281). -/
def supportedRate (s : State) (c : Nat) (period : Nat) : Option Nat :=
  let near (r : Nat) : Bool := decide (r * 99 * period ≤ 100000000000000) && decide (100000000000000 ≤ r * 101 * period)
  if candType s c = 4 then (if near 1 then some 1 else none)
  else
    let n := candNominal s c
    clockRates.find? (fun r => near r && (n == 0 || near n))

/-- History bits set; those newly set raise an event (R284). -/
def candHist (c mask : Nat) (s : State) : State :=
  let old := (regW s (Reg.CLK_HIST.at c)).toNat
  let fresh := mask - (mask &&& old)
  when (fresh != 0) (raise 0x20 (bytesOf 1 c ++ bytesOf 1 fresh)) (setN (Reg.CLK_HIST.at c) (old ||| mask) s)

/-! ### Selection and the DPLL (R285 to R295) -/

/-- CLK_STAT shown (R306). -/
def clkShow (s : State) : State :=
  candsShow (setN Reg.CLK_STAT.base ((if s.clk.bActive then 2 ^ 12 else 0) + (s.clk.tgt.getD 0xF) * 2 ^ 8 +
    (s.clk.sel.getD 0xF) * 2 ^ 4 + s.clk.state) s)

/-- The frequency held so far while LOCKED put down, as far back as HOLD_AVG can reach (R292). -/
def lockSpan (s : State) : State :=
  if s.clk.state ≠ 2 then s else
    let now := monoNs s
    modClk (fun k => { k with
      locks := (k.lockFrom, now, k.freq) :: k.locks.takeWhile (fun p => decide (now ≤ p.2.1 + 257000000000))
      lockFrom := now }) s

/-- The DPLL's state, selection and target changed, with the event (R288). -/
def clkGo (state : Nat) (sel tgt : Option Nat) (redirect : Bool) (s : State) : State :=
  let s1 := modClk (fun k => { k with
    state := state, sel := sel, tgt := tgt, inSince := none, pullFree := false, pullRest := false
    lockFrom := monoNs s, holdSince := if state = 3 then monoNs s else k.holdSince }) (lockSpan s)
  raise 0x21 (bytesOf 1 s.clk.state ++ bytesOf 1 state ++ bytesOf 1 (sel.getD 0xF) ++ bytesOf 1 (tgt.getD 0xF) ++
    bytesOf 1 (if redirect then 1 else 0)) (clkShow s1)

/-- The frequency of the loop, shown as s15.16 ppm (R306). -/
def clkFreq (v : Int) (s : State) : State :=
  setN Reg.CLK_FREQ.base (lowBits 32 v) (modClk (fun k => { k with freq := v }) s)

/-- The holdover estimate (R292): the mean over time of the frequencies held LOCKED in the HOLD_AVG seconds that ended
1 s ago; the oscillator's nominal where there is no such time. -/
def holdFreq (s : State) : Int :=
  let h := actF s Reg.CLK_HOLD.base 7 0
  let stop := monoNs s - 1000000000
  let low := stop - (if h = 0 then 10 else h) * 1000000000
  let part (p : Nat × Nat × Int) : Nat := min p.2.1 stop - max p.1 low
  let total := (s.clk.locks.map part).sum
  if total = 0 then 0 else roundDiv ((s.clk.locks.map (fun p => p.2.2 * part p)).sum) total

/-- HOLDOVER entered (R285, R288). -/
def enterHold (s : State) : State :=
  let s1 := clkGo 3 none none false s
  stick Reg.CLK_SEL_HIST.base 2 (clkFreq (holdFreq s1) s1)

/-- FORCE, where it names a candidate (R286). -/
def clkForce (s : State) : Option Nat := let f := fld (actW s Reg.CLK_CTRL.base) 12 9; if f < 8 then some f else none

/-- A candidate may be selected (R286). -/
def eligible (s : State) (c : Nat) : Bool :=
  decide ((cand s c).state = 3) && candType s c != 5 && (match clkForce s with
    | none => true
    | some f => f == c)

/-- The best of the eligible candidates (R286). -/
def bestCand (s : State) : Option Nat := minBy (candPrio s) ((List.range 8).filter (eligible s))

/-- A candidate taken as the target: ACQUIRING from FREE, else SWITCHING; `redirect` where a pull turns to it. -/
def takeTarget (c : Nat) (redirect : Bool) (s : State) : State :=
  let st := if s.clk.state = 0 ∨ s.clk.state = 1 then 1 else 4
  let s1 := clkGo st (some c) (some c) redirect (modClk (fun k => { k with ever := true }) s)
  let s2 := stick Reg.CLK_SEL_HIST.base 1 (count Reg.CLK_SWITCH_CNT.base s1)
  when redirect (fun t => stick Reg.CLK_SEL_HIST.base 0 (count Reg.CLK_REDIRECT_CNT.base t)) s2

/-- The FREE candidate that could be selected (R286, R287). -/
def freeCand (s : State) : Option Nat :=
  (List.range 8).find? (fun c => candType s c == 5 && (cand s c).state == 3 && (match clkForce s with
    | none => true
    | some f => f == c))

/-- FORCE holds the DPLL over: it names a candidate that is not QUALIFIED, and a reference has been followed (R286). -/
def forceHolds (s : State) : Bool :=
  s.clk.ever && decide (s.clk.state = 0) && (match clkForce s with
    | none => false
    | some f => !((cand s f).state == 3))

/-- The selector runs (R286 to R288, R294). In FREE nothing that could be lost is selected. -/
def clkSelect (s : State) : State :=
  let best := bestCand s
  let pulling := decide (s.clk.state = 1) || decide (s.clk.state = 4)
  match if s.clk.state = 0 then none else s.clk.sel with
  | none =>
    match best with
    | some c => takeTarget c false s
    | none =>
      if forceHolds s then enterHold s
      else if s.clk.state = 0 then clkShow (modClk (fun k => { k with sel := freeCand s }) s)
      else clkShow s
  | some cur =>
    if !eligible s cur then
      let s1 := enterHold s
      match best with
      | some c => takeTarget c pulling s1
      | none => s1
    else
      match best with
      | some c =>
        if c ≠ cur ∧ actB s Reg.CLK_CTRL.base 15 then takeTarget c pulling s else clkShow s
      | none => clkShow s

/-! ### Time source (R300) -/

/-- A candidate bears time (R278). -/
def bearsTime (s : State) (c : Nat) : Bool :=
  let t := candType s c
  t == 0 || t == 1 || (t == 4 && (actF s Reg.TIM_PPS_SEC_LO.base 31 0 + actF s Reg.TIM_PPS_SEC_HI.base 31 0 != 0))

/-- The best qualified time-bearing candidate (R300). -/
def timeSource (s : State) : Option Nat :=
  minBy (candPrio s) ((List.range 8).filter (fun c => decide ((cand s c).state = 3) && bearsTime s c))

/-- TIM_OFFSET of the time source: the candidate's −e, in 2^-16 ns. -/
def sourceOffset (s : State) : Int :=
  match timeSource s with
  | some c => -(cand s c).phase
  | none => 0

/-- TIM_STEP_NS in 2^-16 ns (R308). -/
def stepThreshold (s : State) : Nat := max 1000 (fld (actW s Reg.TIM_STEP_NS.base) 31 0) * 65536

/-- The grandmaster identity has changed: counted and raised (R300). -/
def gmSet (gm : Nat) (s : State) : State :=
  if gm = s.tim.gmId then s
  else
    raise 0x23 (bytesOf 8 s.tim.gmId ++ bytesOf 8 gm)
      (stick Reg.TIM_STAT.base 1 (count Reg.TIM_GM_CHANGE_CNT.base { s with tim := { s.tim with gmId := gm } }))

/-- The grandmaster that a time source names: a PTP candidate the instance's, a link-time candidate its partner's; a 1PPS
names none (R300, R378). -/
def sourceGm (s : State) (c : Nat) : Option Nat :=
  match candType s c with
  | 0 => some s.tim.ptpGm
  | 1 => tabFind? (candInst s c) s.tim.linkGm
  | _ => none

/-- The time source followed: a first source, or a changed one beyond the threshold, asks for a step, and the grandmaster
identity becomes that of a changed one (R300). -/
def sourceCheck (changed : Bool) (s : State) : State :=
  let src := timeSource s
  if src = s.tim.source ∧ !changed then s else
    let first := decide (src.isSome) && !s.tim.hadSource
    let far := decide (stepThreshold s < (sourceOffset s).natAbs)
    let s1 := match if src = s.tim.source then none else src.bind (sourceGm s) with
      | some gm => gmSet gm s
      | none => s
    { s1 with tim := { s1.tim with
      source := src
      hadSource := s.tim.hadSource || src.isSome
      stepDue := s.tim.stepDue || first || (src.isSome && far) } }

/-- A candidate's state has changed: the selector and the time source follow (R286, R300). -/
def candChanged (s : State) : State := sourceCheck false (clkSelect s)

/-- A candidate enters a state. -/
def candGo (c state : Nat) (s : State) : State :=
  candChanged (modCand c (fun x => { x with
    state := state, since := monoNs s, glitches := [], fresh := if state = 1 then true else x.fresh
    periods := if state = 1 then [] else x.periods }) s)

/-- A candidate without its signal, of which no rule makes a loss: it waits, and its history keeps still (R280, R281). -/
def candWait (c : Nat) (s : State) : State := if (cand s c).state < 2 then s else candGo c 1 s

/-- A candidate is lost (R282, R283). -/
def candLose (c : Nat) (s : State) : State :=
  if (cand s c).state < 2 then s else candGo c 1 (candHist c 1 s)

/-- A candidate is disqualified (R282, R283). -/
def candDisq (c bits : Nat) (s : State) : State := candGo c 4 (candHist c (8 + bits) s)

/-- A glitch: ignored; the third within 1 s disqualifies (R282, R283). -/
def candGlitch (c : Nat) (s : State) : State :=
  let now := monoNs s
  let recent := (cand s c).glitches.filter (fun t => decide (now ≤ t + 1000000000))
  let s1 := candHist c 2 (modCand c (fun x => { x with glitches := now :: recent }) s)
  if 2 ≤ recent.length then candDisq c 0 s1 else s1

/-- Lock threshold of a type in 2^-16 ns (R291). -/
def lockThreshold (t : Nat) : Nat := if t = 2 ∨ t = 3 then 100 * 65536 else 1000 * 65536

/-- SLOPE in 2^-16 ppm (R290). -/
def slopePpm (s : State) : Int := (clampN 5 500 (actF s Reg.CLK_CTRL.base 8 0) * 65536 / 10 : Nat)

/-- The target's frequency with the correction of the slope rule (R290), in 2^-16 ppm. -/
def pulled (e freq : Int) (s : State) : Int := freq + clampI (-(slopePpm s)) (slopePpm s) (e / 1000)

/-- A loop of the gains `p` and `a`, p the square of the proportional and a the integral one, passes at least half the
power at the angular frequency whose square is `w`, all in 2^-64 per second squared (R291). -/
def loopPasses (p a w : Nat) : Bool :=
  decide (((a : Int) - w) ^ 2 + (p * w : Nat) ≤ 2 * ((a : Int) ^ 2 + (p * w : Nat)))

/-- 2π in 2^-32. -/
def twoPi : Nat := 26986075409

/-- Gains of a second-order loop of bandwidth `bw` in 0.01 Hz, taken where half the power passes, to 1%, whose response
nowhere rises by 0.1 dB, in power by a factor of 1.0232 (R291). -/
def loopFits (bw : Nat) (g : Nat × Nat) : Bool :=
  let p : Nat := g.1 ^ 2
  let a : Nat := g.2 * 2 ^ 32
  let w : Nat := (bw * twoPi) ^ 2
  let b : Int := (232 * p : Nat) - (20464 * a : Nat)
  decide (0 < a) && (decide (0 ≤ b) || decide (b ^ 2 < 4 * 10232 * 232 * (a : Int) ^ 2)) &&
    loopPasses p a (w * 99 ^ 2 / 10 ^ 8) && !loopPasses p a (w * 101 ^ 2 / 10 ^ 8)

/-- The gains of the LOCKED loop: the device's own where they fit the rule, else gains that do (R291). -/
def loopGain (bw : Nat) : Nat × Nat :=
  let g := Config.loopGain bw
  let k := bw * twoPi / 101
  if loopFits bw g then g else (k, k ^ 2 / (100 * 2 ^ 32))

/-- The LOCKED loop of second order at the candidate's bandwidth takes a phase error, `dt` ns after the last (R291). -/
def loopStep (c dt : Nat) (e : Int) (s : State) : State :=
  let g := loopGain (candBw s c)
  let i := s.clk.integ + e * g.2 * dt / 1000000000000
  clkFreq (roundShift (i + e * g.1 / 1000) 32) (modClk (fun k => { k with integ := i }) s)

/-- A phase error of the selected candidate turned into the output frequency: pulled, or, LOCKED, through the loop
(R288 to R291). An offset that is to be stepped is stepped before it is pulled (R289); what the step has left is pulled
before the loop goes on from the target's frequency (R300). -/
def phaseActs (c dt : Nat) (e freq : Int) (inside : Bool) (s : State) : State :=
  if (s.tim.stepDue || s.time.stepWaits) && decide (timeSource s = some c) then s
  else if s.clk.state = 2 then
    let s1 := lockSpan s
    if s1.clk.pullRest then
      clkFreq (pulled e freq s1) (modClk (fun k => { k with pullRest := !inside, integ := freq * 2 ^ 32 }) s1)
    else loopStep c dt e s1
  else if s.clk.state = 1 ∨ s.clk.state = 4 then clkFreq (pulled e freq s) s
  else s

/-- A candidate's phase error measured: looked at for a step where the candidate is the time source, `changed` where its
grandmaster is a new one (R300), shown where it is the selected one's, watched for lock, and turned into the output
frequency (R289 to R291). -/
def phaseSeen (c : Nat) (e freq : Int) (changed : Bool) (s : State) : State :=
  let now := monoNs s
  let dt := now - (cand s c).measured
  let sm := modCand c (fun x => { x with phase := e, freq := freq, last := now, measured := now }) s
  let s0 := if timeSource sm = some c then sourceCheck changed sm else sm
  if s.clk.sel ≠ some c then s0 else
    let inside := decide (e.natAbs ≤ lockThreshold (candType s c))
    phaseActs c dt e freq inside (setN Reg.CLK_PHASE.base (lowBits 32 (satS 32 (roundShift e 8)))
      (modClk (fun k => { k with inSince := if !inside then none else if k.inSince.isNone then some now else k.inSince }) s0))

/-- A timestamp's value taken to its step of 250 ps, in 2^-16 ns (R277). -/
def quantFx (v : Int) : Int := v / 16384 * 16384

/-- `TIM_PPS_SEC` as it acts: the second of the next 1PPS edge (R301). -/
def ppsSec (s : State) : Nat := actF s Reg.TIM_PPS_SEC_LO.base 31 0 + 2 ^ 32 * actF s Reg.TIM_PPS_SEC_HI.base 31 0

/-- A distance taken modulo `p` into ±half of it (R289). -/
def wrapHalf (p : Nat) (e : Int) : Int := if p = 0 then e else (e + (p / 2 : Nat)) % (p : Int) - (p / 2 : Nat)

/-- One second in 2^-16 ns. -/
def secFx : Int := 65536000000000

/-- The phase error of an edge-timed candidate (R289), from the distance measured: modulo the reference period for word
clock and AES3, modulo 1 s for a 1PPS. Where a 1PPS bears time its edge's time is the device's nearest one with that
distance, and the error runs to it from the second that `TIM_PPS_SEC` names. -/
def edgePhase (s : State) (c : Nat) (e : Int) : Int :=
  if candType s c = 4 then
    let w := wrapHalf (1000000000 * 65536) (quantFx e)
    if bearsTime s c then w + secFx * roundDiv (ppsSec s * secFx - timeFx s - w) (1000000000 * 65536) else w
  else wrapHalf (1000000000 * 65536 / max 1 (cand s c).rate) (quantFx e)

/-- Hertz of a period in ps. -/
def hertz (period : Nat) : Nat := (1000000000000 + period / 2) / max 1 period

/-- An edge of an edge-timed candidate (R279 to R282, R289, R307): its period in ps, phase error in 2^-16 ns and frequency
in 2^-16 ppm as measured. -/
def edgeSeen (c period : Nat) (e freq : Int) (s : State) : State :=
  let x := cand s c
  let t := candType s c
  if x.state = 0 ∨ !(t == 2 || t == 3 || t == 4) ∨ period = 0 then s else
    if x.state = 1 ∨ x.state = 4 then
      match supportedRate s c period with
      | some r =>
        let s1 := modCand c (fun y => { y with periods := [period], last := monoNs s })
          (candGo c 2 (modCand c (fun y => { y with rate := r, shown := hertz period }) s))
        phaseSeen c (edgePhase s1 c e) freq false s1
      | none =>
        candShow c (modCand c (fun y => { y with shown := hertz period, last := monoNs s }) s)
    else
      let p := 1000000000000 / max 1 x.rate
      if p < 8 * (max p period - min p period) then
        candGlitch c (count Reg.CLK_GLITCH_CNT.base (modCand c (fun y => { y with last := monoNs s }) s))
      else
        let ps := (period :: x.periods).take 64
        let mean := ps.foldl (· + ·) 0 / ps.length
        let s1 := modCand c (fun y => { y with periods := ps, shown := hertz mean, last := monoNs s }) s
        if ps.length = 64 ∧ p < 100 * (max p mean - min p mean) then
          candDisq c 4 (modCand c (fun y => { y with periods := [] }) s1)
        else phaseSeen c (edgePhase s1 c e) freq false (candShow c s1)

/-- No edge for three periods: an edge-timed candidate is lost (R282). -/
def candLoss (c : Nat) (s : State) : State :=
  let t := candType s c
  let x := cand s c
  if (t = 2 ∨ t = 3 ∨ t = 4) ∧ x.last * x.rate + 3000000000 ≤ monoNs s * x.rate then candLose c s else s

/-- A candidate's qualification time has run out (R280). -/
def qualDone (c : Nat) (s : State) : State :=
  let x := cand s c
  if x.state = 2 ∧ x.since + candQual s c * 1000000 ≤ monoNs s then candGo c 3 s else s

/-- The lock criterion holds: the loop starts from the frequency last measured (R291). -/
def lockAchieved (s : State) : State :=
  match s.clk.inSince with
  | some t =>
    if (s.clk.state = 1 ∨ s.clk.state = 4) ∧ t + 1000000000 ≤ monoNs s then
      modClk (fun k => { k with integ := (cand s (s.clk.sel.getD 0)).freq * 2 ^ 32 }) (clkGo 2 s.clk.sel none false s)
    else s
  | none => s

/-- `v` moved toward 0 by at most `d`. -/
def toward0 (d : Nat) (v : Int) : Int := v - clampI (-(d : Int)) d v

/-- The pull back to nominal after HOLD_MAX (R287): by SLOPE each second, a tick's part at a time; at nominal it ends in
FREE. -/
def pullTick (s : State) : State :=
  if !s.clk.pullFree then s
  else
    match freeCand s with
    | none => modClk (fun k => { k with pullFree := false }) s
    | some f =>
      let v := toward0 ((slopePpm s).toNat / 1000 + 1) s.clk.freq
      if v = 0 then clkGo 0 (some f) none false (clkFreq 0 s) else clkFreq v s

/-- HOLD_MAX seconds of holdover have passed: the pull to nominal begins, and ends at once where the output is nominal
(R287, R288). -/
def holdExpiry (s : State) : State :=
  let h := actF s Reg.CLK_CTRL.base 31 16
  if s.clk.state = 3 ∧ h ≠ 0 ∧ s.clk.holdSince + h * 1000000000 ≤ monoNs s ∧ (freeCand s).isSome then
    let s1 := modClk (fun k => { k with pullFree := true }) s
    if s.clk.freq = 0 then pullTick s1 else s1
  else s

/-- A write to CLK_CTRL that acts (R286, R306). -/
def clkCtrl (v : Word) (s : State) : State := clkSelect (setW Reg.CLK_CTRL.base (v &&& fieldsMask Reg.CLK_CTRL) s)

/-- The fields of word `i` of a candidate's record (R307). -/
def candMask (i : Nat) : Word :=
  match i with
  | 0 => fieldsMask Reg.CLK_CAND0 | 1 => fieldsMask Reg.CLK_CAND1 | 2 => fieldsMask Reg.CLK_CAND2 | _ => fieldsMask Reg.CLK_CAND3

/-- Word `i` of candidate `c`'s record acts with a new value (R285): a change of EN, TYPE, INST or NOMINAL starts its
qualification again, and is the loss of the selected reference. -/
def candActs (c i : Nat) (old new : Word) (s : State) : State :=
  if !((i = 0 ∧ (old &&& 0x800F00FF) ≠ (new &&& 0x800F00FF)) ∨ (i = 3 ∧ old ≠ new)) then s
  else
    candGo c (if !candUsable s c then 0 else if candType s c = 5 then 3 else 1)
      (if s.clk.sel = some c then candHist c 1 s else s)

/-- A write to word `i` of a candidate's record that acts (R285, R307). -/
def candWrite (c i : Nat) (v : Word) (s : State) : State :=
  let a := Reg.CLK_CAND0.at c + 4 * i
  candActs c i (actW s a) (v &&& candMask i) (setW a (v &&& candMask i) s)

/-- Every candidate taken up at start. -/
def candsStart (s : State) : State :=
  clkShow ((List.range 8).foldl (fun t c =>
    if candUsable t c then candGo c (if candType t c = 5 then 3 else 1) t else t) s)

/-- DPLL A asked to retire (R295); whether B can take over. -/
def dpllRetire (s : State) : Bool × State :=
  if s.clk.bActive ∨ s.clk.retired.contains 1 ∨ s.clk.leaving then
    (false, raise 0x22 [1] (stick Reg.CLK_SEL_HIST.base 4 s))
  else (true, modClk (fun k => { k with leaving := true }) s)

/-- At a tick boundary DPLL B takes over where A retires (R295 steps 3 and 4), and a pull to nominal goes on (R287). -/
def clkTick (s0 : State) : State :=
  let s := pullTick s0
  if s.clk.leaving then
    raise 0x22 [0] (stick Reg.CLK_SEL_HIST.base 3 (clkShow (modClk (fun k => { k with
      leaving := false, bActive := true, retired := setAdd 0 k.retired }) s)))
  else s

end Sys2Proof.Machine
end

