-- ==== Sys2Proof/Machine/Tim.lean ====
section
/-! DEFINITION. Network time (R297 to R301), the decision of a step of the scale (R62, R300), time triggers (R302 to
R304), captures (R305) and the time outputs (R296). Offsets and instants are in 2^-16 ns. -/

namespace Sys2Proof.Machine

open Sys2Proof

/-- The time engine changed. -/
def modTim (f : TimSt → TimSt) (s : State) : State := { s with tim := f s.tim }

/-! ### The PTP instance (R297 to R299) -/

/-- The instance runs (R308). -/
def ptpOn (s : State) : Bool := bit (actW s Reg.TIM_CTRL.base) 0

/-- GM_CAPABLE, PROFILE and the delay mechanism: 802.1AS is P2P only (R297, R308). -/
def gmCapable (s : State) : Bool := bit (actW s Reg.TIM_CTRL.base) 1
def ptpProfile (s : State) : Nat := let p := fld (actW s Reg.TIM_CTRL.base) 3 2; if p = 3 then 0 else p
def ptpP2P (s : State) : Bool := bit (actW s Reg.TIM_CTRL.base) 4 || ptpProfile s == 2

/-- DOMAIN, PORT and BACKUP_PORT (R308); domain 0 for 802.1AS (R297). -/
def ptpDomain (s : State) : Nat := if ptpProfile s = 2 then 0 else fld (actW s Reg.TIM_PTP_CFG.base) 7 0
def ptpPort (s : State) : Nat := fld (actW s Reg.TIM_PTP_CFG.base) 10 8
def ptpBackup (s : State) : Nat := fld (actW s Reg.TIM_PTP_CFG.base) 14 11

/-- Interval 2^log s of a signed 4-bit field, in ns. -/
def logInterval (v : Nat) : Nat :=
  let l := signed 4 v
  if 0 ≤ l then 1000000000 * 2 ^ l.toNat else 1000000000 / 2 ^ (-l).toNat

/-- `TIM_PTP_STAT` shown; the other fields as they were (R308). -/
def ptpShow (s : State) : State :=
  let a := Reg.TIM_PTP_STAT.base
  setF a 3 0 (if ptpOn s then s.tim.portState else 0) (setF a 6 4 (s.tim.port % 8) s)

/-- HYBRID: Delay_Req goes to the master alone; E2E only (R297, R308). -/
def ptpHybrid (s : State) : Bool := bit (actW s Reg.TIM_CTRL.base) 5 && !ptpP2P s

/-- ANN_TIMEOUT: Announce intervals without an Announce (R283, R308). -/
def annTimeout (s : State) : Nat :=
  let n := fld (actW s Reg.TIM_PTP_CFG.base) 27 24
  if n < 2 ∨ 10 < n then 3 else n

/-- PTP candidates. -/
def ptpCands (s : State) : List Nat := (List.range 8).filter (fun c => candType s c == 0 && candUsable s c)

/-- The instance enters a port state (IEEE 1588 codes: 4 LISTENING, 6 MASTER, 7 PASSIVE, 8 UNCALIBRATED, 9 SLAVE); out of
SLAVE the PTP candidates have no signal (R281). -/
def ptpGo (st : Nat) (s : State) : State :=
  let s1 := modTim (fun t => { t with
    portState := st, listenSince := if st = 4 ∧ t.portState ≠ 4 then monoNs s else t.listenSince }) s
  ptpShow (if s.tim.portState = 9 ∧ st ≠ 9 then (ptpCands s1).foldl (fun t c => candWait c t) s1 else s1)

/-- What the instance has learnt of its neighbour is gone: asCapable and the timestamps of its requests (R308). -/
def ptpApart (s : State) : State := setF Reg.TIM_PTP_STAT.base 7 7 0 (modTim (fun t => { t with txStamp := [] }) s)

/-- The instance begins again on a port, LISTENING (R298). -/
def ptpListen (port : Nat) (s : State) : State :=
  ptpGo 4 (ptpApart (modTim (fun t => { t with
    port := port, masters := [], master := none, portBack := none, listenSince := monoNs s }) s))

/-- Every PTP candidate is lost (R283). -/
def ptpLost (s : State) : State := (ptpCands s).foldl (fun t c => candLose c t) (stick Reg.TIM_STAT.base 2 s)

/-- PTP_EN has changed (R308). -/
def ptpEnable (s : State) : State :=
  if ptpOn s then
    let p := ptpPort s
    let b := ptpBackup s
    ptpListen (if (portSt s p).link ∨ 8 ≤ b then p else b) s
  else ptpGo 0 (ptpApart (modTim (fun t => { t with masters := [], master := none }) s))

/-- An Ethernet link has changed: the instance leaves a PORT whose link is down, and notes since when it is back
(R298). -/
def ptpLink (p : Nat) (up : Bool) (s : State) : State :=
  if !ptpOn s || p != ptpPort s then s
  else if up then modTim (fun t => { t with portBack := if t.port = p then none else some (monoNs s) }) s
  else
    let s1 := modTim (fun t => { t with portBack := none }) s
    if s.tim.port = p ∧ ptpBackup s < 8 then ptpListen (ptpBackup s) s1 else s1

/-- An Ethernet port's link rises or falls, and the PTP instance follows it (R298, R312, R315). -/
def portLink (p : Nat) (up : Bool) (report : Nat) (s : State) : State :=
  let t := netLink p up report s
  if (portSt t p).link = (portSt s p).link then t else ptpLink p (portSt t p).link t

/-- PORT's link has been up for 2 s: the instance returns to it (R298). -/
def ptpReturn (s : State) : State :=
  match s.tim.portBack with
  | some t => if ptpOn s ∧ t + 2000000000 ≤ monoNs s then ptpListen (ptpPort s) s else s
  | none => s

/-- The order of the data sets in the BMCA: priority1, class, accuracy, variance, priority2, identity; between
Announces of one grandmaster, the steps and the sender (R298). -/
def Master.key (m : Master) : List Nat := [m.prio1, m.cls, m.acc, m.var, m.prio2, m.gm, m.steps, m.sender]

/-- The lexicographic order of two lists of numbers. -/
def lexLt : List Nat → List Nat → Bool
  | a :: as, b :: bs => if a < b then true else if b < a then false else lexLt as bs
  | [], _ :: _ => true
  | _, [] => false

/-- The best master heard. -/
def bestMaster : List Master → Option Master
  | [] => none
  | m :: ms =>
    match bestMaster ms with
    | none => some m
    | some b => if lexLt b.key m.key then some b else some m

/-- The device's own data set, from `TIM_PTP_DS` and `TIM_PTP_VAR` (R298). -/
def ownMaster (s : State) : Master :=
  let d := actW s Reg.TIM_PTP_DS.base
  ⟨fld d 7 0, fld d 23 16, fld d 31 24, fld (actW s Reg.TIM_PTP_VAR.base) 15 0, fld d 15 8, Config.clockIdentity % 2 ^ 64,
    0, 0, fld (actW s Reg.TIM_UTC_OFS.base) 15 0, 0, 0⟩

/-- The next offset of these candidates starts the prediction anew (R283). -/
def candsFresh (cs : List Nat) (s : State) : State := cs.foldl (fun t c => modCand c (fun x => { x with fresh := true }) t) s

/-- The instance follows a grandmaster; where the identity changes, the next offset starts the prediction anew (R283).
It is the grandmaster of the device's time unless the time source is a link (R300). -/
def gmFollow (gm cls : Nat) (s : State) : State :=
  let s0 := setF Reg.TIM_PTP_STAT.base 15 8 (cls % 256) s
  let s1 := if gm = s.tim.ptpGm then s0
    else candsFresh (ptpCands s0) (modTim (fun t => { t with ptpGm := gm }) s0)
  match s.tim.source with
  | some c => if candType s c = 1 then s1 else gmSet gm s1
  | none => gmSet gm s1

/-- A master's Announce is still in force (R283). -/
def masterHeard (s : State) (m : Master) : Bool := decide (monoNs s < m.heard + annTimeout s * m.interval)

/-- The BMCA runs over the masters still heard (R298). -/
def bmca (s0 : State) : State :=
  let s := modTim (fun t => { t with masters := t.masters.filter (masterHeard s0) }) s0
  let own := ownMaster s
  match bestMaster s.tim.masters with
  | none =>
    let s1 := modTim (fun t => { t with master := none }) s
    if gmCapable s then ptpGo 6 (gmFollow own.gm own.cls s1) else ptpGo 4 s1
  | some m =>
    if gmCapable s && lexLt (own.key.take 6) (m.key.take 6) then
      ptpGo 6 (gmFollow own.gm own.cls (modTim (fun t => { t with master := none }) s))
    else if gmCapable s && decide (1 ≤ own.cls) && decide (own.cls ≤ 127) then
      ptpGo 7 (gmFollow m.gm m.cls (modTim (fun t => { t with master := none }) s))
    else
      let same : Bool := match s.tim.master with
        | some o => o.sender == m.sender
        | none => false
      let st := if same = true ∧ (s.tim.portState = 8 ∨ s.tim.portState = 9) then s.tim.portState else 8
      let s1 := setF Reg.TIM_PTP_STAT.base 31 16 (m.utc % 65536) (modTim (fun t => { t with master := some m }) s)
      ptpGo st (gmFollow m.gm m.cls s1)

/-- The device's own data set or GM_CAPABLE has changed: the BMCA runs again, but for an instance that still listens for
its first Announce (R298). -/
def ptpRerun (s : State) : State :=
  if ptpOn s ∧ !(s.tim.portState = 4 ∧ s.tim.masters.isEmpty) then bmca s else s

/-- A PTP Announce of a domain, at an interval of the subset, is taken and the BMCA runs (R297, R298). -/
def announce (domain : Nat) (m : Master) (s : State) : State :=
  if !ptpOn s || domain != ptpDomain s || decide (255 ≤ m.steps) || m.sender == Config.clockIdentity % 2 ^ 64 ||
      decide (m.interval < 125000000) || decide (8000000000 < m.interval) then s
  else
    let m1 := { m with heard := monoNs s }
    bmca (modTim (fun t => { t with masters := (t.masters.filter (fun o => o.sender != m.sender)) ++ [m1] }) s)

/-- The Announce receipt timeout (R283, R298): the master followed is lost; an instance that has listened for the
timeout without any Announce, or has lost the master it was PASSIVE for, decides again. -/
def announceTimeout (s : State) : State :=
  if !ptpOn s then s
  else
    match s.tim.master with
    | some m => if masterHeard s m then s else bmca (ptpLost (count Reg.TIM_ANN_TIMEOUT_CNT.base s))
    | none =>
      let wait := annTimeout s * logInterval (fld (actW s Reg.TIM_PTP_CFG.base) 23 20)
      if s.tim.portState = 4 ∧ s.tim.listenSince + wait ≤ monoNs s then
        bmca (modTim (fun t => { t with listenSince := monoNs s }) s)
      else if s.tim.portState = 7 then bmca s
      else s

/-- No Sync for three intervals (R283). -/
def syncTimeout (s : State) : State :=
  let due (c : Nat) : Bool :=
    decide (2 ≤ (cand s c).state) && decide ((cand s c).last + 3 * (cand s c).interval ≤ monoNs s)
  if ptpOn s ∧ (ptpCands s).any due then ptpLost s else s

/-- delayAsymmetry of the port in use, in 2^-16 ns (R299). -/
def asymmetry (s : State) : Int := sfld (actW s (Reg.TIM_ASYM.at s.tim.port)) 31 0 * 256

/-- The mean path delay taken up and shown as u24.8 ns (R299). -/
def meanDelay (v : Int) (s : State) : State :=
  setN Reg.TIM_MEAN_DELAY.base (satU 32 (roundShift v 8)).toNat (modTim (fun t => { t with meanDelay := v }) s)

/-- One PTP candidate takes an offset (R281, R283, R289): `pred` is what the loop predicted, `freq` the master's
frequency, which has to measure within 100 ppm. -/
def candOffset (offset pred freq : Int) (interval : Nat) (s : State) (c : Nat) : State :=
  let x := cand s c
  let s0 := modCand c (fun y => { y with last := monoNs s, interval := interval }) s
  if x.state = 0 then s0
  else if 6553600 < freq.natAbs then candWait c s0
  else if decide (655360000 < (offset - pred).natAbs) && !x.fresh && decide (2 ≤ x.state) && decide (x.state ≤ 3) then
    candGlitch c (count Reg.TIM_SYNC_REJ_CNT.base s0)
  else
    let s1 := modCand c (fun y => { y with fresh := false }) s0
    let s2 := if x.state = 1 ∨ x.state = 4 then modCand c (fun y => { y with fresh := false }) (candGo c 2 s1) else s1
    phaseSeen c (-offset) freq x.fresh s2

/-- The interval in ns that a Sync's header announces in bits 15:8, as a signed power of two seconds. -/
def syncNs (header : Nat) : Nat :=
  let e := header / 256 % 256
  if e < 128 then 1000000000 * 2 ^ e else 1000000000 / 2 ^ (256 - e)

/-- A Sync exchange of the master followed, at an interval of the subset (R297, R299): domain and interval of its header,
`t1` and `t2` in 2^-16 ns, the correction, the loop's prediction of the offset, and the master's measured frequency in
2^-16 ppm. -/
def syncReceive (header : Nat) (t1 t2 corr pred freq : Int) (s : State) : State :=
  let interval := syncNs header
  if !ptpOn s || header % 256 != ptpDomain s || s.tim.master == none || decide (interval < 7812500) ||
      decide (2000000000 < interval) then s
  else
    let diff := quantFx t2 - t1 - corr
    let s1 := modTim (fun t => { t with syncDiff := diff }) s
    let s2 := ptpGo 9 s1
    let offset := diff - s.tim.meanDelay - asymmetry s
    (ptpCands s2).foldl (candOffset offset pred freq interval) s2

/-- A delay message (R277, R299), its receive instants taken to 250 ps. Kind 0: Delay_Req that came at t4, answered as
master; 1: Delay_Resp with t4 and C′, to the Delay_Req whose transmit timestamp is kept (R314); 2: Pdelay_Req that came
at t2, answered in two steps; 3: Pdelay_Resp that came at t4 with t2, t3, C and the neighbour rate ratio with 32 fraction
bits, to the Pdelay_Req whose timestamp is kept. -/
def delayMessage (kind domain : Nat) (_t1 t2 t3 t4 corr ratio : Int) (s : State) : State :=
  if !ptpOn s || domain != ptpDomain s then s
  else
    match kind with
    | 0 => if s.tim.portState = 6 ∧ !ptpP2P s then sendPtp s.tim.port 9 false [quantFx t4] s else s
    | 1 =>
      match tabFind? 1 s.tim.txStamp with
      | none => s
      | some sent =>
        if (s.tim.portState = 8 ∨ s.tim.portState = 9) ∧ !ptpP2P s then
          meanDelay ((s.tim.syncDiff + (t4 - sent - corr)) / 2) (modTim (fun t => { t with txStamp := tabErase 1 t.txStamp }) s)
        else s
    | 2 =>
      if ptpP2P s then sendPtp s.tim.port 3 false [quantFx t2] s else s
    | 3 =>
      match tabFind? 2 s.tim.txStamp with
      | none => s
      | some sent =>
        if ptpP2P s then
          let s1 := modTim (fun t => { t with neighRate := ratio, txStamp := tabErase 2 t.txStamp })
            (meanDelay (((quantFx t4 - sent) * ratio / 2 ^ 32 - (t3 - t2) - corr) / 2) s)
          if ptpProfile s = 2 then setF Reg.TIM_PTP_STAT.base 7 7 1 s1 else s1
        else s
    | _ => s

/-- A timestamp of the present instant (R277). -/
def stampNow (s : State) : Int := quantFx (timeFx s)

/-- A message whose time has come is enqueued (R298, R331). Kind 0: Sync, which its Follow_Up follows; 1: Announce; 2:
Delay_Req or Pdelay_Req. -/
def ptpSend (kind : Nat) (s : State) : State :=
  if !ptpOn s then s
  else
    let now := monoNs s
    let cfg := actW s Reg.TIM_PTP_CFG.base
    let due (last log : Nat) : Bool := decide (last = 0) || decide (last + logInterval log ≤ now)
    match kind with
    | 0 =>
      if s.tim.portState = 6 ∧ due s.tim.sentSync (fld cfg 19 16) then
        sendPtp s.tim.port 0 false [] (modTim (fun t => { t with sentSync := max 1 now }) s)
      else s
    | 1 =>
      if s.tim.portState = 6 ∧ due s.tim.sentAnn (fld cfg 23 20) then
        let o := ownMaster s
        setF Reg.TIM_PTP_STAT.base 31 16 o.utc (sendPtp s.tim.port 11 false
          ([o.prio1, o.cls, o.acc, o.var, o.prio2, o.gm, o.utc].map (fun v => (v : Int)))
          (modTim (fun t => { t with sentAnn := max 1 now }) s))
      else s
    | 2 =>
      if ptpP2P s then sendPtp s.tim.port 2 false [] (modTim (fun t => { t with sentDelay := max 1 now }) s)
      else if s.tim.portState = 8 ∨ s.tim.portState = 9 then
        sendPtp s.tim.port 1 (ptpHybrid s) [] (modTim (fun t => { t with sentDelay := max 1 now }) s)
      else s
    | _ => s

/-! ### 1PPS seconds (R301) -/

/-- A write to `TIM_PPS_SEC`: shown at once, in effect from the first edge more than 100 ms later. -/
def ppsWrite (hi : Bool) (v : Word) (s : State) : State :=
  let a := if hi then Reg.TIM_PPS_SEC_HI.base else Reg.TIM_PPS_SEC_LO.base
  let s1 := { s with words := { s.words with wr := tabSet a v s.words.wr } }
  modTim (fun t => { t with ppsWait := some (fld (regW s1 Reg.TIM_PPS_SEC_LO.base) 31 0 +
    2 ^ 32 * fld (regW s1 Reg.TIM_PPS_SEC_HI.base) 31 0, monoNs s) }) s1

/-- A number put into `TIM_PPS_SEC`, as what acts and, where no write waits, as what a read returns. -/
def ppsSet (n : Nat) (s : State) : State :=
  let lo := BitVec.ofNat 32 n
  let hi := BitVec.ofNat 32 (n / 2 ^ 32)
  match s.tim.ppsWait with
  | none => setW Reg.TIM_PPS_SEC_LO.base lo (setW Reg.TIM_PPS_SEC_HI.base hi s)
  | some _ =>
    let act := tabSet Reg.TIM_PPS_SEC_LO.base lo (tabSet Reg.TIM_PPS_SEC_HI.base hi s.words.act)
    { s with words := { s.words with act := act } }

/-- A 1PPS input edge comes: a write that has waited its 100 ms takes effect for it. -/
def ppsTake (s : State) : State :=
  match s.tim.ppsWait with
  | some (v, t) =>
    if t + 100000000 < monoNs s then ppsSet v (modTim (fun x => { x with ppsWait := none }) s) else s
  | none => s

/-- After the edge the second named moves on, and a candidate that has begun to bear time is looked at (R300, R301). -/
def ppsOn (s : State) : State :=
  let n := ppsSec s
  sourceCheck false (candsShow (if n = 0 then s else ppsSet (n + 1) s))

/-- A 1PPS input edge, `f` what it does to a candidate. -/
def ppsEdge (f : State → State) (s : State) : State := ppsOn (f (ppsTake s))

/-! ### Steps of the scale (R62, R300) -/

/-- The step's size in ticks: the time source's offset from the device, rounded half up to whole ticks (R300). -/
def stepTicks (s : State) : Int := roundDiv (-(sourceOffset s)) (1000000 * 65536)

/-- The time engine decides a step (R62, R300): the EPOCH tag is inserted at once and names tick t + 3. -/
def stepDecide (s : State) : State :=
  if !s.tim.stepDue || s.time.stepWaits then s
  else
    let d := stepTicks s
    let s1 := { modTim (fun t => { t with stepDue := false }) s with time := { s.time with haveTime := true } }
    if d = 0 then s1
    else
      let t := nowTick s + 3
      let rest := decide (s.clk.state = 2) && decide (s.clk.sel = timeSource s)
      modClk (fun k => { k with pullRest := k.pullRest || rest })
        (inject (mkTag tEPOCH 0xFF 0xFF 1 t) { s1 with time := { s1.time with
          steps := (t, ofsTicks s s.time.idx + d) :: s.time.steps, stepWaits := true } })

/-! ### Captures (R305, R311) -/

/-- The current instant plus a number of 250 ps units, on the media clock. -/
def monoQuarter (s : State) (q : Nat) : Nat := s.time.mono / 49152 + q

/-- One channel takes an edge. -/
def captureOn (falling : Bool) (q : Nat) (s : State) (c : Nat) : State :=
  let x : CapSt := tabGet ⟨[], none⟩ s.tim.caps c
  let now := monoQuarter s q
  let close := match x.last with
    | some l => decide (now < l + 80)
    | none => false
  if close || decide (16 ≤ x.queue.length) then stick Reg.TIM_STAT.base 4 (count Reg.TIM_CAP_DROP_CNT.base s)
  else
    let t := s.time.sub / 49152 + q
    let sec := s.time.sec + t / 4000000000
    let e : List Word := [BitVec.ofNat 32 sec, BitVec.ofNat 32 (sec / 2 ^ 32), BitVec.ofNat 32 (t % 4000000000 / 4),
      BitVec.ofNat 32 (2 ^ 31 + (if falling then 2 ^ 20 else 0) + scaleNow s * 2 ^ 16 + t % 4 * 16384)]
    let s1 := modTim (fun m => { m with caps := tabSet c ⟨x.queue ++ [e], some now⟩ m.caps }) s
    when (x.queue == []) (raise 0x24 (bytesOf 1 c)) s1

/-- A channel captures this edge of this source (R311). -/
def captures (s : State) (src : Nat) (falling : Bool) (c : Nat) : Bool :=
  let w := actW s (Reg.TIM_CAPCFG.at c)
  bit w 7 && fld w 4 0 == src && (fld w 6 5 == 2 || fld w 6 5 == (if falling then 1 else 0))

/-- An edge on a capture source, `q` units of 250 ps after the sample in progress began (R305). -/
def captureEdge (src : Nat) (falling : Bool) (q : Nat) (s : State) : State :=
  if 22 ≤ src then s else ((List.range 16).filter (captures s src falling)).foldl (captureOn falling q) s

/-- Reading capture queue word 0 (R311): the oldest entry is taken and its other words latched. -/
def captureRead (c : Nat) (s : State) : Word × State :=
  let x : CapSt := tabGet ⟨[], none⟩ s.tim.caps c
  let e := x.queue.headD [0, 0, 0, 0]
  (e.getD 0 0, setW (Reg.TIM_CAPQ1.at c) (e.getD 1 0) (setW (Reg.TIM_CAPQ2.at c) (e.getD 2 0)
    (setW (Reg.TIM_CAPQ3.at c) (e.getD 3 0)
      (modTim (fun m => { m with caps := tabSet c { x with queue := x.queue.tail } m.caps }) s))))

/-! ### Time pins (R303, R305, R308) -/

/-- A time pin is an output. -/
def pinOut (s : State) (p : Nat) : Bool := bit (actW s Reg.TIM_PIN_CFG.base) p

/-- The level a time pin drives. -/
def pinLevel (s : State) (p : Nat) : Bool := Nat.testBit s.tim.pins p

/-- A time pin driven to a level `q` units of 250 ps after the sample in progress began: an edge shows, and is captured
as it is driven (R305). -/
def pinDrive (p : Nat) (high : Bool) (q : Nat) (s : State) : State :=
  if !pinOut s p || pinLevel s p == high then s
  else
    let m := if high then s.tim.pins + 2 ^ p else s.tim.pins - 2 ^ p
    captureEdge p (!high) q (emit (.pin p high q) (modTim (fun t => { t with pins := m }) s))

/-- `TIM_PIN_CFG` acts with a new value: a pin whose DIR or IDLE changes takes its idle level. On a pin that was an output
before, that is an edge driven, and captured (R305). -/
def pinConfig (old v : Word) (s1 : State) : State :=
  let ps := (List.range 16).filter (fun p => bit old p != bit v p || bit old (16 + p) != bit v (16 + p))
  ps.foldl (fun s p =>
    let idle := bit v (16 + p)
    if bit old p && bit v p then pinDrive p idle 0 s
    else if pinLevel s p == idle then s
    else modTim (fun t => { t with pins := if idle then t.pins + 2 ^ p else t.pins - 2 ^ p }) s) s1

/-! ### Triggers (R302 to R304, R310) -/

/-- A trigger that is not armed. -/
def trigZero : TrigSt := ⟨false, 0, 0, 0, [], 0, true, true⟩

/-- A trigger. -/
def trig (s : State) (i : Nat) : TrigSt := tabGet trigZero s.tim.trigs i

/-- A trigger changed. -/
def modTrig (i : Nat) (f : TrigSt → TrigSt) (s : State) : State :=
  modTim (fun t => { t with trigs := tabMod trigZero i f t.trigs }) s

/-- ACTION of an armed trigger: 0 TAG, 1 JOB, 2 and 3 pin only. -/
def trigAction (x : TrigSt) : Nat := fld x.cfg 2 1

/-- The tag an armed trigger inserts, without its TARGET. -/
def trigTag (x : TrigSt) : TagRec := tagOfWords (x.rec4.getD 0 0) (x.rec4.getD 1 0) 0 0

/-- `n / m` rounded up. -/
def ceilDiv (n m : Nat) : Nat := (n + m - 1) / m

/-- The block or tick a TAG trigger names (R303). -/
def trigTarget (s : State) (x : TrigSt) : Nat :=
  if isTickType (trigTag x).typ then ceilDiv x.x (tickLen s)
  else ceilDiv (if bit x.cfg 3 then x.x - 112 else x.x) 16

/-- The sample index of a trigger's point (R303). -/
def trigPoint (s : State) (x : TrigSt) : Nat :=
  match trigAction x with
  | 0 => if isTickType (trigTag x).typ then trigTarget s x * tickLen s else trigTarget s x * 16
  | 1 => ceilDiv x.x 16 * 16
  | _ => x.x

/-- The sample index at which a trigger's record goes out: a tag three ticks before its named point (R303). -/
def trigOut (s : State) (x : TrigSt) : Nat :=
  match trigAction x with
  | 0 => (trigPoint s x / tickLen s - 3) * tickLen s
  | _ => trigPoint s x

/-- The record of trigger `i` goes out; TARGET overwrites bytes 8 to 15 of a tag's record (R302, R303, R310). -/
def trigRecord (i : Nat) (x : TrigSt) (s : State) : State :=
  match trigAction x with
  | 0 =>
    let k := trigTarget s x
    submitTag { trigTag x with target := k } (setW (Reg.TIM_TRIGREC.at i 3) (wordOf (k / 2 ^ 32)) (setW (Reg.TIM_TRIGREC.at i 2) (wordOf k) s))
  | 1 => offerHold (descOfWords 2 (x.rec4.getD 0 0) (x.rec4.getD 1 0) (x.rec4.getD 2 0) (x.rec4.getD 3 0)) s
  | _ => s

/-- A trigger's pin edge (R302, R310). -/
def trigPin (x : TrigSt) (s : State) : State :=
  let p := fld x.cfg 11 8
  if !bit x.cfg 5 then s
  else
    match fld x.cfg 13 12 with
    | 0 => pinDrive p true 0 s
    | 1 => pinDrive p false 0 s
    | 2 => pinDrive p (!pinLevel s p) 0 s
    | _ => pinDrive p (pinLevel s p) 4000 (pinDrive p (!pinLevel s p) 0 s)

/-- A trigger as its next record sees it. -/
def trigAhead (x : TrigSt) : TrigSt := { x with x := x.recX }

/-- The parts of an armed trigger whose points have come act. A periodic trigger's records run ahead of its pin edges by
what R303 asks. -/
def trigDue (i : Nat) (s : State) : State :=
  let x := trig s i
  let s1 := if !x.recDone ∧ trigOut s (trigAhead x) ≤ sampleIdx s then
      trigRecord i (trigAhead x) (modTrig i (fun y =>
        { y with recDone := decide (y.period = 0), recX := y.recX + y.period }) s)
    else s
  if !x.pinDone ∧ x.x ≤ sampleIdx s then trigPin x (modTrig i (fun y => { y with pinDone := true }) s1) else s1

/-- A trigger readied for its point: what it has no record or pin edge for counts as done. -/
def trigReady (x : TrigSt) : TrigSt :=
  { x with recX := max x.x x.recX, recDone := decide (2 ≤ trigAction x), pinDone := !bit x.cfg 5 }

/-- The record of a trigger's point has gone out, or it has none. -/
def trigRecOut (x : TrigSt) : Bool := x.recDone || decide (x.x < x.recX)

/-- A one-shot trigger has fired: EN clears (R304). -/
def trigEnd (i : Nat) (s : State) : State :=
  setF (Reg.TIM_TRIG3.at i) 0 0 0 (modTrig i (fun _ => trigZero) s)

/-- A trigger armed or advanced past its point (R304): it fires at once and counts one; a periodic one skips to its
first future point and counts each skipped period. -/
def trigLate (i : Nat) (s : State) : State :=
  let x := trig s i
  if !x.armed || decide (sampleIdx s ≤ trigPoint s x) then s
  else
    let fired := trigPin { x with cfg := if x.pinDone then x.cfg &&& ~~~ (0x20 : Word) else x.cfg }
      (if trigRecOut x then s else trigRecord i x s)
    let s1 := stick Reg.TIM_STAT.base 3 (count Reg.TIM_TRIG_LATE_CNT.base fired)
    if x.period = 0 then trigEnd i s1
    else
      let unit := if trigAction x = 0 ∧ isTickType (trigTag x).typ then tickLen s else if trigAction x ≤ 1 then 16 else 1
      let wire := if trigAction x = 0 ∧ !isTickType (trigTag x).typ ∧ bit x.cfg 3 then 112 else 0
      let need := unit * (ceilDiv (sampleIdx s) unit - 1) + wire + 1
      let k := max 1 (ceilDiv (need - x.x) x.period)
      countN Reg.TIM_TRIG_LATE_CNT.base (k - 1) (modTrig i (fun y => trigReady { y with x := y.x + k * y.period }) s1)

/-- A trigger whose parts have all acted advances or ends (R304). -/
def trigNext (i : Nat) (s : State) : State :=
  let x := trig s i
  if !x.armed || !trigRecOut x || !x.pinDone then s
  else if x.period = 0 then trigEnd i s
  else trigLate i (modTrig i (fun y => trigReady { y with x := y.x + y.period }) s)

/-- A trigger fires where a point of it has come (R302 to R304). -/
def trigFire (i : Nat) (s : State) : State := if (trig s i).armed then trigNext i (trigDue i s) else s

/-- Word 3 of a trigger's record written: EN going to 1 arms it with its record, EN 0 disarms it (R304). -/
def trigWrite (i : Nat) (v : Word) (s : State) : State :=
  let was := (trig s i).armed
  let s1 := setW (Reg.TIM_TRIG3.at i) (v &&& fieldsMask Reg.TIM_TRIG3) s
  if !bit v 0 then modTrig i (fun _ => trigZero) s1
  else if was then s1
  else
    let x : TrigSt := trigReady ⟨true, fld (regW s1 (Reg.TIM_TRIG0.at i)) 31 0 + 2 ^ 32 * fld (regW s1 (Reg.TIM_TRIG1.at i)) 31 0,
      fld (regW s1 (Reg.TIM_TRIG2.at i)) 31 0, v, (List.range 4).map (fun k => regW s1 (Reg.TIM_TRIGREC.at i k)), 0, false, false⟩
    trigFire i (trigLate i (modTrig i (fun _ => x) s1))

/-- At a step, triggers with ANCHOR 1 move with the numbering (R304). -/
def trigsStep (d : Int) (s : State) : State :=
  let s1 := modTim (fun t => { t with trigs := t.trigs.map (fun p =>
    (p.1, if p.2.armed && bit p.2.cfg 4 then { p.2 with x := ((p.2.x : Int) + d).toNat, recX := ((p.2.recX : Int) + d).toNat }
      else p.2)) }) s
  (s1.tim.trigs.map (·.1)).foldl (fun t i => trigLate i t) s1

/-! ### Reads that latch (R72, R308) -/

/-- `TIM_SIDX_LO` read. -/
def sidxRead (s : State) : Word × State :=
  (BitVec.ofNat 32 (sampleIdx s), setN Reg.TIM_SIDX_HI.base (sampleIdx s / 2 ^ 32 % 2 ^ 32) s)

/-- `TIM_TIME_SEC_LO` read. -/
def timeRead (s : State) : Word × State :=
  (BitVec.ofNat 32 s.time.sec, setN Reg.TIM_TIME_SEC_HI.base (s.time.sec / 2 ^ 32 % 2 ^ 32)
    (setN Reg.TIM_TIME_NS.base (timeNs s) (setN Reg.TIM_TIME_FRAC.base (timeFrac s / 0x4000 * 0x4000) s)))

/-- `TIM_GM_ID_LO` read. -/
def gmIdRead (s : State) : Word × State :=
  (BitVec.ofNat 32 s.tim.gmId, setN Reg.TIM_GM_ID_HI.base (s.tim.gmId / 2 ^ 32 % 2 ^ 32) s)

/-- `TIM_OFFSET_LO` read. -/
def offsetRead (s : State) : Word × State :=
  let v := lowBits 64 (sourceOffset s)
  (BitVec.ofNat 32 v, setN Reg.TIM_OFFSET_HI.base (v / 2 ^ 32) s)

/-! ### Clock outputs (R296) -/

/-- Rate of a word clock output's code (R306); none where it is off. -/
def wcRate (s : State) (code : Nat) : Option Nat :=
  if code = 1 then some (rateHz s) else if 2 ≤ code ∧ code ≤ 8 then clockRates[code - 2]? else none

/-- Edges of a square wave of `r` cycles a second in the sample that begins now: level after the edge, and units of
250 ps into the sample. Its rising edges are the instants at which samples of that rate begin (R296). -/
def squareEdges (s : State) (r : Nat) : List (Bool × Nat) :=
  let first := (s.time.sub * 2 * r + subPerSec - 1) / subPerSec
  let past := ((s.time.sub + subPerSample s) * 2 * r + subPerSec - 1) / subPerSec
  (List.range (past - first)).map (fun k =>
    (decide ((first + k) % 2 = 0), ((first + k) * subPerSec / (2 * r) - s.time.sub) / 49152))

/-- Edges of the 1PPS output in the sample that begins now: up with each TAI second, down 100 ms later (R296). -/
def ppsEdges (s : State) : List (Bool × Nat) :=
  let stop := s.time.sub + subPerSample s
  let edge (x : Nat) (up : Bool) : List (Bool × Nat) :=
    if s.time.sub ≤ x ∧ x < stop then [(up, (x - s.time.sub) / 49152)] else []
  edge 0 true ++ edge (subPerSec / 10) false ++ edge subPerSec true

/-- Edges of clock output `n` (0 and 1 word clocks, 2 1PPS) in the sample that begins now, as `CLK_OUT` acts (R306). -/
def clockEdges (s : State) (n : Nat) : List (Bool × Nat) :=
  let w := actW s Reg.CLK_OUT.base
  if n = 2 then (if bit w 8 then ppsEdges s else [])
  else
    match wcRate s (fld w (4 * n + 3) (4 * n)) with
    | some r => squareEdges s r
    | none => []

/-- One edge goes out, and is captured (R296, R305, R311). -/
def clockEdge (n : Nat) (s : State) (e : Bool × Nat) : State := captureEdge (19 + n) (!e.1) e.2 (emit (.clock n e.1 e.2) s)

/-- The clock outputs run through the sample that begins now (R296). -/
def clockOuts (s : State) : State := [0, 1, 2].foldl (fun t n => (clockEdges s n).foldl (clockEdge n) t) s

end Sys2Proof.Machine
end

