-- ==== Sys2Proof/Machine/Mst.lean ====
section
/-! DEFINITION. Streams: placement by sample index, concealment, the claim rule, slips and groups (R341 to R364,
R375), and the packing of transmit streams (R352 to R357). The receive part serves the stream engine and the links:
`lnk` chooses the table. -/

namespace Sys2Proof.Machine

open Sys2Proof

/-! ### Records -/

/-- A receive stream that does not run. -/
def rxZero : RxSt := ⟨0, 48000, 0, 0, [], [], 0, [], [], some 0, none, none, false, false, [], [], 0, 0,
  none, none, none, none, none, none, none⟩

/-- A receive stream. -/
def rxOf (lnk : Bool) (s : State) (k : Nat) : Option RxSt := tabFind? k (if lnk then s.lnk.rx else s.mst.rx)

/-- A receive stream's state set. -/
def rxPut (lnk : Bool) (k : Nat) (x : RxSt) (s : State) : State :=
  if lnk then { s with lnk := { s.lnk with rx := tabSet k x s.lnk.rx } }
  else { s with mst := { s.mst with rx := tabSet k x s.mst.rx } }

/-- A receive stream changed, where it runs. -/
def rxMod (lnk : Bool) (k : Nat) (f : RxSt → RxSt) (s : State) : State :=
  match rxOf lnk s k with
  | some x => rxPut lnk k (f x) s
  | none => s

/-- A receive stream taken out. -/
def rxErase (lnk : Bool) (k : Nat) (s : State) : State :=
  if lnk then { s with lnk := { s.lnk with rx := tabErase k s.lnk.rx } }
  else { s with mst := { s.mst with rx := tabErase k s.mst.rx } }

/-- Address of a receive stream's status record (R366, R386). -/
def rxStat (lnk : Bool) (k : Nat) : Nat := if lnk then 0x40EA0000 + k * 32 else 0x40E20000 + k * 32

/-- Word 0 of a receive record. -/
def rxW0 (lnk : Bool) (s : State) (k : Nat) : Word := actW s (if lnk then 0x40E90000 + k * 16 else 0x40E00000 + k * 64)

/-- CLAIM_EN of a receive stream (R344, R386). -/
def rxClaimEn (lnk : Bool) (s : State) (k : Nat) : Bool := bit (rxW0 lnk s k) 28

/-- Rate of a stream in Hz: RATE of its record; a link stream's frames carry theirs. -/
def rxRate (s : State) (k : Nat) : Nat :=
  match fld (rxW0 false s k) 15 14 with
  | 0 => 48000 | 1 => 96000 | 2 => 192000 | _ => rateHz s

/-- Samples per packet of a packet-time code at a rate (R341). -/
def ptimeLen (code fs : Nat) : Nat :=
  (match code with
    | 0 => 6 | 1 => 12 | 2 => 16 | _ => 48) * (fs / 48000)

/-- Packet samples, channels and bytes per sample of a receive stream. -/
def rxPtime (s : State) (k : Nat) : Nat := ptimeLen (fld (rxW0 false s k) 23 22) (rxRate s k)
def rxChans (s : State) (k : Nat) : Nat := fld (rxW0 false s k) 21 16 + 1
def rxBytes (s : State) (k : Nat) : Nat := if bit (rxW0 false s k) 29 then 2 else 3

/-- DUAL and PLACE SLIP as they act (R344, R426). -/
def rxDual (s : State) (k : Nat) : Bool := bit (rxW0 false s k) 12 && accepted s 8
def rxSlip (s : State) (k : Nat) : Bool := bit (rxW0 false s k) 13

/-- Alignment group, none for 32 to 63 (R344). -/
def rxGroup (s : State) (k : Nat) : Option Nat := let g := fld (rxW0 false s k) 5 0; if g < 32 then some g else none

/-- *D* of a stream on its own (R350). -/
def rxOwnD (s : State) (k : Nat) : Nat :=
  let buf := clampN 250 20000 (fld (actW s (Reg.MRX1.at k)) 31 16)
  rxPtime s k + (roundDiv (buf * rxRate s k : Nat) 1000000).toNat

/-- The current stream index at a rate (R348). -/
def streamIndex (s : State) (fs : Nat) : Nat := s.time.sec * fs + s.time.sub * fs / subPerSec

/-- Positions at a rate that stand before block `b` of the pipeline, in the time scale of that block (R62, R63), and
those that stand before its end. -/
def blockPos (s : State) (fs b : Nat) : Nat := extSmp s (16 * b) * fs / rateHz s
def blockStop (s : State) (fs b : Nat) : Nat := (extSmp s (16 * b) + 16) * fs / rateHz s

/-! ### State shown, claims (R362, R366) -/

/-- STATE changes: shown, with the event, and HOLD_STK on entering HOLDING. -/
def rxShow (lnk : Bool) (k st : Nat) (s : State) : State :=
  let a := rxStat lnk k
  let old := match rxOf lnk s k with
    | some x => x.state
    | none => 0
  if old = st then s else
    let s1 := setF a 2 0 st (rxMod lnk k (fun x => { x with state := st }) s)
    let s2 := when (st == 3) (stick Reg.MST_STAT.base 3) s1
    if lnk then s2 else raise 0x2B (bytesOf 1 k ++ bytesOf 1 0 ++ bytesOf 1 st) s2

/-- Cells of packets given back (R350). -/
def givePkts (ps : List RxPkt) (s : State) : State := ps.foldl (fun t p => queueGive p.queue p.cells t) s

/-- The highest claim seen within the last 2 ms (R362). -/
def claimNow (s : State) (x : RxSt) : Nat :=
  (x.seen.filter (fun c => decide (monoNs s < c.2 + 2000000))).foldl (fun m c => max m c.1) 0

/-- The accepted claim brought up to date: a new one empties what the former claim filled (R362). -/
def claimUpdate (lnk : Bool) (k : Nat) (s : State) : State :=
  match rxOf lnk s k with
  | none => s
  | some x =>
    let c := claimNow s x
    let s1 := setN (rxStat lnk k + 4) c s
    if c = 0 ∨ c = x.acc then s1
    else
      let gone := x.pkts.filter (fun p => p.claim == x.acc)
      let s2 := givePkts gone (rxMod lnk k (fun y => { y with acc := c, pkts := y.pkts.filter (fun p => p.claim != x.acc) }) s1)
      raise 0x2A (bytesOf 1 k ++ bytesOf 1 0 ++ bytesOf 4 x.acc ++ bytesOf 4 c)
        (stick Reg.MST_STAT.base 2 (countF (rxStat lnk k + 28) 15 0 1 s2))

/-- A packet that carries a claim has arrived: the claim is seen (R362) and its epoch with it (R551); whether the
packet may be placed. -/
def claimSeen (lnk : Bool) (k c : Nat) (s : State) : Bool × State :=
  if c = 0 then (false, s)
  else
    let s1 := rxMod lnk k (fun x => { x with seen := (c, monoNs s) :: x.seen.filter (fun p => p.1 != c) }) s
    let s2 := { s1 with par := { s1.par with epochSeen := max s1.par.epochSeen (c / 256) } }
    let s3 := claimUpdate lnk k s2
    (match rxOf lnk s3 k with
      | some x => x.acc == c
      | none => false, s3)

/-- Claims not seen for 2 ms lapse (R362). -/
def claimLapse (lnk : Bool) (k : Nat) (s : State) : State :=
  claimUpdate lnk k (rxMod lnk k (fun x => { x with seen := x.seen.filter (fun c => decide (monoNs s < c.2 + 2000000)) }) s)

/-! ### Placement (R350, R360, R361) -/

/-- A count of a stream and of the engine, with LATE_STK (R350, R366 to R368). -/
def rxLate (lnk : Bool) (k : Nat) (early : Bool) (s : State) : State :=
  let s1 := if early then countF (rxStat lnk k + 16) 15 0 1 s else countF (rxStat lnk k + 16) 31 16 1 s
  if lnk then s1
  else stick Reg.MST_STAT.base 0 (count (if early then Reg.MST_EARLY_CNT.base else Reg.MST_LATE_CNT.base) s1)

/-- The mean of the leads, s23.8 (R366). -/
def meanLead (x : RxSt) : Int :=
  if x.leads = [] then 0 else roundDiv (256 * x.leads.foldl (· + ·) 0) x.leads.length

/-- Enabled members of a group, one in BAD_CONFIG among them, lowest-numbered first (R358). -/
def groupMembers (s : State) (g : Nat) : List Nat :=
  (s.mst.rx.filter (fun p => rxGroup s p.1 == some g && !p.2.stopped)).map (·.1)

/-- RATE of a receive record (R344). -/
def rateField (s : State) (k : Nat) : Nat := fld (rxW0 false s k) 15 14

/-- The members that move together with a stream: those of its group like the reference member, or itself. -/
def slipMembers (s : State) (k : Nat) : List Nat :=
  match rxGroup s k with
  | none => [k]
  | some g =>
    match groupMembers s g with
    | [] => [k]
    | r :: rest =>
      let alike (m : Nat) : Bool := rateField s m == rateField s r && rxSlip s m == rxSlip s r
      if alike k then r :: rest.filter alike else [k]

/-- The lead of a SLIP stream has left its window: the slip acts at the next block boundary, on every member of its group,
and counts in each; the reference member's slips alone count as out of range (R360, R361). -/
def slipCheck (k : Nat) (s : State) : State :=
  match rxOf false s k with
  | none => s
  | some x =>
    let ms := slipMembers s k
    if !rxSlip s k || ms.head? != some k || x.leads.length < 64 || x.slipTo != 0 || x.range.isSome then s
    else
      let d : Int := x.d
      let w : Int := (max 16 (roundDiv d 4).toNat : Nat)
      let p : Int := rxPtime s k
      let l := meanLead x
      let shift : Int := if l < 256 * (d - p - w) then 16 else if 256 * (d - p + w) < l then -16 else 0
      if shift = 0 then s
      else
        let now := monoNs s
        let sound (m : Nat) : Bool := (rxOf false s m).any (fun y => y.state != 6)
        let s1 := (ms.filter sound).foldl (fun t m => countF (rxStat false m + 28) 31 16 1 (rxMod false m (fun y => { y with
          slipTo := shift, slipPos := 0, leads := y.leads.map (· + shift) }) t)) s
        let recent := now :: x.slips.filter (fun t => decide (now < t + 1000000000))
        let s2 := rxMod false k (fun y => { y with slips := recent }) s1
        if 16 < recent.length then
          rxShow false k 5 (stick Reg.MST_STAT.base 4 (rxMod false k (fun y => { y with range := some now }) s2))
        else s2

/-- A packet placed, early or late (R350). Its cells stay in use while it waits. -/
def placePkt (lnk : Bool) (k fs ptime next : Nat) (p : RxPkt) (s : State) : State :=
  match rxOf lnk s k with
  | none => s
  | some x =>
    let n := blockPos s fs next
    let pos := p.i + x.d + x.delta
    if (streamIndex s fs : Int) + 2 * ptime < p.i then rxLate lnk k true s
    else if pos + ptime ≤ n then rxLate lnk k false s
    else
      let s1 := when (decide (pos < n)) (rxLate lnk k false) s
      let s2 := queueHold p.queue p.cells (rxMod lnk k (fun y => { y with
        pkts := y.pkts ++ [p], leads := ((pos - n) :: y.leads).take 64 }) s1)
      let s3 := match rxOf lnk s2 k with
        | some y => setN (rxStat lnk k + 8) (lowBits 32 (meanLead y)) s2
        | none => s2
      if lnk then s3 else slipCheck k s3

/-! ### Delivery (R359, R363, R364) -/

/-- The packet sample that fills a stream index, the first that came (R350). -/
def pktAt (ps : List RxPkt) (i : Int) : Option (RxPkt × Nat) :=
  match ps.find? (fun p => decide (p.i ≤ i) && decide (i < p.i + ((p.smp.headD []).length : Nat))) with
  | some p => some (p, (i - p.i).toNat)
  | none => none

/-- The weight k ÷ n with 40 fraction bits (R98, R227, R364). -/
def weight40 (k n : Nat) : Int := roundDiv (Int.ofNat (k * 2 ^ 40)) n

/-- What a hold delivers next, and the stream one sample of the hold later (R363). -/
def holdStep (fs : Nat) (x : RxSt) : List Int × RxSt :=
  let g := x.gap.getD 0
  let ramp := if x.ramp.isNone ∧ fs / 20 ≤ g then some 0 else x.ramp
  let n := fs / 100
  let v := match ramp with
    | none => x.held
    | some k => x.held.map (fun h => if k < n then roundDiv (h * (n - k - 1 : Nat)) n else 0)
  (v, { x with gap := some (g + 1), ramp := ramp.map (· + 1) })

/-- One position of a stream with CLAIM_EN 0 (R359): values, whether it was empty, the stream after it. -/
def plainStep (x : RxSt) : Option (List Int) → List Int × Bool × RxSt
  | none =>
    let g := x.gap.getD 0
    let x1 := if x.gap.isSome then x else { x with held := x.last }
    let y := x1.held.map (fun h => if g < 16 then roundDiv (h * (15 - g : Nat)) 16 else 0)
    (y, true, { x1 with gap := some (g + 1), fade := none, last := y })
  | some v =>
    let f := if x.gap.isSome then some 0 else x.fade
    match f with
    | some k =>
      let y := v.map (fun a => roundDiv (a * (k + 1 : Nat)) 16)
      (y, false, { x with gap := none, fade := if k + 1 < 16 then some (k + 1) else none, last := y, ever := true })
    | none => (v, false, { x with last := v, ever := true })

/-- One position of a stream with CLAIM_EN 1 (R363, R364). -/
def claimStep (fs : Nat) (x : RxSt) : Option (List Int) → List Int × Bool × RxSt
  | none =>
    let x1 := if x.gap.isNone ∨ x.fade.isSome then { x with held := x.last, gap := some 0, ramp := none, fade := none } else x
    let (v, x2) := holdStep fs x1
    (v, true, { x2 with last := v })
  | some v =>
    let j := if x.gap.isSome then some (x.fade.getD 0) else none
    match j with
    | none => (v, false, { x with last := v, ever := true })
    | some k =>
      let n := fs / 1000
      let (h, x1) := holdStep fs x
      let w : Int := weight40 (k + 1) n
      let y := (h.zip v).map (fun p => roundShift (((2 : Int) ^ (40 : Nat) - w) * p.1 + w * p.2) 40)
      if n ≤ k + 1 then (y, false, { x1 with gap := none, ramp := none, fade := none, last := y, ever := true })
      else (y, false, { x1 with fade := some (k + 1), last := y, ever := true })

/-- Positions one after another. -/
def rxRun (claim : Bool) (fs : Nat) (x : RxSt) : List (Option (List Int)) → List (List Int) × Bool × RxSt
  | [] => ([], false, x)
  | p :: ps =>
    let (v, e, x1) := if claim then claimStep fs x p else plainStep x p
    let (vs, es, x2) := rxRun claim fs x1 ps
    (v :: vs, e || es, x2)

/-- What the stream index `i` reads, in all channels. -/
def rxRead (ps : List RxPkt) (i : Int) : Option (List Int) :=
  match pktAt ps i with
  | some (p, o) => some (p.smp.map (fun c => nth 0 c o))
  | none => none

/-- The reads of a block: across a slip they cross from the old read position to the new one (R360). -/
def slipRead (x : RxSt) (first : Int) (n : Nat) : List (Option (List Int)) :=
  (List.range n).map (fun (j : Nat) =>
    let p : Int := first + (j : Int)
    let old := rxRead x.pkts (p - x.d - x.delta)
    if x.slipTo = 0 then old
    else
      match old, rxRead x.pkts (p - x.d - x.delta - x.slipTo) with
      | some a, some b =>
        let w : Int := weight40 (min 16 (x.slipPos + j + 1)) 16
        some ((a.zip b).map (fun q => roundShift (((2 : Int) ^ (40 : Nat) - w) * q.1 + w * q.2) 40))
      | _, b => b)

/-- The block space a stream's channels are delivered on: channel records name a link stream by (stream, link). -/
def rxSpace (lnk : Bool) (k : Nat) : Space × Nat :=
  if lnk then (.linkIn, (k % 32 * 8 + k / 32) * 64) else (.streamIn, k * 64)

/-- A stream's block delivered on its channels, with what its packets' headers carried (R355, R375); at another rate the
samples go to the converters of its channels (R351). -/
def rxDeliver (lnk : Bool) (k b u fs : Nat) (vals : List (List Int)) (empty slip stopped : Bool) (used : List RxPkt)
    (s : State) : State :=
  let (sp, base) := rxSpace lnk k
  let chans := (vals.headD []).length
  (List.range chans).foldl (fun t c =>
    let smp := vals.map (fun v => nth 0 v c)
    let blk : Blk := { zeroBlk b with
      smp := if fs = rateHz s then smp else List.replicate 16 0
      raw := if fs = rateHz s then none else some (smp, empty || stopped)
      silent := !empty && !stopped && used != [] && used.all (fun p => Nat.testBit p.standby c)
      concealed := empty || stopped || used.any (·.concealed)
      memerr := used.any (·.memerr)
      slip := slip }
    putBlk sp (base + c) (unitMarks t u blk) t) s

/-- The accepted claim of a stream that runs, brought up to date before its block is read (R362). -/
def claimLive (lnk : Bool) (k : Nat) (s : State) : State :=
  match rxOf lnk s k with
  | some x => if x.state = 6 ∨ x.stopped then s else claimUpdate lnk k s
  | none => s

/-- One receive stream's block (R350 to R364). A packet's cells are given back once its last sample has been delivered; a
SLIP stream keeps its last 16 samples, which a low lead repeats (R360). -/
def rxBlock (lnk : Bool) (b : Nat) (s : State) (k : Nat) : State :=
  let s0 := claimLive lnk k s
  match rxOf lnk s0 k with
  | none => s
  | some x =>
    let u := if lnk then uLNK else uMST
    if x.state = 6 then s
    else if x.stopped then
      let n := blockStop s x.fs b - blockPos s x.fs b
      let g := x.gap.getD 0
      let vals := (List.range n).map (fun j => x.last.map (fun h => roundDiv (h * (15 - (g + j) : Nat)) 16))
      let s1 := rxDeliver lnk k b u x.fs vals true false true [] s
      if 16 ≤ g + n then rxErase lnk k s1 else rxMod lnk k (fun y => { y with gap := some (g + n) }) s1
    else
      let fs := x.fs
      let first := blockPos s fs b
      let n := blockStop s fs b - first
      let reads := if x.range.isSome then List.replicate n none else slipRead x first n
      let claim := rxClaimEn lnk s k && x.range.isNone
      let (vals, empty, x1) := rxRun claim fs x reads
      let shift := x.d + x.delta
      let used := x.pkts.filter (fun p =>
        decide (p.i + shift < first + n) && decide ((first : Int) < p.i + shift + ((p.smp.headD []).length : Nat)))
      let slipped := decide (16 ≤ x1.slipPos + n)
      let delta := if slipped then x1.delta + x1.slipTo else x1.delta
      let out (more : Nat) (p : RxPkt) : Bool :=
        decide (p.i + x1.d + delta + ((p.smp.headD []).length : Nat) + more ≤ (first + n : Nat))
      let s1 := givePkts (x1.pkts.filter (out 0)) s0
      let kept := (x1.pkts.filter (fun p => !out (if !lnk && rxSlip s k then 16 else 0) p)).map (fun p =>
        if out 0 p then { p with cells := 0 } else p)
      let s2 := rxPut lnk k { x1 with
        pkts := kept, delta := delta
        slipTo := if slipped then 0 else x1.slipTo
        slipPos := if slipped ∨ x1.slipTo = 0 then 0 else x1.slipPos + n } s1
      let s3 := when empty (countF (rxStat lnk k + 20) 31 16 1) s2
      let st := if x.range.isSome then 5 else if !x1.ever then 1 else if !empty then 2 else if claim then 3 else 4
      rxShow lnk k st (rxDeliver lnk k b u fs vals empty (x.slipTo != 0) false used s3)

/-! ### Headers and IGMP (R343, R353) -/

/-- The checksum of an IP header. -/
def ipSum (h : List Byte) : Nat :=
  let t := ((List.range (h.length / 2)).foldl (fun m i => m + beAt h (2 * i) 2) 0)
  let u := t % 65536 + t / 65536
  65535 - (u % 65536 + u / 65536) % 65536

/-- An Ethernet header with an optional tag. -/
def ethHeader (da sa : Nat) (tag : Option Nat) (etype : Nat) : List Byte :=
  bytesBE 6 da ++ bytesBE 6 sa ++ (match tag with
    | some t => bytesBE 2 0x8100 ++ bytesBE 2 t
    | none => []) ++ bytesBE 2 etype

/-- DST_IP of a receive stream is a multicast group. -/
def multicast (s : State) (k : Nat) : Bool := decide (fld (actW s (Reg.MRX2.at k)) 31 0 / 2 ^ 28 = 14)

/-- IGMP is on, and a stream's group is one to join on a port (R343). -/
def joined (s : State) (k port : Nat) : Bool :=
  bit (actW s Reg.MST_IGMP.base) 0 && bit (rxW0 false s k) 31 && Nat.testBit (fld (actW s (Reg.MRX4.at k)) 15 8) port &&
    multicast s k

/-- An IGMPv3 report with one group record: type, group, sources. -/
def igmpReport (s : State) (port typ group : Nat) (srcs : List Nat) : List Byte :=
  let rec_ := bytesBE 1 typ ++ bytesBE 1 0 ++ bytesBE 2 srcs.length ++ bytesBE 4 group ++ srcs.flatMap (bytesBE 4)
  let m (c : Nat) : List Byte := bytesBE 1 0x22 ++ bytesBE 1 0 ++ bytesBE 2 c ++ bytesBE 2 0 ++ bytesBE 2 1 ++ rec_
  let body := m (ipSum (m 0))
  let ip (c : Nat) : List Byte := bytesBE 2 0x46C0 ++ bytesBE 2 (24 + body.length) ++ bytesBE 2 0 ++ bytesBE 2 0x4000 ++
    bytesBE 1 1 ++ bytesBE 1 2 ++ bytesBE 2 c ++ bytesBE 4 (fld (actW s (Reg.MST_PORT_IP.at port)) 31 0) ++
    bytesBE 4 0xE0000016 ++ bytesBE 4 0x94040000
  ethHeader 0x01005E000016 (daEntry s port 0) none 0x0800 ++ ip (ipSum (ip 0)) ++ body

/-- Reports for a stream on every port it joins: record type 2 (EXCLUDE) or 1 (INCLUDE) for a query, 4 or 3 for a
join, and the leave forms (R343); on ports whose link is up, and a leave only where no other enabled stream has joined. -/
def igmpSend (join leave : Bool) (k : Nat) (s : State) : State :=
  let grp := fld (actW s (Reg.MRX2.at k)) 31 0
  let src := fld (actW s (Reg.MRX3.at k)) 31 0
  let typ := if leave then (if src = 0 then 3 else 6) else if join then (if src = 0 then 4 else 5) else if src = 0 then 2 else 1
  let srcs := if src = 0 then [] else [src]
  let others (p : Nat) : Bool := (listed s 0x40E00000 64 256).any (fun j => j != k && joined s j p &&
    fld (actW s (Reg.MRX2.at j)) 31 0 == grp && fld (actW s (Reg.MRX3.at j)) 31 0 == src)
  ((List.range 8).filter (fun p => Nat.testBit (fld (actW s (Reg.MRX4.at k)) 15 8) p && (portSt s p).link &&
      !(leave && others p))).foldl
    (fun t p => sendOwn p (igmpReport t p typ grp srcs) none t) s

/-- Joined streams report anew on a port whose link has come up. -/
def igmpPort (port : Nat) (s : State) : State :=
  (listed s 0x40E00000 64 256).foldl (fun t k =>
    if joined t k port then
      let src := fld (actW t (Reg.MRX3.at k)) 31 0
      sendOwn port (igmpReport t port (if src = 0 then 4 else 5) (fld (actW t (Reg.MRX2.at k)) 31 0)
        (if src = 0 then [] else [src])) none t
    else t) s

/-- `MST_IGMP`.EN changes: the groups of the running streams are joined, or left (R343). -/
def igmpSwitch (on : Bool) (s : State) : State :=
  ((s.mst.rx.filter (fun p => !p.2.stopped && p.2.state != 6 && multicast s p.1)).map (·.1)).foldl
    (fun t k => igmpSend true (!on) k t) s

/-! ### EN, groups and START and STOP (R346, R358) -/

/-- A stream's record admits no reception (R426). -/
def rxBad (s : State) (k : Nat) : Bool := bit (rxW0 false s k) 30 && !accepted s 9

/-- *D* and GROUP_BAD of every running stream, from the groups as they stand (R358). -/
def groupD (s : State) : State :=
  (s.mst.rx.map (·.1)).foldl (fun t k =>
    let ms := slipMembers t k
    let ref : Option Nat := (rxGroup t k).bind (fun g => (groupMembers t g).head?)
    let out : Bool := match ref with
      | some r => !(ms.contains r)
      | none => false
    let d := if rxGroup t k = none ∨ out then rxOwnD t k else ms.foldl (fun m q => max m (rxOwnD t q)) (rxOwnD t k)
    setN (rxStat false k + 12) d (setF (rxStat false k) 3 3 (if out then 1 else 0) (rxMod false k (fun x => { x with d := d }) t))) s

/-- A stream that joins a group which has slipped takes its Δ, and the slip in progress with it, so that the members stay
aligned (R361). DESIGN CHOICE (log 71). -/
def groupShift (k : Nat) (s : State) : State :=
  let old := (slipMembers s k).find? (fun m => m != k && (match rxOf false s m with
    | some y => y.state != 6
    | none => false))
  match old.bind (fun m => rxOf false s m) with
  | some y => rxMod false k (fun x => { x with delta := y.delta, slipTo := y.slipTo, slipPos := y.slipPos }) s
  | none => s

/-- A receive stream starts empty. -/
def rxStart (lnk : Bool) (k : Nat) (s : State) : State :=
  let chans := if lnk then 64 else rxChans s k
  let d := if lnk then (let v := fld (rxW0 true s k) 19 16; 16 * (if v = 0 then 2 else v)) else rxOwnD s k
  let bad := !lnk && rxBad s k
  let x := { rxZero with fs := if lnk then rateHz s else rxRate s k, d := d, last := List.replicate chans 0, held := List.replicate chans 0 }
  let s1 := setN (rxStat lnk k + 12) d (setN (rxStat lnk k + 8) 0 (setN (rxStat lnk k + 4) 0
    (sourceStarts (if lnk then 3 else 2) k (rxPut lnk k x s))))
  let s2 := rxShow lnk k (if bad then 6 else 1) s1
  if lnk then s2
  else groupD (groupShift k (when (!bad && bit (actW s Reg.MST_IGMP.base) 0 && multicast s k) (igmpSend true false k) s2))

/-- A receive stream stops: its packets' cells go back, and its last value ramps out (R346). -/
def rxStop (lnk : Bool) (k : Nat) (s : State) : State :=
  match rxOf lnk s k with
  | none => s
  | some x =>
    let s1 := rxShow lnk k 0 (givePkts x.pkts s)
    let s2 := if x.state = 6 then rxErase lnk k s1
      else rxMod lnk k (fun y => { y with stopped := true, pkts := [], gap := none }) s1
    if lnk then s2 else groupD (when (bit (actW s Reg.MST_IGMP.base) 0 && multicast s k) (igmpSend true true k) s2)

/-- Records of a table with EN acting, and running streams, brought into step (R346). -/
def rxRefresh (lnk : Bool) (s : State) : State :=
  let ks := if lnk then listed s 0x40E90000 16 256 else listed s 0x40E00000 64 256
  ks.foldl (fun t k =>
    let en := bit (rxW0 lnk t k) 31
    match rxOf lnk t k with
    | none => if en then rxStart lnk k t else t
    | some x => if en ∧ x.stopped then rxStart lnk k t else if !en ∧ !x.stopped then rxStop lnk k t else t) s

/-- After 50 ms of hold a stream ramps its held value to zero (R363). -/
def holdRamp (lnk : Bool) (k : Nat) (s : State) : State :=
  match rxOf lnk s k with
  | none => s
  | some x =>
    let fs := x.fs
    if rxClaimEn lnk s k ∧ x.ramp.isNone ∧ fs / 20 ≤ x.gap.getD 0 then rxMod lnk k (fun y => { y with ramp := some 0 }) s
    else s

/-- 1 s after going out of range a SLIP stream tries again with Δ 0 (R360); its group moves with it (R361). -/
def rangeRetry (k : Nat) (s : State) : State :=
  match rxOf false s k with
  | none => s
  | some x =>
    match x.range with
    | some t =>
      if t + 1000000000 ≤ monoNs s then
        rxShow false k 1 (rxMod false k (fun y => { y with range := none, slips := [], ever := false })
          ((slipMembers s k).foldl (fun t m => rxMod false m (fun y => { y with
            delta := 0, slipTo := 0, slipPos := 0, leads := [] }) t) s))
      else s
    | none => s

/-! ### Received packets (R347, R349, R354, R356) -/

/-- A sample of 2 or 3 big-endian bytes as s0.23 (R342, R393). -/
def netSample (n : Nat) (bs : List Byte) : Int :=
  let v := signed (8 * n) (ofBytesBE bs)
  if n = 2 then v * 256 else v

/-- Interleaved samples by channel. -/
def deinterleave (chans len n : Nat) (bs : List Byte) : List (List Int) :=
  (List.range chans).map (fun c => (List.range len).map (fun j => netSample n (slice bs ((j * chans + c) * n) n)))

/-- The data of the first one-byte element with an identifier (R354): length code and bytes. -/
def findElement (id : Nat) : Nat → List Byte → Option (Nat × List Byte)
  | 0, _ => none
  | _, [] => none
  | f + 1, b :: t =>
    let e := b.toNat / 16
    let n := b.toNat % 16 + 1
    if b = 0 then findElement id f t
    else if e = 15 then none
    else if e = id then some (n - 1, t.take n)
    else findElement id f (t.drop n)

/-- EXT_ID as it acts (R344). -/
def extId (w0 : Word) : Nat := let e := fld w0 27 24; if e = 0 ∨ e = 15 then 5 else e

/-- An RTP packet's parts: sequence number, timestamp, claim, flags, STANDBY, payload (R347, R354). -/
structure RtpParts where
  seq : Nat
  ts : Nat
  pt : Nat
  claim : Nat
  flags : Nat
  standby : Nat
  payload : List Byte

/-- A packet read as RTP version 2, without CSRC list, extension and padding. -/
def rtpParts (id : Nat) (bs : List Byte) : Option RtpParts :=
  let b0 := beAt bs 0 1
  if bs.length < 12 ∨ b0 / 64 ≠ 2 then none
  else
    let h := 12 + 4 * (b0 % 16)
    let x := b0 / 16 % 2 = 1
    let n := if x then 4 + 4 * beAt bs (h + 2) 2 else 0
    let pad := if b0 / 32 % 2 = 1 then beAt bs (bs.length - 1) 1 else 0
    if bs.length < h + n + pad then none
    else
      let el := if x ∧ beAt bs h 2 = 0xBEDE then findElement id n (slice bs (h + 4) (n - 4)) else none
      let (c, f, st) := match el with
        | some (12, d) => (beAt d 0 4, beAt d 4 1, beAt d 5 8)
        | _ => (0, 0, 0)
      some ⟨beAt bs 2 2, beAt bs 4 4, beAt bs 1 1 % 128, c, f, st, slice bs (h + n) (bs.length - h - n - pad)⟩

/-- The value congruent to `v` modulo 2^32 nearest to `c` (R349). -/
def unwrap32 (v c : Int) : Int := c + signed 32 (lowBits 32 (v - c))

/-- A packet discarded under R347; of a queue that serves no stream it counts in the engine alone. -/
def rxBadAny (s : State) : State := stick Reg.MST_STAT.base 1 (count Reg.MST_BAD_CNT.base s)
def rxBadPkt (k : Nat) (s : State) : State := rxBadAny (countF (rxStat false k + 20) 15 0 1 s)

/-- A leg has delivered a packet: losses from gaps of its RTP sequence numbers (R356); AAF has none. -/
def legSeen (k port : Nat) (rtp : Option Nat) (s : State) : State :=
  match rxOf false s k with
  | none => s
  | some x =>
    if !rxDual s k then s
    else
      let now := some (monoNs s)
      let x1 := match x.portA, x.portB with
        | none, _ => { x with portA := some port }
        | some a, none =>
          if port = a then x
          else if a < port then { x with portB := some port }
          else { x with portA := some port, portB := some a, seqA := none, seqB := x.seqA, seenA := none, seenB := x.seenA }
        | _, _ => x
      let isA := x1.portA == some port
      let last := if isA then x1.seqA else x1.seqB
      let gap := match last, rtp with
        | some l, some n => (n + 65536 - l - 1) % 65536
        | _, _ => 0
      let lost := if gap < 32768 then gap else 0
      let x2 := if isA then { x1 with seqA := rtp, seenA := now } else { x1 with seqB := rtp, seenB := now }
      let a := rxStat false k + 24
      rxPut false k x2 (if isA then countF a 31 16 lost s else countF a 15 0 lost s)

/-- Running receive streams of a queue and format, ascending. -/
def rxOfQueue (s : State) (q : Nat) : List Nat :=
  (s.mst.rx.filter (fun p => fld (actW s (Reg.MRX1.at p.1)) 8 0 == q && !p.2.stopped && p.2.state != 6)).map (·.1)

/-- An RTP packet matches a stream's record (R347). -/
def rtpMatch (s : State) (k : Nat) (u : Udp) (r : RtpParts) : Bool :=
  let any (v w : Nat) : Bool := v == 0 || v == w
  !bit (rxW0 false s k) 30 && any (fld (actW s (Reg.MRX3.at k)) 31 0) u.src &&
    any (fld (actW s (Reg.MRX4.at k)) 31 16) u.dport && any (fld (actW s (Reg.MRX4.at k)) 6 0) r.pt &&
    r.payload.length == rxChans s k * rxPtime s k * rxBytes s k

/-- The stream index of an RTP timestamp, nearest to the current stream index (R349). -/
def rtpIndex (s : State) (k ts : Nat) : Int :=
  unwrap32 ((ts : Int) - fld (actW s (Reg.MRX5.at k)) 31 0) (streamIndex s (rxRate s k))

/-- An RTP packet placed in its stream. -/
def rtpPlace (k q port cells : Nat) (r : RtpParts) (s : State) : State :=
  let fs := rxRate s k
  let w0 := rxW0 false s k
  let i := rtpIndex s k r.ts
  let claimOn := rxClaimEn false s k
  let (ok, s1) := if claimOn then claimSeen false k r.claim s else (true, s)
  let s2 := legSeen k port (some r.seq) s1
  if !ok then s2
  else placePkt false k fs (rxPtime s k) (unitSt s uMST).next
    ⟨i, deinterleave (rxChans s k) (rxPtime s k) (if bit w0 29 then 2 else 3) r.payload, if claimOn then r.claim else 0,
      if claimOn then r.standby else 0, claimOn && r.flags % 2 == 1, false, q, cells, some r.ts⟩ s2

/-- A received RTP packet of a queue with CONSUMER 1 (R347 to R350). -/
def rtpPacket (q : Nat) (s : State) : State :=
  let ks := rxOfQueue s q
  match (queueSt s q).frames[(queueSt s q).read]? with
  | none => s
  | some f =>
    if etherType (f.bytes.drop 32) = 0x22F0 then s
    else
      match consume 1 q s with
      | none => s
      | some (pre, bs, s1) =>
        match ks with
        | [] => rxBadAny s1
        | k0 :: _ =>
          match udpOf bs with
          | none => rxBadPkt k0 s1
          | some u =>
            let hit := ks.findSome? (fun k =>
              match rtpParts (extId (rxW0 false s k)) u.payload with
              | some r => if rtpMatch s k u r then some (k, r) else none
              | none => none)
            match hit with
            | some (k, r) => rtpPlace k q (beAt pre 2 1) f.cells r s1
            | none => rxBadPkt k0 s1

/-- nsr code of a rate in an AAF header (R341). -/
def aafNsr (fs : Nat) : Nat := if fs = 48000 then 5 else if fs = 96000 then 7 else 9

/-- An AAF packet matches a stream's record (R347); `p` starts at the subtype byte. -/
def aafMatch (s : State) (k : Nat) (p : List Byte) : Bool :=
  let n := rxBytes s k
  let fs := rxRate s k
  let len := rxChans s k * rxPtime s k * n
  bit (rxW0 false s k) 30 && beAt p 0 1 == 2 && beAt p 1 1 / 128 == 1 && beAt p 1 1 % 2 == 1 &&
    beAt p 4 4 == fld (actW s (Reg.MRX8.at k)) 31 0 && beAt p 8 4 == fld (actW s (Reg.MRX6.at k)) 31 0 &&
    beAt p 16 1 == (if n = 2 then 4 else 3) && beAt p 17 1 / 16 == aafNsr fs && beAt p 17 2 % 1024 == rxChans s k &&
    beAt p 19 1 == 8 * n && beAt p 20 2 == len && decide (24 + len ≤ p.length)

/-- The full nanosecond time nearest to now of an avtp_timestamp, less MTT, as a stream index (R349). -/
def aafIndex (s : State) (k ts : Nat) : Int :=
  let now : Int := (s.time.sec * 1000000000 + timeNs s : Nat)
  let t := unwrap32 ts now - 1000 * fld (actW s (Reg.MRX7.at k)) 15 0
  t * rxRate s k / 1000000000

/-- A received AAF packet of a queue with CONSUMER 1 (R347, R349). -/
def aafPacket (q : Nat) (s : State) : State :=
  let ks := rxOfQueue s q
  match (queueSt s q).frames[(queueSt s q).read]? with
  | none => s
  | some f =>
    if etherType (f.bytes.drop 32) ≠ 0x22F0 then s
    else
      match consume 1 q s with
      | none => s
      | some (pre, bs, s1) =>
        let p := bs.drop ((vlanOf bs).2 + 2)
        match ks.find? (fun k => aafMatch s k p), ks with
        | some k, _ =>
          if rxClaimEn false s k then s1
          else
            placePkt false k (rxRate s k) (rxPtime s k) (unitSt s uMST).next
              ⟨aafIndex s k (beAt p 12 4), deinterleave (rxChans s k) (rxPtime s k) (rxBytes s k) (p.drop 24), 0, 0,
                false, false, q, f.cells, some (beAt p 12 4)⟩ (legSeen k (beAt pre 2 1) none s1)
        | none, k0 :: _ => rxBadPkt k0 s1
        | none, [] => rxBadAny s1

/-- LEG_A and LEG_B of a stream's status word 0: packets in the last 100 ms (R366). -/
def rxWord0 (s : State) (k : Nat) : Word :=
  let w := regW s (rxStat false k)
  match rxOf false s k with
  | none => putFld w 7 6 0
  | some x =>
    let on (t : Option Nat) : Nat := match t with
      | some v => if monoNs s < v + 100000000 then 1 else 0
      | none => 0
    putFld w 7 6 (2 * on x.seenB + on x.seenA)

/-! ### Transmission (R352 to R357) -/

/-- Audio leaves the device in block `b` (R550, R562, R563). -/
def audioOut (s : State) (b : Nat) : Bool :=
  (match s.par.audioFrom with
    | some f => decide (f ≤ b)
    | none => false) &&
  (match s.par.audioTo with
    | some t => decide (b < t)
    | none => true)

/-- The claim in headers of block `b` (R65): the last change at or before it. -/
def claimAt (l : List (Nat × Nat)) (b : Nat) : Nat :=
  (l.filter (fun p => decide (p.1 ≤ b))).foldl (fun (m : Nat × Nat) p => if m.1 ≤ p.1 then p else m) (0, 0) |>.2

/-- A transmit stream that has not sent. -/
def txZero : TxSt := ⟨0, 0, none, 0, 0, [], false, false, [], 0, []⟩

/-- Word `i` of a transmit record. -/
def txW (s : State) (k i : Nat) : Word := actW s (Reg.MTX0.at k + 4 * i)

/-- Channels, packet samples and bytes per sample of a transmit stream. -/
def txChans (s : State) (k : Nat) : Nat := fld (txW s k 0) 21 16 + 1
def txPtime (s : State) (k : Nat) : Nat := ptimeLen (fld (txW s k 0) 23 22) (rateHz s)
def txBytes (s : State) (k : Nat) : Nat := if bit (txW s k 0) 29 then 2 else 3

/-- A transmit record under which the stream does not start (R342, R426). -/
def txBad (s : State) (k : Nat) : Bool :=
  let w := txW s k 0
  let pay := txChans s k * txPtime s k * txBytes s k
  let len := (if bit w 30 then 42 else if bit w 28 then 78 else 58) + pay + if bit (txW s k 6) 31 then 4 else 0
  decide (9600 < len) || (bit w 30 && !accepted s 9)

/-- A sample as 2 or 3 big-endian bytes (R342): 16 bits are s0.23 rounded half up (R10). One that rounds to full scale is
a free value, since no rule saturates it (log 6). -/
def wireSample (n : Nat) (v : Int) : List Byte :=
  if n = 2 then
    let y := roundDiv v 256
    bytesBE 2 (if 32767 < y then Config.wireOver v % 65536 else lowBits 16 y)
  else bytesBE 3 (lowBits 24 v)

/-- The payload of frames (oldest first). -/
def packFrames (n : Nat) (fs : List (List Int)) : List Byte := fs.flatMap (fun f => f.flatMap (wireSample n))

/-- An IPv4 header without options, DF set (R353). -/
def ipHeader (id dscp ttl proto len src dst : Nat) : List Byte :=
  let h (c : Nat) : List Byte := bytesBE 2 (0x4500 + dscp * 4) ++ bytesBE 2 (20 + len) ++ bytesBE 2 id ++ bytesBE 2 0x4000 ++
    bytesBE 1 ttl ++ bytesBE 1 proto ++ bytesBE 2 c ++ bytesBE 4 src ++ bytesBE 4 dst
  h (ipSum (h 0))

/-- Destination MAC of a transmit stream (R345). -/
def txDa (s : State) (k : Nat) : Nat :=
  let ip := fld (txW s k 2) 31 0
  if bit (txW s k 6) 27 ∧ ip / 2 ^ 28 = 14 then 0x01005E000000 + ip % 2 ^ 23
  else fld (txW s k 5) 15 0 * 2 ^ 32 + fld (txW s k 4) 31 0

/-- The claim element (R354). -/
def claimElement (id claim : Nat) (concealed : Bool) (standby : Nat) : List Byte :=
  [0xBE, 0xDE, 0, 4, BitVec.ofNat 8 (id * 16 + 12)] ++ bytesBE 4 claim ++ bytesBE 1 (if concealed then 1 else 0) ++
    bytesBE 8 standby ++ [0, 0]

/-- The network part of a packet: RTP or AAF with its payload (R353). -/
def txPacket (s : State) (k : Nat) (x : TxSt) : List Byte :=
  let w := txW s k 0
  let n := txBytes s k
  let pay := packFrames n x.frames.reverse
  let standby := x.silent.mapIdx (fun c b => if b then 2 ^ c else 0) |>.foldl (· + ·) 0
  if bit w 30 then
    let t := ((roundDiv (x.first * 1000000000 : Nat) (rateHz s)).toNat + 2000000) % 2 ^ 32
    bytesBE 1 2 ++ bytesBE 1 0x81 ++ bytesBE 1 (x.seq % 256) ++ bytesBE 1 0 ++ bytesBE 4 (fld (txW s k 10) 31 0) ++
      bytesBE 4 (fld (txW s k 9) 31 0) ++ bytesBE 4 t ++ bytesBE 1 (if n = 2 then 4 else 3) ++
      bytesBE 2 (aafNsr (rateHz s) * 4096 + txChans s k) ++ bytesBE 1 (8 * n) ++ bytesBE 2 pay.length ++ bytesBE 2 0 ++ pay
  else
    let ext := if bit w 28 then claimElement (extId w) x.claim x.concealed standby else []
    bytesBE 1 (if bit w 28 then 0x90 else 0x80) ++ bytesBE 1 (fld (txW s k 6) 22 16) ++ bytesBE 2 (x.seq % 65536) ++
      bytesBE 4 ((x.first + fld (txW s k 8) 31 0) % 2 ^ 32) ++ bytesBE 4 (fld (txW s k 7) 31 0) ++ ext ++ pay

/-- The whole frame of a packet on a queue's port (R353, R357). -/
def txFrame (s : State) (k port id : Nat) (body : List Byte) : List Byte :=
  let w6 := txW s k 6
  let tag := if bit w6 31 then some (fld w6 30 28 * 8192 + fld w6 11 0) else none
  let sa := daEntry s port (fld w6 15 12)
  if bit (txW s k 0) 30 then ethHeader (txDa s k) sa tag 0x22F0 ++ body
  else
    let w5 := txW s k 5
    let udp := bytesBE 2 (fld (txW s k 3) 15 0) ++ bytesBE 2 (fld (txW s k 3) 31 16) ++ bytesBE 2 (8 + body.length) ++ bytesBE 2 0
    ethHeader (txDa s k) sa tag 0x0800 ++
      ipHeader id (fld w5 29 24) (fld w5 23 16) 17 (8 + body.length) (fld (actW s (Reg.MST_PORT_IP.at port)) 31 0)
        (fld (txW s k 2) 31 0) ++ udp ++ body

/-- A packet enqueued on one queue; a queue of a link or of a port without an address sends nothing (R352, R367). -/
def txEnqueue (k id q : Nat) (body : List Byte) (s : State) : State :=
  let port := qPort s q
  if 8 ≤ port ∨ fld (actW s (Reg.MST_PORT_IP.at port)) 31 0 = 0 then s
  else
    let (ok, s1) := enqueueTx q (txFrame s k port id body) s
    if ok then countN (Reg.MTXS1.at k) 1 s1 else countF (Reg.MTXS2.at k) 15 0 1 s1

/-- A finished packet goes out on its queues (R352, R357). -/
def txSendPacket (k : Nat) (x : TxSt) (s : State) : State :=
  let body := txPacket s k x
  let (id, s0) := drawNat s 65536
  let q2 := fld (txW s k 1) 24 16
  let s1 := txEnqueue k id (fld (txW s k 1) 8 0) body s0
  if q2 ≠ 0x1FF ∧ accepted s 8 then txEnqueue k id q2 body s1 else s1

/-- A transmit stream's state set. -/
def txPut (lnk : Bool) (k : Nat) (x : TxSt) (s : State) : State :=
  if lnk then { s with lnk := { s.lnk with tx := tabSet k x s.lnk.tx } }
  else { s with mst := { s.mst with tx := tabSet k x s.mst.tx } }

/-- The slot blocks that output `number` of a kind takes; a block that missed its deadline is sent as zeros (R61). -/
def slotBlocks (kind number : Nat) (s : State) (first chans b : Nat) : List Blk :=
  (List.range chans).map (fun c =>
    if s.ser.missed.contains (kind, number, b) then concealedBlk b else (blkAt s .slot (first + c) b).getD (zeroBlk b))

/-- Frames of a block added to the packet in the making, one after another; a full packet goes out. -/
def txAdd (k b len claim : Nat) (blks : List Blk) : List Nat → TxSt → State → TxSt × State
  | [], x, s => (x, s)
  | j :: js, x, s =>
    let fresh := decide (x.frames.length = 0)
    let x1 : TxSt := { x with
      first := if fresh then extSmp s (16 * b) + j + 112 else x.first
      claim := if fresh then claim else x.claim
      frames := blks.map (fun y => nth 0 y.smp j) :: x.frames
      concealed := (!fresh && x.concealed) || blks.any (·.concealed)
      memerr := (!fresh && x.memerr) || blks.any (·.memerr)
      silent := if fresh then blks.map (·.silent) else (x.silent.zip blks).map (fun p => p.1 && p.2.silent) }
    if len ≤ x1.frames.length then
      let s1 := txSendPacket k x1 s
      txAdd k b len claim blks js { x1 with frames := [], seq := x1.seq + 1 } s1
    else txAdd k b len claim blks js x1 s

/-- A run has ended before block `b`. -/
def runOver (upTo : Option Nat) (b : Nat) : Bool :=
  match upTo with
  | some t => decide (t ≤ b)
  | none => false

/-- The run of a list that takes block `b`, or waits for its first. -/
def laterRun (b : Nat) : List (Nat × Option Nat × Nat) → Option TxSt
  | [] => none
  | r :: t => if runOver r.2.1 b then laterRun b t else some { txZero with from_ := r.1, upTo := r.2.1, state := r.2.2, later := t }

/-- The stream as it stands for block `b`: a stopped run is followed by the next (R346). -/
def txCurrent (b : Nat) (x : TxSt) : Option TxSt := if runOver x.upTo b then laterRun b x.later else some x

/-- The last run of a stream has a STOP. -/
def txStopped (x : TxSt) : Bool :=
  match x.later.getLast? with
  | some r => r.2.1.isSome
  | none => x.upTo.isSome

/-- A STOP at block `b` ends the last run, whose blocks before `b` are still sent (R346). -/
def txUpTo (b : Nat) (x : TxSt) : TxSt :=
  match x.later.getLast? with
  | some r => { x with later := if r.2.2 = 6 then x.later.dropLast else x.later.dropLast ++ [(r.1, some b, r.2.2)] }
  | none => { x with upTo := some b }

/-- A START at block `b` adds a run. -/
def txAgain (b st : Nat) (x : TxSt) : TxSt := { x with later := x.later ++ [(b, none, st)] }

/-- One transmit stream's block (R352). -/
def txBlock (b : Nat) (s : State) (k : Nat) : State :=
  match (tabFind? k s.mst.tx).map (txCurrent b) with
  | none => s
  | some none => { s with mst := { s.mst with tx := tabErase k s.mst.tx } }
  | some (some x) =>
    if x.state = 6 then txPut false k x s
    else if !audioOut s b || decide (b < x.from_) then txPut false k { x with frames := [] } s
    else
      let blks := slotBlocks 2 k s (fld (txW s k 0) 11 0) (txChans s k) b
      let (x1, s1) := txAdd k b (txPtime s k) (claimAt s.mst.claims b) blks (List.range 16) x s
      txPut false k x1 s1

/-- STATE of a transmit stream shown, with the event (R366). -/
def txShow (k st : Nat) (s : State) : State :=
  if fld (regW s (Reg.MTXS0.at k)) 2 0 = st then s
  else raise 0x2B (bytesOf 1 k ++ bytesOf 1 1 ++ bytesOf 1 st) (setF (Reg.MTXS0.at k) 2 0 st s)

/-- Transmit records with EN acting and running streams brought into step at block `b` (R346). -/
def txRefresh (b : Nat) (s : State) : State :=
  (listed s 0x40E10000 64 256).foldl (fun t k =>
    let en := bit (txW t k 0) 31
    let st := if txBad t k then 6 else 1
    match tabFind? k t.mst.tx with
    | none => if en then txShow k st (txPut false k { txZero with state := st, from_ := b } t) else t
    | some x =>
      if !en && !txStopped x then
        txShow k 0 (if x.state = 6 && x.later.isEmpty then { t with mst := { t.mst with tx := tabErase k t.mst.tx } }
          else txPut false k (txUpTo b x) t)
      else if en && txStopped x then txShow k st (txPut false k (txAgain b st x) t)
      else t) s

/-- EN of the streams that a START or STOP tag names (R346, R375). -/
def streamTag (lnk : Bool) (g : TagRec) (s : State) : State :=
  let rx := bit g.payload 0
  let all := bit g.payload 1
  let k0 := if lnk then g.inst % 8 * 32 + g.inst / 8 else g.inst
  let ks := if all then List.range 256 else [k0]
  let addr (k : Nat) : Nat := if lnk then (if rx then 0x40E90000 else 0x40E80000) + k * 16
    else (if rx then 0x40E00000 else 0x40E10000) + k * 64
  ks.foldl (fun t k => setF (addr k) 31 31 (if g.typ = tSTART then 1 else 0) t) s

/-- The stream engine's input side: block `b` of every receive stream. -/
def mstInBlock (b : Nat) (s : State) : State :=
  let s1 := txRefresh b (rxRefresh false s)
  (s1.mst.rx.map (·.1)).foldl (rxBlock false b) s1

/-- The stream engine's packers take block `b`. -/
def mstOutBlock (b : Nat) (s : State) : State := (s.mst.tx.map (·.1)).foldl (txBlock b) s

/-! ### ARP and IGMP (R343) -/

/-- An ARP request for a port's address, consumed from a queue with CONSUMER 6, is answered. -/
def arpRequest (q : Nat) (s : State) : State :=
  match (queueSt s q).frames[(queueSt s q).read]? with
  | none => s
  | some f =>
    if etherType (f.bytes.drop 32) ≠ 0x0806 then s
    else
      match consume 6 q s with
      | none => s
      | some (pre, bs, s1) =>
        let port := beAt pre 2 1
        let a := bs.drop ((vlanOf bs).2 + 2)
        let ip := fld (actW s (Reg.MST_PORT_IP.at port)) 31 0
        if beAt a 0 2 ≠ 1 ∨ beAt a 2 2 ≠ 0x0800 ∨ beAt a 6 2 ≠ 1 ∨ ip = 0 ∨ beAt a 24 4 ≠ ip then s1
        else
          let sa := daEntry s port 0
          let reply := ethHeader (beAt a 8 6) sa ((vlanOf bs).1) 0x0806 ++ bytesBE 2 1 ++ bytesBE 2 0x0800 ++ bytesBE 1 6 ++
            bytesBE 1 4 ++ bytesBE 2 2 ++ bytesBE 6 sa ++ bytesBE 4 ip ++ slice a 8 6 ++ slice a 14 4
          sendOwn port reply none (count Reg.MST_ARP_CNT.base s1)

/-- The group an IGMP query asks for, 0 for a general query. -/
def queryGroup (bs : List Byte) : Option Nat :=
  match ipOfs bs with
  | none => none
  | some o =>
    let g := bs.drop (o + 4 * (beAt bs o 1 % 16))
    if beAt bs (o + 9) 1 = 2 ∧ beAt g 0 1 = 0x11 then some (beAt g 4 4) else none

/-- A frame other than ARP, consumed from a queue with CONSUMER 6: an IGMP query is answered for joined groups (R343). -/
def igmpQuery (q : Nat) (s : State) : State :=
  match (queueSt s q).frames[(queueSt s q).read]? with
  | none => s
  | some f =>
    if etherType (f.bytes.drop 32) = 0x0806 then s
    else
      match consume 6 q s with
      | none => s
      | some (pre, bs, s1) =>
        match queryGroup bs with
        | none => s1
        | some grp =>
          let port := beAt pre 2 1
          (listed s1 0x40E00000 64 256).foldl (fun t k =>
            let mine := fld (actW t (Reg.MRX2.at k)) 31 0
            if joined t k port ∧ (grp = 0 ∨ grp = mine) then
              let src := fld (actW t (Reg.MRX3.at k)) 31 0
              sendOwn port (igmpReport t port (if src = 0 then 2 else 1) mine (if src = 0 then [] else [src])) none t
            else t) s1

end Sys2Proof.Machine
end

