-- ==== Sys2Proof/Machine/Lnk.lean ====
section
/-! DEFINITION. Zwildo links: lanes and widths, frames and their checks, audio, time and clock (R369 to R386). -/

namespace Sys2Proof.Machine

open Sys2Proof

/-! ### Lanes and widths (R370, R380 to R383) -/

/-- A link that has not trained. -/
def linkZero : LinkSt := ⟨false, [], [], [], [], none, none, 0, 0, 0, 0, none, 0, [], [], [], [], none, 0, 0, none, 0⟩

/-- A link. -/
def linkSt (s : State) (n : Nat) : LinkSt := tabGet linkZero s.lnk.links n

/-- A link changed. -/
def modLink (n : Nat) (f : LinkSt → LinkSt) (s : State) : State :=
  { s with lnk := { s.lnk with links := tabMod linkZero n f s.lnk.links } }

/-- `LNK_CFG` of a link as it acts. -/
def lnkCfg (s : State) (n : Nat) : Word := actW s (Reg.LNK_CFG.at n)

/-- EN, CMD_EN, SHED_EN and TIME_EN (R384). -/
def lnkEn (s : State) (n : Nat) : Bool := decide (n < linkCount s) && unitPresent s uLNK && bit (lnkCfg s n) 0
def lnkTimeEn (s : State) (n : Nat) : Bool := bit (lnkCfg s n) 3

/-- The width cap for a number of usable lanes (R380). -/
def widthCap (usable : Nat) : Nat := if 4 ≤ usable then 4 else if 2 ≤ usable then 2 else min usable 1

/-- Usable lanes of a map that has lost some: four, with the spare in the map five less the retired ones (R370, R380). -/
def usableLanes (gone : List Nat) (dead : List Nat) : Nat :=
  (if gone = [] then 4 else 5 - gone.length) - (dead.filter (fun k => !gone.contains k)).length

/-- A spare move goes on in one direction or the other (R383). -/
def laneMoving (s : State) (n : Nat) : Bool :=
  (tabGet linkZero s.lnk.links n).rxMove.isSome || (tabGet linkZero s.lnk.links n).txMove.isSome

/-- `LNK_STATUS` shown (R384). -/
def linkShow (n : Nat) (s : State) : State :=
  let x := linkSt s n
  let ret := x.rxRetired.foldl (fun m k => m + 2 ^ k) 0
  setN (Reg.LNK_STATUS.at n) (ret * 2 ^ 16 + x.rxWidth * 2 ^ 8 + x.txWidth * 2 ^ 4 +
    (if x.change.isSome || laneMoving s n then 2 else 0) + if x.up then 1 else 0) s

/-- The SerDes reference of a link runs: REFCLK0 for links 0 to 3, REFCLK1 for the others (R593). -/
def linkRef (s : State) (n : Nat) : Bool := Nat.testBit s.start.refs (n / 4)

/-- The link is up, where its reference runs (R593): the maps are agreed and the widths stand at their caps (R370, R380). -/
def linkUp (n : Nat) (rxRet txRet : List Nat) (s : State) : State :=
  let rr := (rxRet.foldl (fun l k => setAdd k l) (linkSt s n).rxRetired).filter (fun k => decide (k < 5))
  if !lnkEn s n || !linkRef s n || (linkSt s n).up || usableLanes rr [] = 0 || usableLanes txRet [] = 0 then s
  else
    linkShow n (modLink n (fun x => { x with
      up := true, rxRetired := rr, txRetired := txRet, dead := [], txDead := [], rxMove := none, txMove := none
      change := none, lowRun := 0, sent := 0, load := 0
      rxWidth := widthCap (usableLanes rr []), txWidth := widthCap (usableLanes txRet []), timeSent := 0, clockSent := 0
      heard := monoNs s }) s)

/-- Link-time candidates of a link. -/
def linkCands (s : State) (n : Nat) : List Nat :=
  (List.range 8).filter (fun c => candType s c == 1 && candInst s c == n && candUsable s c)

/-- A frame counted as a PCS error. -/
def pcsErr (n k : Nat) (s : State) : State :=
  if k = 0 then s else stick (Reg.LNK_HIST.at n) 1 (countN (Reg.LNK_PCS_ERR_CNT.at n) k s)

/-- Transmit queues of a link with a frame waiting. -/
def linkQueues (s : State) (n : Nat) : List Nat := txWaiting s (8 + n)

/-- While a link is down, frames that reach the heads of its transmit queues are released unsent (R370). -/
def linkDiscard (n : Nat) (s : State) : State :=
  (linkQueues s n).foldl (fun t q =>
    countN (Reg.LNK_TX_DISCARD_CNT.at n) (queueSt t q).frames.length (queueFlush q t)) s

/-- The link is down (R370, R283); `cut`: a frame was being received. A lane that was being replaced counts as retired
from then on. -/
def linkDown (n : Nat) (cut : Bool) (s : State) : State :=
  if !(linkSt s n).up then s
  else
    let s1 := linkShow n (modLink n (fun x => { x with
      up := false, change := none, rxWidth := 0, txWidth := 0, direct := [], rxMove := none, txMove := none
      rxRetired := match x.rxMove with | some k => setAdd k x.rxRetired | none => x.rxRetired }) s)
    let s2 := raise 0x2C (bytesOf 1 n ++ bytesOf 1 0) (stick (Reg.LNK_HIST.at n) 0 (pcsErr n (if cut then 1 else 0) s1))
    linkDiscard n ((linkCands s2 n).foldl (fun t c => candLose c t) s2)

/-- Frame bytes queued for a link. -/
def linkQueued (s : State) (n : Nat) : Nat :=
  (linkQueues s n).foldl (fun m q => (queueSt s q).frames.foldl (fun k f => k + (f.bytes.length - 28)) m)
    ((linkSt s n).direct.foldl (fun m f => m + f.2.length + 4) 0)

/-- ℓ is above a load given in half percents: bytes against w × 3,125,000 (R380). -/
def loadOver (w load half : Nat) : Bool := decide (half * w * 3125000 < load * 200)

/-- RESTORE_PCT and SHED_PCT as they act, in half percents, and SHED_HOLD (R380, R384). -/
def restorePct (s : State) (n : Nat) : Nat := 2 * actF s (Reg.LNK_SHED.at n) 23 16
def shedPct (s : State) (n : Nat) : Nat := min (2 * actF s (Reg.LNK_SHED.at n) 15 8) (restorePct s n / 2)
def shedHold (s : State) (n : Nat) : Nat := let h := actF s (Reg.LNK_SHED.at n) 7 0; if h = 0 then 100 else h

/-- The load of a tick that has ended is measured (R380). -/
def linkTick (s : State) (n : Nat) : State :=
  let x := linkSt s n
  if !x.up then s
  else
    let l := x.sent + linkQueued s n
    let low := !loadOver x.txWidth l (shedPct s n)
    modLink n (fun y => { y with load := l, sent := 0, lowRun := if low then y.lowRun + 1 else 0 }) s

/-- A width change begins: SHED or RESTORE goes out on every working lane (R382 steps 1 and 2), unless it waits for a
spare move to finish (R383). -/
def widthBegin (n : Nat) (c : WidthChange) (s : State) : State :=
  if laneMoving s n then linkShow n (modLink n (fun x => { x with change := some { c with held := true } }) s)
  else
    linkShow n (emit (.ctl n (if c.restore then 0x52 else 0x51) c.width)
      (modLink n (fun x => { x with change := some { c with held := false, sent := monoNs s } }) s))
def widthGo (n w : Nat) (restore : Bool) (s : State) : State := widthBegin n ⟨w, restore, 0, false, false⟩ s

/-- The width change whose SHED or RESTORE has gone out. -/
def widthSent (s : State) (n : Nat) : Option WidthChange := (linkSt s n).change.filter (fun c => !c.held)

/-- A spare move has finished: the width change that waited begins. -/
def moveDone (n : Nat) (s : State) : State :=
  match (linkSt s n).change with
  | some c => if c.held then widthBegin n c s else linkShow n s
  | none => linkShow n s

/-- The cap of the transmit direction. -/
def txCap (s : State) (n : Nat) : Nat := widthCap (usableLanes (linkSt s n).txRetired (linkSt s n).txDead)

/-- The transmitter sheds lanes (R380); a width above the cap falls to it without a decision (R383). -/
def linkShed (n : Nat) (s : State) : State :=
  let x := linkSt s n
  if x.up && x.change.isNone && decide (txCap s n < x.txWidth) then widthGo n (txCap s n) false s
  else if x.up && bit (lnkCfg s n) 2 && x.change.isNone && decide (1 < x.txWidth) && decide (shedHold s n ≤ x.lowRun) then
    widthGo n (x.txWidth / 2) false s
  else s

/-- The transmitter restores its width; during a shed the restore waits (R380, R382). -/
def linkRestore (n : Nat) (s : State) : State :=
  let x := linkSt s n
  if !x.up || !loadOver x.txWidth x.load (restorePct s n) then s
  else
    match x.change with
    | some c => if c.restore then s else modLink n (fun y => { y with change := some { c with thenRestore := true } }) s
    | none => if x.txWidth < txCap s n then widthGo n (txCap s n) true s else s

/-- What follows a width change: the restore that waited for a shed to complete starts (R382). -/
def widthNext (n : Nat) (c : WidthChange) (s : State) : State :=
  if c.thenRestore ∧ (linkSt s n).txWidth < txCap s n then widthGo n (txCap s n) true s else linkShow n s

/-- The ACK of a width change arrives: frames resume at the new width (R382), which falls on to a cap that has fallen
meanwhile (R383). -/
def widthAck (n : Nat) (s : State) : State :=
  match widthSent s n with
  | none => s
  | some c =>
    let s1 := count (Reg.LNK_WIDTH_CNT.at n) (modLink n (fun x => { x with change := none, txWidth := c.width, lowRun := 0 }) s)
    if txCap s1 n < c.width then widthGo n (txCap s1 n) false s1 else widthNext n c s1

/-- No ACK within 10 µs: the width stays (R382). -/
def shedTimeout (n : Nat) (s : State) : State :=
  match widthSent s n with
  | none => s
  | some c =>
    if monoNs s < c.sent + 10000 then s
    else widthNext n c (stick (Reg.LNK_HIST.at n) 4 (count (Reg.LNK_SHED_FAIL_CNT.at n)
      (modLink n (fun x => { x with change := none }) s)))

/-- A receive lane is in the map. -/
def laneInMap (s : State) (n k : Nat) : Bool :=
  let x := linkSt s n
  decide (k < 5) && !x.rxRetired.contains k && !x.dead.contains k && (k != 4 || x.rxRetired != [])

/-- The retirement of a receive lane: its replacement by the spare begins with SPARE_MOVE, or the lane stays in the map
(R383); whether a spare takes over. -/
def laneReplace (n lane : Nat) (s : State) : Bool × State :=
  let x := linkSt s n
  if !x.up || laneMoving s n || x.change.isSome || !laneInMap s n lane then (false, s)
  else if x.rxRetired ≠ [] then (false, stick (Reg.LNK_HIST.at n) 3 s)
  else (true, linkShow n (emit (.ctl n 0x53 lane) (modLink n (fun y => { y with rxMove := some lane }) s)))

/-- The spare is aligned: ACK goes out, both ends switch at the lane's next alignment marker, and the lane stops (R383
steps 4 and 5). -/
def laneMoveEnd (s : State) (n : Nat) : State :=
  match (linkSt s n).rxMove with
  | none => s
  | some k =>
    let s1 := modLink n (fun y => { y with rxMove := none, rxRetired := setAdd k y.rxRetired, dead := setDel k y.dead }) s
    moveDone n (raise 0x2D (bytesOf 1 n ++ bytesOf 1 k) (stick (Reg.LNK_HIST.at n) 2 (count (Reg.LNK_SPARE_CNT.at n)
      (emit (.ctl n 0x54 0x53) s1))))

/-- Spare moves that have begun end, on every link. -/
def laneMovesEnd (s : State) : State := (List.range (linkCount s)).foldl laneMoveEnd s

/-- A receive lane's eye margin as it is shown, and whether one is below MARGIN_MIN (R383, R384). -/
def laneMargin (n lane margin : Nat) (s : State) : State := setF (Reg.LNK_LANE_MARGIN.at n lane) 9 0 (min margin 1023) s
def weakLane (s : State) (n margin : Nat) : Bool := decide (min margin 1023 < actF s (Reg.LNK_MARGIN.at n) 9 0)

/-- A working receive lane loses lock: its frames in flight count as PCS errors; the width follows as the partner remaps
(R383). Without a usable lane the link is down (R370). -/
def rxLaneLost (n lane frames : Nat) (s : State) : State :=
  if !(linkSt s n).up || !laneInMap s n lane then s
  else
    let s1 := modLink n (fun x => { x with dead := setAdd lane x.dead }) s
    let x := linkSt s1 n
    when (usableLanes x.rxRetired x.dead == 0) (linkDown n false) (pcsErr n frames s1)

/-- A working transmit lane has lost lock at the partner: the cap falls, and the link remaps to it as in R382 (R383). -/
def txLaneLost (n lane : Nat) (s : State) : State :=
  let x := linkSt s n
  if !x.up || x.txRetired.contains lane || x.txDead.contains lane || (lane == 4 && x.txRetired == []) then s
  else
    let s1 := modLink n (fun y => { y with txDead := setAdd lane y.txDead }) s
    if txCap s1 n = 0 then linkDown n false s1
    else if (linkSt s1 n).change.isNone ∧ txCap s1 n < (linkSt s1 n).txWidth then widthGo n (txCap s1 n) false s1
    else s1

/-- A lane loses lock: receive lanes are numbered 0 to 4, transmit lanes from 5 on. -/
def laneLost (n lane frames : Nat) (s : State) : State :=
  if lane < 5 then rxLaneLost n lane frames s else txLaneLost n (lane - 5) s

/-- A SHED or RESTORE arrives: the receiver remaps to the new width and answers ACK (R382). -/
def widthTake (n code arg : Nat) (s : State) : State :=
  if arg = 1 ∨ arg = 2 ∨ arg = 4 then
    emit (.ctl n 0x54 code) (linkShow n (modLink n (fun x => { x with rxWidth := arg }) s))
  else s

/-- A SPARE_MOVE arrives: where the spare is free the transmitter copies the lane's block stream onto it, once a width
change in progress has finished (R383 step 3). -/
def spareAsked (n lane : Nat) (s : State) : State :=
  if lane < 4 ∧ (linkSt s n).txRetired = [] then linkShow n (modLink n (fun x => { x with txMove := some lane }) s) else s

/-- The ACK of a SPARE_MOVE: the transmitter switches at the lane's next alignment marker, and the lane stops (R383). -/
def spareSwitch (n : Nat) (s : State) : State :=
  match (linkSt s n).txMove, widthSent s n with
  | some k, none =>
    moveDone n (modLink n (fun x => { x with txMove := none, txRetired := setAdd k x.txRetired, txDead := setDel k x.txDead }) s)
  | _, _ => s

/-- A control block arrives: the receiving end remaps and answers ACK; as transmitter it moves to the spare, or ends the
width change that an ACK names (R381 to R383). -/
def controlBlock (n code arg : Nat) (s : State) : State :=
  if !(linkSt s n).up then s
  else
    match code with
    | 0x51 => widthTake n 0x51 arg s
    | 0x52 => widthTake n 0x52 arg s
    | 0x53 => spareAsked n arg s
    | 0x54 => if arg = 0x53 then spareSwitch n s
      else
        match widthSent s n with
        | some c => when (arg == (if c.restore then 0x52 else 0x51)) (widthAck n) s
        | none => s
    | _ => s

/-! ### Frames (R371 to R374) -/

/-- A frame of a type with its header and padding, without its trailer; SEQ is put in as it is sent (R371, R372). -/
def linkBody (typ vf id sidx claim tdata : Nat) (payload : List Byte) : List Byte :=
  let units := (payload.length + 36 + 31) / 32
  bytesOf 1 typ ++ bytesOf 1 (1 + vf * 16) ++ bytesOf 2 units ++ bytesOf 2 payload.length ++ bytesOf 2 id ++
    bytesOf 8 sidx ++ bytesOf 4 claim ++ bytesOf 4 0 ++ bytesOf 8 tdata ++ payload ++
    List.replicate (32 * units - 36 - payload.length) 0

/-- A frame that goes directly is made and waits (R373, R379); none is made for a link that is down. -/
def sendDirect (n typ : Nat) (payload : List Byte) (s : State) : State :=
  if !(linkSt s n).up then s else
  modLink n (fun x => { x with direct := x.direct ++ [(typ, linkBody typ 0 0 (sampleIdx s) s.par.claim 0 payload)] }) s

/-- A producer enqueues a frame (R331); for a link that is down it is released as it reaches the head of its queue (R370). -/
def enqueueFrame (q : Nat) (bs : List Byte) (s : State) : Bool × State :=
  let n := qPort s q - 8
  let (ok, s1) := enqueueTx q bs s
  (ok, when (decide (8 ≤ qPort s q) && decide (n < linkCount s) && !(linkSt s n).up) (linkDiscard n) s1)

/-- A frame enqueued on a transmit queue of a link, without its trailer (R331); whether it was stored. -/
def sendQueued (n q typ vf id : Nat) (payload : List Byte) (s : State) : Bool × State :=
  if qPort s q ≠ 8 + n then (false, s)
  else
    enqueueFrame q (linkBody typ vf id (sampleIdx s) s.par.claim 0 payload) s

/-- Header fields of a received frame. -/
def lfType (bs : List Byte) : Nat := getLE bs 0 1
def lfVf (bs : List Byte) : Nat := getLE bs 1 1
def lfUnits (bs : List Byte) : Nat := getLE bs 2 2
def lfPaylen (bs : List Byte) : Nat := getLE bs 4 2
def lfId (bs : List Byte) : Nat := getLE bs 6 2
def lfSidx (bs : List Byte) : Nat := getLE bs 8 8
def lfClaim (bs : List Byte) : Nat := getLE bs 16 4
def lfTdata (bs : List Byte) : Nat := getLE bs 24 8
def lfPayload (bs : List Byte) : List Byte := slice bs 32 (lfPaylen bs)

/-- The receive queue of a type on a link (R374, R384); types that go directly have none. -/
def linkQueue (s : State) (n typ : Nat) : Option Nat :=
  let q := match typ with
    | 1 => actF s (Reg.LNK_RXQ0.at n) 8 0
    | 2 => actF s (Reg.LNK_RXQ0.at n) 24 16
    | 3 => actF s (Reg.LNK_RXQ1.at n) 8 0
    | 4 => actF s (Reg.LNK_RXQ1.at n) 8 0
    | 6 => actF s (Reg.LNK_RXQ1.at n) 24 16
    | _ => 0x1FF
  if q = 0x1FF then none else some q

/-- A frame of this type is taken on this link (R373 check 4). -/
def linkTakes (s : State) (n typ : Nat) : Bool :=
  match typ with
  | 5 => true
  | 7 => lnkTimeEn s n
  | 8 => lnkTimeEn s n
  | 6 => bit (lnkCfg s n) 1 && (linkQueue s n 6).isSome
  | t => (linkQueue s n t).isSome

/-- The first check of R373 that fails, by its order. -/
def linkCheck (s : State) (n : Nat) (bs : List Byte) (pcs : Bool) : Nat :=
  let len := bs.length
  if pcs then 1
  else if len < 64 then 2
  else if lfVf bs % 16 ≠ 1 ∨ lfType bs = 0 ∨ 8 < lfType bs ∨ 32 * lfUnits bs < lfPaylen bs + 36 then 3
  else if !linkTakes s n (lfType bs) then 4
  else if 8224 < len then 5
  else if len % 32 ≠ 0 ∨ len ≠ 32 * lfUnits bs then 6
  else if getLE bs (len - 4) 4 ≠ crc32c (bs.take (len - 4)) then 7
  else 0

/-- The cells that a discarded frame of a length has taken before its end are back, and the pool has been low (R328, R373). -/
def linkCells (n typ len : Nat) (s : State) : State :=
  match linkQueue s n typ with
  | some q => when (qEn s q && !qTx s q) (poolLow (freeCells s - cellsGranted s q len)) s
  | none => s

/-- A frame received on a link, trailer included; `pcs`: a code or alignment error; `ofs`: 250 ps units of its
receive time into the sample in progress (R373). -/
def linkReceive (n : Nat) (bs : List Byte) (pcs : Bool) (ofs : Nat) (s : State) : State :=
  if !(linkSt s n).up then s
  else
    match linkCheck s n bs pcs with
    | 1 => pcsErr n 1 (if 2 ≤ linkCheck s n bs false ∧ linkCheck s n bs false ≤ 4 then s
        else linkCells n (lfType bs) (min bs.length 8225) s)
    | 2 => count (Reg.LNK_RUNT_CNT.at n) s
    | 3 => count (Reg.LNK_BAD_CNT.at n) s
    | 4 => count (Reg.LNK_BAD_CNT.at n) s
    | 5 => count (Reg.LNK_GIANT_CNT.at n) (linkCells n (lfType bs) 8225 s)
    | 6 => count (Reg.LNK_ALIGN_CNT.at n) (linkCells n (lfType bs) bs.length s)
    | 7 => count (Reg.LNK_CRC_CNT.at n) (linkCells n (lfType bs) bs.length s)
    | _ =>
      match linkQueue s n (lfType bs) with
      | none =>
        let t := stampNow s + (ofs * 16384 : Nat)
        count (Reg.LNK_RX_OK_CNT.at n) (modLink n (fun x => { x with inbox := x.inbox ++ [(lfType bs, bs, t)] }) s)
      | some q =>
        if !qEn s q || qTx s q then noCell q s
        else
          let (ok, s1) := storeFrame q (prefixOf bs.length (8 + n) 1 0 0xFF s ofs) (bs.take (bs.length - 4)) bs.length s
          if ok then count (Reg.LNK_RX_OK_CNT.at n) s1 else s1

/-- The oldest frame of a type that went directly is taken. -/
def takeInbox (n typ : Nat) (s : State) : Option (List Byte × Int × State) :=
  match (linkSt s n).inbox.find? (fun f => f.1 == typ) with
  | none => none
  | some f => some (f.2.1, f.2.2, modLink n (fun x => { x with inbox := x.inbox.erase f }) s)

/-- The unread frame at the head of a queue that a link's map names for a type: link, bytes, cells (R374). -/
def linkHead (typ q : Nat) (s : State) : Option (Nat × List Byte × Nat) :=
  let x := queueSt s q
  match x.frames[x.read]? with
  | none => none
  | some f =>
    let port := getLE f.bytes 2 1
    let bs := f.bytes.drop 32
    if 8 ≤ port ∧ linkQueue s (port - 8) typ = some q ∧ lfType bs = typ then some (port - 8, bs, f.cells) else none

/-- That frame read and released by its taker. -/
def takeLink (typ q : Nat) (s : State) : Option (Nat × List Byte × Nat × State) :=
  match linkHead typ q s with
  | none => none
  | some (n, bs, c) => some (n, bs, c, queueRelease q (modQueue q (fun y => { y with read := y.read + 1 }) s))

/-! ### Link audio (R375) -/

/-- An AUDIO frame placed in its receive stream. DESIGN CHOICE (log 60): one whose rate code is 3, or whose payload does
not fit its channels, is dropped uncounted. -/
def audioFrame (q : Nat) (s : State) : State :=
  match takeLink 1 q s with
  | none => s
  | some (n, bs, cells, s1) =>
    let id := lfId bs
    let k := n * 32 + id % 32
    let rate := id / 32 % 4
    let fs := match rate with
      | 0 => 48000 | 1 => 96000 | _ => 192000
    let chans := id / 256 % 64 + 1
    match rxOf true s1 k with
    | none => s1
    | some x =>
      if x.stopped ∨ rate = 3 ∨ lfPaylen bs ≠ 48 * chans then s1
      else
        let claimOn := rxClaimEn true s1 k
        let (ok, s2) := if claimOn then claimSeen true k (lfClaim bs) s1 else (true, s1)
        if !ok then s2
        else
          let pay := lfPayload bs
          let smp := (List.range chans).map (fun c => (List.range 16).map (fun j =>
            signed 24 (getLE pay ((j * chans + c) * 3) 3)))
          let s3 := rxMod true k (fun y => { y with fs := fs }) s2
          placePkt true k fs 16 (unitSt s uLNK).next
            ⟨(lfSidx bs : Int), smp, if claimOn then lfClaim bs else 0, lfTdata bs, Nat.testBit (lfVf bs) 4,
              Nat.testBit (lfVf bs) 5, q, cells, none⟩ s3

/-- A transmit stream's block: one AUDIO frame (R375). -/
def lnkTxBlock (b : Nat) (s : State) (k : Nat) : State :=
  match (tabFind? k s.lnk.tx).map (txCurrent b) with
  | none => s
  | some none => { s with lnk := { s.lnk with tx := tabErase k s.lnk.tx } }
  | some (some x) =>
    if !audioOut s b || decide (b < x.from_) then txPut true k x s
    else
      let n := k / 32
      let w := actW s (Reg.LTX0.at k)
      let chans := fld w 21 16 + 1
      let q := actF s (Reg.LTX1.at k) 8 0
      let blks := slotBlocks 3 k s (fld w 11 0) chans b
      let pay := (List.range 16).flatMap (fun j => blks.flatMap (fun y => bytesOf 3 (lowBits 24 (nth 0 y.smp j))))
      let standby := (blks.mapIdx (fun c y => if y.silent then 2 ^ c else 0)).foldl (· + ·) 0
      let vf := (if blks.any (·.concealed) then 1 else 0) + if blks.any (·.memerr) then 2 else 0
      if qPort s q ≠ 8 + n then s
      else
        (enqueueFrame q (linkBody 1 vf (k % 32 + rateCode s * 32 + (chans - 1) * 256) (extSmp s (16 * b) + 112)
          (claimAt s.lnk.claims b) standby pay) s).2

/-- Transmit records of links with EN acting and running streams brought into step. -/
def lnkTxRefresh (b : Nat) (s : State) : State :=
  (listed s 0x40E80000 16 256).foldl (fun t k =>
    let en := bit (actW t (Reg.LTX0.at k)) 31
    match tabFind? k t.lnk.tx with
    | none => if en then txPut true k { txZero with state := 1, from_ := b } t else t
    | some x =>
      if !en && !txStopped x then txPut true k (txUpTo b x) t
      else if en && txStopped x then txPut true k (txAgain b 1 x) t
      else t) s

/-- The links' input side: block `b` of every receive stream. -/
def lnkInBlock (b : Nat) (s : State) : State :=
  let s1 := lnkTxRefresh b (rxRefresh true s)
  (s1.lnk.rx.map (·.1)).foldl (rxBlock true b) s1

/-- The links' packers take block `b`. -/
def lnkOutBlock (b : Nat) (s : State) : State := (s.lnk.tx.map (·.1)).foldl (lnkTxBlock b) s

/-! ### Time and clock (R378) -/

/-- A timestamp of 16 bytes: seconds, nanoseconds, fraction (R378). -/
def stampBytes (t : Int) : List Byte :=
  let v := t.toNat
  bytesOf 8 (v / (1000000000 * 65536)) ++ bytesOf 4 (v / 65536 % 1000000000) ++ bytesOf 2 (v % 65536 / 0x4000 * 0x4000) ++ [0, 0]

/-- A timestamp read, in 2^-16 ns. -/
def stampOf (bs : List Byte) (o : Nat) : Int :=
  ((getLE bs o 8 * 1000000000 + getLE bs (o + 8) 4) * 65536 + getLE bs (o + 12) 2 : Nat)

/-- The grandmaster that a link's TIME frames name (R378): a change starts the prediction of the link's candidates anew,
and is a change of the grandmaster followed where one of them is the time source (R283, R300). -/
def linkGmSeen (n gm : Nat) (s : State) : State :=
  if tabFind? n s.tim.linkGm = some gm then s
  else
    let cs := linkCands s n
    let s1 := candsFresh cs (modTim (fun t => { t with linkGm := tabSet n gm t.linkGm }) s)
    match timeSource s with
    | some c => when (cs.contains c) (gmSet gm) s1
    | none => s1

/-- A TIME frame taken (R378): the candidates of its link get the phase error, with the loop's prediction of the
offset and the partner's frequency as measured. -/
def timeFrame (n : Nat) (pred freq : Int) (s : State) : State :=
  match takeInbox n 7 s with
  | none => s
  | some (bs, t4, s1) =>
    let p := lfPayload bs
    let t3 := stampOf p 0
    let s2 := modLink n (fun x => { x with echo := some (t3, t4) }) s1
    let flags := getLE p 48 1
    if flags % 4 ≠ 3 then s2
    else
      let delay := ((t4 - stampOf p 16) - (t3 - stampOf p 32)) / 2
      let e := t3 + delay - t4 + sfld (actW s (Reg.LNK_ASYM.at n)) 31 0 * 256
      let s3 := linkGmSeen n (getLE p 50 8) (modLink n (fun x => { x with heard := monoNs s }) s2)
      (linkCands s3 n).foldl (fun t c =>
        let x := cand t c
        if decide (655360000 < (-e - pred).natAbs) && !x.fresh && decide (2 ≤ x.state) && decide (x.state ≤ 3) then candGlitch c t
        else
          let t1 := modCand c (fun y => { y with fresh := false }) t
          let t2 := if x.state = 1 ∨ x.state = 4 then modCand c (fun y => { y with fresh := false }) (candGo c 2 t1) else t1
          phaseSeen c e freq x.fresh t2) s3

/-- TIME_INT of a link in nanoseconds (R384). -/
def timeInt (s : State) (n : Nat) : Nat :=
  let int := fld (lnkCfg s n) 23 16
  (if int = 0 then 10 else int) * 1000000

/-- No valid TIME frame for three intervals (R283). -/
def timeTimeout (n : Nat) (s : State) : State :=
  if (linkSt s n).up ∧ (linkSt s n).heard + 3 * timeInt s n ≤ monoNs s then
    (linkCands s n).foldl (fun t c => candLose c t) s
  else s

/-- A CLOCK frame taken: shown and nothing else (R378). -/
def clockFrame (n : Nat) (s : State) : State :=
  match takeInbox n 8 s with
  | none => s
  | some (bs, _, s1) => setN (Reg.LNK_PEER_CLK.at n) (getLE (lfPayload bs) 0 4) s1

/-- A TIME frame falls due (R378); T_TX is inserted as it leaves. -/
def timeSend (n : Nat) (s : State) : State :=
  let x := linkSt s n
  let due := decide (x.timeSent = 0) || decide (x.timeSent + timeInt s n ≤ monoNs s)
  if !x.up || !lnkTimeEn s n || !due then s
  else
    let (tx, rx) := x.echo.getD (0, 0)
    let flags := (if (timeSource s).isSome || s.tim.portState == 6 then 1 else 0) + if x.echo.isSome then 2 else 0
    let p := List.replicate 16 0 ++ stampBytes tx ++ stampBytes rx ++ bytesOf 1 flags ++ bytesOf 1 (scaleNow s) ++
      bytesOf 8 s.tim.gmId ++ bytesOf 1 (fld (regW s Reg.TIM_PTP_STAT.base) 15 8) ++ List.replicate 5 0
    sendDirect n 7 p (modLink n (fun y => { y with timeSent := max 1 (monoNs s) }) s)

/-- A CLOCK frame falls due: at each change of the DPLL state and every 100 ms (R378). -/
def clockSend (n : Nat) (s : State) : State :=
  let x := linkSt s n
  let due := decide (x.clockSent = 0) || decide (x.clockSent + 100000000 ≤ monoNs s) || x.clockState != some s.clk.state
  if !x.up || !lnkTimeEn s n || !due then s
  else
    let p := bytesOf 4 (fld (regW s Reg.CLK_STAT.base) 15 0) ++ bytesOf 4 (regW s Reg.CLK_FREQ.base).toNat ++
      bytesOf 4 (regW s Reg.CLK_PHASE.base).toNat ++ List.replicate 20 0
    sendDirect n 8 p (modLink n (fun y => { y with clockSent := max 1 (monoNs s), clockState := some s.clk.state }) s)

/-! ### Transmit order (R379) -/

/-- A TIME frame as it leaves: T_TX is the time now (R378). -/
def stampTime (s : State) (bs : List Byte) : List Byte :=
  bs.take 32 ++ stampBytes (timeFx s) ++ bs.drop 48

/-- A frame leaves on a link: SEQ counts the frames of its type sent there, and the trailer follows (R371, R372). -/
def linkWire (n : Nat) (bs : List Byte) (s : State) : State :=
  let typ := lfType bs
  let q := tabGet 0 (linkSt s n).seqs typ
  let b := bs.take 20 ++ bytesOf 4 q ++ bs.drop 24
  emit (.link n (b ++ bytesOf 4 (crc32c b))) (count (Reg.LNK_TX_OK_CNT.at n) (modLink n (fun y => { y with
    sent := y.sent + b.length + 4, seqs := tabSet typ (q + 1) y.seqs }) s))

/-- The next queue of a class on a link, after the one last served (R333, R379). -/
def linkNext (s : State) (n c : Nat) : Option Nat :=
  let qs := (linkQueues s n).filter (fun q => qClass s q == c)
  match tabFind? c (linkSt s n).served with
  | none => qs.head?
  | some l => match qs.find? (fun q => decide (l < q)) with
    | some q => some q
    | none => qs.head?

/-- The first waiting frame goes out at a frame boundary (R379); while the link is down frames at the heads of its
queues are released unsent (R370). -/
def linkTransmit (n : Nat) (s : State) : State :=
  let x := linkSt s n
  if linkCount s ≤ n then s
  else if !x.up then linkDiscard n s
  else if (widthSent s n).isSome then s
  else
    match [5, 7, 8].findSome? (fun k => x.direct.find? (fun f => f.1 == k)) with
    | some f =>
      linkWire n (if f.1 = 7 then stampTime s f.2 else f.2) (modLink n (fun y => { y with direct := y.direct.erase f }) s)
    | none =>
      match [1, 2, 0].findSome? (fun c => (linkNext s n c).map (fun q => (c, q))) with
      | none => s
      | some (c, q) =>
        match (queueSt s q).frames with
        | [] => s
        | f :: rest =>
          let s1 := modQueue q (fun y => { y with frames := rest, read := y.read - 1, mark := y.mark - 1 }) s
          linkWire n (f.bytes.drop 32) (modLink n (fun y => { y with served := tabSet c q y.served }) s1)

end Sys2Proof.Machine
end

