-- ==== Sys2Proof/Machine/Ser.lean ====
section
/-! DEFINITION. Serial audio ports and the record and play rings (R387 to R409). TDM ports and AES3 ports share one
set of operations; `aes` tells them apart. -/

namespace Sys2Proof.Machine

open Sys2Proof

/-! ### Ports and their configuration (R387 to R393) -/

/-- The unit of a class of ports. -/
def serUnit (aes : Bool) : Nat := if aes then uAES else uTDM

/-- A port's configuration word as it acts. -/
def serCfg (aes : Bool) (s : State) (p : Nat) : Word := actW s (if aes then Reg.AES_CFG.at p else Reg.TDM_CFG.at p)

/-- Registers of a port that both classes have. -/
def serStat (aes : Bool) (p : Nat) : Nat := if aes then Reg.AES_STAT.at p else Reg.TDM_STAT.at p
def serHist (aes : Bool) (p : Nat) : Nat := if aes then Reg.AES_HIST.at p else Reg.TDM_HIST.at p
def serPpm (aes : Bool) (p : Nat) : Nat := if aes then Reg.AES_PPM.at p else Reg.TDM_PPM.at p
def serSlipCnt (aes : Bool) (p : Nat) : Nat := if aes then Reg.AES_SLIP_CNT.at p else Reg.TDM_SLIP_CNT.at p
def serGlitchCnt (aes : Bool) (p : Nat) : Nat := if aes then Reg.AES_GLITCH_CNT.at p else Reg.TDM_GLITCH_CNT.at p
def serLostCnt (aes : Bool) (p : Nat) : Nat := if aes then Reg.AES_LOST_CNT.at p else Reg.TDM_LOST_CNT.at p

/-- SLIP_PPM of a port, in 2^-16 ppm (R396). -/
def slipPpm (aes : Bool) (s : State) (p : Nat) : Nat :=
  actF s (if aes then Reg.AES_CFG2.at p else Reg.TDM_CFG2.at p) 27 16 * 65536

/-- The port's EN. -/
def serEn (aes : Bool) (s : State) (p : Nat) : Bool := bit (serCfg aes s p) 31

/-- A port that takes its clock from outside: CLK_SEL 2 or 3, and every AES3 input (R388, R399). -/
def serSlave (aes : Bool) (s : State) (p : Nat) : Bool := aes || decide (2 ≤ fld (serCfg aes s p) 29 28)

/-- A port receives, or transmits (R387). -/
def serRxOn (aes : Bool) (s : State) (p : Nat) : Bool := if aes then bit (serCfg aes s p) 30 else !bit (serCfg aes s p) 30
def serTxOn (aes : Bool) (s : State) (p : Nat) : Bool := if aes then bit (serCfg aes s p) 29 else bit (serCfg aes s p) 30

/-- DATA_AUTO of a port (R391). -/
def serAuto (aes : Bool) (s : State) (p : Nat) : Bool := bit (serCfg aes s p) (if aes then 24 else 5)

/-- The RATE code of a port, and the rate it names: learn starts from the render rate (R407). -/
def serCode (aes : Bool) (s : State) (p : Nat) : Nat := if aes then fld (serCfg aes s p) 28 25 else fld (serCfg aes s p) 21 18
def rateOfCode (render c : Nat) : Nat :=
  match c with
  | 1 => 32000 | 2 => 44100 | 3 => 48000 | 4 => 88200 | 5 => 96000 | 6 => 176400 | 7 => 192000 | _ => render
def serRate (aes : Bool) (s : State) (p : Nat) : Nat := rateOfCode (rateHz s) (serCode aes s p)

/-- Slots of a frame and bits of a slot and of a sample (R392, R393). -/
def tdmSlots (s : State) (p : Nat) : Nat :=
  let w := serCfg false s p
  let f := fld w 17 15
  if f = 2 ∨ f = 3 then 2 * 2 ^ fld w 14 13 else 2
def widthOf (c : Nat) : Nat := match c with | 0 => 16 | 1 => 24 | _ => 32
def tdmSlotW (s : State) (p : Nat) : Nat := widthOf (fld (serCfg false s p) 12 11)
def tdmSampleW (s : State) (p : Nat) : Nat := min (widthOf (fld (serCfg false s p) 10 9)) (tdmSlotW s p)

/-- Channels of a port. -/
def serChans (aes : Bool) (s : State) (p : Nat) : Nat := if aes then 2 else tdmSlots s p

/-- A port that does not start and shows BAD_CONFIG (R388, R389). -/
def serBad (aes : Bool) (s : State) (p : Nat) : Bool :=
  if aes then false
  else
    let w := serCfg false s p
    let sel := fld w 29 28
    let fs := serRate false s p
    let q := fld w 27 22
    let qw := serCfg false s q
    let family44 := fs == 44100 || fs == 88200 || fs == 176400
    (sel == 3 && (decide (serCount false s ≤ q) || bit qw 30 != bit w 30 || fld qw 29 28 != 2)) ||
      decide (49152000 < fs * tdmSlots s p * tdmSlotW s p) || (sel == 0 && family44) || (sel == 1 && !family44) ||
      (bit w 30 && fs != rateHz s)

/-! ### State of a port -/

/-- A port whose EN has not been set. -/
def serZero : SerPort := ⟨0, none, none, none, none, false, [], .normal, [], false, [], [], [], [], 0, [], 0, 0, 0, [], 0⟩

/-- A port's state. -/
def serOf (aes : Bool) (s : State) (p : Nat) : SerPort := tabGet serZero (if aes then s.ser.aes else s.ser.tdm) p

/-- A port's state changed. -/
def serMod (aes : Bool) (p : Nat) (f : SerPort → SerPort) (s : State) : State :=
  if aes then { s with ser := { s.ser with aes := tabMod serZero p f s.ser.aes } }
  else { s with ser := { s.ser with tdm := tabMod serZero p f s.ser.tdm } }

/-- STATE of a port shown. -/
def serShow (aes : Bool) (p st : Nat) (s : State) : State :=
  setF (serStat aes p) 2 0 st (serMod aes p (fun x => { x with state := st }) s)

/-- The event of a clock fault: port and STATE (R396, R397). -/
def serClkEvent (aes : Bool) (p : Nat) (s : State) : State :=
  raise (if aes then 0x33 else 0x30) (bytesOf 1 p ++ bytesOf 1 (serOf aes s p).state) s

/-- Data flows in block `b`. -/
def serData (x : SerPort) (b : Nat) : Bool :=
  x.spans.any (fun p => decide (p.1 ≤ b) && (match p.2 with
    | some e => decide (b < e)
    | none => true))

/-- The rate that counts a port's frames: an AES3 output runs at the render rate (R401). -/
def serFrameRate (aes : Bool) (s : State) (p : Nat) (x : SerPort) : Nat :=
  if aes && serTxOn aes s p then rateHz s else x.rate

/-- Clock frames since a monotonic instant. -/
def framesSince (s : State) (t rate : Nat) : Nat := (monoNs s - t) * rate / 1000000000

/-- The port's clocks have run for 1,024 frames (R391). -/
def serClocked (aes : Bool) (s : State) (p : Nat) : Bool :=
  let x := serOf aes s p
  match x.clocks with
  | some t => x.offAt.isNone && x.closing.isNone && decide (1024 ≤ framesSince s t (serFrameRate aes s p x))
  | none => false

/-- A span of data ended at a block. -/
def endSpans (b : Nat) (l : List (Nat × Option Nat)) : List (Nat × Option Nat) :=
  l.map (fun p => if p.2.isNone then (p.1, some b) else p)

/-- STATE of a port without a fault. -/
def serIdleState (x : SerPort) : Nat := if x.spans.any (fun p => p.2.isNone) then 2 else 1

/-- The converters that take a receive port's samples begin anew: its source starts (R81). -/
def serSource (aes : Bool) (p : Nat) (s : State) : State :=
  when (serRxOn aes s p) (sourceStarts (if aes then 1 else 0) p) s

/-- Data begins at block `b` where it is wanted and the clocks have run for 1,024 frames (R391), a port in a fault going on
to show it; a receive port takes its placement from the next good frame (R394). -/
def serBegin (aes : Bool) (b p : Nat) (s : State) : State :=
  let x := serOf aes s p
  let due : Bool := match x.want with
    | some w => decide (w ≤ b)
    | none => serAuto aes s p && !x.halted
  let free := !(x.spans.any (fun q => q.2.isNone))
  let well := decide (x.state = 1)
  if serEn aes s p ∧ (well ∨ x.state = 3 ∨ x.state = 4) ∧ free ∧ due ∧ serClocked aes s p then
    serSource aes p (serShow aes p (if well then 2 else x.state) (serMod aes p (fun y => { y with
      want := none, halted := false, spans := ((b, none) :: y.spans).take 4, buf := [], placed := false, fresh := []
      flow := if well then .normal else y.flow }) s))
  else s

/-- A START tag names a port: its data begins at block `b`, or once the clocks have run, with EARLY_STK (R391). -/
def serStart (aes : Bool) (b : Nat) (s : State) (p : Nat) : State :=
  let s1 := when (!serClocked aes s p) (stick (serHist aes p) (if aes then 6 else 4)) s
  serBegin aes b p (serMod aes p (fun x => { x with
    want := if x.spans.any (fun q => q.2.isNone) then none else some b, halted := false }) s1)

/-- A STOP tag names a port: its data ends at block `b` (R391). -/
def serStop (aes : Bool) (b : Nat) (s : State) (p : Nat) : State :=
  let x := serOf aes s p
  let s1 := serMod aes p (fun y => { y with want := none, halted := true, spans := endSpans b y.spans }) s
  if x.state = 2 then serShow aes p 1 s1 else s1

/-- The ports a START or STOP tag names (R391). -/
def serNamed (aes : Bool) (s : State) (g : TagRec) : List Nat :=
  if g.inst = 0xFF then List.range (serCount aes s) else if g.inst < serCount aes s then [g.inst] else []

/-- The form of a TDM port's frames (R392): I²S data begins one BCLK after the FS edge, left-justified data at it; DELAY1
delays the TDM formats. -/
def tdmForm (s : State) (p : Nat) : TdmForm :=
  let w := serCfg false s p
  let f := if 3 < fld w 17 15 then 0 else fld w 17 15
  ⟨f, tdmSlotW s p, f == 0 || (decide (2 ≤ f) && bit w 8), bit w 7, bit w 6⟩

/-- A port drives its clocks, or frames: a master TDM port, an AES3 output (R388, R391, R401). -/
def serDrives (aes : Bool) (s : State) (p : Nat) : Bool := if aes then serTxOn aes s p else !serSlave aes s p

/-- The clocks of a TDM port that drives them begin, or stop (R391, R392). -/
def tdmClock (aes : Bool) (p rate : Nat) (s : State) : State :=
  when (!aes && serDrives false s p) (emit (.tdmClock p (tdmForm s p) (tdmSlots s p) rate)) s

/-- EN has been set: the clocks run, or the port shows BAD_CONFIG. Channel status goes on where an output's frames have
not stopped. -/
def serOpen (aes : Bool) (p : Nat) (s : State) : State :=
  let rate := serRate aes s p
  let s1 := serMod aes p (fun x => { serZero with
    clocks := some (monoNs s), want := x.want, spans := x.spans, rate := rate, last := x.last
    csOut := if x.clocks.isSome then x.csOut else [], csFrame := if x.clocks.isSome then x.csFrame else 0 }) s
  let s2 := when (!serBad aes s p && (serOf aes s p).clocks.isNone) (tdmClock aes p rate) s1
  serShow aes p (if serBad aes s p then 5 else 1) (setF (serStat aes p) 31 14 rate s2)

/-- EN has been cleared: data ends at block `b`, and driven clocks go on for 1,024 frames after the last data frame, which
on a port that transmits leaves at stage 7 (R391). -/
def serClose (aes : Bool) (b p : Nat) (s : State) : State :=
  let driven (x : SerPort) : Bool := serDrives aes s p && x.state != 5
  let sends (x : SerPort) : Option Nat :=
    match x.spans with
    | q :: _ => if serTxOn aes s p && decide ((if aes then s.ser.aesOut else s.ser.tdmOut) < q.2.getD b) then some (q.2.getD b) else none
    | [] => none
  serShow aes p 0 (serMod aes p (fun x => { x with
    want := none, halted := false, spans := endSpans b x.spans, buf := []
    clocks := if driven x then x.clocks else none
    closing := if driven x then sends x else none
    offAt := if driven x && (sends x).isNone then some (monoNs s) else none }) s)

/-- The last data frame of a port whose EN has cleared goes out with block `b`: the 1,024 frames count from its end
(R391). -/
def serLastFrame (aes : Bool) (b p : Nat) (s : State) : State :=
  match (serOf aes s p).closing with
  | some e =>
    if e ≤ b + 1 then
      serMod aes p (fun y => { y with
        closing := none, offAt := some (monoNs s + (16 * b + 128 - s.time.idx) * 1000000000 / rateHz s) }) s
    else s
  | none => s

/-- Driven clocks stop 1,024 frames after the last data frame (R391). -/
def serClockStop (aes : Bool) (p : Nat) (s : State) : State :=
  let x := serOf aes s p
  match x.offAt with
  | some t =>
    if 1024 ≤ framesSince s t (serFrameRate aes s p x) then
      tdmClock aes p 0 (serMod aes p (fun y => { y with clocks := none, offAt := none }) s)
    else s
  | none => s

/-- EN and START brought into step at the beginning of block `b`. -/
def serRefresh (aes : Bool) (b : Nat) (s : State) : State :=
  (List.range (serCount aes s)).foldl (fun t p =>
    let x := serOf aes t p
    let live := x.clocks.isSome && x.offAt.isNone && x.closing.isNone || x.state == 5
    let en := serEn aes t p
    let t1 := if en && !live then serOpen aes p t else if !en && live then serClose aes b p t else t
    serBegin aes b p (serClockStop aes p t1)) s

/-! ### Rings (R402 to R406) -/

/-- Word 0 of a ring's record as it acts. -/
def ringW (s : State) (r : Nat) : Word := actW s (Reg.RING0.at r)

/-- Channels, bytes per sample and block size of a ring; HDR acts as 0 on a play ring (R403). -/
def ringPlays (s : State) (r : Nat) : Bool := bit (ringW s r) 30
def ringChans (s : State) (r : Nat) : Nat :=
  let n := fld (ringW s r) 3 0 + 1
  if bit (ringW s r) 25 then min n 2 else n
def ringBytes (s : State) (r : Nat) : Nat := match fld (ringW s r) 29 28 with | 1 => 4 | 2 => 4 | _ => 3
def ringHdr (s : State) (r : Nat) : Bool := bit (ringW s r) 27 && !ringPlays s r
def ringBlock (s : State) (r : Nat) : Nat := 16 * ringChans s r * ringBytes s r + if ringHdr s r then 16 else 0

/-- The usable size of a ring (R403). -/
def ringUsable (s : State) (r : Nat) : Nat := fld (actW s (Reg.RING3.at r)) 31 0 / ringBlock s r * ringBlock s r

/-- The DRAM base of a ring. -/
def ringBase (s : State) (r : Nat) : Nat :=
  dramBase + fld (actW s (Reg.RING2.at r)) 7 0 * 2 ^ 32 + fld (actW s (Reg.RING1.at r)) 31 6 * 64

/-- A run of a ring has no end yet. -/
def ringOpen (x : RingSt) : Bool := x.stop.isNone || x.later.any (fun q => q.2.isNone)

/-- A ring changed. -/
def ringSet (r : Nat) (x : RingSt) (s : State) : State := { s with ser := { s.ser with rings := tabSet r x s.ser.rings } }

/-- A ring starts at block `b` (R404), after the blocks that an earlier run still has to move; a size below one block is
counted in UNDER (R408). -/
def ringStart (b r : Nat) (s : State) : State :=
  if !accepted s 12 ∨ (tabFind? r s.ser.rings).any ringOpen then s
  else if fld (actW s (Reg.RING3.at r)) 31 0 < ringBlock s r then countF (Reg.RING6.at r) 15 0 1 (setF (Reg.RING0.at r) 31 31 0 s)
  else
    let s1 := setF (Reg.RING0.at r) 31 31 1 s
    match tabFind? r s.ser.rings with
    | none => setN (Reg.RING4.at r) 0 (ringSet r ⟨b, 0, none, []⟩ s1)
    | some x => ringSet r { x with later := x.later ++ [(b, none)] } s1

/-- A ring stops at block `b` (R404). -/
def ringStop (b r : Nat) (s : State) : State :=
  let s1 := setF (Reg.RING0.at r) 31 31 0 s
  match tabFind? r s.ser.rings with
  | some x => ringSet r { x with stop := some (x.stop.getD b), later := endSpans b x.later } s1
  | none => s1

/-- The rings a START or STOP tag names (R404). -/
def ringNamed (g : TagRec) : List Nat := if g.inst = 0xFF then List.range 32 else if g.inst < 32 then [g.inst] else []

/-- RUN as written brought into step at block `b`. -/
def ringRefresh (b : Nat) (s : State) : State :=
  (List.range 32).foldl (fun t r =>
    let runs := (tabFind? r t.ser.rings).any ringOpen
    if bit (ringW t r) 31 && !runs then ringStart b r t else if !bit (ringW t r) 31 && runs then ringStop b r t else t) s

/-- A ring moves on by one block: POS, LEVEL and the end of the usable size (R404). -/
def ringAdvance (b r : Nat) (s : State) : State :=
  match tabFind? r s.ser.rings with
  | none => s
  | some x =>
    let u := ringUsable s r
    let lin := x.pos + ringBlock s r
    let level := fld (actW s (Reg.RING5.at r)) 31 0
    let wrapped := decide (u ≤ lin)
    let pos := if wrapped then lin - u else lin
    let passed := (decide (x.pos < level) && decide (level ≤ lin)) || (wrapped && decide (level ≤ pos))
    let s1 := setN (Reg.RING4.at r) pos { s with ser := { s.ser with rings := tabSet r { x with pos := pos } s.ser.rings } }
    let s2 := when passed (raise 0x32 (bytesOf 1 r ++ bytesOf 1 0 ++ bytesOf 4 pos)) s1
    if wrapped ∧ !bit (ringW s r) 26 then raise 0x32 (bytesOf 1 r ++ bytesOf 1 1 ++ bytesOf 4 pos) (ringStop (b + 1) r s2)
    else s2

/-- A sample as a ring stores it, and as it reads it (R403). -/
def ringPut (pack : Nat) (v : Int) : List Byte :=
  match pack with
  | 1 => bytesOf 4 (lowBits 24 v * 256)
  | 2 => bytesOf 4 (lowBits 32 v)
  | _ => bytesOf 3 (lowBits 24 v)
def ringGet (pack : Nat) (bs : List Byte) : Int :=
  match pack with
  | 1 => signed 24 (ofBytes bs / 256)
  | _ => signed 24 (ofBytes bs)

/-- The header a record ring writes, with the flags of the ring's channels together (R48, R403). How the rule numbers
port channels within class 0 is not stated: the model takes 64 times the port's number plus the ring's first channel,
TDM and AES3 ports alike (DESIGN CHOICE, log 56). -/
def ringHeader (s : State) (b port first : Nat) (blks : List Blk) : List Byte :=
  headerBytes s (combineFlags (zeroBlk b) blks) 0 (port * 64 + first) 0

/-- A record ring takes a block; a full store drops it (R405). -/
def ringRecord (b : Nat) (full : List Nat) (chans : List Blk) (r : Nat) (s : State) : State :=
  match tabFind? r s.ser.rings with
  | none => s
  | some x =>
    let w := ringW s r
    let first := fld w 13 8
    let blks := (List.range (ringChans s r)).map (fun c => nth (zeroBlk b) chans (first + c))
    let body := (List.range 16).flatMap (fun j => blks.flatMap (fun y => ringPut (fld w 29 28) (nth 0 y.smp j)))
    let bs := (if ringHdr s r then ringHeader s b (fld w 23 16) first blks else []) ++ body
    let s1 := if full.contains r then countF (Reg.RING6.at r) 31 16 1 s else storeMem 7 r s (ringBase s r + x.pos) bs
    ringAdvance b r s1

/-- A play ring supplies a block of its channels; one not fetched in time is zeros with CONCEALED (R405). -/
def ringPlay (b : Nat) (late : List Nat) (r : Nat) (chans : List Blk) (s : State) : List Blk × State :=
  match tabFind? r s.ser.rings with
  | none => (chans, s)
  | some x =>
    let w := ringW s r
    let first := fld w 13 8
    let n := ringChans s r
    let k := ringBytes s r
    let (ok, bs, s1) := if late.contains r then (true, [], countF (Reg.RING6.at r) 15 0 1 s)
      else loadMem 7 r s (ringBase s r + x.pos) (ringBlock s r)
    let blk (c : Nat) : Blk :=
      if late.contains r then concealedBlk b
      else { zeroBlk b with
        memerr := !ok, smp := (List.range 16).map (fun j => ringGet (fld w 29 28) (slice bs ((j * n + c) * k) k)) }
    (chans.mapIdx (fun c y => if first ≤ c ∧ c < first + n then blk (c - first) else y), ringAdvance b r s1)

/-- The side of a port a ring serves: on an AES3 port a record ring serves the input, a play ring the output, where
they are enabled. -/
def ringOnTx (s : State) (r : Nat) : Bool :=
  let w := ringW s r
  let p := fld w 23 16
  if bit w 25 then
    (if ringPlays s r then serTxOn true s p || !serRxOn true s p else !serRxOn true s p && serTxOn true s p)
  else serTxOn false s p

/-- Rings that move block `b` on one side of a port, ascending. -/
def ringsOf (aes tx : Bool) (s : State) (p b : Nat) : List Nat :=
  (s.ser.rings.filter (fun q => bit (ringW s q.1) 25 == aes && fld (ringW s q.1) 23 16 == p && ringOnTx s q.1 == tx &&
    decide (q.2.startBlock ≤ b) && (match q.2.stop with
      | some e => decide (b < e)
      | none => true))).map (·.1)

/-- The play rings of a port's side replace its channels, the lowest ring last (R402, R406). -/
def playRings (aes tx : Bool) (p b : Nat) (late : List Nat) (chans : List Blk) (s : State) : List Blk × State :=
  (((ringsOf aes tx s p b).filter (ringPlays s)).reverse).foldl (fun q r => ringPlay b late r q.1 q.2) (chans, s)

/-- The record rings of a port's side take its channels, marked as the unit marks the block (R49, R402, R406). -/
def recordRings (aes tx : Bool) (p b : Nat) (full : List Nat) (chans : List Blk) (s : State) : State :=
  ((ringsOf aes tx s p b).filter (fun r => !ringPlays s r)).foldl (fun t r => ringRecord b full chans r t) s

/-- Channels with the marks of the port's unit. -/
def serMarks (aes : Bool) (s : State) (chans : List Blk) : List Blk := chans.map (unitMarks s (serUnit aes))

/-- A ring whose run has moved its last block leaves, or begins its next run at offset 0. -/
def ringGone (r : Nat) (x : RingSt) (s : State) : State :=
  match x.later with
  | [] => { s with ser := { s.ser with rings := tabErase r s.ser.rings } }
  | (b, e) :: more => setN (Reg.RING4.at r) 0 (ringSet r ⟨b, 0, e, more⟩ s)

/-- Rings whose last block on a side has been moved. -/
def ringsGone (aes tx : Bool) (b : Nat) (s : State) : State :=
  (s.ser.rings.filter (fun q => bit (ringW s q.1) 25 == aes && ringOnTx s q.1 == tx && (match q.2.stop with
    | some e => decide (e ≤ b + 1)
    | none => false))).foldl (fun t q => ringGone q.1 q.2 t) s

/-! ### Reception (R393 to R397, R399, R400) -/

/-- A received slot word as s0.23 (R393). -/
def slotSample (slotW sampleW v : Nat) : Int :=
  let u := v % 2 ^ slotW / 2 ^ (slotW - sampleW)
  if sampleW = 16 then signed 16 u * 256 else if sampleW = 24 then signed 24 u else satS 24 (roundShift (signed 32 u) 8)

/-- A port runs at the render rate, within the 1% that a rate may be off (R279, R395, R396). -/
def serRendered (s : State) (rate : Nat) : Bool := decide (rateHz s * 99 ≤ rate * 100) && decide (rate * 100 ≤ rateHz s * 101)

/-- A frame joins what a port has received, `at_` samples into its block: for its converters every frame, for the rest what
the placement takes of a port at the render rate (R390, R394, R395). The elastic buffer holds 32. -/
def serKeep (aes : Bool) (p at_ : Nat) (f : List Int) (s : State) : State :=
  serMod aes p (fun y =>
    let takes := serRendered s y.rate && decide (y.flow ≠ .mute) && decide (y.flow ≠ .rampOut)
    { y with
      fresh := y.fresh ++ [f], newest := f, placed := y.placed || takes
      buf := if takes then (y.buf ++ (if y.placed then [] else List.replicate at_ none) ++ [some f]).take 32 else y.buf }) s

/-- The slot words of a received TDM frame: its first data bit stands at the FS edge, or one BCLK after it (R392). -/
def tdmWords (delay : Bool) (slotW n : Nat) (f : List Nat) : List Nat :=
  let m := 2 ^ slotW
  (List.range n).map (fun c =>
    let v := nth 0 f c % m
    if !delay then v
    else
      let w := nth 0 f (c + 1)
      v * 2 % m + (if c + 1 < n then w / 2 ^ (slotW - 1) else w) % 2)

/-- The checks of an AES3 frame's subframes (sample, V at bit 24, a parity failure at bit 25), and its samples (R400). -/
def aesFrame (p : Nat) (f : List Nat) (s : State) : List Int × State :=
  let bad := (f.filter (fun v => v / 2 ^ 25 % 2 == 1)).length
  let inval := (f.filter (fun v => v / 2 ^ 24 % 2 == 1)).length
  let smp := f.mapIdx (fun c v => if v / 2 ^ 25 % 2 = 1 then nth 0 (serOf true s p).newest c else signed 24 v)
  (smp, countN (Reg.AES_VALIDITY_CNT.at p) inval
    (when (bad != 0) (stick (Reg.AES_HIST.at p) 4) (countN (Reg.AES_PARITY_CNT.at p) bad s)))

/-- One received frame, `at_` samples into block `b`: checked, and kept where data flows (R391, R393, R400). -/
def serFrame (aes : Bool) (b p at_ : Nat) (f : List Nat) (s : State) : State :=
  let (smp, s1) :=
    if aes then aesFrame p f s
    else ((tdmWords (tdmForm s p).late (tdmSlotW s p) (tdmSlots s p) f).map (slotSample (tdmSlotW s p) (tdmSampleW s p)), s)
  when (serData (serOf aes s p) b) (serKeep aes p at_ smp) s1

/-- Received frames of a port, the first of them `lead` samples into the block; without its clock there are none. -/
def serArrive (aes : Bool) (b : Nat) (lead : List (Nat × Nat)) (s : State) (q : Nat × List (List Nat)) : State :=
  let x := serOf aes s q.1
  if serRxOn aes s q.1 ∧ x.clocks.isSome ∧ x.state ≠ 3 then
    q.2.zipIdx.foldl (fun t f => serFrame aes b q.1 ((tabFind? q.1 lead).getD 0 + f.2) f.1 t) s
  else s

/-- The frames of a block at the read position, and across a slip to one frame or more before or after it (R395). -/
def serRead (x : SerPort) (j : Nat) : Option (List Int) :=
  let at_ (i : Int) : Option (List Int) := if i < 0 then some x.prev else (x.buf[i.toNat]?).getD none
  let old := at_ j
  if x.slip = 0 then old
  else
    let moved := at_ (j + x.slip)
    match old, moved with
    | some a, some c =>
      let w : Int := weight40 (j + 1) 16
      some ((a.zip c).map (fun q => roundShift (((2 : Int) ^ (40 : Nat) - w) * q.1 + w * q.2) 40))
    | _, _ => moved

/-- NONAUDIO of a port (R400). -/
def nonAudio (s : State) (p : Nat) : Bool := bit (regW s (Reg.AES_STAT.at p)) 6

/-- A receive port's channels in block `b`: the frames, the ramps of a fault, zeros (R391, R396, R397, R400). What
arrived goes beside them, for converters. -/
def serInput (aes : Bool) (b p : Nat) (s0 : State) : List Blk × State :=
  let x := serOf aes s0 p
  let s := serMod aes p (fun y => { y with fresh := [] }) s0
  let n := serChans aes s p
  let raw (c : Nat) : Option (List Int × Bool) := some (x.fresh.map (fun f => nth 0 f c), false)
  let chan (f : Nat → Nat → Int) (c : Nat) (k : Blk) : Blk := { k with smp := (List.range 16).map (fun j => f c j), raw := raw c }
  let hush (l : List Blk) : List Blk := if aes && nonAudio s p then l.map (fun _ => concealedBlk b) else l
  if !serData x b then ((List.range n).map (fun _ => silentBlk b), s)
  else
    match x.flow with
    | .mute => (hush ((List.range n).map (fun c => chan (fun _ _ => 0) c (concealedBlk b))), s)
    | .rampOut =>
      (hush ((List.range n).map (fun c => chan (fun c j => roundDiv (nth 0 x.last c * (15 - j : Nat)) 16) c (concealedBlk b))),
        serMod aes p (fun y => { y with flow := .mute, buf := [], placed := false, slip := 0 }) s)
    | fl =>
      let reads := (List.range 16).map (serRead x)
      let gap := reads.any (·.isNone)
      let val (c j : Nat) : Int :=
        let v := nth 0 ((nth none reads j).getD []) c
        if fl = .rampIn then roundDiv (v * (j + 1 : Nat)) 16 else v
      let mark : Blk := { zeroBlk b with concealed := gap, slip := x.slip != 0 }
      let used := (16 + x.slip).toNat
      let s1 := serMod aes p (fun y => { y with
        flow := .normal, slip := 0, last := (List.range n).map (fun c => val c 15)
        prev := ((y.buf[used - 1]?).getD none).getD y.prev, buf := y.buf.drop used }) s
      (hush ((List.range n).map (fun c => chan val c mark)), s1)

/-- Stage 1 of a port (R32, R402). -/
def serInPort (aes : Bool) (b : Nat) (full late : List Nat) (s : State) (p : Nat) : State :=
  let x := serOf aes s p
  let hasRing := ringsOf aes false s p b != []
  if !serRxOn aes s p ∨ (x.clocks.isNone && !hasRing) then s
  else
    let (c0, s0) := serInput aes b p s
    let (c1, s1) := playRings aes false p b late c0 s0
    let c2 := serMarks aes s1 c1
    c2.zipIdx.foldl (fun t q => putBlk (if aes then .aesIn else .tdmIn) (p * 64 + q.2) q.1 t)
      (recordRings aes false p b full c2 s1)

/-- Stage 1 of a class of ports, with the frames that have arrived. -/
def serInBlock (aes : Bool) (b : Nat) (frames : List (Nat × List (List Nat))) (lead : List (Nat × Nat))
    (full late : List Nat) (s : State) : State :=
  let s1 := frames.foldl (serArrive aes b lead) s
  ringsGone aes false b ((List.range (serCount aes s)).foldl (serInPort aes b full late) s1)

/-! ### Transmission (R393, R394, R401) -/

/-- A sample as a slot word (R393). -/
def slotWord (slotW sampleW : Nat) (v : Int) : Nat :=
  let u := if sampleW = 16 then lowBits 16 (v / 256) else if sampleW = 24 then lowBits 24 v else lowBits 24 v * 256
  u * 2 ^ (slotW - sampleW)

/-- What a transmit port sends of a block: zeros without data, outside its transmission or in a fault; a block that has
missed its deadline is zeros with CONCEALED (R61). -/
def serOutput (aes : Bool) (b p : Nat) (chans : List Blk) (s : State) : List Blk × State :=
  let x := serOf aes s p
  if !serData x b || !audioOut s b then (chans.map (fun _ => zeroBlk b), s)
  else if s.ser.missed.contains (if aes then 1 else 0, p, b) then (chans.map (fun _ => concealedBlk b), s)
  else if aes then (chans, s)
  else
    let scale (g : Nat → Int → Int) : List Blk := chans.map (fun k => { k with smp := k.smp.mapIdx g })
    match x.flow with
    | .normal => (chans, serMod aes p (fun y => { y with prev := y.last, last := chans.map (fun k => nth 0 k.smp 15) }) s)
    | .mute => (chans.map (fun _ => zeroBlk b), s)
    | .rampOut =>
      (chans.mapIdx (fun c k => { k with smp := (List.range 16).map (fun (j : Nat) => roundDiv (nth 0 x.last c * (15 - j : Nat)) 16) }),
        serMod aes p (fun y => { y with flow := .mute }) s)
    | .rampIn => (scale (fun j v => roundDiv (v * (j + 1 : Nat)) 16), serMod aes p (fun y => { y with flow := .normal }) s)

/-- One step of the channel-status check: x^8 + x^4 + x^3 + x^2 + 1, low bit first. -/
def csBits : Nat → Nat → Nat
  | 0, c => c
  | n + 1, c => csBits n (if c % 2 = 1 then (c / 2) ^^^ 0xB8 else c / 2)

/-- The CRCC of the first 23 bytes of a channel-status block (R400, R401). -/
def csCrc (bs : List Byte) : Nat := (bs.take 23).foldl (fun m b => csBits 8 (m ^^^ b.toNat)) 0xFF

/-- The channel-status block an output sends from wire index `w` on (R401). -/
def csBlock (s : State) (p w : Nat) : List Byte :=
  let cfg := serCfg true s p
  let word (k : Nat) : Nat := fld (actW s (if k = 0 then Reg.AES_CS_TX0.at p else Reg.AES_CS_TX1.at p (k - 1))) 31 0
  let t := (List.range 6).flatMap (fun k => bytesOf 4 (word k))
  let t1 := if bit cfg 22 then t.take 18 ++ bytesOf 4 w ++ t.drop 22 else t
  if bit cfg 23 then
    let b2 : Byte := (nth 0 t1 2 &&& 0xC0) ||| 0x2C
    let f4 : Byte := match rateCode s with | 1 => 0x10 | _ => 0x18
    let b4 : Byte := (nth 0 t1 4 &&& 0x87) ||| f4
    let t2 := setNth (setNth (setNth t1 0 (if rateCode s = 0 then 0x85 else 0x05)) 2 b2) 4
      (if rateCode s = 0 then nth 0 t1 4 else b4)
    setNth t2 23 (BitVec.ofNat 8 (csCrc t2))
  else t1

/-- One subframe: sample, V, U 0, C and even parity (R401). -/
def aesSub (v : Int) (valid c : Bool) : Nat :=
  let u := lowBits 24 v + (if valid then 0 else 2 ^ 24) + if c then 2 ^ 26 else 0
  let ones := (List.range 27).countP (fun i => u / 2 ^ i % 2 == 1)
  u + if ones % 2 = 1 then 2 ^ 27 else 0

/-- The frames of an AES3 output's block, one after another: channel status starts anew every 192 frames. -/
def aesFrames (p first : Nat) (a c : Blk) (s : State) : List Nat → List (Nat × Nat) × State
  | [] => ([], s)
  | j :: js =>
    let x := serOf true s p
    let cs := if x.csFrame % 192 = 0 ∨ x.csOut = [] then csBlock s p (first + j) else x.csOut
    let k := x.csFrame % 192
    let cbit := (nth 0 cs (k / 8)).toNat / 2 ^ (k % 8) % 2 == 1
    let sub (y : Blk) : Nat := aesSub (nth 0 y.smp j) (!(y.concealed || y.memerr)) cbit
    let (fs, s1) := aesFrames p first a c (serMod true p (fun y => { y with csOut := cs, csFrame := (k + 1) % 192 }) s) js
    ((sub a, sub c) :: fs, s1)

/-- The samples of a channel that a TDM port sends with a block: those of the block, or, where a slip of a slave port acts,
one fewer for each sample it has fallen behind and one more for each it has run ahead, across the crossfade (R394, R395;
which of the two the rule does not say of a port that transmits, log 72). -/
def tdmSent (slip : Int) (before : Int) (smp : List Int) : List Int :=
  let at_ (i : Int) : Int := if i < 0 then before else nth 0 smp (min i.toNat 15)
  if slip = 0 then (List.range 16).map (fun (j : Nat) => at_ j)
  else (List.range (16 + slip).toNat).map (fun (j : Nat) =>
    let w : Int := weight40 (min (j + 1) 16) 16
    roundShift (((2 : Int) ^ (40 : Nat) - w) * at_ j + w * at_ (j - slip)) 40)

/-- A port's block goes out as the wire samples 16b + 112 on (R47, R394). -/
def serEmit (aes : Bool) (b p : Nat) (chans : List Blk) (s : State) : State :=
  let first := extSmp s (16 * b) + 112
  if aes then
    let (fs, s1) := aesFrames p first (nth (zeroBlk b) chans 0) (nth (zeroBlk b) chans 1) s (List.range 16)
    emit (.aes p first fs) s1
  else
    let x := serOf false s p
    let sent := chans.mapIdx (fun c k => tdmSent x.slip (nth 0 x.prev c) k.smp)
    let frames := (List.range (16 + x.slip).toNat).map (fun j =>
      sent.map (fun l => slotWord (tdmSlotW s p) (tdmSampleW s p) (nth 0 l j)))
    emit (.tdm p (tdmForm s p) first frames) (serMod false p (fun y => { y with slip := 0 }) s)

/-- Stage 7 of a port. -/
def serOutPort (aes : Bool) (b : Nat) (full late : List Nat) (s : State) (p : Nat) : State :=
  let x := serOf aes s p
  let hasRing := ringsOf aes true s p b != []
  let clocked := x.clocks.isSome && x.state != 5
  if !serTxOn aes s p ∨ (!clocked && !hasRing) then s
  else
    let cfg := serCfg aes s p
    let first := if aes then fld cfg 11 0 else fld (actW s (Reg.TDM_CFG2.at p)) 11 0
    let (c1, s1) := playRings aes true p b late (slotBlocks (if aes then 1 else 0) p s first (serChans aes s p) b) s
    let (c2, s2) := serOutput aes b p c1 s1
    let c3 := serMarks aes s2 (c2.map (fun k => { k with slip := k.slip || (!aes && x.slip != 0) }))
    let s3 := recordRings aes true p b full c3 s2
    if clocked then serLastFrame aes b p (serEmit aes b p c3 s3) else s3

/-- Stage 7 of a class of ports. -/
def serOutBlock (aes : Bool) (b : Nat) (full late : List Nat) (s : State) : State :=
  let s1 := ringsGone aes true b ((List.range (serCount aes s)).foldl (serOutPort aes b full late) s)
  if aes then { s1 with ser := { s1.ser with aesOut := b + 1 } } else { s1 with ser := { s1.ser with tdmOut := b + 1 } }

/-! ### Slips, range and clock faults (R395 to R397) -/

/-- RATE and PPM as a slave port measures them (R396). -/
def serMeasured (aes : Bool) (p rate : Nat) (ppm : Int) (s : State) : State :=
  setN (serPpm aes p) (lowBits 32 ppm) (setF (serStat aes p) 31 14 rate (serMod aes p (fun x => { x with ppm := ppm }) s))

/-- A frame boundary has drifted by one sample (R395): a slip waits for the next block, with those that wait for it. -/
def serSlip (aes : Bool) (p : Nat) (ahead : Bool) (s : State) : State :=
  let x := serOf aes s p
  if serSlave aes s p ∧ x.state = 2 ∧ serRendered s x.rate then
    stick (serHist aes p) 2 (count (serSlipCnt aes p)
      (serMod aes p (fun y => { y with slip := y.slip + if ahead then 1 else -1 }) s))
  else s

/-- A slave port at the render rate leaves SLIP_PPM (R396). -/
def serOutOfRange (aes : Bool) (p : Nat) (ppm : Int) (s : State) : State :=
  let x := serOf aes s p
  let far := slipPpm aes s p < ppm.natAbs
  let s1 := setN (serPpm aes p) (lowBits 32 ppm) (serMod aes p (fun y => { y with
    ppm := ppm, rangeAt := if far then monoNs s else y.rangeAt }) s)
  if serSlave aes s p ∧ (x.state = 1 ∨ x.state = 2) ∧ serRendered s x.rate ∧ far then
    serClkEvent aes p (stick (serHist aes p) 3 (serShow aes p 4 (serMod aes p (fun y => { y with flow := .rampOut }) s1)))
  else s1

/-- A port comes back: a ramp-in at the next block, and a new placement (R396, R397). -/
def serReturn (aes : Bool) (p : Nat) (s : State) : State :=
  serShow aes p (serIdleState (serOf aes s p))
    (serMod aes p (fun y => { y with flow := .rampIn, buf := [], placed := false, slip := 0, glitches := [] }) s)

/-- A port has stayed within SLIP_PPM for 1 s (R396). -/
def serRangeReturn (aes : Bool) (p : Nat) (ppm : Int) (s : State) : State :=
  if (serOf aes s p).state = 4 ∧ ppm.natAbs ≤ slipPpm aes s p ∧ (serOf aes s p).rangeAt + 1000000000 ≤ monoNs s then
    serReturn aes p (setN (serPpm aes p) (lowBits 32 ppm) (serMod aes p (fun y => { y with ppm := ppm }) s))
  else s

/-- A port loses its clock (R397): a receive port ramps out, a transmit port's line goes low at once. -/
def serLose (aes : Bool) (p : Nat) (s : State) : State :=
  let x := serOf aes s p
  if serSlave aes s p ∧ (x.state = 1 ∨ x.state = 2 ∨ x.state = 4) then
    let flow : PortFlow := if serRxOn aes s p then (if x.flow = .mute then .mute else .rampOut) else .mute
    serClkEvent aes p (stick (serHist aes p) 0 (count (serLostCnt aes p)
      (serShow aes p 3 (serMod aes p (fun y => { y with flow := flow }) s))))
  else s

/-- A frame outside the expected period: it is discarded and the last one repeated; the third within 1 s counts as a
loss (R397). A lost port counts it too. -/
def serGlitch (aes : Bool) (p : Nat) (s : State) : State :=
  let x := serOf aes s p
  if serSlave aes s p ∧ x.state = 3 then count (serGlitchCnt aes p) s
  else if serSlave aes s p ∧ (x.state = 1 ∨ x.state = 2 ∨ x.state = 4) then
    let now := monoNs s
    let recent := now :: x.glitches.filter (fun t => decide (now < t + 1000000000))
    let s0 := serMod aes p (fun y => { y with glitches := recent }) s
    let s1 := count (serGlitchCnt aes p) (when (serRxOn aes s p && x.state == 2) (serKeep aes p 0 x.newest) s0)
    if 3 ≤ recent.length then serLose aes p s1 else s1
  else s

/-- Two rates differ by more than 1% (R397). -/
def rateMoved (p rate : Nat) : Bool := decide (rate * 100 < p * 99) || decide (p * 101 < rate * 100)

/-- Channels that take a port's samples. -/
def chansOfPort (aes : Bool) (s : State) (p : Nat) : List Nat :=
  (chansInUse s).filter (fun c =>
    match chanSource s c with
    | some (sp, n) => sp == (if aes then .aesIn else .tdmIn) && n / 64 == p
    | none => false)

/-- The rate of the list of R279 that a measured rate lies within 1% of, else itself. -/
def rateNear (rate : Nat) : Nat := (clockRates.find? (fun r => !rateMoved r rate)).getD rate

/-- A port's rate has moved by more than 1% (R397): learned rates follow, on a lost port too; fixed rates lose the port;
converters lock again (R83). A lost port tells a rate once. -/
def serRateChange (aes : Bool) (p rate : Nat) (s : State) : State :=
  let x := serOf aes s p
  let told := decide (x.state = 3) && !rateMoved (fld (regW s (serStat aes p)) 31 14) rate
  if serSlave aes s p ∧ 1 ≤ x.state ∧ x.state ≤ 4 ∧ rateMoved x.rate rate ∧ !told then
    let s1 := raise (if aes then 0x34 else 0x31) (bytesOf 1 p ++ [0] ++ bytesOf 4 rate)
      (stick (serHist aes p) 1 (setF (serStat aes p) 31 14 rate s))
    let s2 := if serCode aes s p = 0 then serMod aes p (fun y => { y with rate := rateNear rate }) s1 else serLose aes p s1
    ((chansOfPort aes s2 p).filter (fun c => (chanSt s2 c).hasAsrc)).foldl (fun t c => relock c t) s2
  else s

/-- A rate of the list of R279, within 1%. -/
def rateKnown (rate : Nat) : Bool := clockRates.any (fun r => !rateMoved r rate)

/-- 64 good frames at a supported rate within 1% of the expected one bring a lost port back (R397). -/
def serClockReturn (aes : Bool) (p rate : Nat) (s : State) : State :=
  let x := serOf aes s p
  if x.state = 3 ∧ rateKnown rate ∧ !rateMoved x.rate rate then
    serSource aes p (serReturn aes p (setF (serStat aes p) 31 14 rate s))
  else s

/-- A channel-status block of a subframe is checked and stored if it differs (R400). -/
def aesCs (p : Nat) (subB : Bool) (bs : List Byte) (s : State) : State :=
  let at_ (k : Nat) : Nat := if subB then Reg.AES_CS_RXB.at p k else Reg.AES_CS_RXA.at p k
  let pro := (nth 0 bs 0).toNat % 2 == 1
  let last := (nth 0 bs 23).toNat
  if !serRxOn true s p || bs.length != 24 then s
  else if pro && last != 0 && last != csCrc bs then count (Reg.AES_CS_CRC_CNT.at p) s
  else
    let old := (List.range 6).flatMap (fun k => bytesOf 4 (fld (regW s (at_ k)) 31 0))
    let valid := bit (regW s (Reg.AES_STAT.at p)) 4
    let s1 := (List.range 6).foldl (fun t k => setN (at_ k) (getLE bs (4 * k) 4) t) s
    let b0 (t : State) (sub : Bool) : Nat := fld (regW t (if sub then Reg.AES_CS_RXB.at p 0 else Reg.AES_CS_RXA.at p 0)) 7 0
    let non := b0 s1 false / 2 % 2 == 1 || b0 s1 true / 2 % 2 == 1
    let s2 := setF (Reg.AES_STAT.at p) 6 6 (if non then 1 else 0)
      (setF (Reg.AES_STAT.at p) 5 5 (if pro then 0 else 1) (setF (Reg.AES_STAT.at p) 4 4 1 s1))
    if old = bs ∧ valid then s2
    else raise 0x35 (bytesOf 1 p ++ bytesOf 1 (if subB then 1 else 0)) (stick (Reg.AES_HIST.at p) 5 s2)

/-- The frequency of an MCLK code in Hz; 0 is off (R398). -/
def mclkHz (code : Nat) : Nat :=
  match code with
  | 1 => 49152000 | 2 => 24576000 | 3 => 12288000 | 4 => 22579200 | 5 => 11289600 | _ => 0

/-- New MCLK codes take effect (R398). -/
def mclkChange (s : State) : State :=
  let new := actF s Reg.TDM_MCLK.base 17 0
  let hz (v m : Nat) : Nat := mclkHz (v / 8 ^ m % 8)
  (List.range 6).foldl (fun t m => when (hz new m != hz s.ser.mclk m) (emit (.mclk m (hz new m))) t)
    { s with ser := { s.ser with mclk := new } }

end Sys2Proof.Machine
end

