-- ==== Sys2Proof/Machine/Hlt.lean ====
section
/-! DEFINITION. The health unit (R568 to R572): islands and their clock steps, retirement, self-tests in a FOLLOW and
the wear log. -/

namespace Sys2Proof.Machine

open Sys2Proof

/-! ### Islands (R35, R568) -/

/-- Class and instance of an island that the health unit can retire (R35, R569). -/
def islandUnit (i : Nat) : Option (Nat × Nat) :=
  if 49 ≤ i ∧ i < 51 then some (4, i - 49)
  else if 68 ≤ i ∧ i < 85 then some (1, i - 68)
  else if 85 ≤ i ∧ i < 121 then some (0, i - 85)
  else if 133 ≤ i ∧ i < 142 then some (2, i - 133)
  else if 143 ≤ i ∧ i < 160 then some (3, i - 143)
  else none

/-- An island whose clock steps (R568). -/
def islandSteps (i : Nat) : Bool :=
  (decide (30 ≤ i) && decide (i < 35)) || (decide (53 ≤ i) && decide (i < 160))

/-- Physical Druora cores of the grade, the spare among them (R1). -/
def physCores (s : State) : Nat := match s.fuse.grade with
  | .ih1024 => 17
  | .ih0512 => 9
  | .ih0256 => 0

/-- The state of a retirable unit: 0 off, 1 on, 2 retention, 3 retired (R192, R189, R222, R460, R295). -/
def powerOf (s : State) (cls p : Nat) : Nat :=
  let cold := inFollow s
  match cls with
  | 0 =>
    match (laneSt s p).state with
    | .absent => 0
    | .active => if cold then 2 else 1
    | .spare => 2
    | .sittingOut => 1
    | .retired => 3
  | 1 =>
    if s.dsx.leaving.any (fun l => l.1 == p) then 1
    else if s.dsx.retired.contains p then 3
    else if s.dsx.phys.any (fun q => q.2 == p) then (if cold then 2 else 1)
    else if p < 17 then 2 else 0
  | 2 =>
    if sliceCount s ≤ p then 0
    else if s.cor.retired.contains p then 3
    else if s.cor.slices.any (fun q => q.2 == p) || s.cor.leaving.any (fun l => l.1 == p) then (if cold then 2 else 1)
    else 2
  | 3 =>
    if !accepted s 3 ∨ physCores s ≤ p then 0
    else if coreRetired s p then 3
    else if s.dru.phys.any (fun q => q.2 == p) then (if cold then 2 else 1)
    else if s.dru.spare = some p then (if s.dru.leaving.isSome then 1 else 2)
    else 0
  | _ =>
    if s.clk.retired.contains p then 3
    else if p = 0 ∨ s.clk.bActive ∨ s.clk.leaving then 1
    else 2

/-- A unit of a class that is under a FOLLOW self-test is on. -/
def testedNow (s : State) (cls p : Nat) : Bool :=
  match s.hlt.testing with
  | none => false
  | some t =>
    (cls == 0 && t == p) || (cls == 1 && t == 36 + p) || (cls == 2 && t == 53 + p) || (cls == 3 && t == 62 + p) ||
      (cls == 4 && t == 79 && p == 1)

/-- STATE of an island (R575). -/
def islandState (s : State) (i : Nat) : Nat :=
  match islandUnit i with
  | some (cls, p) =>
    let st := powerOf s cls p
    if testedNow s cls p && (st == 2 || st == 1) then 1 else st
  | none =>
    if 14 ≤ i ∧ i < 22 then (if i - 14 < netPorts s then 1 else 0)
    else if 22 ≤ i ∧ i < 30 then (if unitPresent s uLNK ∧ i - 22 < linkCount s then 1 else 0)
    else if 35 ≤ i ∧ i < 47 then (if 4 * (i - 35) < serCount false s then 1 else 0)
    else if 47 ≤ i ∧ i < 49 then (if unitPresent s uAES ∧ 4 * (i - 47) < serCount true s then 1 else 0)
    else if i = 142 then (if accepted s 4 then 1 else 0)
    else if 121 ≤ i ∧ i < 133 then (if inFollow s then 2 else 1)
    else if i < 160 then 1
    else 0

/-- An island that has not reported. -/
def islandZero : IslandSt := ⟨0, 0, none, none, none⟩

/-- An island. -/
def island (s : State) (i : Nat) : IslandSt := tabGet islandZero s.hlt.islands i

/-- An island changed. -/
def modIsland (i : Nat) (f : IslandSt → IslandSt) (s : State) : State :=
  modHlt (fun h => { h with islands := tabMod islandZero i f h.islands }) s

/-- The word `HLT_ISLAND`i (R575). -/
def islandWord (s : State) (i : Nat) : Nat :=
  let x := island s i
  min 0xFFFF x.slack * 65536 + x.step * 256 + islandState s i

/-- The word `HLT_SLACK_MIN`: the island with the smallest slack reported (R575). -/
def slackMin (s : State) : Nat :=
  match minBy (fun (q : Nat × IslandSt) => q.2.slack) s.hlt.islands with
  | none => 0
  | some q => q.1 * 65536 + min 0xFFFF q.2.slack

/-- LOW and HIGH in ps, RETIRE_MS and UP_S as they act (R575). -/
def slackLow (s : State) : Nat := fld (actW s Reg.HLT_MARGIN.base) 15 0
def slackHigh (s : State) : Nat := max (fld (actW s Reg.HLT_MARGIN.base) 31 16) (slackLow s + 1)
def retireMs (s : State) : Nat := let v := fld (actW s Reg.HLT_TIMING.base) 31 16; if v = 0 then 100 else v
def upSeconds (s : State) : Nat := let v := fld (actW s Reg.HLT_TIMING.base) 15 0; if v = 0 then 10 else v

/-- The lowest step of an island: 85% where margin clocking steps it, else nominal (R568). -/
def islandFloor (s : State) (i : Nat) : Nat := if accepted s 15 && islandSteps i then 3 else 0

/-- A slack report of an island (R568, R569): since when it has been high, or short at its floor. -/
def slackReport (i slack : Nat) (s : State) : State :=
  let now := monoNs s
  modIsland i (fun x => { x with
    slack := slack
    highSince := if slackHigh s ≤ slack then (x.highSince.or (some now)) else none
    lowSince := if slack < slackLow s ∧ x.step = islandFloor s i then (x.lowSince.or (some now)) else none }) s

/-- A clock step taken (R568); a lane that steps up is no longer held at its floor (R559). -/
def stepTo (i step : Nat) (s : State) : State :=
  let off (h : HltSt) : HltSt := match islandUnit i with
    | some (0, p) => if step < (island s i).step then { h with laneFloor := setDel p h.laneFloor } else h
    | _ => h
  let s1 := modHlt off <| modIsland i (fun x => { x with step := step, lastStep := some (monoNs s), highSince := none, lowSince := none }) s
  raise 0x98 (bytesOf 2 i ++ bytesOf 1 step ++ bytesOf 2 (min 0xFFFF (island s1 i).slack))
    (stick Reg.HLT_STAT.base 3 (count Reg.HLT_STEP_CNT.base s1))

/-- An island reports its slack; below LOW its clock steps down, at most once a millisecond (R568). -/
def marginDown (i slack : Nat) (s : State) : State :=
  if 160 ≤ i then s
  else
    let s1 := slackReport i slack s
    let x := island s1 i
    let soon : Bool := match x.lastStep with
      | some t => decide (monoNs s < t + 1000000)
      | none => false
    if slack < slackLow s ∧ x.step < islandFloor s i ∧ soon = false then stepTo i (x.step + 1) s1 else s1

/-- An island reports its slack; at or above HIGH for UP_S seconds its clock steps up (R568). -/
def marginUp (i slack : Nat) (s : State) : State :=
  if 160 ≤ i then s
  else
    let s1 := slackReport i slack s
    let x := island s1 i
    match x.highSince with
    | some t =>
      if t + upSeconds s * 1000000000 ≤ monoNs s ∧ 0 < x.step ∧ islandFloor s i ≠ 0 then stepTo i (x.step - 1) s1 else s1
    | none => s1

/-! ### Retirement (R569) -/

/-- One retirement counted, raised and written into the wear log; refused ones show NOSPARE_STK. -/
def retired (cls inst cause : Nat) (ok spare : Bool) (s : State) : State :=
  let res := if spare then 0 else 1
  let s1 := if ok then stick Reg.HLT_STAT.base 0 (count Reg.HLT_RETIRE_CNT.base s) else s
  let s2 := when (!spare) (stick Reg.HLT_STAT.base 1) s1
  wearAppend (wearRecord s2 1 cls inst cause res [])
    (raise 0x99 (bytesOf 1 cls ++ bytesOf 2 inst ++ bytesOf 1 cause ++ bytesOf 1 res) s2)

/-- The spare geometry unit: not retired, leaving, or holding a logical number (R189). -/
def spareGeometry (s : State) : Option Nat :=
  (List.range 17).find? (fun p => powerOf s 1 p == 2 && !(s.dsx.phys.any (fun q => q.2 == p)))

/-- A geometry unit retired (R189): the spare takes its logical number at once, the unit leaves at the end of its
running job. Whether a spare took over. -/
def geomRetire (p : Nat) (s : State) : Bool × State :=
  match s.dsx.phys.find? (fun q => q.2 == p) with
  | none => (true, { s with dsx := { s.dsx with retired := setAdd p s.dsx.retired } })
  | some (u, _) =>
    let q := spareGeometry s
    let d := { s.dsx with
      phys := match q with
        | some k => tabSet u k s.dsx.phys
        | none => tabErase u s.dsx.phys
      retired := setAdd p s.dsx.retired
      leaving := s.dsx.leaving ++ [(p, q)] }
    let s1 := when q.isNone (stick Reg.DSX_STAT.base 2) { s with dsx := d }
    (q.isSome, if s1.dsx.jobs.any (fun j => j.desc.kind == 0 && engineOf j == some p) then s1 else unitLeaves p s1)

/-- A physical Druora core retired (R495): whether a spare takes over. -/
def coreRetirePhys (p : Nat) (s : State) : Bool × State :=
  match s.dru.phys.find? (fun q => q.2 == p) with
  | some (n, _) => (s.dru.spare.isSome, coreRetire n s)
  | none => (true, setF Reg.DRU_CORE_RETIRED.base p p 1 { s with dru := { s.dru with spare := none } })

/-- The clock unit's DPLLs: A or B retired (R295); whether the other serves. -/
def dpllRetireAny (p : Nat) (s : State) : Bool × State :=
  if p = 0 then dpllRetire s
  else if s.clk.bActive then (false, raise 0x22 [1] (stick Reg.CLK_SEL_HIST.base 4 s))
  else (true, modClk (fun k => { k with retired := setAdd 1 k.retired }) s)

/-- A unit named by class and instance is in service, or a spare (R569). -/
def retirable (s : State) (cls inst : Nat) : Bool :=
  if cls ≤ 4 then
    let st := powerOf s cls inst
    (st == 1 || st == 2) && (cls != 4 || decide (inst < 2)) && !(cls == 1 && s.dsx.retired.contains inst)
  else if cls = 5 then laneInMap s (inst / 8) (inst % 8) && (linkSt s (inst / 8)).up
  else false

/-- A retirement of the class is in progress, the lane is part of an accepted migration (R569), or the width of a link
lane's link is changing (R383). -/
def retireBusy (s : State) (cls inst : Nat) : Bool :=
  match cls with
  | 0 => s.lan.sits.any (fun x => x.retire) || s.lan.migs.any (migInvolves s inst)
  | 1 => !s.dsx.leaving.isEmpty
  | 2 => !s.cor.asked.isEmpty || !s.cor.leaving.isEmpty
  | 3 => s.dru.leaving.isSome
  | 4 => s.clk.leaving
  | _ => (linkSt s (inst / 8)).change.isSome || (linkSt s (inst / 8)).txMove.isSome ||
    (List.range (linkCount s)).any (fun n => (linkSt s n).rxMove.isSome)

/-- A unit's retirement carried out (R569). -/
def retireUnit (cls inst cause : Nat) (s : State) : State :=
  match cls with
  | 0 =>
    let (ok, s1) := laneRetire inst s
    retired 0 inst cause ok ok (modHlt (fun h => { h with laneFloor := if ok then h.laneFloor else setAdd inst h.laneFloor }) s1)
  | 1 =>
    let (spare, s1) := geomRetire inst s
    retired 1 inst cause true spare s1
  | 2 =>
    let (ok, s1) := sliceRetire inst s
    retired 2 inst cause ok ok (modHlt (fun h => { h with sliceRefused := h.sliceRefused || !ok }) s1)
  | 3 =>
    let (ok, s1) := coreRetirePhys inst s
    retired 3 inst cause ok ok s1
  | 4 =>
    let (ok, s1) := dpllRetireAny inst s
    retired 4 inst cause ok ok s1
  | _ =>
    let (ok, s1) := laneReplace (inst / 8) (inst % 8) s
    retired 5 inst cause ok ok s1

/-- A retirement asked for: at once, or after the one of its class that is in progress (R569). -/
def hltRetire (cls inst cause : Nat) (s : State) : State :=
  if !retirable s cls inst then s
  else if s.hlt.waiting.any (fun w => w.cls == cls) || retireBusy s cls inst then
    if s.hlt.waiting.any (fun w => w.cls == cls && w.inst == inst) then s
    else modHlt (fun h => { h with waiting := h.waiting ++ [⟨cls, inst, cause⟩] }) s
  else retireUnit cls inst cause s

/-- The oldest waiting retirement of a class is carried out once nothing of the class is in progress. -/
def retireNext (s : State) (cls : Nat) : State :=
  match s.hlt.waiting.find? (fun w => w.cls == cls) with
  | none => s
  | some w =>
    if retireBusy s cls w.inst then s
    else
      let s1 := modHlt (fun h => { h with waiting := h.waiting.erase w }) s
      if retirable s cls w.inst then retireUnit cls w.inst w.cause s1 else s1

/-- Waiting retirements at a tick boundary. -/
def hltTick (s : State) : State := (List.range 6).foldl retireNext s

/-- A write to `HLT_RETIRE` (R569, R575). -/
def retireWrite (v : Word) (s : State) : State := hltRetire (fld v 15 8) (fld v 7 0) 4 s

/-- An island that has been short for RETIRE_MS is retired; of a type without spares it stays (R569). -/
def islandRetire (i slack : Nat) (s : State) : State :=
  if 160 ≤ i then s
  else
    let s1 := slackReport i slack s
    match (island s1 i).lowSince with
    | none => s1
    | some t =>
      if monoNs s < t + retireMs s * 1000000 then s1
      else
        match islandUnit i with
        | some (cls, p) => hltRetire cls p 0 s1
        | none => stick Reg.HLT_STAT.base 1 s1

/-! ### Self-tests of a FOLLOW (R570) -/

/-- The units of R555 in their order, each Druora core on its own: lanes 0 to 35, geometry units to 52, slices to 61, cores
to 78, DPLL B. -/
def healthUnit (k : Nat) : Nat × Nat :=
  if k < 36 then (0, k) else if k < 53 then (1, k - 36) else if k < 62 then (2, k - 53) else if k < 79 then (3, k - 62)
  else (4, 1)

/-- The number of a unit in that order; none for a unit that R555 does not show. -/
def healthNumber (cls p : Nat) : Option Nat := (List.range 80).find? (fun k => healthUnit k == (cls, p))

/-- The result of a self-test in HEALTH (R555), by the unit's number. -/
def testResult (k : Nat) (pass : Bool) (s : State) : State :=
  modHlt (fun h => { h with failed := if pass then setDel k h.failed else setAdd k h.failed }) s

/-- A unit is there to be tested: not retired, not absent (R570). -/
def testable (s : State) (k : Nat) : Bool :=
  let u := healthUnit k
  powerOf s u.1 u.2 == 1 || powerOf s u.1 u.2 == 2

/-- SELFTEST seconds have passed: the next unit's test begins (R570). -/
def selftestStart (s : State) : State :=
  let per := fld (actW s Reg.HLT_SELFTEST.base) 15 0
  if !inFollow s ∨ !running s ∨ per = 0 ∨ s.hlt.testing.isSome ∨ monoNs s < s.hlt.testLast + per * 1000000000 then s
  else
    match ((List.range 80).map (fun (k : Nat) => (s.hlt.nextUnit + k) % 80)).find? (testable s) with
    | none => s
    | some b => modHlt (fun h => { h with
        testing := some b, testAt := monoNs s, testLast := monoNs s, nextUnit := (b + 1) % 80 }) s

/-- A self-test of 2 s ends; a failure retires the unit (R570). -/
def selftestEnd (pass : Bool) (_core : Nat) (s : State) : State :=
  match s.hlt.testing with
  | none => s
  | some b =>
    if monoNs s < s.hlt.testAt + 2000000000 then s
    else
      let s1 := testResult b pass (modHlt (fun h => { h with testing := none }) s)
      if pass then s1 else let u := healthUnit b; hltRetire u.1 u.2 3 s1

/-- Spare classes left: geometry, slice, Druora core, DPLL (R376, R555). -/
def sparesLeft (s : State) : Nat :=
  (if (spareGeometry s).isSome then 1 else 0) + (if (spareSlice s).isSome then 2 else 0) +
    (if s.dru.spare.isSome then 4 else 0) + (if powerOf s 4 1 = 2 then 8 else 0)

/-- The tests of R555 as 64 bits: bit 62 stands for any Druora core, bit 63 for DPLL B. -/
def failedBits (s : State) : Nat :=
  bitsOf ((List.range 64).filter (fun b => s.hlt.failed.any (fun k =>
    (if k < 62 then k else if k < 79 then 62 else 63) == b)))

end Sys2Proof.Machine
end

