-- ==== Sys2Proof/Machine/Par.lean ====
section
/-! DEFINITION. The pairing unit (R549 to R567): roles, heartbeat and health, the criteria of abdication, abdication
and the beginning of a cut-in. Snapshots and the restore stand with the control agent. -/

namespace Sys2Proof.Machine

open Sys2Proof

/-- The pairing unit changed. -/
def modPar (f : ParSt → ParSt) (s : State) : State := { s with par := f s.par }

/-- The device is paired (R549). -/
def paired (s : State) : Bool := accepted s 13 && bit (actW s Reg.PAR_CFG.base) 15

/-- The pairing rank (R415, R549). -/
def ownRank (s : State) : Nat :=
  let r := if s.start.rank % 4 ≠ 0 then s.start.rank % 4 else fld (actW s Reg.PAR_CFG.base) 7 0
  if r = 0 then 1 else r

/-- LINK and LINK2. -/
def parLink (s : State) : Nat := fld (actW s Reg.PAR_CFG.base) 10 8
def parLink2 (s : State) : Nat := fld (actW s Reg.PAR_CFG.base) 14 11

/-- The pair links that are up (R549, R554). -/
def pairLinks (s : State) : List Nat :=
  (if parLink2 s < 8 ∧ parLink2 s ≠ parLink s then [parLink s, parLink2 s] else [parLink s]).filter
    (fun n => decide (n < linkCount s) && (linkSt s n).up)

/-- The claim a device of a role carries (R550). -/
def roleClaim (s : State) (role : Nat) : Nat := if role ≤ 1 then s.start.epoch * 256 + ownRank s else 0

/-- A snapshot slot. -/
def slotOf (s : State) (k : Nat) : SlotSt := if k = 0 then s.par.slot0 else s.par.slot1

/-- The newest valid slot. -/
def newestSlot (s : State) : Option Nat :=
  match s.par.newest with
  | some k => if (slotOf s k).valid then some k else none
  | none => none

/-- The sequence number of the newest snapshot sent or held (R376). -/
def snapSeqNow (s : State) : Nat :=
  if s.par.role = 2 then (match newestSlot s with
    | some k => (slotOf s k).seq
    | none => 0)
  else s.par.snapSent

/-- The partner is fit (R560). -/
def partnerFit (s : State) : Bool :=
  let p := s.par
  p.hbAt.isSome && !p.hbLost && p.pRole == 2 && decide (p.snapSent ≤ p.pSnap + 2) && p.pCriteria == 0 &&
    (match p.healthAt with
      | some t => decide (monoNs s ≤ t + 300000000)
      | none => false)

/-- READY (R566). -/
def parReady (s : State) : Bool :=
  (match newestSlot s with
    | some k => s.par.leadSnap.any (fun n => decide (n ≤ (slotOf s k).seq + 2) && decide ((slotOf s k).seq ≤ n + 2))
    | none => false) && s.hlt.failed.isEmpty

/-- `PAR_STATUS` (R573). -/
def parStatus (s : State) : Nat :=
  s.par.pRank % 256 * 256 + (if (newestSlot s).isSome then 32 else 0) + (if newestSlot s = some 1 then 16 else 0) +
    (if partnerFit s then 8 else 0) + (if parReady s then 4 else 0) + s.par.role

/-- EPOCH_SEEN takes an epoch (R551). -/
def seeEpoch (e : Nat) (s : State) : State := modPar (fun p => { p with epochSeen := max p.epochSeen e }) s

/-- A change of ROLE with its event (R550). -/
def roleGo (role claim : Nat) (s : State) : State :=
  let old := s.par.role
  raise 0x90 (bytesOf 1 old ++ bytesOf 1 role ++ bytesOf 4 claim) (modPar (fun p => { p with role := role }) s)

/-- Step 7 of the start (R550): FOLLOW where paired, else NONE. -/
def parStart (s : State) : State :=
  let s1 := modPar (fun p => { p with started := monoNs s }) (seeEpoch s.start.epoch s)
  if paired s then roleGo 2 0 s1
  else
    let c := roleClaim s 0
    roleGo 0 c (modPar (fun p => { p with claim := c, audioFrom := some 0, renderFrom := some 0 }) s1)

/-! ### Abdication (R559 to R562) -/

/-- Limits of the criteria (R575). -/
def rtUeMax (s : State) : Nat := fld (actW s Reg.HLT_ABD_LIMITS.base) 15 0
def parityMax (s : State) : Nat := max 1 (fld (actW s Reg.HLT_ABD_LIMITS.base) 23 16)
def tjMax (s : State) : Nat := fld (actW s Reg.HLT_ABD_LIMITS.base) 31 24

/-- Parity errors in the last second (R559). -/
def parityErrors (s : State) : Nat := (s.red.parity.filter (fun t => decide (monoNs s ≤ t + 1000000000))).length

/-- Ticks with a missed deadline in the last 100 ms. -/
def missedTicks (s : State) : List Nat := s.par.missTicks.filter (fun t => decide (nowTick s ≤ t + 100))

/-- The criteria met now, one bit each (R559). -/
def criteria (s : State) : Nat :=
  let lanes := decide ((lanesIn s .active).length < activeLanes s) || ((s.hlt.laneFloor.any (fun p => (laneSt s p).state == .active)) && (freeSpares s).isEmpty)
  let rt := decide (rtUeMax s < fld (regW s Reg.DRC_RT_UE_SEC.base) 15 0)
  let dl := decide (2 ≤ (missedTicks s).length)
  let pa := decide (parityMax s ≤ parityErrors s)
  let te := decide ((tjMax s : Int) * 256 < s.hlt.tj)
  let su := !s.hlt.supplies.isEmpty
  let sl := s.hlt.sliceRefused
  ([lanes, rt, dl, pa, te, su, sl].zipIdx).foldl (fun m q => if q.1 then m + 2 ^ q.2 else m) 0

/-- Abdication (R562 steps 1 and 2): cause and criteria. -/
def abdicate (cause crit : Nat) (s : State) : State :=
  if s.par.role ≠ 1 then s
  else
    let s1 := modPar (fun p => { p with
      yieldLow := true, abd := some ⟨cause, monoNs s⟩
      renderTo := some (tickStart s (nextTick s (unitSt s uLAN).next) - 1) }) s
    let s2 := setF Reg.HLT_ABD_STAT.base 15 8 crit (roleGo 3 0 s1)
    let s3 := stick Reg.PAR_HIST.base 2 (raise 0x92 (bytesOf 1 cause ++ bytesOf 1 crit) s2)
    inject (mkTag tEPOCH 0xFF 0 2 0) (wearRole 1 cause crit 0 s3)

/-- The mask of the criteria, ALONE_EN and RESTART_EN (R575). -/
def abdMask (s : State) : Nat := fld (actW s Reg.HLT_ABD_MASK.base) 6 0
def aloneEn (s : State) : Bool := bit (actW s Reg.HLT_ABD_MASK.base) 8
def restartEn (s : State) : Bool := bit (actW s Reg.HLT_ABD_MASK.base) 9

/-- The bits of `m` that are not in `o`. -/
def newBits (m o : Nat) : List Nat := (List.range 7).filter (fun i => m.testBit i && !o.testBit i)

/-- The criteria are tested (R559 to R561): shown, and a LEAD abdicates or keeps leading. -/
def abdTest (s : State) : State :=
  let m := criteria s
  let old := s.par.met
  let fresh := newBits m old
  let s1 := setF Reg.HLT_ABD_STAT.base 6 0 m (modPar (fun p => { p with met := m }) s)
  let s2 := when (fresh.contains 4) (fun t => raise 0x9A (bytesOf 2 (lowBits 16 s.hlt.tj)) (stick Reg.HLT_STAT.base 5 t)) s1
  let act := (List.range 7).filter (fun i => m.testBit i && (abdMask s).testBit i)
  if s.par.role ≠ 1 ∨ act = [] then s2
  else if partnerFit s || aloneEn s then abdicate 0 (act.foldl (fun k i => k + 2 ^ i) 0) s2
  else
    (fresh.filter (fun i => (abdMask s).testBit i)).foldl
      (fun t _ => raise 0x94 [2] (stick Reg.PAR_HIST.base 4 t)) s2

/-- A write to `PAR_CTRL` with HANDOVER 1 (R567). -/
def handover (s : State) : State :=
  if s.par.role ≠ 1 then s
  else if partnerFit s then abdicate 1 s.par.met s
  else stick Reg.PAR_HIST.base 4 s

/-! ### Cut-in (R563) -/

/-- A FOLLOW whose start has completed begins a cut-in (R563 step 1). -/
def cutinBegin (cause : Nat) (s : State) : State :=
  if s.par.role ≠ 2 ∨ !running s ∨ s.par.cutin.isSome then s
  else
    let e := min 0xFFFFFF (s.par.epochSeen + 1)
    let seq := snapSeqNow s
    let s1 := storeBytes (setN Reg.SYS_EPOCH.base e { s with start := { s.start with epoch := e } }) 8 (bytesOf 3 e)
    let s2 := seeEpoch e (modPar (fun p => { p with cutin := some ⟨cause, monoNs s, none⟩ }) s1)
    let s3 := modHlt (fun h => { h with testing := none }) s2
    let s4 := raise 0x91 (bytesOf 1 cause ++ bytesOf 1 (if (newestSlot s).isSome then 1 else 0) ++ bytesOf 4 seq)
      (stick Reg.PAR_HIST.base 1 (count Reg.PAR_CUTIN_CNT.base s3))
    wearRole 0 cause s.par.met (e * 256 + ownRank s) s4

/-- YIELD_IN_N falls and stays low for `ns` nanoseconds (R556). -/
def yieldEdge (ns : Nat) (s : State) : State := if ns < 100 then s else cutinBegin 0 s

/-- ELECT × 10 ms (R552). -/
def electNs (s : State) : Nat :=
  let e := fld (actW s Reg.PAR_CFG.base) 23 16
  (if e = 0 then 20 else e) * 10000000

/-- The election wait has passed without a LEAD heartbeat (R552). -/
def election (s : State) : State :=
  if s.par.started + electNs s ≤ monoNs s ∧ s.par.leadAt = none ∧ ¬ s.par.barred then cutinBegin 2 s else s

/-! ### Heartbeat and health (R554, R555) -/

/-- Intervals of 250 µs without a heartbeat since the last one, or since step 7, counted (R554). -/
def hbMisses (s : State) : State :=
  let n := (monoNs s - s.par.hbAt.getD s.par.started) / 250000
  countN Reg.PAR_HB_MISS_CNT.base (n - s.par.hbMissed) (modPar (fun p => { p with hbMissed := max n p.hbMissed }) s)

/-- The HEARTBEAT payload (R376). -/
def heartbeatBytes (s : State) : List Byte :=
  bytesOf 1 s.par.role ++ bytesOf 1 (ownRank s) ++ bytesOf 1 (if s.par.yieldLow then 1 else 0) ++ [0] ++
    bytesOf 4 (s.par.epochSeen % 2 ^ 24) ++ bytesOf 8 (extTick s (nowTick s)) ++ bytesOf 4 (snapSeqNow s) ++
    bytesOf 4 (if s.par.role = 2 ∨ s.par.role = 3 then 0 else s.par.claim) ++ List.replicate 8 0

/-- A HEARTBEAT goes out on every pair link, 250 µs after the last (R554). -/
def heartbeatSend (s : State) : State :=
  if !paired s ∨ !running s ∨ monoNs s < s.par.hbSent + 250000 then s
  else
    let b := heartbeatBytes s
    (pairLinks s).foldl (fun t n => sendDirect n 5 b t) (modPar (fun p => { p with hbSent := monoNs s }) (hbMisses s))

/-- No HEARTBEAT for 1.0 ms (R554): lost; a FOLLOW cuts in. -/
def heartbeatLoss (s : State) : State :=
  match s.par.hbAt with
  | none => s
  | some t =>
    if !paired s ∨ s.par.hbLost ∨ monoNs s < t + 1000000 then s
    else cutinBegin 1 (raise 0x94 [0] (stick Reg.PAR_HIST.base 3 (modPar (fun p => { p with hbLost := true }) (hbMisses s))))

/-- The heartbeat that waits on a pair link carries this device's own rank (R549). -/
def ranksEqual (n : Nat) (s : State) : Bool :=
  match takeInbox n 5 s with
  | none => false
  | some (bs, _, _) =>
    let p := lfPayload bs
    paired s && (pairLinks s).contains n && decide (32 ≤ p.length) && decide (getLE p 1 1 = ownRank s)

/-- A HEARTBEAT of the partner is taken from a pair link (R551 to R554, R556). -/
def heartbeatReceive (n : Nat) (s : State) : State :=
  match takeInbox n 5 s with
  | none => s
  | some (bs, _, s1) =>
    let p := lfPayload bs
    if !paired s ∨ !(pairLinks s).contains n ∨ p.length < 32 then s1
    else
      let role := getLE p 0 1 % 4
      let rank := getLE p 1 1
      let yld := getLE p 2 1 % 2 == 1
      let claim := getLE p 20 4
      let s2 := seeEpoch (getLE p 4 3) (hbMisses s1)
      let back := s.par.hbLost
      let s3 := when back (raise 0x94 [1]) (modPar (fun q => { q with
        hbAt := some (monoNs s), hbLost := false, hbMissed := 0, pRole := role, pRank := rank
        pSnap := getLE p 16 4, pYield := yld
        leadAt := if role = 1 then some (monoNs s) else q.leadAt
        leadSnap := if role = 1 then some (getLE p 16 4) else q.leadSnap
        barred := q.barred || !(role == 2 && decide (rank < ownRank s)) }) s2)
      let s4 := if s.par.role = 1 ∧ role = 1 ∧ s.par.claim < claim then abdicate 2 s.par.met s3 else s3
      if yld then cutinBegin 0 s4 else s4

/-- The HEALTH payload (R376, R555). -/
def healthBytes (s : State) : List Byte :=
  bytesOf 1 s.par.role ++ bytesOf 1 (ownRank s) ++ bytesOf 1 s.clk.state ++ bytesOf 1 (lanesIn s .active).length ++
    bytesOf 1 (lanesIn s .spare).length ++ bytesOf 1 (sparesLeft s) ++ bytesOf 2 (lowBits 16 s.hlt.tj) ++
    bytesOf 4 (fld (regW s Reg.DRC_RT_UE_SEC.base) 15 0) ++ bytesOf 4 (missedTicks s).length ++
    bytesOf 4 (slackMin s % 65536) ++ bytesOf 4 (criteria s) ++ bytesOf 8 (failedBits s)

/-- `PAR_TXQ`; none for 0x1FF. -/
def parTxq (s : State) : Option Nat :=
  let q := fld (actW s Reg.PAR_TXQ.base) 8 0
  if q = 0x1FF then none else some q

/-- The transmit queue that carries HEALTH frames and responses on a link (R377, R555): `PAR_TXQ`, where it serves the link,
else the device's own queue for that link. DESIGN CHOICE (log 28): no rule names a queue for another link. -/
def linkRspQueue (s : State) (n : Nat) : Nat :=
  match parTxq s with
  | some q => if qEn s q && qTx s q && qPort s q == 8 + n then q else 520 + n
  | none => 520 + n

/-- A HEALTH frame goes out on every pair link, 100 ms after the last (R555). -/
def healthSend (s : State) : State :=
  if !paired s ∨ !running s ∨ monoNs s < s.par.healthSent + 100000000 then s
  else
    (pairLinks s).foldl (fun t n => (sendQueued n (linkRspQueue s n) 4 0 0 (healthBytes s) t).2)
      (modPar (fun p => { p with healthSent := monoNs s }) s)

/-- A HEALTH frame of the partner is taken (R555, R560). -/
def healthReceive (queue : Nat) (s : State) : State :=
  match takeLink 4 queue s with
  | none => s
  | some (n, bs, _, s1) =>
    let p := lfPayload bs
    if !paired s ∨ !(pairLinks s).contains n ∨ p.length < 32 then s1
    else modPar (fun q => { q with healthAt := some (monoNs s), pCriteria := getLE p 20 4 }) s1

end Sys2Proof.Machine
end

