-- ==== Sys2Proof/Machine/Memctl.lean ====
section
/-! DEFINITION. Memory banks and their scrubber (R500 to R505), the DRAM controller (R521 to R528), the secure region
and the life cycle (R513 to R517). -/

namespace Sys2Proof.Machine

open Sys2Proof

/-! ### Banks (R500 to R503) -/

/-- Banks of each group (R500). -/
def bankCount (g : Nat) : Nat := nth 0 [216, 36, 10, 32, 34, 16, 8, 8, 16] g

/-- The state of a bank whose unit is on, in retention, retired or absent. -/
def bankOfPower (st : Nat) : BankState := if st = 1 then .on else if st = 2 then .retention else .off

/-- A lane's bank: retention also while it is gated (R207), where the group says so. -/
def laneBank (s : State) (p : Nat) (gates : Bool) : BankState :=
  if gates && (laneSt s p).gated && (laneSt s p).state == .active then .retention
  else bankOfPower (if testedNow s 0 p then 1 else powerOf s 0 p)

/-- Any Ethernet port or link has EN 1 (R500 group 3). -/
def cellsOn (s : State) : Bool :=
  (List.range (netPorts s)).any (fun p => decide (netMode s p ≠ 0)) || (List.range (linkCount s)).any (lnkEn s)

/-- The frame cell pool goes off with the last port and link (R500, R501): what its cells held is lost, so that no read
after it returns any of it (R502). -/
def cellsRest (s : State) : State :=
  if cellsOn s then s
  else
    let keep (r : Tab RxSt) : Tab RxSt :=
      r.map (fun p => (p.1, { p.2 with pkts := p.2.pkts.filter (fun k => decide (k.cells = 0)) }))
    { s with
      net := { s.net with queues := s.net.queues.map (fun q => (q.1, queueZero)) }
      mst := { s.mst with rx := keep s.mst.rx }, lnk := { s.lnk with rx := keep s.lnk.rx } }

/-- The state of bank `b` of group `g` (R500). Only the scratchpad's zero fill can be seen (R502): the fills of the other
groups end before their units use them. -/
def bankState (s : State) (g b : Nat) : BankState :=
  match g with
  | 0 => laneBank s (b / 6) true
  | 1 => laneBank s b false
  | 2 =>
    if b < 9 then bankOfPower (if testedNow s 2 b then 1 else powerOf s 2 b)
    else if s.cor.swaps.any (fun w => w.phase != .waiting) then .on else .off
  | 3 => if cellsOn s then .on else .off
  | 4 => bankOfPower (if testedNow s 3 (b % 17) then 1 else powerOf s 3 (b % 17))
  | 5 => tabGet .on s.memst.banks (5 * 256 + b)
  | 6 => .on
  | 7 => if inFollow s then .retention else .on
  | _ => if accepted s 4 then .on else .off

/-- `MEM_GROUP`g: banks on, in retention and off (R529). -/
def groupWord (s : State) (g : Nat) : Nat :=
  let l := (List.range (bankCount g)).map (bankState s g)
  l.countP (fun x => x == .on || x == .filling) * 2 ^ 16 + l.countP (· == .retention) * 2 ^ 8 + l.countP (· == .off)

/-- A scratchpad bank's state set. -/
def setBank (b : Nat) (x : BankState) (s : State) : State :=
  { s with memst := { s.memst with banks := tabSet (5 * 256 + b) x s.memst.banks } }

/-- A bank brought on finishes its zero fill (R502). -/
def bankFilled (b : Nat) (s : State) : State := if bankState s 5 b = .filling then setBank b .on s else s

/-- One bank takes the state that `MEM_SCRATCH_PWR` gives it (R501 to R503). -/
def bankPower (v : Word) (s : State) (b : Nat) : State :=
  let code := fld v (2 * b + 1) (2 * b)
  let old := bankState s 5 b
  if code = 2 then setBank b .off (zeroRange s (b * 0x10000) 0x10000)
  else if code = 1 then setBank b .retention s
  else if old = .off then setBank b .filling s
  else if old = .retention then setBank b .on s
  else s

/-- A write to `MEM_SCRATCH_PWR` (R503). -/
def scratchPower (v : Word) (s : State) : State :=
  ((List.range 13).map (· + 2)).foldl (bankPower v) (setW Reg.MEM_SCRATCH_PWR.base (v &&& 0x3FFFFFF0) s)

/-! ### The SRAM scrubber (R504, R505) -/

/-- A bank of a row has a spare row left (R505). -/
def spareLeft (g b : Nat) (s : State) : Bool := decide (tabGet 0 s.memst.spares (g * 256 + b) < Config.spareRows g)

/-- A failing row is replaced by a spare row of its bank, or stays in use (R505). -/
def sramRepair (g b row : Nat) (s : State) : State :=
  let k := g * 256 + b
  let used := tabGet 0 s.memst.spares k
  if spareLeft g b s then
    let s1 := { s with memst := { s.memst with
      spares := tabSet k (used + 1) s.memst.spares
      weak := s.memst.weak.filter (fun w => w != (g, b, row)) } }
    let s2 := stick Reg.MEM_STAT.base 1 (count Reg.MEM_REPAIR_CNT.base s1)
    wearRepair 6 b 1 0 g row (raise 0x71 (bytesOf 1 g ++ bytesOf 1 b ++ [0] ++ bytesOf 2 row) s2)
  else raise 0x71 (bytesOf 1 g ++ bytesOf 1 b ++ [1] ++ bytesOf 2 row) (stick Reg.MEM_STAT.base 2 s)

/-- What becomes of an uncorrectable word: it arrives in the spare row as zero, or stays as it is where there is none
(R504, R505). -/
def badWord (f : ScrubFind) (gone : Bool) (s : State) : State :=
  match f.cell with
  | some (q, i, ofs) =>
    let zeroed (x : FrameRec) : FrameRec := { x with
      bytes := x.bytes.mapIdx (fun k b => if ofs / 8 * 8 ≤ k ∧ k < ofs / 8 * 8 + 8 then 0 else b)
      bad := x.bad.filter (fun w => w.1 != ofs / 8 * 8) }
    let marked (x : FrameRec) : FrameRec := { x with
      bad := if x.bad.contains (ofs / 8 * 8, f.bank) then x.bad else x.bad ++ [(ofs / 8 * 8, f.bank)] }
    modQueue q (fun y => { y with frames := y.frames.modify i (if gone then zeroed else marked) }) s
  | none =>
    if f.addr < dramBase then
      if gone then storeBytes { s with ue := setDel (word8 f.addr) s.ue } (word8 f.addr) (List.replicate 8 0)
      else { s with ue := setAdd (word8 f.addr) s.ue }
    else s

/-- One word that the scrubber finds in a bank that is on. -/
def scrubWord (passed : List (Nat × Nat × Nat)) (s : State) (f : ScrubFind) : State :=
  if bankState s f.group f.bank ≠ .on then s
  else if f.bad then
    let s1 := reportSramUe f.addr f.group f.bank s
    badWord f (spareLeft f.group f.bank s1) (sramRepair f.group f.bank f.row s1)
  else
    let s1 := count Reg.MEM_CE_CNT.base s
    if passed.contains (f.group, f.bank, f.row) then sramRepair f.group f.bank f.row s1
    else { s1 with memst := { s1.memst with
      weak := if s1.memst.weak.contains (f.group, f.bank, f.row) then s1.memst.weak
        else s1.memst.weak ++ [(f.group, f.bank, f.row)] } }

/-- A scrub pass over every bank that is on (R505). -/
def scrubPass (finds : List ScrubFind) (s : State) : State :=
  let passed := s.memst.weak
  let s1 := finds.foldl (scrubWord passed) s
  { s1 with memst := { s1.memst with scrubs := s1.memst.scrubs + 1 } }

/-! ### The DRAM controller (R521 to R528) -/

/-- ON and OFF as they act (R531). -/
def panicOn (s : State) : Nat := min 99 (fld (actW s Reg.DRC_PANIC.base) 7 0)
def panicOff (s : State) : Nat := max (panicOn s + 1) (fld (actW s Reg.DRC_PANIC.base) 15 8)

/-- A real-time port is in panic: 0 BULK, 1 ALIGN, 2 TAIL. -/
def inPanic (s : State) (p : Nat) : Bool :=
  if p = 0 then s.drc.panicBulk else if p = 1 then s.drc.panicAlign else s.drc.panicTail

/-- A port's panic set. -/
def setPanic (p : Nat) (v : Bool) (s : State) : State :=
  { s with drc := if p = 0 then { s.drc with panicBulk := v }
    else if p = 1 then { s.drc with panicAlign := v } else { s.drc with panicTail := v } }

/-- The fill level of a real-time port in percent (R522): of BULK and ALIGN the samples buffered ahead as a share of 2
blocks; of TAIL 50% and the fetched share of the frame's fetches less the elapsed share of its 256 samples. -/
def portLevel (s : State) (p amount : Nat) : Nat :=
  if p < 2 then min 100 (amount * 100 / 32) else min 100 (50 + amount - s.time.idx % 256 * 100 / 256)

/-- A port's level told. -/
def fillSet (p level : Nat) (s : State) : State := { s with drc := { s.drc with fill := tabSet p level s.drc.fill } }

/-- The fill level of a real-time port falls below ON (R522). -/
def panicEnter (p amount : Nat) (s : State) : State :=
  if 3 ≤ p then s
  else
    let t := fillSet p (portLevel s p amount) s
    if inPanic s p ∨ panicOn s ≤ portLevel s p amount then t
    else count (Reg.DRC_PANIC_CNT.at p) (setPanic p true t)

/-- The level reaches OFF (R522). -/
def panicExit (p amount : Nat) (s : State) : State :=
  if 3 ≤ p then s
  else
    let t := fillSet p (portLevel s p amount) s
    if !inPanic s p ∨ portLevel s p amount < panicOff s then t else setPanic p false t

/-- One bank of a channel is refreshed (R523). -/
def dramRefresh (ch bank : Nat) (s : State) : State :=
  if s.drc.selfRefresh ∨ 4 ≤ ch ∨ !s.drc.trained then s
  else { s with drc := { s.drc with refreshes := tabMod 0 (ch * 256 + bank) (· + 1) s.drc.refreshes } }

/-- The clock-to-data drift of a channel is tracked; never during a panic (R523). -/
def driftTrack (ch : Nat) (s : State) : State :=
  if 4 ≤ ch ∨ !s.drc.trained ∨ inPanic s 0 ∨ inPanic s 1 ∨ inPanic s 2 then s
  else { s with drc := { s.drc with drift := tabMod 0 ch (· + 1) s.drc.drift } }

/-- SR_IDLE (R531). -/
def srIdle (s : State) : Nat := let v := fld (actW s Reg.DRC_CFG.base) 31 16; if v = 0 then 100 else v

/-- The real-time ports are idle: their units are in retention or off (R524). -/
def portsIdle (s : State) : Bool := !running s || (inFollow s && s.hlt.testing.isNone)

/-- Work that goes on asks the DRAM for more: chains, rings, measurement runs, a swap's load (R521, R524). -/
def requestsWait (s : State) : Bool :=
  (dmaEng s false).run.isSome || (dmaEng s true).run.isSome || !s.ser.rings.isEmpty || s.mea.runs.any (fun q => [1, 2, 3].contains q.2.state) ||
    s.cor.swaps.any (fun w => w.phase == .prepared)

/-- No request has come for `us` microseconds: the controller enters self-refresh (R524). -/
def selfRefreshEnter (us : Nat) (s : State) : State :=
  if s.drc.selfRefresh ∨ !s.drc.trained ∨ !bit (actW s Reg.DRC_CFG.base) 0 ∨ us < srIdle s ∨ !portsIdle s ∨
      requestsWait s then s
  else count Reg.DRC_SR_CNT.base { s with drc := { s.drc with selfRefresh := true } }

/-- RH_MAX as it acts (R531). -/
def rhMax (s : State) : Nat := max 1024 (fld (actW s Reg.DRC_RH.base) 31 16)

/-- Activations of a row in the running window by requester (R525). -/
def rowActs (s : State) (key : Nat) : List (Nat × Nat × Nat) :=
  if s.drc.actWindow = monoNs s / 32000000 then tabGet [] s.drc.acts key else []

/-- The activations of a list of requesters together. -/
def actsSum (l : List (Nat × Nat × Nat)) : Nat := (l.map (·.2.2)).sum

/-- A requester's activations joined to a row's. -/
def actsAdd (req inst n : Nat) : List (Nat × Nat × Nat) → List (Nat × Nat × Nat)
  | [] => [(req, inst, n)]
  | (r, i, k) :: t => if r = req ∧ i = inst then (r, i, k + n) :: t else (r, i, k) :: actsAdd req inst n t

/-- The requester that issued most of a row's activations; the earliest on a tie (R525). -/
def actsTop : List (Nat × Nat × Nat) → Nat × Nat
  | [] => (0, 0)
  | (r, i, n) :: t => if t.all (fun q => decide (q.2.2 ≤ n)) then (r, i) else actsTop t

/-- A requester activates a row `acts` times more in the running window of 32 ms; at more than RH_MAX the row's neighbours
get refresh management and its top requester, but for the real-time ports, is throttled (R525). `place`: bits 7:0 the
bank, above them the row. -/
def rowHammer (acts req inst ch place : Nat) (s : State) : State :=
  let now := monoNs s
  let key := place * 4 + ch
  let old := rowActs s key
  let new := actsAdd req inst acts old
  let kept := if s.drc.actWindow = now / 32000000 then s.drc.acts else []
  let s0 := { s with drc := { s.drc with actWindow := now / 32000000, acts := tabSet key new kept } }
  if actsSum new ≤ rhMax s ∨ rhMax s < actsSum old then s0
  else
    let (r, i) := actsTop new
    let held := s.drc.throttled.filter (fun (t : Throttle) => decide (now < t.until_))
    let lim : Throttle := ⟨r, i, ch, place % 256, fld (actW s Reg.DRC_RH.base) 15 0, (now / 32000000 + 1) * 32000000⟩
    let refreshed (m : Tab Nat) (row : Nat) : Tab Nat := tabMod 0 ((row * 256 + place % 256) * 4 + ch) (· + 1) m
    let s1 := { s0 with drc := { s0.drc with
      managed := refreshed (if place / 256 = 0 then s.drc.managed else refreshed s.drc.managed (place / 256 - 1)) (place / 256 + 1)
      throttled := if r ≤ 2 then held else held ++ [lim] } }
    raise 0x73 (bytesOf 1 r ++ bytesOf 1 i ++ bytesOf 1 ch ++ bytesOf 1 (place % 256))
      (stick Reg.DRC_STAT.base 2 (count Reg.DRC_RH_CNT.base s1))

/-- A correctable DRAM error at an address (R526, R528). -/
def reportDramCe (req inst addr : Nat) (s : State) : State :=
  let s1 := stick Reg.DRC_STAT.base 0 (count Reg.DRC_CE_CNT.base s)
  let s2 := if bit (actW s Reg.DRC_CFG.base) 1 then
      let (syn, t) := drawNat s1 256
      drcLogEntry t 0 req inst addr syn
    else s1
  let row := rowKey addr
  let old := tabGet [] s2.drc.rowCe row
  let ws := setAdd (word8 addr) old
  let fails := decide (ws.length = 8) && decide (old.length = 7) && !s2.drc.failing.contains row
  when fails (rowRecord addr) { s2 with drc := { s2.drc with
    rowCe := tabSet row ws s2.drc.rowCe
    failing := if fails then setAdd row s2.drc.failing else s2.drc.failing } }

/-- The patrol range: base and limit, as far as DRAM lies in it (R527). -/
def patrolRange (s : State) : Nat × Nat :=
  (max dramBase (fld (actW s Reg.DRC_SCRUB_BASE_LO.base) 31 6 * 64 + 2 ^ 32 * fld (actW s Reg.DRC_SCRUB_BASE_HI.base) 7 0),
   min (dramTop s)
    (fld (actW s Reg.DRC_SCRUB_LIMIT_LO.base) 31 6 * 64 + 2 ^ 32 * fld (actW s Reg.DRC_SCRUB_LIMIT_HI.base) 7 0))

/-- A patrol pass over the range (R527): words found correctable, and words found uncorrectable beside those known. -/
def patrolPass (fixed bad : List Nat) (s : State) : State :=
  let (lo, hi) := patrolRange s
  if hi ≤ lo then s
  else
    let inside (a : Nat) : Bool := decide (lo ≤ a) && decide (a < hi)
    let s1 := (fixed.filter inside).foldl (fun t a => reportDramCe 12 0 a t) (selfRefreshExit s)
    let s2 := { s1 with ue := (bad.filter inside).foldl (fun l a => setAdd (word8 a) l) s1.ue }
    (ueIn s2 lo (hi - lo)).foldl (fun t w => reportDramUe 1 12 0 w t) s2

/-! ### The secure region (R513, R514, R517) -/

/-- First address of the secure region. -/
def secBase : Nat := 0xF0000

/-- The key of a slot. -/
def keyOf (s : State) (k : Nat) : List Byte := readBytes s (secBase + 32 * k) 32

/-- A slot holds a key: it is not all zeros (R513). -/
def keyValid (s : State) (k : Nat) : Bool := (keyOf s k).any (· != 0)

/-- The highest accepted SEQ of a slot (R447). -/
def keySeq (s : State) (k : Nat) : Nat := rdN s 8 (secBase + 0x200 + 8 * k)

/-- `SEC_KEY_VALID` shown. -/
def keysShow (s : State) : State :=
  setN Reg.SEC_KEY_VALID.base ((List.range 16).foldl (fun m k => if keyValid s k then m + 2 ^ k else m) 0) s

/-- A key slot written as a whole; its SEQ starts at 0 (R514). -/
def keyWrite (k : Nat) (key : List Byte) (s : State) : State :=
  keysShow (storeBytes (storeBytes s (secBase + 32 * k) key) (secBase + 0x200 + 8 * k) (List.replicate 8 0))

/-- An access to the secure region refused (R514, R516). -/
def secDeny (s : State) : State := stick Reg.SEC_STAT.base 2 (count Reg.SEC_DENY_CNT.base s)

/-- A word that the host writes into the secure region in DEVELOP (R443, R514): the words of a key slot wait until the
slot is whole. -/
def secHostWrite (a : Nat) (v : Word) (s : State) : State :=
  let o := a - secBase
  if o < 0x200 then
    let ws := tabSet (o / 4) v s.sec.keyWords
    let k := o / 32
    let slot := (List.range 8).map (fun (j : Nat) => tabFind? (8 * k + j) ws)
    if slot.all (fun w => w.isSome) then
      keyWrite k (slot.flatMap (fun w => bytesOf 4 (w.getD 0).toNat))
        { s with sec := { s.sec with keyWords := ws.filter (fun p => p.1 / 8 != k) } }
    else { s with sec := { s.sec with keyWords := ws } }
  else if o < 0x280 then storeBytes s a (bytesOf 4 v.toNat)
  else s

/-- The secure region wiped (R517). -/
def secWipe (s : State) : State :=
  keysShow (zeroRange { s with sec := { s.sec with keyWords := [] } } secBase 0x10000)

/-- Nothing holds the part in reset and its supplies are valid. -/
def powered (s : State) : Bool := s.start.supplies && !s.start.resetLow && !s.start.hot

/-- TAMPER_N falls and stays low for `ns` nanoseconds (R517). The wipe belongs to the always-on domain (R410): it happens in
reset too, where no register shows it. -/
def tamper (ns : Nat) (s : State) : State :=
  if ns < 100 * min 100 (fld (actW s Reg.SEC_TAMPER.base) 6 0) then s
  else
    let s1 := secWipe s
    when (powered s) (fun t => raise 0x74 [] (stick Reg.SEC_STAT.base 0 t)) { s1 with sec := { s1.sec with tampered := true } }

/-! ### The life cycle (R515, R516) -/

/-- A write that arms a request: TARGET above the present state with CONFIRM 0xA5 (R516 step 1). -/
def lcArms (s : State) (v : Word) : Bool := fld v 15 8 == 0xA5 && decide (s.fuse.life < fld v 1 0)

/-- An armed request disarmed and counted (R516 step 2). -/
def lcDisarm (s : State) : State := secDeny { s with sec := { s.sec with armed := none } }

/-- The transition starts (R516 steps 2 and 3): the keys are latched on a move from DEVELOP to FIELD, and the region is
wiped. -/
def lcExecute (target : Nat) (s : State) : State :=
  let keys := if s.fuse.life = 1 ∧ target = 2 then
      ((List.range 16).filter (keyValid s)).map (fun k => (k, ofBytes (keyOf s k))) else []
  secWipe { s with sec := { s.sec with armed := none, executing := some (target, monoNs s), latched := keys } }

/-- An armed request that is not confirmed within 1 ms (R516). -/
def lcExpire (s : State) : State :=
  match s.sec.armed with
  | none => s
  | some (_, at_) => if at_ + 1000000 < monoNs s then lcDisarm s else s

/-- A write to `SEC_LC_REQ` (R516). -/
def lcWrite (v : Word) (s0 : State) : State :=
  let s := lcExpire s0
  if s.sec.executing.isSome then s
  else
    match s.sec.armed with
    | none => if lcArms s v then { s with sec := { s.sec with armed := some (fld v 1 0, monoNs s) } } else s
    | some (t, _) =>
      if fld v 1 0 = t ∧ fld v 15 8 = 0x5A then lcExecute t s else lcDisarm s

/-- The fuses are programmed 5 ms after the transition has started (R516 step 4). -/
def lcFuse (s : State) : State :=
  match s.sec.executing with
  | none => s
  | some (t, at_) =>
    if monoNs s < at_ + 5000000 then s
    else
      let old := s.fuse.life
      let s1 := { s with
        fuse := { s.fuse with life := t, keys := if t = 2 then s.sec.latched else s.fuse.keys }
        sec := { s.sec with executing := none, latched := [] } }
      raise 0x75 (bytesOf 1 old ++ bytesOf 1 t)
        (stick Reg.SEC_STAT.base 1 (setN Reg.SEC_LC.base t (storeBytes s1 7 (bytesOf 1 t))))

end Sys2Proof.Machine
end

