-- ==== Sys2Proof/Machine/Watch.lean ====
section
/-! DEFINITION. What a write must not change (R585): the code of a core that runs (R462), play data about to play
(R405), the descriptors of a running chain (R540) and a filter set in use (R237). -/

namespace Sys2Proof.Machine

open Sys2Proof

/-- Two byte ranges have a byte in common. -/
def meets (a n b m : Nat) : Bool := decide (a < b + m) && decide (b < a + n)

/-- The core whose instruction memory an address lies in runs (R462). -/
def codeRuns (s : State) (a : Nat) : Bool :=
  decide (druBase ≤ a) && decide (a < druBase + 0x1000000) && decide (0x40000 ≤ a % 0x100000) &&
    (coreOf s ((a - druBase) / 0x100000)).state != 0

/-! ### Chains (R537, R540) -/

/-- As many descriptors as the address space has room for. -/
def chainMax : Nat := 2 ^ 35

/-- Descriptors of a chain from an address on, each once, up to its last one, before those already seen. -/
def chainFrom (s : State) : Nat → List Nat → Nat → List Nat
  | 0, seen, _ => seen
  | k + 1, seen, a =>
    if seen.contains a || !descPlace s a then seen
    else
      let d := dmaDesc (readBytes s a 32)
      if d.last then a :: seen else chainFrom s k (a :: seen) (d.next * 32)

/-- Descriptors of the chains that run. -/
def chainDescs (s : State) : List Nat :=
  (s.dma.a.chans ++ s.dma.b.chans).flatMap (fun q => if dmaRuns q.2 then chainFrom s chainMax [] q.2.first else [])

/-- A byte range meets a descriptor of a running chain; bytes 28 to 31 take the CRC and are the engine's (R543). -/
def chainHit (s : State) (a n : Nat) : Bool := (chainDescs s).any (fun d => meets a n d 28)

/-- A step has changed a descriptor of a chain that ran before it. -/
def chainsDiffer (s t : State) : Bool := (chainDescs s).any (fun d => readBytes s d 28 != readBytes t d 28)

/-- A descriptor's source and destination overlap (R540); a fill has no source. -/
def descOverlaps (d : DmaDesc) : Bool := !d.fill && meets d.src d.cnt d.dst (dmaDstLen d)

/-! ### Play rings (R405) -/

/-- The next block that a ring's port moves on the ring's side. -/
def ringNext (s : State) (r : Nat) : Nat :=
  let aes := bit (ringW s r) 25
  if ringOnTx s r then (if aes then s.ser.aesOut else s.ser.tdmOut) else (unitSt s (if aes then uAES else uTDM)).next

/-- A byte range meets data of a play ring that plays less than 4 blocks on. -/
def playHit (s : State) (a n : Nat) : Bool :=
  s.ser.rings.any (fun q => ringPlays s q.1 && (List.range 4).any (fun k =>
    decide (max q.2.startBlock (ringNext s q.1) + k < ringNext s q.1 + 4) &&
      meets a n (ringBase s q.1 + (q.2.pos + k * ringBlock s q.1) % max 1 (ringUsable s q.1)) (ringBlock s q.1)))

/-! ### Filter sets (R237) -/

/-- A byte range meets the header, a descriptor or a coefficient block of a set. -/
def setHit (s : State) (a n t : Nat) : Bool :=
  let b := setBase s t
  let m := rdN s 2 (b + 2)
  inDram s b 64 && (meets a n b (64 + 64 * m) || (List.range m).any (fun o =>
    (filtDesc s t o).firEn && meets a n (filtDesc s t o).addr (coefBytes (filtDesc s t o))))

/-- A byte range meets a set that is in use. -/
def filterHit (s : State) (a n : Nat) : Bool :=
  decide (dramBase ≤ a) && (List.range 8).any (fun t => setInUse s t && setHit s a n t)

/-- A write of a set's base that changes the base of a set in use. -/
def baseInUse (r : RegSpec) (i a : Nat) (v : Word) (s : State) : Bool :=
  setInUse s i && decide (regW s a &&& fieldsMask r ≠ v &&& fieldsMask r)

/-! ### What a write of memory meets -/

/-- A byte range holds something of the four. -/
def watched (s : State) (a n : Nat) : Bool := codeRuns s a || playHit s a n || chainHit s a n || filterHit s a n

/-- The fault that a fabric write of bytes to memory ends in, if any: a chain and a filter set are changed only by
bytes other than those they hold. -/
def writeStop (s : State) (a : Nat) (bs : List Byte) : Option Fault :=
  if codeRuns s a then some .runningCode
  else if playHit s a bs.length then some .latePlay
  else if readBytes s a bs.length = bs then none
  else if chainHit s a bs.length then some .chainChanged
  else if filterHit s a bs.length then some .filterInUse
  else none

/-- No chain, no play ring and no filter set guards any memory. -/
def unguarded (s : State) : Bool :=
  (s.dma.a.chans ++ s.dma.b.chans).all (fun q => !dmaRuns q.2) && s.ser.rings.all (fun q => !ringPlays s q.1) &&
    (List.range 8).all (fun t => !setInUse s t)

/-! ### Snapshots and cues (R454) -/

/-- A word whose register or table word holds F, WO or W1C fields, at an address of a region or record. -/
def snapBars (s : State) (a : Nat) : Bool :=
  match liveSpec s a with
  | some (r, _, _) => r.acc == .wo || r.acc == .w1c || classMask r .frozen != 0
  | none => false

end Sys2Proof.Machine
end

