-- ==== Sys2Proof/Machine/Fabric.lean ====
section
/-! DEFINITION. The control fabric (R457, R506 to R512): which addresses are assigned and present, what a read of a
register or table word returns and does, what a write of one does, and accesses of bytes. -/

namespace Sys2Proof.Machine

open Sys2Proof

/-! ### The map (R3, R4, R21, R457) -/

/-- A part of a present unit is there: a port or link number that the grade has (R312, R369, R387), the ring table with
RECORD_PLAY (R402), the pair table and the live registers with LIVE_CORRECT (R255), the records of program inputs with
DSP_CLUSTER (R460) and of captures with MEASURE (R255). -/
def gradeHas (s : State) (u a : Nat) : Bool :=
  if u = uNET then decide (0x8000 ≤ a % 0x10000) || decide ((a % 0x10000) / 0x1000 < netPorts s)
  else if u = uLNK then
    if a < 0x40000000 then decide (0x8000 ≤ a % 0x10000) || decide ((a % 0x10000) / 0x1000 < linkCount s)
    else if a < 0x40EA0000 then decide ((a % 0x10000) / 16 / 32 < linkCount s)
    else decide ((a % 0x10000) / 32 / 32 < linkCount s)
  else if u = uTDM then
    if 0x100C1000 ≤ a ∧ a < 0x100C1600 then decide ((a - 0x100C1000) / 32 < serCount false s)
    else a < 0x40F00000 || accepted s 12
  else if u = uMEA then
    !((0x40C20000 ≤ a && a < 0x40C20800) || (0x10180100 ≤ a && a < 0x10180120)) || accepted s 5
  else if u = uRTE then
    (!(0x40204800 ≤ a && a < 0x40205000) || accepted s 3) && (!(0x40205000 ≤ a && a < 0x40205200) || accepted s 4)
  else if u = uAES then
    if 0x100D1000 ≤ a ∧ a < 0x100D1800 then decide ((a - 0x100D1000) / 256 < serCount true s) else true
  else true

/-- A command that addresses this is not answered `ABSENT` (R4, R457). -/
def assigned (s : State) (a : Nat) : Bool :=
  if a < 0x100000 then true
  else if druBase ≤ a ∧ a < druBase + 0x1100000 then accepted s 3
  else if dramBase ≤ a then decide (a < dramTop s)
  else
    match unitOf a with
    | some u => unitPresent s u && gradeHas s u a
    | none => false

/-! ### Words of registers and tables -/

/-- What a word shows that the device computes rather than stores; none for a stored word. -/
def shownWord (s : State) (r : RegSpec) (i : Nat) : Option Nat :=
  let b := r.base
  if b % 0x10000 = 0xFFF0 ∧ b < 0x40000000 then some (min 64 (unitSt s r.unit).pend.length)
  else if b = Reg.SYS_TAG_STAT.base then some (if s.heldTags.isEmpty then 0 else 1)
  else if b = Reg.HLT_SLACK_MIN.base then some (slackMin s)
  else if b = Reg.HLT_ISLAND.base then some (islandWord s i)
  else if b = Reg.HLT_TJ.base then some (lowBits 16 s.hlt.tj)
  else if b = Reg.PAR_STATUS.base then some (parStatus s)
  else if b = Reg.PAR_CLAIM.base then some s.par.claim
  else if b = Reg.PAR_EPOCH_SEEN.base then some s.par.epochSeen
  else if b = Reg.PAR_SNAP_SEQ.base then some (snapSeqNow s)
  else if b = Reg.TIM_SCALE_CNT.base then some (scaleNow s)
  else if b = Reg.QMG_POOL.base then some (freeCells s)
  else if b = Reg.QSTAT0.base then some (queueWord s i 0)
  else if b = Reg.QSTAT1.base then some (queueWord s i 1)
  else if b = Reg.MRXS0.base then some (rxWord0 s i).toNat
  else if b = Reg.INCS0.base then some (chanWord s i)
  else if b = Reg.MSTAT4.base then (restStatus s i).map (·.1)
  else if b = Reg.MSTAT6.base then (restStatus s i).map (·.2)
  else if b = Reg.INC_ASRC_CAP.base then some (asrcCap s)
  else if b = Reg.INC_ASRC_USED.base then some (asrcUsed s)
  else if b = Reg.INC_WF_COUNT.base then some (wfCount s)
  else if b = Reg.DSX_SUBMIT_STAT.base then some (if dsxBusy s then 1 else 0)
  else if b = Reg.DSX_OCC.base then some (robUsed s * 2 ^ 16 + s.dsx.jobs.length)
  else if b = Reg.DSX_SRC_OCC.base then some (srcOcc s i)
  else if b = Reg.DSX_UNIT_ACTIVE.base then some (bitsOf (s.dsx.phys.map (·.2)))
  else if b = Reg.DSX_UNIT_RETIRED.base then some (bitsOf s.dsx.retired)
  else if b = Reg.LAN_COUNT.base then some (laneCount s)
  else if b = Reg.LAN_STATE.base then some (laneWord s i)
  else if b = Reg.LOBJ1.base then some (laneObjWord s i)
  else if b = Reg.COR_POOL_CAP.base then some (tapPool s)
  else if b = Reg.COR_POOL_USED.base then some (poolUsed s)
  else if b = Reg.COR_SWAP_STAT.base then some (swapStat s)
  else if b = Reg.COR_XF_CAP.base then some (sliceOutputs s)
  else if b = Reg.COR_SET_USE.base then some (bitsOf ((List.range 8).filter (setInUse s)))
  else if b = Reg.COR_SLICE.base then some (sliceWord s)
  else if b = Reg.COST0.base then some (outStatus s i)
  else if b = Reg.COST1.base then some (chargeOf s i)
  else if b = Reg.MEM_GROUP.base then some (groupWord s i)
  else none

/-- What a read of a word returns, without the read's effect (R20, R21). -/
def viewWord (s : State) (a : Nat) : Word :=
  match liveSpec s a with
  | none => 0
  | some (r, i, _) =>
    if r.acc = .wo then 0
    else match shownWord s r i with
      | some n => wordOf n
      | none => regW s a

/-- A read of a word with its effect: the latches of R72, R221, R308 and R311. -/
def readWord (s : State) (a : Nat) : Word × State :=
  match liveSpec s a with
  | none => (0, s)
  | some (r, i, _) =>
    let b := r.base
    if b = Reg.TIM_SIDX_LO.base then sidxRead s
    else if b = Reg.TIM_TIME_SEC_LO.base then timeRead s
    else if b = Reg.TIM_GM_ID_LO.base then gmIdRead s
    else if b = Reg.TIM_OFFSET_LO.base then offsetRead s
    else if b = Reg.TIM_CAPQ0.base then captureRead i s
    else if b = Reg.RED_LAST_LO.base then
      let t := redLastRead s
      (viewWord t a, t)
    else (viewWord s a, s)

/-- The unit, or the part of it, whose F fields this element's word holds runs (R17); none runs before step 7 of a
start (R423). -/
def frozenNow (s : State) (r : RegSpec) (i : Nat) : Bool :=
  let b := r.base
  if !running s then false
  else if r.unit = uQMG then qEn s i
  else if r.unit = uNET then bit (actW s (Reg.NET_MODE.at i)) 0
  else if r.unit = uTIM then ptpOn s
  else if 0x40E00000 ≤ b ∧ b < 0x40E10000 then bit (actW s (Reg.MRX0.at i)) 31
  else if 0x40E10000 ≤ b ∧ b < 0x40E20000 then bit (actW s (Reg.MTX0.at i)) 31
  else if 0x40E80000 ≤ b ∧ b < 0x40E90000 then bit (actW s (Reg.LTX0.at i)) 31
  else if 0x40E90000 ≤ b ∧ b < 0x40EA0000 then bit (actW s (Reg.LRX0.at i)) 31
  else if 0x40F00000 ≤ b ∧ b < 0x40F10000 then
    bit (actW s (Reg.RING0.at i)) 31 || (tabFind? i s.ser.rings).isSome
  else if r.unit = uTDM then bit (actW s (Reg.TDM_CFG.at i)) 31
  else if r.unit = uAES then bit (actW s (Reg.AES_CFG.at i)) 31
  else if r.unit = uDRU then (coreOf s i).state != 0
  else running s

/-- A write to a word without behaviour of its own, by access type and change class (R15 to R17, R20 to R22). -/
def plainWrite (r : RegSpec) (i a : Nat) (v : Word) (s : State) : Except Fault State :=
  match r.acc with
  | .ro => .ok s
  | .wo => .ok s
  | .w1c => .ok (setW a (regW s a &&& ~~~ (v &&& fieldsMask r)) s)
  | .rw =>
    let fm := classMask r .frozen
    let lm := classMask r .live
    let sm := classMask r .staged
    let old := regW s a
    if old &&& fm ≠ v &&& fm ∧ frozenNow s r i then .error .frozenField
    else
      let waits : Bool := running s
      let now := if waits then fm else fm ||| lm
      .ok { s with words := {
        wr := tabSet a (mergeMask (fieldsMask r) old v) s.words.wr
        act := tabSet a (mergeMask now (actW s a) v) s.words.act
        dirtyL := if waits ∧ lm ≠ 0 then setAdd a s.words.dirtyL else s.words.dirtyL
        dirtyS := if sm ≠ 0 then setAdd a s.words.dirtyS else s.words.dirtyS } }

/-- A queue's EN changes: packets that streams still held in its cells are freed with them (R330, R350). -/
def queueSwitch (q : Nat) (s : State) : State :=
  let keep (r : Tab RxSt) : Tab RxSt :=
    r.map (fun p => (p.1, { p.2 with pkts := p.2.pkts.filter (fun k => k.cells = 0 ∨ k.queue ≠ q) }))
  queueEn q { s with mst := { s.mst with rx := keep s.mst.rx }, lnk := { s.lnk with rx := keep s.lnk.rx } }

/-- What the device does where the word at an address has begun to act with a new value, in the units that do not take
part in the block stream (R286, R285, R298, R308, R315, R325): `old` is what acted before. -/
def liveFx (a : Nat) (old : Word) (s : State) : State :=
  match findSpec a with
  | none => s
  | some (r, i, _) =>
    let b := r.base
    let new := actW s a
    if old = new ∧ b ≠ Reg.CLK_CTRL.base then s
    else if b = Reg.CLK_CTRL.base then clkSelect s
    else if b = Reg.CLK_CAND0.base then candActs i 0 old new s
    else if b = Reg.CLK_CAND3.base then candActs i 3 old new s
    else if b = Reg.TIM_CTRL.base then if bit old 0 = bit new 0 then ptpRerun s else ptpEnable s
    else if b = Reg.TIM_PTP_DS.base ∨ b = Reg.TIM_PTP_VAR.base then ptpRerun s
    else if b = Reg.TIM_PIN_CFG.base then pinConfig old new s
    else if b = Reg.NET_MODE.base then cellsRest (when (bit old 0 && !bit new 0) (portLink i false 0) s)
    else if b = Reg.QUEUE0.base then when (bit old 31 != bit new 31) (queueSwitch i) s
    else s

/-- One word's L fields made to act, with what follows from it. -/
def liveWord (s : State) (a : Nat) : State :=
  match findSpec a with
  | none => s
  | some (r, _, _) =>
    liveFx a (actW s a) { s with words := { s.words with
      act := tabSet a (mergeMask (classMask r .live) (actW s a) (regW s a)) s.words.act } }

/-- A block boundary in the units that do not take part in the block stream: their L fields that wait act (R15). -/
def boundaryLive (s : State) : State :=
  let as := s.words.dirtyL.filter (fun a => match unitOf a with
    | some u => !honoursTags u || u == uSYS
    | none => true)
  as.foldl liveWord { s with words := { s.words with dirtyL := s.words.dirtyL.filter (fun a => !as.contains a) } }

/-- A DMA channel of a register: engine B and channel number. -/
def dmaOf (a : Nat) : Option (Bool × Nat) :=
  if 0x101C0100 ≤ a ∧ a < 0x101C0300 then some (false, (a - 0x101C0100) / 32)
  else if 0x101C0400 ≤ a ∧ a < 0x101C0480 then some (true, (a - 0x101C0400) / 32)
  else none

/-- A write to a register of a DMA channel (R535, R546). -/
def dmaWrite (b : Bool) (c : Nat) (r : RegSpec) (i a : Nat) (v : Word) (s : State) : Except Fault State :=
  if dmaOwned s b c then .ok (count Reg.DMA_DENY_CNT.base s)
  else if a % 32 = 4 then .ok (dmaGo b c v s)
  else if a % 32 = 8 then .ok (if bit v 0 then dmaStop b c s else s)
  else plainWrite r i a v s

/-! ### Accesses of bytes (R501, R506, R507, R512, R514) -/

/-- Where an aligned 8-byte word of the map lies for the fabric. -/
inductive FabPlace where
  /-- memory that is on -/
  | mem
  /-- a scratchpad bank whose zero fill is under way -/
  | filling (bank : Nat)
  /-- the secure region -/
  | secure
  /-- words of a register block, or of a table -/
  | block
  | table
  /-- a bank in retention or off: reads zero, ignores writes and counts them (R501) -/
  | asleep
  /-- reads zero and ignores writes; both counted as fabric errors where R512 says so -/
  | nothing (counted : Bool)
  deriving DecidableEq, Repr

/-- The physical core behind a Druora window (R462). -/
def windowCore (s : State) (w : Nat) : Option Nat := if w < 16 then tabFind? w s.dru.phys else s.dru.spare

/-- A table record's memory is in retention or off (R501): the solver's in a FOLLOW, a lane's lists with its lane. -/
def tableOff (s : State) (u a : Nat) : Bool :=
  if u = uSLV then bankState s 7 0 == .retention
  else if u = uLAN ∧ 0x40500000 ≤ a ∧ a < 0x40920000 then
    let n :=
      if a < 0x40700000 then (a - 0x40500000) / 1024
      else if a < 0x40900000 then (a - 0x40700000) / 1024
      else if a < 0x40910000 then (a - 0x40900000) / 32
      else (a - 0x40910000) / 32
    match (laneObj s n).lane with
    | some p => bankState s 1 p != .on
    | none => false
  else false

/-- The place of an address. -/
def fabPlace (s : State) (a : Nat) : FabPlace :=
  if a < secBase then
    match bankState s 5 (a / 0x10000) with
    | .on => .mem
    | .filling => .filling (a / 0x10000)
    | _ => .asleep
  else if a < 0x100000 then .secure
  else if druBase ≤ a ∧ a < druBase + 0x1100000 then
    if !accepted s 3 then .nothing false
    else match windowCore s ((a - druBase) / 0x100000) with
      | none => .nothing false
      | some p =>
        if 0x50000 ≤ a % 0x100000 then .nothing false
        else if powerOf s 3 p = 1 then .mem else .asleep
  else if dramBase ≤ a then if a < dramTop s then .mem else .nothing true
  else
    match unitOf a with
    | none => .nothing true
    | some u =>
      if !unitPresent s u || !gradeHas s u a then .nothing false
      else if a < 0x40000000 then .block
      else if tableOff s u a then .asleep else .table

/-- A byte range cut at aligned 8-byte words: starts and lengths. -/
def parts8 (a n : Nat) : List (Nat × Nat) :=
  if n = 0 then [] else
    (List.range ((word8 (a + n - 1) - word8 a) / 8 + 1)).map (fun k =>
      let w := word8 a + 8 * k
      let lo := max a w
      (lo, min (a + n) (w + 8) - lo))

/-- The aligned 32-bit words of a range inside one 8-byte word. -/
def parts4 (a n : Nat) : List Nat :=
  (List.range ((a + n - 1) / 4 + 1 - a / 4)).map (fun k => (a / 4 + k) * 4)

/-- Words of registers or tables read one after another: their bytes. -/
def readWords (s : State) : List Nat → List Byte × State
  | [] => ([], s)
  | a :: as =>
    let (v, s1) := readWord s a
    let (bs, s2) := readWords s1 as
    (bytesOf 4 v.toNat ++ bs, s2)

/-- A fabric error counted. -/
def fabricErr (s : State) : State := count Reg.MEM_FABRIC_ERR_CNT.base s

/-- A read inside one aligned 8-byte word by a requester: whether it was good, the bytes, the state. -/
def readPart (req inst : Nat) (s : State) (a n : Nat) : Bool × List Byte × State :=
  match fabPlace s a with
  | .mem => loadMem req inst s a n
  | .filling b => loadMem req inst (bankFilled b s) a n
  | .secure => (true, List.replicate n 0, secDeny s)
  | .asleep => (true, List.replicate n 0, s)
  | .nothing c => (true, List.replicate n 0, if c then fabricErr s else s)
  | _ =>
    let (bs, s1) := readWords s (parts4 a n)
    (true, slice bs (a % 4) n, s1)

/-- A read of bytes by a requester; at the first uncorrectable word it ends with zeros. -/
def readParts (req inst : Nat) (s : State) : List (Nat × Nat) → Bool × List Byte × State
  | [] => (true, [], s)
  | (a, n) :: t =>
    let (ok, bs, s1) := readPart req inst s a n
    if !ok then (false, bs ++ List.replicate ((t.map (·.2)).sum) 0, s1)
    else
      let (ok2, bs2, s2) := readParts req inst s1 t
      (ok2, bs ++ bs2, s2)

/-- A fabric read (R506, R507). -/
def fabRead (req inst : Nat) (s : State) (a n : Nat) : Bool × List Byte × State := readParts req inst s (parts8 a n)

/-- Bytes stored in memory, once nothing they meet stops them. -/
def storePart (req inst a : Nat) (bs : List Byte) (s t : State) : Except Fault State :=
  match writeStop s a bs with
  | some e => .error e
  | none => .ok (storeMem req inst t a bs)

/-! ### Copies by the queue manager (R326, R332, R340) -/

/-- A part of a copy inside one aligned 8-byte word of memory. DESIGN CHOICE (log 59): the queue manager is no master of the
control fabric (R509), so what it copies onto registers or tables is ignored and counted as a fabric error. -/
def copyPart (a : Nat) (bs : List Byte) (s : State) : Except Fault State :=
  match fabPlace s a with
  | .mem => storePart 10 0 a bs s s
  | .filling b => storePart 10 0 a bs s (bankFilled b s)
  | .secure => .ok (secDeny s)
  | .asleep => .ok (fabricErr s)
  | .nothing c => .ok (if c then fabricErr s else s)
  | _ => .ok (fabricErr s)

/-- The parts of a copy, one after another. -/
def copyParts (base : Nat) (bs : List Byte) (s : State) : List (Nat × Nat) → Except Fault State
  | [] => .ok s
  | (a, n) :: t =>
    match copyPart a (slice bs (a - base) n) s with
    | .error e => .error e
    | .ok s1 => copyParts base bs s1 t

/-- READ by the controller (R326): the frame is copied to QMG_OP_ADDR, up to MAX bytes; a word with an uncorrectable error
as zeros, with the result MEMERR (R340, R504). -/
def opRead (q : Nat) (s : State) : Except Fault State :=
  let x := queueSt s q
  match x.frames[x.read]? with
  | none => .ok (opResult 1 0 s)
  | some f =>
    let a := fld (regW s Reg.QMG_OP_ADDR_LO.base) 31 0 + 2 ^ 32 * fld (regW s Reg.QMG_OP_ADDR_HI.base) 7 0
    let m := fld (regW s Reg.QMG_OP_MAX.base) 13 0
    let bs := (frameBytes f).take m
    let bad := f.bad.filter (fun w => decide (w.1 < bs.length))
    match copyParts a bs (modQueue q (fun y => { y with read := y.read + 1 }) s) (parts8 a bs.length) with
    | .error e => .error e
    | .ok t => .ok (opResult (if bad ≠ [] then 2 else if m < f.bytes.length then 3 else 0) bs.length (frameReport bad t))

/-- An operation on a queue (R326, R340). -/
def queueOp (op q : Nat) (s : State) : Except Fault State :=
  if op = 1 ∧ opAllowed s q then opRead q s else .ok (queueKeep op q s)

/-- A write to QMG_OP. -/
def qmgOp (v : Word) (s : State) : Except Fault State := queueOp (fld v 18 16) (fld v 8 0) s

/-- A write to QMG_TXS_GO (R332, R340). -/
def txsGo (v : Word) (s : State) : State :=
  let q := fld v 8 0
  let put (res : Nat) (t : State) : State := setN Reg.QMG_TXS_STAT.base (res * 2 ^ 16) t
  let a := fld (regW s Reg.QMG_TXS_ADDR_LO.base) 31 0 + 2 ^ 32 * fld (regW s Reg.QMG_TXS_ADDR_HI.base) 7 0
  let n := fld (regW s Reg.QMG_TXS_LEN.base) 13 0
  if !qEn s q || !qTx s q then put 4 s else
    let (ok, bs, s1) := fabRead 10 0 s a n
    if !ok then put 2 s1 else
      let (stored, s2) := enqueueFrame q bs s1
      put (if stored then 0 else 1) s2

/-! ### Writes of words -/

/-- A write of a register or table word with its effect; `path` is the ingest path of the writer (R108: 3 for
commands, 4 for Druora cores). -/
def writeWord (path a : Nat) (v : Word) (s : State) : Except Fault State :=
  match liveSpec s a with
  | none => .ok s
  | some (r, i, j) =>
    let b := r.base
    if b = Reg.SYS_RENDER_RATE.base then
      if fld v 1 0 = 3 then .error .renderRate3 else plainWrite r i a v s
    else if b = Reg.SYS_TAG_W3.base then .ok (submitW3 v s)
    else if b = Reg.SEC_LC_REQ.base then .ok (lcWrite v s)
    else if b = Reg.HLT_RETIRE.base then .ok (retireWrite v s)
    else if b = Reg.PAR_CTRL.base then .ok (if bit v 0 then handover s else s)
    else if b = Reg.TIM_PPS_SEC_LO.base then .ok (ppsWrite false v s)
    else if b = Reg.TIM_PPS_SEC_HI.base then .ok (ppsWrite true v s)
    else if b = Reg.TIM_TRIG3.base then .ok (trigWrite i v s)
    else if b = Reg.QMG_OP.base then qmgOp v s
    else if b = Reg.QMG_TXS_GO.base then if txsBad v s then .error .badLength else .ok (txsGo v s)
    else if (b = Reg.COR_SET_BASE_LO.base ∨ b = Reg.COR_SET_BASE_HI.base) ∧ baseInUse r i a v s then .error .filterInUse
    else if b = Reg.INGEST7.base then .ok (ingestSubmit path i v s)
    else if b = Reg.SLV_REFRESH.base then .ok (slvRefresh v s)
    else if b = Reg.DSX_SUBMIT_W.base ∧ i = 3 then .ok (dsxSubmit v s)
    else if b = Reg.DRU_DOORBELL.base then .ok (doorbell v s)
    else if b = Reg.CORE_CMD.base then .ok (coreCmd i v s)
    else if b = Reg.MEM_SCRATCH_PWR.base then .ok (scratchPower v s)
    else if b = Reg.DMA_REQ_ADD.base then .ok (reqAdd (i + 1) v s)
    else if b = Reg.DMA_REQ_CNT.base then .ok (creditSet (i + 1) (fld v 15 0) s)
    else match dmaOf a with
      | some (eng, c) => dmaWrite eng c r (i + 0 * j) a v s
      | none => plainWrite r i a v s

/-! ### Writes of bytes (R506, R507) -/

/-- Bytes put into a word at an offset. -/
def patchWord (w : Word) (ofs : Nat) (bs : List Byte) : Word :=
  wordOf (ofBytes ((bytesOf 4 w.toNat).mapIdx (fun k b => if ofs ≤ k ∧ k < ofs + bs.length then bs.getD (k - ofs) 0 else b)))

/-- A write of words inside one aligned 8-byte word: a register block ignores and counts part of a word; a table
takes the bytes into its word (R506, R507). -/
def writeWords (path : Nat) (blk : Bool) (a : Nat) (bs : List Byte) (s : State) : List Nat → Except Fault State
  | [] => .ok s
  | w :: ws =>
    let lo := max a w
    let part := slice bs (lo - a) (min (a + bs.length) (w + 4) - lo)
    if part.length = 4 then
      match writeWord path w (wordOf (ofBytes part)) s with
      | .error e => .error e
      | .ok t => writeWords path blk a bs t ws
    else if blk then writeWords path blk a bs (fabricErr s) ws
    else
      match writeWord path w (patchWord (regW s w) (lo - w) part) s with
      | .error e => .error e
      | .ok t => writeWords path blk a bs t ws

/-- A write inside one aligned 8-byte word by a requester. -/
def writePart (path req inst : Nat) (a : Nat) (bs : List Byte) (s : State) : Except Fault State :=
  match fabPlace s a with
  | .mem => storePart req inst a bs s s
  | .filling b => storePart req inst a bs s (bankFilled b s)
  | .secure => .ok (secDeny s)
  | .asleep => .ok (fabricErr s)
  | .nothing c => .ok (if c then fabricErr s else s)
  | .block => writeWords path true a bs s (parts4 a bs.length)
  | .table => writeWords path false a bs s (parts4 a bs.length)

/-- The parts of a write, one after another. -/
def writeParts (path req inst base : Nat) (bs : List Byte) (s : State) : List (Nat × Nat) → Except Fault State
  | [] => .ok s
  | (a, n) :: t =>
    match writePart path req inst a (slice bs (a - base) n) s with
    | .error e => .error e
    | .ok s1 => writeParts path req inst base bs s1 t

/-- A fabric write (R506, R507). -/
def fabWrite (path req inst : Nat) (s : State) (a : Nat) (bs : List Byte) : Except Fault State :=
  writeParts path req inst a bs s (parts8 a bs.length)

/-- A fabric read of one aligned word. -/
def fabReadWord (req inst : Nat) (s : State) (a : Nat) : Bool × Word × State :=
  let (ok, bs, s1) := fabRead req inst s a 4
  (ok, wordOf (ofBytes bs), s1)

/-- A fabric write of one aligned word. -/
def fabWriteWord (path req inst : Nat) (s : State) (a : Nat) (v : Word) : Except Fault State :=
  fabWrite path req inst s a (bytesOf 4 v.toNat)

end Sys2Proof.Machine
end

