-- ==== Sys2Proof/Machine/Cmd.lean ====
section
/-! DEFINITION. The control agent: the host port, command sources, the command opcodes, remote frames and event
frames (R433 to R452). -/

namespace Sys2Proof.Machine

open Sys2Proof

/-- The control agent changed. -/
def modSys (f : SysSt → SysSt) (s : State) : State := { s with sys := f s.sys }

/-! ### The host port (R433 to R437) -/

/-- Bytes of a halfword stored under a lane mask. -/
def storeLanes (a data lanes : Nat) (s : State) : State :=
  let s1 := if lanes.testBit 0 then storeMem 10 0 s a [byteOf data 0] else s
  if lanes.testBit 1 then storeMem 10 0 s1 (a + 1) [byteOf data 1] else s1

/-- A collision that warns the host: the host's access was granted second, or both in one cycle (R437). -/
def hostWarned (collide : Nat) : Bool := collide == 1 || collide == 2

/-- A host write of a halfword (R435): a lower one is held, an upper one stores with what is held for its word.
`collide`: 0 none, 1 with an internal read, 2 with an internal write of the same word, which leaves one of the two
values; 3 and 4 the same where the host's access was granted first, so that only the internal one is warned (R437).
The words DRV_REQ and DRV_CTRL take no write before the window opens (R427). -/
def hostWrite (half : Nat) (lo hi : Bool) (data collide : Nat) (s : State) : State :=
  let h := half % 2 ^ 16
  let lanes := (if lo then 1 else 0) + (if hi then 2 else 0)
  let s1 := modSys (fun x => { x with hbusy := hostWarned collide }) s
  if h % 2 = 0 then modSys (fun x => { x with wrLatch := some (h, data % 2 ^ 16, lanes) }) s1
  else
    let (kept, s2) := if collide = 2 ∨ collide = 4 then drawBit s1 else (s.start.stage == 2 && decide (16 ≤ h ∧ h < 22), s1)
    let s3 := modSys (fun x => { x with wrLatch := none }) s2
    if kept then s3
    else
      match s.sys.wrLatch with
      | some (h0, d0, l0) =>
        storeLanes (2 * h) data lanes (if h0 + 1 = h then storeLanes (2 * h0) d0 l0 s3 else s3)
      | none => storeLanes (2 * h) data lanes s3

/-- A host read of a halfword (R435); one that meets an internal write returns undefined data. `collide`: 0 none, 1 with an
internal write, 3 with one where the host's access was granted first (R437). -/
def hostRead (half collide : Nat) (s : State) : State :=
  let h := half % 2 ^ 16
  let s1 := modSys (fun x => { x with hbusy := hostWarned collide }) s
  let (v, s2) :=
    if collide ≠ 0 then drawNat s1 (2 ^ 32)
    else
      let (_, bs, t) := loadMem 10 0 s1 (h / 2 * 4) 4
      (ofBytes bs, t)
  if h % 2 = 0 then modSys (fun x => { x with hd := v % 2 ^ 16, rdLatch := some (h + 1, v / 2 ^ 16) }) s2
  else
    match s.sys.rdLatch with
    | some (a, d) =>
      if a = h then modSys (fun x => { x with hd := d, rdLatch := none }) s1
      else modSys (fun x => { x with hd := v / 2 ^ 16, rdLatch := none }) s2
    | none => modSys (fun x => { x with hd := v / 2 ^ 16 }) s2

/-- HIRQ_N is low (R450). -/
def hirqLow (s : State) : Bool :=
  let en := rd32 s (ctlBlock + 0x28)
  powered s && (s.start.stage == 3 ||
    (en.testBit 0 && rd32 s (ctlBlock + 0x08) != rd32 s (ctlBlock + 0x0C)) ||
    (en.testBit 1 && rd32 s (ctlBlock + 0x20) != rd32 s (ctlBlock + 0x24)))

/-! ### Sources and responses (R440, R441, R445, R448) -/

/-- A source without commands. -/
def sourceZero : SourceSt := ⟨[], [], []⟩

/-- A command source. -/
def sourceOf (s : State) (src : Nat) : SourceSt := tabGet sourceZero s.sys.sources src

/-- A command source changed. -/
def modSource (src : Nat) (f : SourceSt → SourceSt) (s : State) : State :=
  modSys (fun x => { x with sources := tabMod sourceZero src f x.sources }) s

/-- The command interpreter works: a start has passed step 2. -/
def cmdsOn (s : State) : Bool := powered s && decide (2 ≤ s.start.stage)

/-- The response ring has no room (R440). -/
def ringFull (s : State) : Bool := decide (2048 ≤ wrapSub (rd32 s (ctlBlock + 0x08)) (rd32 s (ctlBlock + 0x0C)))

/-- A taken command that is to be answered `DISCARDED` without execution is marked in its FLAGS. -/
def cmdDiscard : Nat := 256

/-- A write to `DSX_SUBMIT_W3` waits while CMD is back-pressured (R188, R445). -/
def dsxWaits (s : State) (a : Nat) : Bool := a == Reg.DSX_SUBMIT_W.at 3 && dsxBusy s

/-- A source is stopped whatever its next command is (R440, R445): a tag of it is held, or its responses find no room. -/
def srcStopped (s : State) (src : Nat) : Bool :=
  s.heldTags.any (fun h => h.src == some src) || (src == 0 && !(sourceOf s 0).rsps.isEmpty && ringFull s)

/-- A source has a command ready (R445): one is taken, and nothing holds it back. -/
def srcReady (s : State) (src : Nat) : Bool :=
  match (sourceOf s src).taken with
  | [] => false
  | r :: _ => decide (r.flags < cmdDiscard) && !srcStopped s src && decide (1 ≤ r.opcode ∧ r.opcode ≤ 11) &&
    !((r.opcode == 2 || r.opcode == 3) && dsxWaits s r.addr) && !(decide (6 ≤ r.opcode ∧ r.opcode ≤ 9) && !s.heldTags.isEmpty)

/-- It is a source's turn (R445): round robin from the source served last, no source before it has a command ready. -/
def srcTurn (s : State) (src : Nat) : Bool :=
  (((List.range 25).map (fun (k : Nat) => (s.sys.lastSrc + 1 + k) % 25)).takeWhile (· != src)).all (fun r => !srcReady s r)

/-- A source's next command, as `p` describes it, may begin (R440, R445): it is the source's turn, nothing is taken that
differs, no tag of the source is held, and the host's responses find room. -/
def cmdReady (s : State) (src : Nat) (p : CmdRec → Bool) : Bool :=
  cmdsOn s && decide (src ≤ 24) &&
    (match (sourceOf s src).taken with
      | [] => true
      | r :: _ => decide (r.flags < cmdDiscard) && p r) &&
    !srcStopped s src && srcTurn s src

/-- A response record (R441) and its data records (R444) as records of 16 bytes; STATUS 0 records carry their data. -/
def rspRecords (s : State) (r : RspRec) : List (List Byte) :=
  let head := bytesOf 1 r.opcode ++ bytesOf 1 r.status ++ bytesOf 2 r.tag ++ bytesOf 4 (s.start.epoch % 2 ^ 24) ++
    bytesOf 4 r.done ++ bytesOf 4 r.data
  head :: (List.range ((r.words.length + 3) / 4)).map (fun k =>
    (List.range 4).flatMap (fun j => bytesOf 4 (r.words.getD (4 * k + j) 0).toNat))

/-- Records cut into frames of `n`, at most `fuel` of them. -/
def recFrames (n : Nat) : Nat → List (List Byte) → List (List (List Byte))
  | 0, _ => []
  | _ + 1, [] => []
  | fuel + 1, l => l.take n :: recFrames n fuel (l.drop n)

/-- The device's session (R451). -/
def sessionNow (s : State) : Nat :=
  (regW s Reg.SYS_SESSION_LO.base).toNat + 2 ^ 32 * (regW s Reg.SYS_SESSION_HI.base).toNat

/-- A remote frame's payload (R446), signed under a key slot, with the device's next SEQ of that slot (R447). -/
def remotePayload (s : State) (kind key part last : Nat) (recs : List (List Byte)) : List Byte :=
  let head := bytesOf 2 1 ++ bytesOf 1 kind ++ bytesOf 1 key ++ bytesOf 8 (sessionNow s) ++
    bytesOf 8 (s.start.epoch * 2 ^ 40 + tabGet 0 s.sys.sentSeq key) ++ bytesOf 2 recs.length ++ bytesOf 1 part ++
    bytesOf 1 last ++ List.replicate 8 0
  let body := head ++ recs.flatten
  body ++ (hmacSha256 (keyOf s key) body).take 16

/-- A remote frame sent (R447 to R449). -/
def remoteSend (port ip udp kind key part last : Nat) (recs : List (List Byte)) (s : State) : State :=
  let pay := remotePayload s kind key part last recs
  modSys (fun x => { x with sentSeq := tabMod 0 key (· + 1) x.sentSeq })
    (sendOwn port (List.replicate 42 0 ++ pay) (some (.udp port ip udp pay)) s)

/-- The frames of a queue beyond the first `k` leave at once, ahead of a restart that would take them. -/
def sendLast (q k : Nat) (s : State) : State :=
  ((queueSt s q).frames.drop k).foldl (fun t f =>
    if qPort s q < 8 then emit (f.msg.getD (.eth (qPort s q) (f.bytes.drop 32))) t
    else linkWire (qPort s q - 8) (f.bytes.drop 32) t) s

/-- One frame of an answer sent to a source (R447, R448, R377). -/
def answerFrame (src : Nat) (c : ReplyCtx) (count : Nat) (s : State) (f : List (List Byte) × Nat) : State :=
  let last := if f.2 + 1 = count then 1 else 0
  if src ≤ 16 then remoteSend c.port c.ip c.udp 2 (src - 1) f.2 last f.1 s
  else
    let n := src - 17
    (sendQueued n (linkRspQueue s n) 6 0 0 (bytesOf 1 f.1.length ++ bytesOf 1 1 ++ bytesOf 1 f.2 ++ bytesOf 1 last ++
      List.replicate 12 0 ++ f.1.flatten) s).2

/-- The answer to a command frame sent in as many frames as it takes (R448). -/
def sendAnswer (src : Nat) (c : ReplyCtx) (s : State) : State :=
  let recs := c.rsps.flatMap (rspRecords s)
  let fs := recFrames (if src ≤ 16 then 560 else 255) recs.length recs
  fs.zipIdx.foldl (answerFrame src c fs.length) s

/-- A response of a source: of the host it waits for the ring, of a frame it joins the frame's answer, which leaves
with its last response. `quiet`: NORESP with status OK. -/
def respond (src : Nat) (quiet : Bool) (r : RspRec) (s : State) : State :=
  match src, (sourceOf s src).reply with
  | _ + 1, c :: cs =>
    let c1 := { c with left := c.left - 1, rsps := if quiet then c.rsps else c.rsps ++ [r] }
    if c1.left = 0 then modSource src (fun x => { x with reply := cs }) (sendAnswer src c1 s)
    else modSource src (fun x => { x with reply := c1 :: cs }) s
  | _, _ => if quiet then s else modSource src (fun x => { x with rsps := x.rsps ++ [r] }) s

/-- Marked commands at the head of a source answered `DISCARDED` (R448, R451), at most `fuel` of them. -/
def dropMarked (src : Nat) : Nat → State → State
  | 0, s => s
  | fuel + 1, s =>
    match (sourceOf s src).taken with
    | r :: t =>
      if r.flags < cmdDiscard then s
      else dropMarked src fuel (respond src false ⟨r.opcode, 4, r.tag, 0, 0, []⟩ (modSource src (fun x => { x with taken := t }) s))
    | [] => s

/-- A command of a source ends: it is answered, and marked ones after it with it; the turn passes on (R445). -/
def finish (src : Nat) (noresp : Bool) (r : RspRec) (s : State) : State :=
  let s0 := modSys (fun x => { x with lastSrc := src }) s
  let s1 := respond src (noresp && r.status == 0) r (modSource src (fun x => { x with taken := x.taken.tail }) s0)
  dropMarked src (sourceOf s1 src).taken.length s1

/-- A command that is a single access: DONE is 1 on OK. -/
def finishOne (src op tag : Nat) (noresp : Bool) (status data : Nat) (s : State) : State :=
  finish src noresp ⟨op, status, tag, if status = 0 then 1 else 0, data, []⟩ s

/-! ### Opcodes (R442 to R444) -/

/-- A taken record is this opcode with this TAG and NORESP. -/
def recIs (op tag : Nat) (noresp : Bool) (r : CmdRec) : Bool :=
  r.opcode == op && r.tag == tag && Nat.testBit r.flags 0 == noresp

/-- A command status from the address and a read's success (R443). -/
def readStatus (s : State) (a : Nat) : Nat := if !assigned s a then 1 else if secBase ≤ a ∧ a < 0x100000 then 3 else 0

/-- One aligned word read by a command: status, word, state. -/
def cmdRead (s : State) (a : Nat) : Nat × Word × State :=
  if readStatus s a ≠ 0 then (readStatus s a, 0, s)
  else
    let (ok, v, s1) := fabReadWord 10 0 s a
    (if ok then 0 else 2, v, s1)

/-- The host may write the secure region (R443): DEVELOP. -/
def hostKeys (s : State) (src : Nat) : Bool := src == 0 && s.fuse.life == 1

/-- One aligned word written by a command: status and state. -/
def cmdWrite (src a : Nat) (v : Word) (s : State) : Except Fault (Nat × State) :=
  if readStatus s a = 3 ∧ hostKeys s src then .ok (0, secHostWrite a v s)
  else if readStatus s a ≠ 0 then .ok (readStatus s a, s)
  else
    match fabWriteWord 3 10 0 s a v with
    | .error e => .error e
    | .ok t => .ok (0, t)

/-- `READ`. -/
def cmdREAD (src tag a : Nat) (noresp : Bool) (s : State) : Except Fault State :=
  if !cmdReady s src (fun r => recIs 1 tag noresp r && r.addr == a) then .ok s
  else if a % 4 ≠ 0 then .error .unalignedAddr
  else
    let (st, v, s1) := cmdRead s a
    .ok (finishOne src 1 tag noresp st (if st = 0 then v.toNat else 0) s1)

/-- `WRITE`. -/
def cmdWRITE (src tag a : Nat) (noresp : Bool) (v : Word) (s : State) : Except Fault State :=
  if !cmdReady s src (fun r => recIs 2 tag noresp r && r.addr == a && r.data == v.toNat) || dsxWaits s a then .ok s
  else if a % 4 ≠ 0 then .error .unalignedAddr
  else
    match cmdWrite src a v s with
    | .error e => .error e
    | .ok (st, s1) => .ok (finishOne src 2 tag noresp st 0 s1)

/-- `MODIFY`: LSB and WIDTH of its mask; the secure region is refused to every source. -/
def cmdMODIFY (src tag a : Nat) (noresp : Bool) (lsb width : Nat) (v : Word) (s : State) : Except Fault State :=
  if !cmdReady s src (fun r => recIs 3 tag noresp r && r.addr == a && r.count % 32 == lsb && r.count / 256 % 32 + 1 == width &&
      r.data == v.toNat) || dsxWaits s a then .ok s
  else if a % 4 ≠ 0 then .error .unalignedAddr
  else
    let (st, old, s1) := cmdRead s a
    if st ≠ 0 then .ok (finishOne src 3 tag noresp st 0 s1)
    else
      let m := wordOf ((2 ^ width - 1) * 2 ^ lsb)
      match fabWriteWord 3 10 0 s1 a (mergeMask m old (v <<< lsb)) with
      | .error e => .error e
      | .ok s2 => .ok (finishOne src 3 tag noresp 0 old.toNat s2)

/-- A burst's words lie in one register block, or one table window, or in memory (R442). -/
def burstInside (a n : Nat) : Bool :=
  let z := a + 4 * n - 1
  if 0x10000000 ≤ a ∧ a < 0x101E0000 then a / 0x10000 == z / 0x10000
  else
    match windows.find? (fun w => decide (w.1 ≤ a) && decide (a < w.1 + w.2.1)) with
    | some w => decide (z < w.1 + w.2.1)
    | none => true

/-- A burst meets the secure region. -/
def burstSecret (a n : Nat) : Bool := decide (a < 0x100000) && decide (secBase < a + 4 * n)

/-- A host-source buffer lies in the buffer area (R438). -/
def bufferInside (buf n : Nat) : Bool := decide (0x18200 ≤ buf) && decide (buf + 4 * n ≤ 0x20000)

/-- What R442 puts outside the contract for a burst. -/
def burstFault (src a n buf : Nat) : Option Fault :=
  if a % 4 ≠ 0 then some .unalignedAddr
  else if n = 0 ∨ 4096 < n ∨ !burstInside a n then some .badBurst
  else if src = 0 ∧ !bufferInside buf n then some .badBuffer
  else none

/-- Words of a burst read up to the first that fails: status, words, state. -/
def burstWords : Nat → Nat → State → Nat × List Word × State
  | 0, _, s => (0, [], s)
  | n + 1, a, s =>
    let (st, v, s1) := cmdRead s a
    if st ≠ 0 then (st, [], s1)
    else
      let (st2, vs, s2) := burstWords n (a + 4) s1
      (st2, v :: vs, s2)

/-- Words of a burst written up to the first that fails: status, how many, state. -/
def burstStore (src : Nat) : Nat → List Word → State → Except Fault (Nat × Nat × State)
  | _, [], s => .ok (0, 0, s)
  | a, v :: vs, s =>
    match cmdWrite src a v s with
    | .error e => .error e
    | .ok (st, s1) =>
      if st ≠ 0 then .ok (st, 0, s1)
      else
        match burstStore src (a + 4) vs s1 with
        | .error e => .error e
        | .ok (st2, k, s2) => .ok (st2, k + 1, s2)

/-- `BURST_READ`: to the host's buffer, or as data records of the response. -/
def cmdBurstRead (src tag a : Nat) (noresp : Bool) (n buf : Nat) (s : State) : Except Fault State :=
  if !cmdReady s src (fun r => recIs 4 tag noresp r && r.addr == a && r.count == n && (src != 0 || r.data == buf)) then .ok s
  else
    match burstFault src a n buf with
    | some e => .error e
    | none =>
      if burstSecret a n then .ok (finish src noresp ⟨4, 3, tag, 0, 0, []⟩ s)
      else
        let (st, vs, s1) := burstWords n a s
        if src = 0 then
          .ok (finish src noresp ⟨4, st, tag, vs.length, 0, []⟩ (storeMem 10 0 s1 buf (vs.flatMap (fun v => bytesOf 4 v.toNat))))
        else .ok (finish src noresp ⟨4, st, tag, vs.length, 0, vs⟩ s1)

/-- The words of a burst write: the host's buffer, or the command's data records. -/
def burstData (src n buf : Nat) (ws : List Word) (s : State) : List Word :=
  if src = 0 then (List.range n).map (fun k => wordOf (rd32 s (buf + 4 * k)))
  else (List.range n).map (fun k => ws.getD k 0)

/-- `BURST_WRITE`. -/
def cmdBurstWrite (src tag a : Nat) (noresp : Bool) (n buf : Nat) (ws : List Word) (s : State) : Except Fault State :=
  if !cmdReady s src (fun r => recIs 5 tag noresp r && r.addr == a && r.count == n &&
      (if src = 0 then r.data == buf else r.words == ws)) then .ok s
  else
    match burstFault src a n buf with
    | some e => .error e
    | none =>
      if burstSecret a n ∧ !hostKeys s src then .ok (finish src noresp ⟨5, 3, tag, 0, 0, []⟩ s)
      else
        match burstStore src a (burstData src n buf ws s) s with
        | .error e => .error e
        | .ok (st, k, s1) => .ok (finish src noresp ⟨5, st, tag, k, 0, []⟩ s1)

/-- A tag inserted by a command, once no tag is held (R54, R69). -/
def cmdTag (src op tag : Nat) (noresp : Bool) (p : CmdRec → Bool) (g : TagRec) (s : State) : State :=
  if !cmdReady s src (fun r => recIs op tag noresp r && p r) || !s.heldTags.isEmpty then s
  else finishOne src op tag noresp 0 0 (injectFrom (some src) g s)

/-- TARGET of a tag-inserting record. -/
def recTarget (r : CmdRec) : Nat := r.addr % 2 ^ 40 + 2 ^ 40 * (r.data % 2 ^ 24)

/-- `COMMIT`: `ABSENT` where UNIT names no unit that honours it (R443). -/
def cmdCommit (src tag target unit : Nat) (noresp : Bool) (s : State) : State :=
  let p (r : CmdRec) : Bool := recTarget r == target && r.data / 2 ^ 24 == unit
  if unit ≠ 0xFF ∧ (!unitPresent s unit ∨ !honoursType unit tCOMMIT) then
    if cmdReady s src (fun r => recIs 6 tag noresp r && p r) then finishOne src 6 tag noresp 1 0 s else s
  else cmdTag src 6 tag noresp p (mkTag tCOMMIT unit 0xFF 0 target) s

/-- `FEATURE_REQUEST`: in the window it writes DRV_REQ and DRV_CTRL. -/
def cmdFeature (src tag : Nat) (noresp : Bool) (request : Word) (close : Bool) (s : State) : State :=
  if !cmdReady s src (fun r => recIs 10 tag noresp r && r.data == request.toNat && Nat.testBit r.count 0 == close) then s
  else if s.start.stage = 3 then
    let s1 := wr32 (storeBytes s 32 (bytesOf 8 request.toNat)) 40 (if close then 3 else 1)
    finishOne src 10 tag noresp 0 (regW s Reg.FEA_OFFER_LO.base).toNat s1
  else finishOne src 10 tag noresp 0 (regW s Reg.FEA_ACCEPT_LO.base).toNat s

/-! ### Taking commands and writing responses -/

/-- A command record's fields from its 16 bytes (R441). -/
def cmdRec (b : List Byte) : CmdRec :=
  ⟨getLE b 0 1, getLE b 1 1, getLE b 2 2, getLE b 4 5, getLE b 9 3, getLE b 12 4, []⟩

/-- A command record is taken from the host ring (R440). -/
def commandTake (s : State) : State :=
  let wr := rd32 s (ctlBlock + 0x00)
  let rd := rd32 s (ctlBlock + 0x04)
  if !cmdsOn s || wr == rd then s
  else
    let (_, bs, s1) := loadMem 10 0 s (cmdRing + rd % 2048 * 16) 16
    wr32 (modSource 0 (fun x => { x with taken := x.taken ++ [cmdRec bs] }) s1) (ctlBlock + 0x04) ((rd + 1) % 2 ^ 32)

/-- The host's oldest waiting response is written once the ring has room (R440). -/
def responseWrite (s : State) : State :=
  match (sourceOf s 0).rsps with
  | [] => s
  | r :: t =>
    if ringFull s then s
    else
      let wr := rd32 s (ctlBlock + 0x08)
      let s1 := storeBytes s (rspRing + wr % 2048 * 16) ((rspRecords s r).headD [])
      wr32 (modSource 0 (fun x => { x with rsps := t }) s1) (ctlBlock + 0x08) ((wr + 1) % 2 ^ 32)

/-- The commands of a frame's records (R444, R448): a burst write takes its data records; one whose data runs past the
end, and all after it, are marked. -/
def parseRecs : Nat → List (List Byte) → List CmdRec
  | 0, _ => []
  | _ + 1, [] => []
  | fuel + 1, b :: t =>
    let r := cmdRec b
    if r.opcode ≠ 5 then r :: parseRecs fuel t
    else
      let n := (r.count + 3) / 4
      if t.length < n then (b :: t).map (fun x => { cmdRec x with flags := cmdDiscard })
      else
        let ws := (t.take n).flatMap (fun d => (List.range 4).map (fun k => wordOf (getLE d (4 * k) 4)))
        { r with words := ws.take r.count } :: parseRecs fuel (t.drop n)

/-- A byte string cut into records of 16 bytes. -/
def records (n : Nat) (bs : List Byte) : List (List Byte) := (List.range n).map (fun k => slice bs (16 * k) 16)

/-- A frame's commands queued at a source with the context of its answer; `stale`: none may execute (R451). -/
def takeFrame (src : Nat) (stale : Bool) (port ip udp : Nat) (cs : List CmdRec) (s : State) : State :=
  let cs1 := if stale then cs.map (fun c => { c with flags := cmdDiscard }) else cs
  let s1 := modSource src (fun x => { x with
    taken := x.taken ++ cs1, reply := x.reply ++ [⟨cs1.length, [], ip, udp, port⟩] }) s
  dropMarked src (sourceOf s1 src).taken.length s1

/-- A command frame refused (R446): counted, and reported at the tick's end. -/
def authFail (key : Nat) (s : State) : State :=
  modSys (fun x => { x with authKey := if x.authCnt = 0 then key else x.authKey, authCnt := x.authCnt + 1 })
    (stick Reg.SYS_STAT.base 0 (count Reg.SYS_AUTH_FAIL_CNT.base s))

/-- A remote control payload (R446, R447, R451). -/
def remotePayloadIn (port ip udp : Nat) (p : List Byte) (s : State) : State :=
  let key := getLE p 3 1
  let n := getLE p 20 2
  let body := p.take (32 + 16 * n)
  if getLE p 0 2 ≠ 1 ∨ getLE p 2 1 ≠ 1 ∨ n = 0 ∨ 560 < n ∨ p.length ≠ 48 + 16 * n ∨ 16 ≤ key ∨ !keyValid s key ∨
      (hmacSha256 (keyOf s key) body).take 16 ≠ p.drop (32 + 16 * n) then authFail key s
  else
    let seq := getLE p 12 8
    if seq ≤ keySeq s key then count Reg.SYS_REPLAY_CNT.base s
    else
      let s1 := storeBytes s (secBase + 0x200 + 8 * key) (bytesOf 8 seq)
      let stale : Bool := getLE p 4 8 != sessionNow s
      takeFrame (key + 1) stale port ip udp (parseRecs n (records n (p.drop 32)))
        (when stale (count Reg.SYS_SESSION_MISS_CNT.base) s1)

/-- A received frame of a queue with CONSUMER 5 (R446). -/
def remoteFrame (q : Nat) (s : State) : State :=
  if !cmdsOn s || !accepted s 10 || !bit (actW s Reg.SYS_CTRL.base) 0 then s
  else
    match consume 5 q s with
    | none => s
    | some (pre, bs, s1) =>
      match udpOf bs with
      | none => s1
      | some u =>
        if u.dport ≠ fld (actW s Reg.SYS_CTRL.base) 31 16 then s1
        else remotePayloadIn (getLE pre 2 1) u.src u.sport u.payload s1

/-- A COMMAND frame of a link is taken from its queue (R377). -/
def linkCommand (q : Nat) (s : State) : State :=
  if !cmdsOn s then s
  else
    match takeLink 6 q s with
    | none => s
    | some (n, bs, _, s1) =>
      let p := lfPayload bs
      let k := getLE p 0 1
      if getLE p 1 1 ≠ 0 ∨ k = 0 ∨ p.length < 16 + 16 * k then s1
      else takeFrame (17 + n) false 0 0 0 (parseRecs k (records k (p.drop 16))) s1

/-- The event frame of a tick (R449). -/
def eventFrame (s : State) : State :=
  let cfg := actW s Reg.SYS_EVT_FWD_CFG.base
  if !running s || s.sys.fwd.isEmpty || !bit (actW s Reg.SYS_CTRL.base) 1 || s.sys.fwdTick == some (nowTick s) then s
  else
    modSys (fun x => { x with fwd := x.fwd.drop 560, fwdTick := some (nowTick s) })
      (remoteSend (fld cfg 10 8) (actW s Reg.SYS_EVT_FWD_IP.base).toNat (fld cfg 31 16) 3 (fld cfg 3 0) 0 0 (s.sys.fwd.take 560) s)

/-- The first held tag whose unit has room and holds no earlier one, and the others. -/
def heldFirst (s : State) (seen : List Nat) : List HeldTag → Option (HeldTag × List HeldTag)
  | [] => none
  | h :: t =>
    if !seen.contains h.unit && !tagBlocked { s with heldTags := [] } h.unit h.tag then some (h, t)
    else (heldFirst s (h.unit :: seen) t).map (fun p => (p.1, h :: p.2))

/-- A held tag enters its unit's queue once there is room (R54). -/
def heldRelease (s : State) : State :=
  match heldFirst s [] s.heldTags with
  | none => s
  | some (h, t) => modUnit h.unit (fun x => { x with transit := x.transit ++ [h.tag] }) { s with heldTags := t }

end Sys2Proof.Machine
end

