-- ==== Sys2Proof/Machine/DmaMove.lean ====
section
/-! DEFINITION. What a DMA chain does on the fabric: descriptors fetched, bursts moved and completed (R536 to R545). -/

namespace Sys2Proof.Machine

open Sys2Proof

/-- The requester code of an engine in the error log (R533). -/
def dmaReq (b : Bool) : Nat := if b then 4 else 3

/-- A sample's 24 bits from its bytes in a source layout (R542). -/
def packGet (w : Nat) (bs : List Byte) : Nat := (if w = 2 then ofBytes bs / 256 else ofBytes bs) % 2 ^ 24

/-- A sample's bytes in a destination layout (R542). -/
def packPut (w v : Nat) : List Byte :=
  match w with
  | 1 => bytesOf 3 v
  | 2 => bytesOf 4 (v * 256)
  | _ => bytesOf 4 (lowBits 32 (signed 24 v))

/-- Source bytes as destination bytes: a copy, or sample by sample. -/
def repack (d : DmaDesc) (bs : List Byte) : List Byte :=
  if d.sw = 0 then bs
  else
    let n := sampleSize d.sw
    (List.range (bs.length / n)).flatMap (fun k => packPut d.dw (packGet d.sw (slice bs (k * n) n)))

/-- The running channel of an engine fetches and checks its descriptor (R540). -/
def descFetch (b : Bool) (s : State) : Except Fault State :=
  match (dmaEng s b).run with
  | none => .ok s
  | some c =>
    let x := dmaChan s b c
    if x.fetched then .ok s
    else if !descPlace s x.cur then .ok (dmaError b c 1 s)
    else
      let (ok, bs, s1) := fabRead (dmaReq b) c s x.cur 32
      if !ok then .ok (dmaError b c 1 s1)
      else if descCode b c bs ≠ 0 then .ok (dmaError b c (descCode b c bs) s1)
      else
        let d := dmaDesc bs
        if descOverlaps d then .error .chainOverlap
        else .ok (dmaPace b (modChanD b c (fun y => { y with
          desc := bs, fetched := true, done := 0, hold := []
          crc := if d.crcEn ∧ !d.crcCont then 0xFFFFFFFF else y.crc }) s1))

/-- Destination bytes of a descriptor written so far. -/
def dstDone (d : DmaDesc) (x : DmaChan) : Nat :=
  (if d.sw = 0 then x.done else x.done / sampleSize d.sw * sampleSize d.dw) - x.hold.length

/-- Destination bytes of the next burst (R541): up to a multiple of the burst size, or the descriptor's end. -/
def burstLen (d : DmaDesc) (x : DmaChan) : Nat :=
  let at_ := d.dst + dstDone d x
  let size := 2 ^ (d.burst + 3)
  min (size - at_ % size) (dmaDstLen d - dstDone d x)

/-- Source bytes that a burst of `n` destination bytes takes beside what is held: whole samples with packing, and whole
words of a register block, so that each is read once (R541). -/
def burstSrc (d : DmaDesc) (x : DmaChan) (n : Nat) : Nat :=
  let need := n - x.hold.length
  let m := if d.sw = 0 then need else (need + sampleSize d.dw - 1) / sampleSize d.dw * sampleSize d.sw
  let unit := if d.sw = 1 then 12 else 4
  if inBlocks d.src ∧ !d.fill then min (d.cnt - x.done) ((m + unit - 1) / unit * unit) else m

/-- The source bytes of a burst: the pattern repeated, or a read. -/
def burstRead (b : Bool) (c : Nat) (d : DmaDesc) (x : DmaChan) (n : Nat) (s : State) : Bool × List Byte × State :=
  if d.fill then (true, (List.range n).map (fun k => byteOf d.src ((x.done + k) % 4)), s)
  else fabRead (dmaReq b) c s (d.src + x.done) n

/-- One credit of the descriptor's line taken (R541). -/
def takeCredit (l : Nat) (s : State) : State := if l = 0 then s else creditSet l (credits s l - 1) s

/-- A burst moved (R541, R542, R543): a failing read writes nothing and ends the chain (R544). -/
def burstMove (b : Bool) (c : Nat) (s : State) : Except Fault State :=
  let x := dmaChan s b c
  let d := dmaDesc x.desc
  let n := burstLen d x
  let m := burstSrc d x n
  let (ok, src, s1) := burstRead b c d x m (takeCredit d.req s)
  if !ok then .ok (dmaError b c 6 s1)
  else
    let all := x.hold ++ repack d src
    let bs := all.take n
    match fabWrite 3 (dmaReq b) c s1 (d.dst + dstDone d x) bs with
    | .error e => .error e
    | .ok s2 => .ok (dmaPace b (modChanD b c (fun y => { y with
        done := x.done + m, hold := all.drop n, crc := if d.crcEn then crcRun y.crc bs else y.crc }) s2))

/-- A descriptor has bytes left to move. -/
def burstLeft (x : DmaChan) : Bool := x.fetched && decide (dstDone (dmaDesc x.desc) x < dmaDstLen (dmaDesc x.desc))

/-- The running channel's next burst, once its line holds a credit (R541). -/
def dmaBurst (b : Bool) (s : State) : Except Fault State :=
  match (dmaEng s b).run with
  | none => .ok s
  | some c =>
    let x := dmaChan s b c
    let d := dmaDesc x.desc
    if !burstLeft x || (decide (d.req ≠ 0) && decide (credits s d.req = 0)) then .ok s else burstMove b c s

/-- A descriptor completes (R543, R544): its CRC is stored, its event raised, and the chain goes on or ends. -/
def descDone (b : Bool) (s : State) : Except Fault State :=
  match (dmaEng s b).run with
  | none => .ok s
  | some c =>
    let x := dmaChan s b c
    let d := dmaDesc x.desc
    if !x.fetched || burstLeft x then .ok s
    else
      let stored :=
        if d.crcEn then fabWrite 3 (dmaReq b) c s (x.cur + 28) (bytesOf 4 (x.crc ^^^ 0xFFFFFFFF)) else .ok s
      match stored with
      | .error e => .error e
      | .ok s1 =>
        let s2 := when d.notify (raise 0x80 (bytesOf 1 (dmaByte b c) ++ [0] ++ bytesOf 4 (x.cur / 32))) s1
        .ok (if d.last then count Reg.DMA_DONE_CNT.base (dmaEnd b c 4 0 s2)
          else modChanD b c (fun y => { y with cur := d.next * 32, fetched := false, done := 0 }) s2)

end Sys2Proof.Machine
end

