-- ==== Sys2Proof/Machine/Snap.lean ====
section
/-! DEFINITION. Snapshots and cues (R454 to R456), the pairing snapshot as it is captured, sent and received (R557,
R558), and the restore of a cut-in (R563, R564). -/

namespace Sys2Proof.Machine

open Sys2Proof

/-! ### The snapshot table (R454) -/

/-- The table as its header describes it: base, SNAPS and CUES. -/
structure SnapTab where
  base : Nat
  snaps : Nat
  cues : Nat

/-- The table that `SYS_SNAP_BASE` names; none where the base is 0 or VERSION is not 1 (R455). -/
def snapTab (s : State) : Option SnapTab × State :=
  let b := (actW s Reg.SYS_SNAP_BASE_LO.base).toNat + 2 ^ 32 * fld (actW s Reg.SYS_SNAP_BASE_HI.base) 7 0
  if b = 0 then (none, s)
  else
    let (_, h, s1) := fabRead 10 0 s b 16
    if getLE h 0 2 ≠ 1 then (none, s1) else (some ⟨b, getLE h 2 2, getLE h 4 2⟩, s1)

/-- The word addresses of `n` region records from an address on, in region order. -/
def regionWords : Nat → Nat → State → List Nat × State
  | 0, _, s => ([], s)
  | n + 1, a, s =>
    let (_, r, s1) := fabRead 10 0 s a 8
    let (rest, s2) := regionWords n (a + 8) s1
    ((List.range (getLE r 5 3)).map (fun j => getLE r 0 5 + 4 * j) ++ rest, s2)

/-- AREA and the region words of snapshot `k`; none where the table has no such entry. -/
def snapEntry (t : SnapTab) (k : Nat) (s : State) : Option (Nat × List Nat) × State :=
  if t.snaps ≤ k then (none, s)
  else
    let (_, e, s1) := fabRead 10 0 s (t.base + 16 + 16 * k) 16
    let (as, s2) := regionWords (getLE e 5 2) (getLE e 7 5) s1
    (some (getLE e 0 5, as), s2)

/-- The values that reads of words return, one after another, as bytes. -/
def wordValues : List Nat → State → List Byte × State
  | [], s => ([], s)
  | a :: as, s =>
    let (_, w, s1) := fabReadWord 10 0 s a
    let (rest, s2) := wordValues as s1
    (bytesOf 4 w.toNat ++ rest, s2)

/-- Words written one after another with saved values that start at an address; a word that R454 keeps out of regions
stops it. -/
def recallWords : List Nat → Nat → State → Except Fault State
  | [], _, s => .ok s
  | a :: as, v, s =>
    if snapBars s a then .error .snapField else
    let (_, w, s1) := fabReadWord 10 0 s v
    match fabWriteWord 3 10 0 s1 a w with
    | .error e => .error e
    | .ok t => recallWords as (v + 4) t

/-- Write records applied in order (R456 step 2); a word that R454 keeps out of records stops it. -/
def applyRecords : Nat → Nat → State → Except Fault State
  | 0, _, s => .ok s
  | n + 1, a, s =>
    let (_, r, s1) := fabRead 10 0 s a 8
    if snapBars s1 (getLE r 0 4) then .error .snapField else
    match fabWriteWord 3 10 0 s1 (getLE r 0 4) (wordOf (getLE r 4 4)) with
    | .error e => .error e
    | .ok t => applyRecords n (a + 8) t

/-! ### SNAP and CUE tags at SYS (R455, R456) -/

/-- The tick counted that a tag names; of a tag with TARGET 0, the tick it acts at. -/
def tagTick (s : State) (p : PendTag) : Nat :=
  if p.tag.target ≠ 0 then tagPoint s p.tag else p.block / tickBlocks s

/-- EV_SNAP for a tick counted: action 0 saved, 1 recalled, 2 save refused, 3 recall refused. -/
def snapEvent (k act tick : Nat) (s : State) : State :=
  raise 0x06 (bytesOf 1 k ++ bytesOf 1 act ++ bytesOf 4 (extTick s tick)) s

/-- A COMMIT to all units that names a tick counted. -/
def commitAll (tick : Nat) (s : State) : State := inject (mkTag tCOMMIT 0xFF 0xFF 0 tick) s

/-- An ordinary snapshot saved into its AREA. -/
def snapSave (k tick : Nat) (s : State) : Except Fault State :=
  let (t, s1) := snapTab s
  let (e, s2) := match t with
    | some t => snapEntry t k s1
    | none => (none, s1)
  match e with
  | none => .ok (snapEvent k 2 tick s2)
  | some (area, as) =>
    if as.any (snapBars s2) then .error .snapField else
    let (bs, s3) := wordValues as s2
    match fabWrite 3 10 0 s3 area bs with
    | .error e => .error e
    | .ok u => .ok (snapEvent k 0 tick u)

/-- An ordinary snapshot recalled, with its COMMIT. -/
def snapRecall (k tick : Nat) (s : State) : Except Fault State :=
  let (t, s1) := snapTab s
  let (e, s2) := match t with
    | some t => snapEntry t k s1
    | none => (none, s1)
  match e with
  | none => .ok (snapEvent k 3 tick s2)
  | some (area, as) =>
    match recallWords as area s2 with
    | .error e => .error e
    | .ok u => .ok (snapEvent k 1 tick (commitAll tick u))

/-- A cue carried out (R456): its recall, its write records, its COMMIT. -/
def cueAct (cue tick : Nat) (s : State) : Except Fault State :=
  let q := if cue = 0xFFFF then (fld (regW s Reg.SYS_CUE_POS.base) 15 0 + 1) % 2 ^ 16 else cue
  let (t, s1) := snapTab s
  match t with
  | none => .ok (raise 0x05 (bytesOf 2 0xFFFF ++ bytesOf 4 (extTick s1 tick)) s1)
  | some t =>
    if t.cues ≤ q then .ok (raise 0x05 (bytesOf 2 0xFFFF ++ bytesOf 4 (extTick s1 tick)) s1)
    else
      let (_, c, s2) := fabRead 10 0 s1 (t.base + 16 + 16 * t.snaps + 16 * q) 16
      let snap := getLE c 0 2
      let (e, s3) := if snap = 0xFFFF then (none, s2) else snapEntry t snap s2
      let recalled := match e with
        | some (area, as) => recallWords as area s3
        | none => .ok s3
      match recalled with
      | .error e => .error e
      | .ok s4 =>
        match applyRecords (getLE c 2 2) (getLE c 4 5) s4 with
        | .error e => .error e
        | .ok s5 => .ok (raise 0x05 (bytesOf 2 q ++ bytesOf 4 (extTick s5 tick)) (setN Reg.SYS_CUE_POS.base q (commitAll tick s5)))

/-! ### The pairing snapshot of a LEAD (R557, R558) -/

/-- The snapshot area, 12 MiB of DRAM, and the base of a slot in it. -/
def snapArea (s : State) : Nat :=
  fld (actW s Reg.PAR_SNAP_BASE_LO.base) 31 6 * 64 + 2 ^ 32 * fld (actW s Reg.PAR_SNAP_BASE_HI.base) 7 0
def slotBase (s : State) (k : Nat) : Nat := snapArea s + (k + 1) * 0x400000

/-- EV_PAR_SNAP: 0 skipped, 1 invalid, 2 too large. -/
def parSnapEvent (kind seq : Nat) (s : State) : State := raise 0x93 (bytesOf 1 kind ++ [0] ++ bytesOf 4 seq) s

/-- SNAP_MS in effect, in ticks of 1 ms. -/
def snapMs (s : State) : Nat := max 2 (min 100 (fld (actW s Reg.PAR_CFG.base) 31 24))

/-- A pairing snapshot is on its way: its tag waits, or it is being sent. -/
def snapBusy (s : State) : Bool :=
  s.par.sendOfs.isSome ||
    ((unitSt s uSYS).transit ++ (unitSt s uSYS).pend.map (·.tag)).any (fun g => g.typ == tSNAP && bit g.payload 17)

/-- SNAP_MS after the last, a LEAD inserts a pairing SNAP tag two ticks ahead, or skips (R557, R558). -/
def snapshotTake (s : State) : State :=
  if !running s ∨ s.par.role ≠ 1 ∨ s.par.hbAt = none ∨ s.par.hbLost ∨ nowTick s < s.par.snapTick + snapMs s then s
  else
    let s1 := modPar (fun p => { p with snapTick := nowTick s }) s
    if snapBusy s then parSnapEvent 0 (s.par.snapSeq + 1) (count Reg.PAR_SNAP_SKIP_CNT.base s1)
    else inject (mkTag tSNAP uSYS 0xFF (0x20000 + fld (actW s Reg.PAR_SNAP_NUM.base) 15 0) (nowTick s + 2)) s1

/-- The words of the object status records. -/
def statusWords (s : State) : List Nat :=
  (List.range (objCount s)).flatMap (fun n => (List.range 8).map (fun j => Reg.MSTAT0.base + 32 * n + 4 * j))

/-- The words of the region part of a pairing snapshot by its number in the table (R557): none without a table or an
entry, or where the tag met no table on reaching SYS (R455). -/
def pairRegions (num : Option Nat) (s : State) : List Nat × State :=
  let (t, s1) := snapTab s
  match t, num with
  | none, _ => ([], s1)
  | some _, none => ([], s1)
  | some t, some k =>
    match snapEntry t k s1 with
    | (some (_, as), s2) => (as, s2)
    | (none, s2) => (([] : List Nat), s2)

/-- The header of a snapshot (R557) over its data. -/
def snapHeader (s : State) (seq tick : Nat) (data : List Byte) : List Byte :=
  bytesOf 2 1 ++ bytesOf 2 0 ++ bytesOf 4 seq ++ bytesOf 8 (extTick s tick) ++ bytesOf 4 (s.start.epoch % 2 ^ 24) ++
    bytesOf 2 (fld (regW s Reg.SYS_CUE_POS.base) 15 0) ++ bytesOf 2 0 ++ bytesOf 4 (64 + data.length) ++
    List.replicate 32 0 ++ bytesOf 4 (crc32c data)

/-- Segments of the staged snapshot enqueued in ascending OFFSET as far as the queue `PAR_TXQ` on LINK has room
(R558), at most `fuel` of them; the rest follow as frames leave the link. -/
def snapSend : Nat → State → State
  | 0, s => s
  | fuel + 1, s =>
    match s.par.sendOfs, parTxq s with
    | some o, some q =>
      let total := s.par.sendTotal
      let n := min 8172 (total - o)
      let len := 32 * ((n + 16 + 36 + 31) / 32)
      if !qEn s q ∨ !qTx s q ∨ qPort s q ≠ 8 + parLink s ∨ cellsGranted s q len < cellsFor len then s
      else
        let (_, bs, s1) := fabRead (dmaReq true) 0 s (snapArea s + o) n
        let final := o + n == total
        let pay := bytesOf 4 s.par.snapSeq ++ bytesOf 4 o ++ bytesOf 4 total ++ List.replicate 4 0 ++ bs
        let (ok, s2) := sendQueued (parLink s) q 3 (if final then 4 else 0) (o / 8172) pay s1
        if !ok then s2
        else if final then count Reg.PAR_SNAP_SENT_CNT.base (modPar (fun p => { p with sendOfs := none, snapSent := p.snapSeq }) s2)
        else snapSend fuel (modPar (fun p => { p with sendOfs := some (o + n) }) s2)
    | _, _ => s

/-- As many segments as the longest snapshot has. -/
def snapSegs : Nat := 514

/-- At the first sample of its tick a pairing snapshot, by the number its tag names, is captured into the staging area and
its sending begins. -/
def pairCapture (num : Option Nat) (tick : Nat) (s : State) : Except Fault State :=
  let (as, s1) := pairRegions num s
  let total := 64 + 36 * objCount s + 4 * as.length
  if as.any (snapBars s1) then .error .snapField
  else if 0x400000 < total then .ok (parSnapEvent 2 (s.par.snapSeq + 1) (stick Reg.PAR_HIST.base 5 s1))
  else
    let (objs, s2) := wordValues (statusWords s) s1
    let outs := (List.range (objCount s)).flatMap (fun o => bytesOf 4 (outStatus s o % 16))
    let (regs, s3) := wordValues as s2
    let data := objs ++ outs ++ regs
    let seq := s.par.snapSeq + 1
    match fabWrite 3 (dmaReq true) 0 s3 (snapArea s) (snapHeader s seq tick data ++ data) with
    | .error e => .error e
    | .ok s4 => .ok (snapSend snapSegs (modPar (fun p => { p with snapSeq := seq, sendOfs := some 0, sendTotal := total }) s4))

/-! ### The slots of a FOLLOW (R558) -/

/-- A slot changed. -/
def modSlot (k : Nat) (f : SlotSt → SlotSt) (s : State) : State :=
  modPar (fun p => if k = 0 then { p with slot0 := f p.slot0 } else { p with slot1 := f p.slot1 }) s

/-- The snapshot in a slot does not become valid. -/
def slotBad (k seq total : Nat) (s : State) : State :=
  let s1 := modPar (fun p => { p with filling := none }) (modSlot k (fun _ => ⟨false, seq, total, 0⟩) s)
  parSnapEvent 1 seq (stick Reg.PAR_HIST.base 0 (count Reg.PAR_SNAP_BAD_CNT.base s1))

/-- The slot that the next snapshot goes to: not the one that holds the newest valid one. -/
def nextSlot (s : State) : Nat := if newestSlot s = some 0 then 1 else 0

/-- A snapshot whose bytes have all arrived in order is checked. -/
def slotCheck (k : Nat) (s : State) : State :=
  let x := slotOf s k
  let (_, bs, s1) := fabRead (dmaReq true) 0 s (slotBase s k) x.total
  if getLE bs 60 4 = crc32c (bs.drop 64) then
    modPar (fun p => { p with filling := none, newest := some k }) (modSlot k (fun y => { y with valid := true }) s1)
  else slotBad k x.seq x.total s1

/-- A segment for a slot that is being filled: its data goes on where the last one ended, or the snapshot is lost. -/
def slotTake (k seq ofs total : Nat) (final : Bool) (bs : List Byte) (s : State) : Except Fault State :=
  let x := slotOf s k
  if x.seq ≠ seq ∨ x.total ≠ total ∨ x.got ≠ ofs ∨ total < ofs + bs.length ∨ 0x400000 < total then .ok (slotBad k seq total s)
  else
    match fabWrite 3 (dmaReq true) 0 s (slotBase s k + ofs) bs with
    | .error e => .error e
    | .ok s1 =>
      let s2 := modSlot k (fun y => { y with got := ofs + bs.length }) s1
      if ofs + bs.length = total then .ok (slotCheck k s2)
      else .ok (if final then slotBad k seq total s2 else s2)

/-- A SNAPSHOT segment is taken by a FOLLOW from the queue of a pair link (R558). -/
def snapshotSegment (queue : Nat) (s : State) : Except Fault State :=
  match takeLink 3 queue s with
  | none => .ok s
  | some (n, bs, _, s1) =>
    let p := lfPayload bs
    if !paired s ∨ s.par.role ≠ 2 ∨ !(pairLinks s).contains n ∨ p.length < 16 then .ok s1
    else
      let seq := getLE p 0 4
      let ofs := getLE p 4 4
      let total := getLE p 8 4
      let final := (lfVf bs).testBit 6
      let k := nextSlot s1
      match s1.par.filling with
      | some f =>
        if ofs = 0 then
          let s2 := slotBad f (slotOf s1 f).seq (slotOf s1 f).total s1
          slotTake k seq ofs total final (p.drop 16)
            (modPar (fun q => { q with filling := some k }) (modSlot k (fun _ => ⟨false, seq, total, 0⟩) s2))
        else slotTake f seq ofs total final (p.drop 16) s1
      | none =>
        if ofs = 0 then
          slotTake k seq ofs total final (p.drop 16)
            (modPar (fun q => { q with filling := some k }) (modSlot k (fun _ => ⟨false, seq, total, 0⟩) s1))
        else if (slotOf s1 k).seq = seq then .ok s1
        else .ok (slotBad k seq total s1)

/-! ### The restore (R563 step 3, R564) -/

/-- A conditioned value from an object status record (R130). -/
def statusValue (r : List Byte) : ObjVal :=
  ⟨signed 24 (getLE r 0 4), signed 24 (getLE r 4 4), signed 24 (getLE r 8 4), signed 16 (getLE r 12 2), getLE r 14 2 % 1024⟩

/-- Item 1: object values as held values, with a recovery event for every object (R122). -/
def restoreObjs (tick : Nat) (bs : List Byte) (s : State) : State :=
  (List.range (objCount s)).foldl (fun t n =>
    let v := statusValue (slice bs (32 * n) 32)
    modObj n (fun x => { recover tick x with held := v, out := v, everSettled := true, lost := false, fresh := true }) t) s

/-- Item 2: the filter of an output's per-output word. -/
def restoredFilt (s : State) (o w : Nat) : Filt :=
  let t := w % 8
  let b := setBase s t
  if w.testBit 3 ∧ b ≠ 0 ∧ inDram s b 64 ∧ rdN s 2 b = 1 ∧ (filtDesc s t o).firEn ∧ descOk s (filtDesc s t o)
  then loadFilt s t o else filtVoid t

/-- Item 2: live sets without a crossfade; outputs run with FIR_EN 0 where the pool or the tap limit is broken. -/
def restoreFilts (bs : List Byte) (s : State) : State :=
  let fs := (List.range (objCount s)).map (fun o => restoredFilt s o (getLE bs (4 * o) 4))
  let total := fs.foldl (fun m f => m + filtLen f) 0
  let reason := if !accepted s 11 ∧ fs.any (fun f => decide (8192 < filtLen f)) then 3
    else if tapPool s < total then 4 else 0
  let put (f : Filt → Filt) : State := fs.zipIdx.foldl (fun t p => modOut p.2 (fun x => { x with filts := [(f p.1, 0)] }) t) s
  if reason = 0 then put id
  else
    raise 0x1B (bytesOf 1 0 ++ bytesOf 1 3 ++ bytesOf 1 reason ++ bytesOf 2 0)
      (stick Reg.COR_STAT.base 2 (put (fun f => filtVoid (f.set.getD 0))))

/-- The device as it is once the words written have gone live, with the speed of sound and the usable triangles that its
first tick then has (R163, R564). -/
def restoreView (s : State) : State :=
  let v := { s with words := { s.words with
    act := (s.words.dirtyL ++ s.words.dirtyS).foldl (fun t a => tabSet a (regW s a) t) s.words.act } }
  setN Reg.SLV_SOUND_EFF.base (soundTarget v) { v with slv := { v.slv with unusable := unusableOf v } }

/-- Item 5: every enabled object solved once for a tick, from what the restored words' COMMIT makes live, its result in the
shadow table. -/
def solveAll (tick : Nat) (s : State) : State :=
  let v := restoreView s
  ((List.range (objCount v)).filter (objEn v)).foldl (fun t n =>
    let x := objSt t n
    let jv : JobVal := ⟨if x.everSettled then x.out else homeVal v n, objMode v n, false, true, objMute v n,
      objW4 v n, objW5 v n, objW6 v n⟩
    let (r, _, t1) := solve v n (tick - 2) jv t
    let t2 := writeWindow Reg.LSHL.base Reg.LSHH0.base n tick r t1
    { t2 with slv := { t2.slv with shadow := tabSet n r t2.slv.shadow } }) s

/-- Without a valid slot every object starts from its HOME values, with a recovery event (R122, R564). -/
def restoreHome (tick : Nat) (s : State) : State :=
  (List.range (objCount s)).foldl (fun t n =>
    modObj n (fun x => { recover tick x with everSettled := false, lost := false, fresh := true }) t) s

/-- The first tick whose first block *b* satisfies 16*b* + 64 ≥ an index. -/
def restoreTick (s : State) : Nat := (s.time.idx - 64 + tickLen s - 1) / tickLen s

/-- Items 1 to 4 from the newest valid slot. -/
def restoreSlot (tick k : Nat) (s : State) : Except Fault State :=
  let a := slotBase s k
  let n := objCount s
  let (_, head, s1) := fabRead (dmaReq true) 0 s a (64 + 36 * n)
  let s2 := restoreFilts (slice head (64 + 32 * n) (4 * n)) (restoreObjs tick (slice head 64 (32 * n)) s1)
  let (as, s3) := pairRegions (some (fld (actW s Reg.PAR_SNAP_NUM.base) 15 0)) (setN Reg.SYS_CUE_POS.base (getLE head 20 2) s2)
  match recallWords (as.take (((slotOf s k).total - 64 - 36 * n) / 4)) (a + 64 + 36 * n) s3 with
  | .error e => .error e
  | .ok s4 => .ok (commitAll tick s4)

/-- The restore of a cut-in is complete: the first render tick is chosen and every enabled object solved for it. The solver
builds its matrices and takes the speed of sound at that tick (R143, R163). -/
def restoreComplete (s : State) : Except Fault State :=
  match s.par.cutin with
  | none => .ok s
  | some c =>
    if c.tick.isSome then .ok s
    else
      let tick := restoreTick s
      let s0 := { s with mot := { s.mot with queue := [], sched := [] } }
      let restored := match newestSlot s with
        | some k => restoreSlot tick k s0
        | none => .ok (restoreHome tick s0)
      match restored with
      | .error e => .error e
      | .ok s1 =>
        let s2 := { s1 with slv := { s1.slv with built := false, prev := [] } }
        let s3 := inject (mkTag tCOMMIT uLAN 0xFF 0 tick) (solveAll tick s2)
        .ok (inject (mkTag tEPOCH 0xFF 0xFF (2 + 256 * s.start.epoch) tick)
          (modPar (fun p => { p with cutin := some { c with tick := some tick } }) s3))

/-- At the first sample of tick *T* the new LEAD renders and its transmitters begin (R563 steps 4 and 5). -/
def renderBegin (s : State) : State :=
  match s.par.cutin with
  | some ⟨_, _, some tick⟩ =>
    if nowTick s < tick then s
    else
      let b := tickStart s tick
      let claim := s.start.epoch * 256 + ownRank s
      let s0 := [uSLV, uLAN, uRED, uCOR, uMEA, uDRU].foldl (fun t u => modUnit u (fun x => { x with next := max x.next b }) t) s
      let n0 : Int := 16 * b
      let s1 := { s0 with
        lan := { s0.lan with
          bulk := [], objs := s0.lan.objs.map (fun q => (q.1, { q.2 with head := n0, zeroBelow := n0, subs := [] })) }
        mea := { s0.mea with capNext := b } }
      roleGo 1 claim (modPar (fun p => { p with
        cutin := none, claim := claim, audioFrom := some b, audioTo := none, renderFrom := some b, renderTo := none
        snapTick := tick }) s1)
  | _ => s

end Sys2Proof.Machine
end

