-- ==== Sys2Proof/Machine/Start.lean ====
section
/-! DEFINITION. Starts and restarts (R410 to R432): what a start resets and keeps, straps and fuses, the wear-log scan,
the choice of an image, the start window, the load of sections, and step 7. -/

namespace Sys2Proof.Machine

open Sys2Proof

/-- The start sequence's state changed. -/
def modStart (f : StartSt → StartSt) (s : State) : State := { s with start := f s.start }

/-! ### Steps 1 and 2 (R410, R411, R415) -/

/-- Every unit, register, table and SRAM bank back at reset; DRAM, the always-on domain, the fuses, the flash and what
pins measure stay (R410, R413, R579). -/
def resetMachine (s : State) : State :=
  let z := zeroRange s 0 dramBase
  { State.reset with
    pending := s.pending
    mem := s.mem
    post := z.post
    ue := z.ue
    fuse := s.fuse
    free := s.free
    out := s.out
    time := { State.reset.time with mono := s.time.mono }
    sec := { State.reset.sec with
      executing := s.sec.executing, latched := s.sec.latched, tampered := s.sec.tampered }
    start := { State.reset.start with
      supplies := s.start.supplies, resetLow := s.start.resetLow, hot := s.start.hot, epoch := s.start.epoch
      rank := s.start.rank, strapImg := s.start.strapImg, refs := s.start.refs }
    hlt := { State.reset.hlt with tj := s.hlt.tj, supplies := s.hlt.supplies, wear := s.hlt.wear }
    tap := s.tap }

/-- STAGE shown (R431, R432). -/
def stageGo (st : Nat) (s : State) : State :=
  setF Reg.SYS_START.base 11 8 st (storeBytes (modStart (fun x => { x with stage := st }) s) 13 (bytesOf 1 st))

/-- STRAPS of the identity area. -/
def strapByte (s : State) : Nat := s.start.rank % 4 + s.start.strapImg % 4 * 4

/-- The straps as step 2 has sampled them, shown (R415, R431, R432). -/
def strapsTake (x : Option (Nat × Nat)) (s : State) : State :=
  match x with
  | none => s
  | some (img, rank) =>
    let s1 := modStart (fun y => { y with strapImg := min 2 img, rank := rank % 4 }) s
    storeBytes (setF Reg.SYS_START.base 15 12 (strapByte s1) s1) 15 (bytesOf 1 (strapByte s1))

/-- Spare rows in use after the repairs that fuses and the wear log hold (R505). -/
def spareRows (s : State) : Tab Nat :=
  let log := (s.hlt.wear.filter (fun r => getLE r 0 2 == 0x0602 && getLE r 4 2 == 1 && crc32c (r.take 28) == getLE r 28 4)).map
    (fun r => getLE r 20 1 * 256 + getLE r 2 2)
  (s.fuse.repairs.map (fun (r : Nat × Nat × Nat) => r.1 * 256 + r.2.1) ++ log).foldl (fun t k => tabMod 0 k (· + 1) t) []

/-- GRADE of the identity area. -/
def gradeCode (s : State) : Nat :=
  match s.fuse.grade with
  | .ih1024 => 0x0400
  | .ih0512 => 0x0200
  | .ih0256 => 0x0100

/-- The offer of the grade (R425). -/
def offerOf (s : State) : Nat := if s.fuse.grade = .ih0256 then 0xFFC7 else 0xFFFF

/-- Keys loaded in step 2: from the fuse store in FIELD, none in another state or after a tamper (R515, R517). -/
def loadKeys (s : State) : State :=
  if s.fuse.life = 2 ∧ ¬ s.sec.tampered then s.fuse.keys.foldl (fun t k => keyWrite k.1 (bytesOf 32 k.2) t) s else s

/-- A start begins: cause, and the slot a `RESTART` names. It runs to the end of step 2. -/
def startBegin (cause : Nat) (named : Option Nat) (s : State) : State :=
  let e := if cause = 0 then 1 else min 0xFFFFFF (s.start.epoch + 1)
  let (x, s1) := drawNat (resetMachine s) (2 ^ 40)
  let session := x * 2 ^ 24 + e
  let s2 := { s1 with
    start := { s1.start with
      began := s1.time.mono, resetLow := false, hot := false, cause := cause, epoch := e, named := named }
    memst := { s1.memst with spares := spareRows s1 } }
  let s3 := setN Reg.SYS_EPOCH.base e (setN Reg.SYS_START.base (strapByte s2 * 2 ^ 12 + cause)
    (setN Reg.SYS_SESSION_HI.base (session / 2 ^ 32) (setN Reg.SYS_SESSION_LO.base (session % 2 ^ 32)
      (setN Reg.FEA_OFFER_LO.base (offerOf s2) (setN Reg.SEC_LC.base s2.fuse.life s2)))))
  let head := [0x49, 0x48, 0x4C, 0x59] ++ bytesOf 2 (gradeCode s3) ++ bytesOf 1 s3.fuse.dieRev ++ bytesOf 1 s3.fuse.life ++
    bytesOf 4 e ++ bytesOf 1 cause ++ [0, 0] ++ bytesOf 1 (strapByte s3)
  stageGo 2 (loadKeys (seeEpoch e (storeBytes s3 0 head)))

/-- Straps as the pins give them: STRAP_IMG 0 open, 1 low, 2 high; STRAP_RANK. -/
def straps (img rank : Nat) (s : State) : State :=
  modStart (fun x => { x with strapImg := min 2 img, rank := rank % 4 }) s

/-- All supplies are valid and the oscillator runs (R410), with the references that run (R593). While RESET_N is low the
start waits for its release. -/
def suppliesValid (img pins : Nat) (s : State) : State :=
  if s.start.supplies then s
  else
    let s1 := straps img (pins % 4) { s with
      start := { s.start with supplies := true, refs := pins / 4 % 4 }, time := { s.time with mono := 0 }
      sec := { s.sec with executing := none, latched := [], tampered := false } }
    if s.start.resetLow then modStart (fun x => { x with epoch := 0 }) s1 else startBegin 0 none s1

/-- RESET_N goes low (R410). -/
def resetAssert (s : State) : State :=
  if s.start.resetLow then s
  else modStart (fun x => { x with resetLow := true }) (if s.start.supplies then resetMachine s else s)

/-- RESET_N is released (R410): a start with cause 1, or the first start where supplies came up under RESET_N. -/
def resetRelease (img rank : Nat) (s : State) : State :=
  if !s.start.resetLow then s
  else
    let s1 := modStart (fun x => { x with resetLow := false }) s
    if !s.start.supplies then s1 else startBegin (if s.start.epoch = 0 then 0 else 1) none (straps img rank s1)

/-! ### Step 3: BIST, wear log, DRAM (R411, R414, R518, R528, R572) -/

/-- A wear-log record whose CRC holds. -/
def wearSound (r : List Byte) : Bool := crc32c (r.take 28) == getLE r 28 4

/-- A unit taken out of service before logical numbers are assigned. -/
def takeOut (u : Nat × Nat) (s : State) : State :=
  match u.1 with
  | 0 => modLane u.2 (fun l => { l with state := .retired, logical := none }) s
  | 1 => { s with dsx := { s.dsx with retired := setAdd u.2 s.dsx.retired } }
  | 2 => { s with cor := { s.cor with retired := setAdd u.2 s.cor.retired } }
  | 3 => setN Reg.DRU_CORE_RETIRED.base ((regW s Reg.DRU_CORE_RETIRED.base).toNat ||| 2 ^ u.2) s
  | 4 => modClk (fun k => { k with retired := setAdd u.2 k.retired }) s
  | 5 => modLink (u.2 / 8) (fun x => { x with rxRetired := setAdd (u.2 % 8) x.rxRetired }) s
  | _ => s

/-- Units of a class already out of service; of link lanes, those of one link. -/
def outOf (s : State) (cls inst : Nat) : Nat :=
  match cls with
  | 0 => (s.lan.lanes.filter (fun l => decide (l.2.state = .retired))).length
  | 1 => s.dsx.retired.length
  | 2 => s.cor.retired.length
  | 3 => ((List.range 17).filter (coreRetired s)).length
  | 4 => s.clk.retired.length
  | _ => (linkSt s (inst / 8)).rxRetired.length

/-- The wear log is scanned: retirements applied, bad records counted and reported (R572, R577). -/
def wearScan (s : State) : State :=
  let bad := (s.hlt.wear.filter (fun r => !wearSound r)).length
  let s1 := setN Reg.HLT_WEAR_USED.base (min 0xFFFF s.hlt.wear.length)
    (when (decide (0 < bad)) (raise 0x9C ([1] ++ bytesOf 2 bad)) (countN Reg.HLT_WEAR_BAD_CNT.base bad s))
  (s.hlt.wear.filter (fun r => wearSound r && getLE r 0 1 == 1 && getLE r 5 1 == 0)).foldl
    (fun t r => takeOut (getLE r 1 1, getLE r 2 2) t) s1

/-- Spares of a class. -/
def spareCount (s : State) (cls : Nat) : Nat := if cls = 0 then presentLanes s - activeLanes s else 1

/-- A geometry unit that fails BIST leaves its logical number to the spare, if one is left (R189, R411). -/
def spareGeom (p : Nat) (s : State) : State :=
  let rest := (List.range 17).filter (fun q => !s.dsx.retired.contains q)
  if (rest.filter (· < p)).length = 16 then s
  else
    when (rest.length < 16) (stick Reg.DSX_STAT.base 2)
      (raise 0x16 (bytesOf 1 p ++ bytesOf 1 (nth 0xFF rest 15)) (count Reg.DSX_SPARE_CNT.base s))

/-- An island that fails BIST is retired, and a spare takes its place where one is left (R411, R569). -/
def bistFail (s0 : State) (u : Nat × Nat) : State :=
  let s := match healthNumber u.1 u.2 with
    | some k => testResult k false s0
    | none => s0
  if 5 < u.1 then stick Reg.HLT_STAT.base 1 s
  else
    let left := decide (outOf s u.1 u.2 < spareCount s u.1)
    if u.1 = 1 then retired 1 u.2 1 true left (spareGeom u.2 (takeOut u s))
    else
      let s1 := if left then takeOut u s else modHlt (fun h => { h with
        sliceRefused := h.sliceRefused || u.1 == 2, laneFloor := if u.1 = 0 then setAdd u.2 h.laneFloor else h.laneFloor }) s
      retired u.1 u.2 1 left left s1

/-- DRAM rows that the wear log marks as failing and that no repair has been recorded for: bank, channel, row. -/
def rowsDue (s : State) : List (Nat × Nat × Nat) :=
  let rows (cause : Nat) := (s.hlt.wear.filter (fun r => wearSound r && getLE r 0 2 == 0x0702 && getLE r 4 1 == cause)).map
    (fun r => (getLE r 2 2, getLE r 20 1, getLE r 21 4))
  ((rows 0).filter (fun r => !(rows 1).contains r)).eraseDups

/-- Repairs made in a bank so far. -/
def repairsMade (s : State) (bank ch : Nat) : Nat :=
  ((s.hlt.wear ++ s.hlt.held).filter (fun r => wearSound r && getLE r 0 2 == 0x0702 && getLE r 4 2 == 1 &&
    getLE r 2 2 == bank && getLE r 20 1 == ch)).length

/-- A failing DRAM row is repaired, or stays in use (R528). -/
def rowRepair (s : State) (r : Nat × Nat × Nat) : State :=
  let (bank, ch, row) := r
  let ok := decide (repairsMade s bank ch < Config.repairs ch bank)
  let s1 := raise 0x76 (bytesOf 1 ch ++ bytesOf 1 bank ++ bytesOf 1 (if ok then 0 else 1) ++ bytesOf 3 row)
    (when ok (count Reg.DRC_PPR_CNT.base) s)
  wearRepair 7 bank 1 (if ok then 0 else 1) ch row s1

/-- The DRAM as training leaves it (R518): speed code, pool eighths, top of the usable part. -/
def dramReady (speed fitted : Nat) (s : State) : State :=
  let eighths := if speed = 0 then 8 else if speed = 1 then 6 else if speed = 2 then 5 else 4
  let top := dramBase + fitted * 2 ^ 30 * 7 / 8
  setN Reg.DRC_INFO.base (fitted % 32 * 2 ^ 16 + speed * 2 ^ 8 + eighths)
    (setN Reg.DRC_TOP_HI.base (top / 2 ^ 32) (setN Reg.DRC_TOP_LO.base (top % 2 ^ 32)
      { s with drc := { s.drc with trained := true } }))

/-! ### Step 4: slots and images (R416, R417, R419, R420) -/

/-- Bytes of an image as the flash holds them; past what has been programmed it is erased. -/
def flashAt (img : List Byte) (o n : Nat) : List Byte :=
  let b := slice img o n
  b ++ List.replicate (n - b.length) 0xFF

/-- A slot's bytes and its size; of slot B zero where it is not present. -/
def slotImage (s : State) (k : Nat) : List Byte := if k = 0 then s.start.slotA else s.start.slotB
def slotSize (s : State) (k : Nat) : Nat :=
  let f := s.start.flashMib
  if k = 0 then min 112 (f - 1) * 2 ^ 20 else if 225 ≤ f then 112 * 2 ^ 20 else 0

/-- Fields of a slot's image header. -/
def imgGen (s : State) (k : Nat) : Nat := getLE (flashAt (slotImage s k) 8 8) 0 8
def imgLen (s : State) (k : Nat) : Nat := getLE (flashAt (slotImage s k) 16 4) 0 4
def imgSections (s : State) (k : Nat) : Nat := getLE (flashAt (slotImage s k) 20 2) 0 2

/-- A slot is present and its header valid (R420). -/
def slotValid (s : State) (k : Nat) : Bool :=
  let h := flashAt (slotImage s k) 0 64
  decide (0 < slotSize s k) && getLE h 0 4 == 0x474E5242 && getLE h 4 2 == 1 && crc32c (h.take 60) == getLE h 60 4 &&
    decide (1 ≤ imgSections s k) && decide (96 ≤ imgLen s k) && decide (imgLen s k ≤ slotSize s k)

/-- Rule 3 of R416 among slots: the higher GENERATION, slot A on a tie. -/
def newestImage (s : State) (ks : List Nat) : Option Nat :=
  match ks.filter (slotValid s) with
  | [] => none
  | [k] => some k
  | _ => if imgGen s 0 < imgGen s 1 then some 1 else some 0

/-- The slot a start chooses (R416), and whether that is a fallback. -/
def chooseSlot (s : State) : Option Nat × Bool :=
  match s.start.strapImg, s.start.named with
  | 1, _ => (if slotValid s 0 then some 0 else none, false)
  | 2, _ => (if slotValid s 1 then some 1 else none, false)
  | _, some k => if slotValid s k then (some k, false) else (newestImage s ([0, 1].filter (· != k)), true)
  | _, none => (newestImage s [0, 1], false)

/-- SLOT of the identity area (R431). -/
def slotByte (s : State) : Nat :=
  let x := s.start
  x.slotSel % 2 + (if x.forced then 2 else 0) + (if x.named.isSome && !x.forced then 4 else 0) + (if x.fallback then 8 else 0)

/-- SLOT shown, and `NVM_SLOT` with the valid slots. -/
def slotShow (s : State) : State :=
  let valid := (if slotValid s 0 then 16 else 0) + (if slotValid s 1 then 32 else 0)
  setN Reg.NVM_SLOT.base (valid + slotByte s) (storeBytes s 14 (bytesOf 1 (slotByte s)))

/-- GENERATION and IMAGE_LEN of the image in use. -/
def imageShow (s : State) : State :=
  let k := s.start.slotSel
  storeBytes (storeBytes s 96 (bytesOf 8 (imgGen s k))) 104 (bytesOf 4 (imgLen s k))

/-- What the flash shows of its slots. -/
def flashShow (s : State) : State :=
  let g (k : Nat) := if slotValid s k then imgGen s k else 0
  setN Reg.NVM_DENSITY.base s.start.flashMib
    (setN Reg.NVM_GEN_B_HI.base (g 1 / 2 ^ 32) (setN Reg.NVM_GEN_B_LO.base (g 1 % 2 ^ 32)
      (setN Reg.NVM_GEN_A_HI.base (g 0 / 2 ^ 32) (setN Reg.NVM_GEN_A_LO.base (g 0 % 2 ^ 32) s))))

/-- The units in register-block order, as VERSIONS lists them. -/
def unitOrder : List Nat :=
  [uSYS, uFEA, uSEC, uHLT, uPAR, uCLK, uTIM, uNET, uQMG, uMST, uLNK, uTDM, uAES, uINC, uRTE, uMOT, uSLV, uDSX, uLAN, uRED,
    uCOR, uMEA, uDRU, uMEM, uDRC, uDMA, uNVM]

/-- The version bytes of the units that the features `feats` run: not zero, and otherwise the die's own. -/
def versionsShow (feats : Nat) (s : State) : State :=
  let t := setN Reg.FEA_ACCEPT_LO.base feats s
  unitOrder.zipIdx.foldl (fun u q =>
    if !unitPresent t q.1 then storeBytes u (64 + q.2) [0]
    else if readByte u (64 + q.2) ≠ 0 then u
    else
      let (v, u1) := drawNat u 255
      storeBytes u1 (64 + q.2) (bytesOf 1 (v + 1))) s

/-- The chosen image's request and START_WINDOW are read (R411 step 4, R422). -/
def requestRead (s : State) : State :=
  let p := flashAt (slotImage s s.start.slotSel) 64 32
  let req := if getLE p 0 1 = 1 then getLE p 16 8 else 0
  setN Reg.FEA_IMAGE_REQ_HI.base (req / 2 ^ 32) (setN Reg.FEA_IMAGE_REQ_LO.base (req % 2 ^ 32)
    (storeBytes (modStart (fun x => { x with imgReq := req }) s) 24 (bytesOf 8 req)))

/-- START_WINDOW of the chosen image, in ms. -/
def windowOf (s : State) : Nat :=
  let p := flashAt (slotImage s s.start.slotSel) 64 32
  if getLE p 0 1 = 1 then min 2000 (getLE p 24 2) else 0

/-- A slot is in use from its first section on. -/
def slotUse (k : Nat) (fallback : Bool) (s : State) : State :=
  imageShow <| slotShow (modStart (fun x => { x with
    slotSel := k, forced := x.strapImg != 0, fallback := fallback, tried := setAdd k x.tried, secNo := 0, secOfs := 64 }) s)

/-- The offer of the grade and the version bytes are published (R411 step 4, R425). -/
def offerShow (s : State) : State :=
  versionsShow (offerOf s) (setN Reg.FEA_OFFER_LO.base (offerOf s) (storeBytes s 16 (bytesOf 8 (offerOf s))))

/-- Step 4: an image is chosen, its request read, the offer published and the window opened, or NO_IMAGE shown. -/
def imageSelect (s : State) : State :=
  match chooseSlot s with
  | (none, fb) => stageGo 8 (offerShow (slotShow
      (modStart (fun x => { x with forced := x.strapImg != 0, fallback := fb }) s)))
  | (some k, fb) =>
    let s1 := requestRead (slotUse k fb s)
    let w := windowOf s1
    stageGo 3 (offerShow (storeBytes (modStart (fun x => { x with window := w }) s1) 56 (bytesOf 2 w)))

/-- Steps 3 and 4 end (R411). -/
def bistComplete (x : BistIn) (s : State) : Except Fault State :=
  if !powered s ∨ s.start.stage ≠ 2 then .ok s
  else if x.flashMib < 64 then .error .smallFlash
  else
    let s1 := modStart (fun y => { y with flashMib := min 256 x.flashMib, slotA := x.slotA, slotB := x.slotB }) (strapsTake x.straps s)
    let s2 := x.bad.foldl bistFail (wearScan (flashShow s1))
    if 4 ≤ x.speed then .ok (stageGo 9 (slotShow s2))
    else
      let s3 := dramReady x.speed x.fitted s2
      .ok (imageSelect ((rowsDue s3).foldl rowRepair s3))

/-! ### Step 5: the start window and the accepted set (R426 to R428) -/

/-- The accepted set of requests, and whether a dependency cleared a bit (R426). -/
def acceptSet (offer image driver : Nat) : Nat × Bool :=
  let a := (offer &&& image &&& driver) ||| 1
  let live := a.testBit 5 && !a.testBit 4
  let pair := a.testBit 13 && !a.testBit 6
  (a - (if live then 2 ^ 5 else 0) - (if pair then 2 ^ 13 else 0), live || pair)

/-- ACCEPT is formed and published (R426, R428). -/
def acceptForm (s : State) : State :=
  let driver := (regW s Reg.FEA_DRIVER_REQ_LO.base).toNat + 2 ^ 32 * (regW s Reg.FEA_DRIVER_REQ_HI.base).toNat
  let (a, drop) := acceptSet (offerOf s) s.start.imgReq driver
  let s1 := setN Reg.FEA_ACCEPT_HI.base (a / 2 ^ 32) (setN Reg.FEA_ACCEPT_LO.base (a % 2 ^ 32) (storeBytes s 44 (bytesOf 8 a)))
  druAssign (versionsShow a (setF Reg.FEA_STAT.base 3 3 (if drop then 1 else 0) s1))

/-- The start window closes (R427): the driver's request is taken in one read, and the load begins. -/
def windowClose (s : State) : State :=
  if !powered s ∨ s.start.stage ≠ 3 then s
  else
    let valid := (rd32 s 40) % 2 == 1
    let req := if valid then rdN s 8 32 else 2 ^ 64 - 1
    let s1 := setF Reg.FEA_STAT.base 1 1 (if valid then 1 else 0)
      (setN Reg.FEA_DRIVER_REQ_HI.base (req / 2 ^ 32) (setN Reg.FEA_DRIVER_REQ_LO.base (req % 2 ^ 32) s))
    stageGo 4 (modStart (fun x => { x with loading := true }) (acceptForm s1))

/-! ### Step 6: sections (R421 to R423) -/

/-- Registers that show what steps 1 to 5 of the start have found: the fall back of R417 leaves them. -/
def startShown : List RegSpec :=
  [Reg.SYS_EPOCH, Reg.SYS_START, Reg.SYS_SESSION_LO, Reg.SYS_SESSION_HI, Reg.SEC_LC, Reg.FEA_OFFER_LO,
    Reg.FEA_DRIVER_REQ_LO, Reg.FEA_DRIVER_REQ_HI, Reg.FEA_STAT, Reg.NVM_GEN_A_LO, Reg.NVM_GEN_A_HI, Reg.NVM_GEN_B_LO,
    Reg.NVM_GEN_B_HI, Reg.NVM_DENSITY, Reg.NVM_SLOT, Reg.FEA_IMAGE_REQ_LO, Reg.FEA_IMAGE_REQ_HI, Reg.FEA_ACCEPT_LO,
    Reg.FEA_ACCEPT_HI, Reg.DRC_INFO, Reg.DRC_TOP_LO, Reg.DRC_TOP_HI, Reg.DRC_PPR_CNT, Reg.DRU_CORE_RETIRED,
    Reg.HLT_WEAR_USED, Reg.HLT_WEAR_BAD_CNT, Reg.HLT_RETIRE_CNT, Reg.HLT_STAT, Reg.SEC_KEY_VALID, Reg.SEC_STAT,
    Reg.DSX_SPARE_CNT, Reg.DSX_STAT]

/-- Every unit and table at its reset value, but for what the start has found before it loads (R417): the units out of
service, the spare rows in use, the trained DRAM, and the control agent and start sequence themselves, which run on. -/
def unitsReset (s : State) : State :=
  let z := State.reset
  startShown.foldl (fun t r => setW r.base (regW s r.base) t)
    { s with
      words := z.words, units := z.units, heldTags := z.heldTags, audio := z.audio, inc := z.inc, rte := z.rte, mot := z.mot
      slv := z.slv, red := z.red, mea := z.mea, tim := z.tim, net := z.net, mst := z.mst, ser := z.ser, dma := z.dma
      dru := z.dru
      memst := { z.memst with spares := s.memst.spares }
      drc := { z.drc with trained := s.drc.trained }
      sec := { s.sec with armed := none, keyWords := [] }
      dsx := { z.dsx with retired := s.dsx.retired }
      cor := { z.cor with retired := s.cor.retired }
      clk := { z.clk with retired := s.clk.retired }
      lan := { z.lan with lanes := s.lan.lanes.filter (fun l => decide (l.2.state = .retired)) }
      lnk := { z.lnk with links := s.lnk.links.map (fun x => (x.1, { linkZero with rxRetired := x.2.rxRetired })) }
      par := { z.par with epochSeen := s.par.epochSeen } }

/-- A failed image (R417): its writes are undone, the on-chip memories beside the mailbox and the keys that it loaded
with them; the failure is shown, and the other slot is tried or NO_IMAGE shown. -/
def imageFail (reason : Nat) (s0 : State) : State :=
  let s := loadKeys (keysShow (zeroRange s0 0x20000 (dramBase - 0x20000)))
  let k := s.start.slotSel
  let fail := s.start.secNo % 2 ^ 16 * 2 ^ 16 + k * 2 ^ 8 + reason
  let s1 := setN Reg.NVM_LOAD_FAIL.base fail (storeBytes (unitsReset s) 108 (bytesOf 4 fail))
  let other := 1 - k
  if s1.start.strapImg = 0 ∧ slotValid s1 other ∧ !s1.start.tried.contains other then
    acceptForm (requestRead (slotUse other true s1))
  else stageGo 8 (modStart (fun x => { x with loading := false }) s1)

/-- A write of the load: units that are absent or not accepted ignore it (R423). -/
def loadWord (a : Nat) (v : Word) (s : State) : Except Fault State :=
  if assigned s a then fabWriteWord 3 11 0 s a v else .ok s

/-- Words of the load written from an address on. -/
def loadWords : Nat → List Byte → State → Except Fault State
  | a, b0 :: b1 :: b2 :: b3 :: t, s =>
    match loadWord a (wordOf (ofBytes [b0, b1, b2, b3])) s with
    | .error e => .error e
    | .ok u => loadWords (a + 4) t u
  | _, _, s => .ok s

/-- REGISTER_WRITES records; none where an address breaks R422. -/
def loadRecords : List Byte → State → Except Fault (Option State)
  | b0 :: b1 :: b2 :: b3 :: b4 :: b5 :: b6 :: b7 :: t, s =>
    let a := ofBytes [b0, b1, b2, b3]
    if a % 4 ≠ 0 ∨ a < 0x10000000 ∨ 0x80000000 ≤ a then .ok none
    else
      match loadWord a (wordOf (ofBytes [b4, b5, b6, b7])) s with
      | .error e => .error e
      | .ok u => loadRecords t u
  | _, s => .ok (some s)

/-- STREAMS records of 68 bytes; none where a field breaks R422. -/
def loadStreams : Nat → List Byte → State → Except Fault (Option State)
  | 0, _, s => .ok (some s)
  | n + 1, bs, s =>
    let t := getLE bs 0 1
    let i := getLE bs 2 2
    if 3 < t ∨ getLE bs 1 1 ≠ 0 ∨ 255 < i then .ok none
    else
      let link := decide (2 ≤ t)
      let base := if t = 0 then Reg.MRX0.base else if t = 1 then Reg.MTX0.base else if t = 2 then Reg.LTX0.base else Reg.LRX0.base
      match loadWords (base + i * (if link then 16 else 64)) (slice bs 4 (if link then 16 else 64)) s with
      | .error e => .error e
      | .ok u => loadStreams n (bs.drop 68) u

/-- KEYS records of 48 bytes; none where a field breaks R422. A slot beyond 15 is ignored. -/
def loadKeyRecs : Nat → List Byte → State → Option State
  | 0, _, s => some s
  | n + 1, bs, s =>
    if getLE bs 1 15 ≠ 0 then none
    else loadKeyRecs n (bs.drop 48) (if 15 < getLE bs 0 1 ∨ s.sec.tampered then s else keyWrite (getLE bs 0 1) (slice bs 16 32) s)

/-- The counts of a LAYOUT header, limited as R137 gives: loudspeakers, virtual loudspeakers, arrays. -/
def layoutCounts (s : State) (p : List Byte) : Nat × Nat × Nat :=
  (min (getLE p 0 4 % 2 ^ 12) (objCount s), min (getLE p 0 4 / 2 ^ 16 % 2 ^ 9) 256, min (getLE p 4 4 / 2 ^ 16 % 2 ^ 7) 64)

/-- A section: TYPE, INDEX, ADDR, byte 7 and its payload. -/
structure Section where
  typ : Nat
  index : Nat
  addr : Nat
  zero7 : Nat
  len : Nat
  crc : Nat
  pay : List Byte

/-- The section at an offset of an image. -/
def sectionAt (img : List Byte) (o : Nat) : Section :=
  let h := flashAt img o 16
  ⟨getLE h 0 1, getLE h 1 1, getLE h 2 5, getLE h 7 1, getLE h 8 4, getLE h 12 4, flashAt img (o + 16) (getLE h 8 4)⟩

/-- A payload length that agrees with a section's type (R422). -/
def lengthOk (s : State) (x : Section) : Bool :=
  let n := x.len
  match x.typ with
  | 1 => n == 16
  | 2 => n % 8 == 0
  | 4 =>
    let (a, b, c) := layoutCounts s x.pay
    decide (32 ≤ n) && n == 32 * (1 + a + b + c)
  | 5 => n == 16 * triCount s + 4 * 8192
  | 6 => n == 512 * zoneCount s
  | 7 => decide (64 + 64 * getLE x.pay 2 2 ≤ n)
  | 8 => decide (16 + 32 * getLE x.pay 2 2 ≤ n)
  | 9 => decide (16 + 16 * (getLE x.pay 2 2 + getLE x.pay 4 2) ≤ n)
  | 10 => n % 68 == 0
  | 11 => n % 48 == 0
  | _ => true

/-- Section-header fields and payload length that agree with the type (R421 reason 5). -/
def sectionOk (s : State) (x : Section) : Bool :=
  x.len % 4 == 0 && x.zero7 == 0 && (if x.typ = 7 then decide (x.index ≤ 7) else x.index == 0) && lengthOk s x

/-- ADDR and payload lie where R422 allows the type (R421 reason 6); of a type that gives ADDR no meaning it is zero. -/
def placeOk (s : State) (x : Section) : Bool :=
  let a := x.addr
  let z := a + x.len
  let dram := decide (dramBase ≤ a) && decide (z ≤ dramTop s)
  match x.typ with
  | 3 => a % 4 == 0 && (dram || (decide (0x20000 ≤ a) && decide (z ≤ secBase)) ||
      (decide (druBase ≤ a) && decide (z ≤ druBase + 0x1100000)) ||
      (decide (0x40000000 ≤ a) && decide (z ≤ 0x41000000)))
  | 7 => a % 64 == 0 && dram
  | 8 => dram
  | 9 => dram
  | _ => a == 0

/-- A section's payload loads; the answer is its failure reason, if any, and the state. -/
def sectionLoad (x : Section) (s : State) : Except Fault (Nat × State) :=
  let done (r : Except Fault State) : Except Fault (Nat × State) :=
    match r with
    | .error e => .error e
    | .ok t => .ok (0, t)
  let checked (code : Nat) (r : Except Fault (Option State)) : Except Fault (Nat × State) :=
    match r with
    | .error e => .error e
    | .ok none => .ok (code, s)
    | .ok (some t) => .ok (0, t)
  let stored : State := storeMem 11 0 s x.addr x.pay
  let pair (lo hi : Nat) : Except Fault (Nat × State) :=
    match loadWord lo (wordOf (x.addr % 2 ^ 32)) stored with
    | .error e => .error e
    | .ok t => done (loadWord hi (wordOf (x.addr / 2 ^ 32)) t)
  match x.typ with
  | 1 => .ok (if getLE x.pay 10 6 = 0 then 0 else 5, s)
  | 2 => checked 6 (loadRecords x.pay s)
  | 3 => if 0x40000000 ≤ x.addr ∧ x.addr < druBase then done (loadWords x.addr x.pay s) else done (fabWrite 3 11 0 s x.addr x.pay)
  | 4 =>
    let (a, b, _) := layoutCounts s x.pay
    match loadWords Reg.LAY0.base (x.pay.take 20) s with
    | .error e => .error e
    | .ok s1 =>
      match loadWords Reg.SPK0.base (slice x.pay 32 (32 * a)) s1 with
      | .error e => .error e
      | .ok s2 =>
        match loadWords Reg.VIRT0.base (slice x.pay (32 + 32 * a) (32 * b)) s2 with
        | .error e => .error e
        | .ok s3 => done (loadWords Reg.ARR0.base (x.pay.drop (32 + 32 * a + 32 * b)) s3)
  | 5 =>
    match loadWords Reg.TRI0.base (x.pay.take (16 * triCount s)) s with
    | .error e => .error e
    | .ok t => done (loadWords Reg.LOOKUP.base (x.pay.drop (16 * triCount s)) t)
  | 6 => done (loadWords Reg.ZONE0.base x.pay s)
  | 7 => pair (Reg.COR_SET_BASE_LO.at x.index) (Reg.COR_SET_BASE_HI.at x.index)
  | 8 => pair Reg.DRU_PROG_BASE_LO.base Reg.DRU_PROG_BASE_HI.base
  | 9 => pair Reg.SYS_SNAP_BASE_LO.base Reg.SYS_SNAP_BASE_HI.base
  | 10 => checked 5 (loadStreams (x.len / 68) x.pay s)
  | 11 =>
    if s.fuse.life = 1 then checked 5 (.ok (loadKeyRecs (x.len / 48) x.pay s))
    else .ok (0, count Reg.NVM_SKIP_CNT.base s)
  | _ => .ok (0, count Reg.NVM_SKIP_CNT.base s)

/-- The next section of the image in use loads with its checks (R421); the last one ends the load. -/
def sectionStep (s : State) : Except Fault State :=
  if !powered s ∨ s.start.stage ≠ 4 ∨ !s.start.loading then .ok s
  else
    let k := s.start.slotSel
    let len := imgLen s k
    let o := s.start.secOfs
    let x := sectionAt (slotImage s k) o
    let known := decide (1 ≤ x.typ ∧ x.typ ≤ 11)
    if len < o + 16 then .ok (imageFail 4 s)
    else if s.start.secNo = 0 ∧ x.typ ≠ 1 then .ok (imageFail 2 s)
    else if known ∧ !sectionOk s x then .ok (imageFail 5 s)
    else if known ∧ !placeOk s x then .ok (imageFail 6 s)
    else if len < o + 16 + x.len then .ok (imageFail 4 s)
    else
      match sectionLoad x s with
      | .error e => .error e
      | .ok (reason, s1) =>
        if reason ≠ 0 then .ok (imageFail reason s)
        else if crc32c x.pay ≠ x.crc then .ok (imageFail 3 s)
        else
          let stop := (o + 16 + x.len + 15) / 16 * 16
          let final := s.start.secNo + 1 == imgSections s k
          if final ∧ stop < len then .ok (imageFail 4 s)
          else .ok (modStart (fun y => { y with secNo := y.secNo + 1, secOfs := stop, loading := !final }) s1)

end Sys2Proof.Machine
end

