-- ==== Sys2Proof/Machine/Pipe.lean ====
section
/-! DEFINITION. The block pipeline (R32, R44 to R47, R55 to R61): tags that arrive at a unit and act there, what a unit
does when it begins a block or a tick, the blocks of each stage, released blocks and missed deadlines. -/

namespace Sys2Proof.Machine

open Sys2Proof

/-- What a unit of the running device does; nothing where it is absent (R3, R4). -/
def whenUp (u : Nat) (f : State → State) (s : State) : State := when (running s && unitPresent s u) f s

/-! ### Arrival of tags (R55 to R57, R67) -/

/-- SYS passes no audio: its next block is the one in progress, `d` blocks on. -/
def sysClock (d u : Nat) (s : State) : State :=
  if u = uSYS then modUnit uSYS (fun x => { x with next := nowBlock s + d }) s else s

/-- The trim words a RAMP tag to INC or COR covers (R77, R225). -/
def rampWords (u : Nat) (s : State) (payload : Word) : List Nat :=
  if u = uINC then (rampChans s payload).map Reg.INCH2.at else (rampOutputs s payload).map Reg.COUT0.at

/-- A mark on a SNAP that reached SYS while there was no table (R455). -/
def snapRefused : List (Nat × Word) := [(0, 0)]

/-- The block an output side begins next. -/
def outNextOf (s : State) (u : Nat) : Nat :=
  if u = uMST then s.mst.outNext else if u = uLNK then s.lnk.outNext else if u = uTDM then s.ser.tdmOut else s.ser.aesOut

/-- A claim change reaches an output-side unit (R65): judged by the blocks its output side begins, which carry the claim
from the tick it names on; with claim 0 the unit sends for one more tick (R562). -/
def arriveClaim (u : Nat) (g : TagRec) (s : State) : State :=
  let next := outNextOf s u
  let (late, block) := judge s next g
  let e := fld g.payload 31 8
  let claim := if e = 0 then 0 else e * 256 + ownRank s
  let s1 :=
    if u = uMST then { s with mst := { s.mst with claims := s.mst.claims ++ [(block, claim)] } }
    else if u = uLNK then { s with lnk := { s.lnk with claims := s.lnk.claims ++ [(block, claim)] } }
    else s
  enqueueTag u { g with late := late } block []
    (modPar (fun x => { x with
      nextClaim := some (block, claim), audioTo := if e = 0 then some (block + tickBlocks s) else x.audioTo })
      (countLate s1 u late (isStale s next g)))

/-- A tag is judged, copies what its type copies on arrival, and joins the pending queue. -/
def takeTag (u : Nat) (g : TagRec) (s : State) : State :=
  if g.typ = tCOMMIT then (if u = uLAN then arriveLanCommit g s else arriveCommit u g s)
  else if g.typ = tMIGRATE then arriveMigrate g s
  else if g.typ = tSWAP then arriveSwap g s
  else if g.typ = tSTART ∧ u = uMEA then arriveRun g s
  else if g.typ = tROUTE ∨ (g.typ = tRAMP ∧ u = uRTE) then arriveRoute g s
  else if g.typ = tRAMP then arrivePlain u g (copies s (rampWords u s g.payload)) s
  else if g.typ = tEPOCH ∧ bit g.payload 1 ∧ [uMST, uLNK, uTDM, uAES].contains u then arriveClaim u g s
  else if g.typ = tSNAP ∧ (snapTab s).1.isNone then arrivePlain u g snapRefused s
  else arrivePlain u g [] s

/-- The block a unit begins next, from the arrival of a tag on: past the block it has begun. -/
def pastBegun (u : Nat) (f : State → State) (s : State) : State :=
  if (unitSt s u).begun then
    modUnit u (fun x => { x with next := x.next - 1 }) (f (modUnit u (fun x => { x with next := x.next + 1 }) s))
  else f s

/-- The tag at the head of a unit's stream arrives, where `p` describes it. -/
def tagArrive (p : TagRec → Bool) (u : Nat) (s : State) : State :=
  if !running s then s
  else
    match takeTransit u (sysClock 1 u s) with
    | some (g, t) => if p g then pastBegun u (takeTag u g) t else s
    | none => s

/-! ### Beginning a block (R15, R44, R66) -/

/-- L fields act from here on, and what a unit does because of them (R15, R346, R391, R404). -/
def unitLive (u : Nat) (s : State) : State :=
  let b := (unitSt s u).next
  let s1 := applyLive u s
  if u = uMST then
    let on := actB s1 Reg.MST_IGMP.base 0
    txRefresh b (rxRefresh false (when (on != actB s Reg.MST_IGMP.base 0) (igmpSwitch on) s1))
  else if u = uLNK then
    let s2 := (List.range (linkCount s1)).foldl (fun t n => when ((linkSt t n).up && !lnkEn t n) (linkDown n false) t) s1
    lnkTxRefresh b (rxRefresh true (when ((List.range (linkCount s1)).any (fun n => lnkEn s n && !lnkEn s1 n)) cellsRest s2))
  else if u = uTDM then ringRefresh b (serRefresh false b s1)
  else if u = uAES then serRefresh true b s1
  else if u = uMOT then oscScheduled s1
  else s1

/-- The unit begins the first block of a tick whose boundary work it has not done (R44). -/
def tickOpen (s : State) (u : Nat) : Bool :=
  let x := unitSt s u
  decide (x.next % tickBlocks s = 0) && decide (x.tickDone ≠ some (x.next / tickBlocks s))

/-- The boundary work of the tick is done. -/
def tickMark (u : Nat) (s : State) : State :=
  modUnit u (fun x => { x with tickDone := some (x.next / tickBlocks s) }) s

/-- A step of the time scale passes the pending tags of a unit that begins its first block (R64). -/
def stepPasses (u : Nat) (s : State) : State :=
  let b := (unitSt s u).next
  when (isStepBlk s b) (modUnit u (fun x => { x with
    pend := x.pend.map (fun p => { p with tag := rebase s (scaleAt s (16 * b)) p.tag }) })) s

/-- A unit begins its next block: L fields act, and the lanes' entries hold before any result goes live (R196). -/
def openBlock (u : Nat) (s : State) : State :=
  let s0 := sysClock 0 u s
  if (unitSt s0 u).begun then s0
  else
    let s1 := modUnit u (fun x => { x with begun := u != uSYS }) (unitLive u (stepPasses u s0))
    if u = uLAN ∧ tickOpen s1 u then tickMark u (lanTick s1) else s1

/-! ### Tags that act (R58, R65, R67) -/

/-- What a COMMIT's values bring about in a unit, from the state before to the state after they went live. -/
def commitFx (u b : Nat) (o n : State) (as : List Nat) : State :=
  if u = uINC then incCommit o n as
  else if u = uRTE then rteLive b o n as
  else if u = uMOT then motCommit (b / tickBlocks n) o n as
  else if u = uSLV then slvCommit (b / tickBlocks n) o n as
  else if u = uLAN then lanCommit b n
  else if u = uCOR then corCommit o n as
  else if u = uMEA then meaCommit o n as
  else n

/-- A COMMIT acts: its pending set goes live, all fields at once (R67). -/
def commitAct (u : Nat) (p : PendTag) (s : State) : State :=
  let o := removePend u p s
  commitFx u (unitSt s u).next o (applySet p.snap o) (p.snap.map (·.1))

/-- An EPOCH tag acts. A claim change has been taken by the output side on arrival; a time-scale step needs nothing here:
the scale of a block follows from its place in the count (R62). -/
def epochAct (u : Nat) (p : PendTag) (s : State) : State := removePend u p s

/-- A MARK acts (R51). -/
def markAct (u : Nat) (p : PendTag) (s : State) : State :=
  raise 0x01 (bytesOf 4 p.tag.payload.toNat ++ bytesOf 1 u) (removePend u p s)

/-- A START or STOP acts at a class of serial ports, or at the rings (R391, R404). -/
def serialTag (aes : Bool) (b : Nat) (g : TagRec) (s : State) : State :=
  let start := g.typ == tSTART
  if !aes ∧ bit g.payload 0 then (ringNamed g).foldl (fun t r => if start then ringStart b r t else ringStop b r t) s
  else (serNamed aes s g).foldl (if start then serStart aes b else serStop aes b) s

/-- A due tag acts at its unit. -/
def tagAct (u : Nat) (p : PendTag) (s : State) : State :=
  let b := (unitSt s u).next
  let typ := p.tag.typ
  if typ = tCOMMIT then commitAct u p s
  else if typ = tMARK then markAct u p s
  else if typ = tEPOCH then epochAct u p s
  else if typ = tSWAP then swapAct s
  else if u = uRTE then routeAct (typ == tRAMP) b p.snap (removePend u p s)
  else if u = uINC then incRamp p.snap (removePend u p s)
  else if u = uCOR then corRamp p.snap (removePend u p s)
  else if u = uLAN then migrateAct p.tag.payload (removePend u p s)
  else if u = uMST then txRefresh b (rxRefresh false (streamTag false p.tag (removePend u p s)))
  else if u = uLNK then lnkTxRefresh b (rxRefresh true (streamTag true p.tag (removePend u p s)))
  else if u = uTDM then serialTag false b p.tag (removePend u p s)
  else if u = uAES then serialTag true b p.tag (removePend u p s)
  else if typ = tSTART then runBegin p.tag.inst (removePend u p s)
  else runStop p.tag.inst (removePend u p s)

/-- A tag acts that SYS carries out only by its own rows: CUE and SNAP write through the fabric. -/
def sysOwn (p : PendTag) : Bool := p.tag.typ == tCUE || p.tag.typ == tSNAP

/-- The due tags of a unit act, one after another, at most `n` of them. -/
def tagsAct : Nat → Nat → State → State
  | 0, _, s => s
  | n + 1, u, s =>
    match (dueTags s u).find? (fun p => !sysOwn p) with
    | none => s
    | some p => tagsAct n u (tagAct u p s)

/-- A due tag acts before the rest of its block, where it is the first due and `p` describes it (R58). -/
def tagRow (u : Nat) (q : PendTag → Bool) (s : State) : State :=
  if !running s then s
  else
    let s1 := openBlock u s
    match (dueTags s1 u).find? (fun p => !sysOwn p) with
    | some p => if q p then tagAct u p s1 else s
    | none => s

/-- A unit begins its block, and the first due tag acts where `q` describes it. -/
def openRow (u : Nat) (q : PendTag → Bool) (s : State) : State :=
  if !running s then s
  else
    let s1 := openBlock u s
    match (dueTags s1 u).find? (fun p => !sysOwn p) with
    | some p => if q p then tagAct u p s1 else s1
    | none => s1

/-! ### Tick boundaries and blocks (R32, R44) -/

/-- A unit's work at a tick boundary, after the tags of that block have acted. -/
def tickWork (u : Nat) (s : State) : State :=
  let k := (unitSt s u).next / tickBlocks s
  if u = uINC then incTick s
  else if u = uMOT then motTick k s
  else if u = uSLV then slvTick k s
  else if u = uCOR then corTick s
  else if u = uLNK then (List.range (linkCount s)).foldl linkTick s
  else s

/-- A unit begins its next block: L fields, tags, and at a tick boundary its work there. -/
def beginBlock (u : Nat) (s : State) : State :=
  let s1 := openBlock u s
  let s2 := tagsAct (unitSt s1 u).pend.length u s1
  if tickOpen s2 u then tickMark u (tickWork u s2) else s2

/-- Rendering runs in block `b` (R550, R562, R563). -/
def renders (s : State) (b : Nat) : Bool :=
  (match s.par.renderFrom with
    | some f => decide (f ≤ b)
    | none => false) &&
  (match s.par.renderTo with
    | some t => decide (b ≤ t)
    | none => true)

/-- A unit has passed block `b`, or is not there to wait for. -/
def passed (s : State) (b u : Nat) : Bool := !unitPresent s u || decide (b < (unitSt s u).next)

/-- MOT has begun the tick of block `b`: the object records that act are those of the tick (R46). -/
def recordsIn (s : State) (b : Nat) : Bool :=
  match (unitSt s uMOT).tickDone with
  | some d => decide (tickOfBlock s b ≤ d)
  | none => false

/-- Every input a unit's block needs has been delivered (R32, R60); `out`: its output side. -/
def inputsIn (out : Bool) (u b : Nat) (s : State) : Bool :=
  if out then
    if u = uRTE then passed s b uCOR else decide (b < s.rte.outNext)
  else if u = uINC then [uMST, uLNK, uTDM, uAES].all (passed s b)
  else if u = uRTE then [uINC, uMEA].all (passed s b)
  else if u = uLAN then passed s b uRTE && (!renders s b || recordsIn s b)
  else if u = uRED then passed s b uLAN && (!renders s b || partialsIn s b)
  else if u = uCOR then passed s b uRED
  else true

/-- The block a unit's side works on next. -/
def sideNext (out : Bool) (u : Nat) (s : State) : Nat :=
  if !out then (unitSt s u).next
  else if u = uRTE then s.rte.outNext
  else if u = uMST then s.mst.outNext
  else if u = uLNK then s.lnk.outNext
  else if u = uTDM then s.ser.tdmOut
  else s.ser.aesOut

/-- The first output block ends the start (R411 step 8, R431). -/
def firstOutput (s : State) : State :=
  if s.start.stage = 5 then
    stageGo 6 (storeBytes s 60 (bytesOf 4 (min (2 ^ 32 - 1) (((s.time.mono - s.start.began) / 65536 / 3) / 1000))))
  else s

/-- The headers of block `b` on carry a new claim (R65, R573). -/
def claimTakes (b : Nat) (s : State) : State :=
  match s.par.nextClaim with
  | some (k, c) => if k ≤ b then modPar (fun p => { p with claim := c, nextClaim := none }) s else s
  | none => s

/-- The audio block that an SRAM error strikes: zeros replace its samples and it carries MEMERR (R504). -/
def blkErr (p : Space) (e : SramErr) (b : Nat) (s : State) : State :=
  match blkAt s p e.number b with
  | some x => putBlk p e.number { x with
      memerr := true, smp := x.smp.mapIdx (fun j v => if e.first ≤ j ∧ j < e.first + e.len then 0 else v) } s
  | none => s

/-- Reel samples that an SRAM error strikes read as zeros and carry MEMERR until they are overwritten (R504). -/
def reelErr (e : SramErr) (s : State) : State :=
  modLaneObj e.number (fun x => { x with
    subs := x.subs.map (fun l => l.mapIdx (fun j v => if e.first ≤ j ∧ j < e.first + e.len then 0 else v))
    bad := ((List.range e.len).map (fun (k : Nat) => x.head - 1 - (e.first + k : Nat))) ++ x.bad }) s

/-- An SRAM error that a unit's engine meets in block `b` (R504): a single-bit error is corrected and counted; any other
is reported and takes the audio of what the unit reads. -/
def engineErr (out : Bool) (u b : Nat) (s : State) (e : SramErr) : State :=
  if !e.bad then count Reg.MEM_CE_CNT.base s
  else
    let t := reportSramUe 0 e.group e.bank s
    if out then (if u = uRTE then blkErr .out e b t else blkErr .slot e b t)
    else if u = uINC then
      match chanSource t e.number with
      | some (p, n) => blkErr p { e with number := n } b t
      | none => t
    else if u = uRTE then blkErr .chan e b t
    else if u = uLAN then reelErr e t
    else if u = uCOR then blkErr .sum e b t
    else t

/-- The output side of a unit: stage 7 of the pipeline. -/
def outSide (u : Nat) (x : BlockIn) (b : Nat) (s : State) : State :=
  if u = uRTE then rteOutBlock b s
  else if u = uMST then
    let t := mstOutBlock b s
    firstOutput { t with mst := { t.mst with outNext := b + 1 } }
  else if u = uLNK then
    let t := lnkOutBlock b s
    firstOutput { t with lnk := { t.lnk with outNext := b + 1 } }
  else if u = uTDM then firstOutput (serOutBlock false b x.full x.late s)
  else firstOutput (serOutBlock true b x.full x.late s)

/-- The input side of a unit, or its only one: stages 1 to 6. -/
def inSide (u : Nat) (x : BlockIn) (b : Nat) (s : State) : State :=
  let r := renders s b
  if u = uMST then mstInBlock b s
  else if u = uLNK then lnkInBlock b s
  else if u = uTDM then serInBlock false b x.frames x.lead x.full x.late s
  else if u = uAES then serInBlock true b x.frames x.lead x.full x.late s
  else if u = uINC then incBlock b s
  else if u = uRTE then
    if r then bulkWrite b (druInBlock b (rteInBlock b (druOutBlock b s))) else rteInBlock b s
  else if u = uSLV then when r solverCutoff s
  else if u = uLAN then when r (lanBlock b x.lost x.miss) s
  else if u = uRED then when r (redRelease b []) s
  else if u = uCOR then when r (corBlock b x.lost x.miss x.tails) s
  else if u = uMEA then when r (meaBlock b x.full) s
  else s

/-- A unit's block is done: it goes on to the next. -/
def blockDone (u : Nat) (s : State) : State :=
  modUnit u (fun x => { x with next := x.next + 1, begun := false }) s

/-- A unit that takes part in the block stream with an output side. -/
def hasOut (u : Nat) : Bool := [uRTE, uMST, uLNK, uTDM, uAES].contains u

/-- A unit of the block stream begins a block and works on it (R32). -/
def pipelineBlock (u : Nat) (x : BlockIn) (s : State) : State :=
  if !running s ∨ !honoursTags u ∨ u = uSYS ∨ !unitPresent s u ∨ (x.out ∧ !hasOut u) then s
  else
    let b := sideNext x.out u s
    if !inputsIn x.out u b s then s
    else if x.out then outSide u x b (x.sram.foldl (engineErr true u b) (if u = uRTE then s else claimTakes b s))
    else blockDone u (inSide u x b (x.sram.foldl (engineErr false u b) (beginBlock u s)))

/-- A unit begins the first block of a tick (R44), or one of the units beside the block stream meets a tick boundary:
the health unit, pairing and the clocks test and act once a tick. -/
def tickBoundary (u : Nat) (s : State) : State :=
  if !running s ∨ !unitPresent s u then s
  else if honoursTags u then (if tickOpen s u then beginBlock u s else s)
  else if (unitSt s u).tickDone == some (nowTick s) then s
  else
    let s1 := modUnit u (fun x => { x with tickDone := some (nowTick s) }) s
    if u = uPAR then abdTest s1
    else if u = uHLT then hltTick s1
    else if u = uCLK then clkTick s1
    else s

/-- RED releases its next block with the parity errors of its flits (R60, R208, R209). -/
def blockRelease (errs : List (Nat × Nat)) (s : State) : State :=
  let b := (unitSt s uRED).next
  if !running s ∨ !inputsIn false uRED b s then s
  else blockDone uRED (when (renders s b) (redRelease b errs) (beginBlock uRED s))

/-! ### Missed deadlines (R61) -/

/-- The output of a kind (0 TDM, 1 AES3, 2 stream, 3 link) has sent its blocks up to this one. -/
def outOfKind (kind : Nat) (s : State) : Nat :=
  match kind with
  | 0 => s.ser.tdmOut
  | 1 => s.ser.aesOut
  | 2 => s.mst.outNext
  | _ => s.lnk.outNext

/-- The first wire sample of the next block of an output falls due before the block is there: zeros go out, CONCEALED,
and the block is discarded when it comes. -/
def deadlineMiss (kind number : Nat) (s : State) : State :=
  let b := outOfKind kind s
  if !running s ∨ nowBlock s < b + 7 then s
  else
    let tick := tickOfBlock s b
    let s1 := raise 0x03 (bytesOf 1 kind ++ bytesOf 1 number ++ bytesOf 4 (extBlk s b)) (count Reg.HLT_DEADLINE_MISS_CNT.base s)
    modPar (fun p => { p with missTicks := if p.missTicks.contains tick then p.missTicks else tick :: p.missTicks })
      { s1 with ser := { s1.ser with missed := (kind, number, b) :: s1.ser.missed } }

/-! ### SYS tags (R455, R456, R557) -/

/-- A CUE tag acts as soon as it has arrived: its writes go out, and its COMMIT names its tick (R456). -/
def cueTag (s : State) : Except Fault State :=
  match (unitSt s uSYS).pend.find? (fun p => p.tag.typ == tCUE) with
  | some p => if running s then cueAct (fld p.tag.payload 15 0) (tagTick s p) (removePend uSYS p s) else .ok s
  | none => .ok s

/-- A SNAP tag acts: a recall as soon as it has arrived, a save and a pairing snapshot at their tick (R455, R557). -/
def snapTag (s : State) : Except Fault State :=
  let ready (p : PendTag) : Bool :=
    p.tag.typ == tSNAP && ((bit p.tag.payload 16 && !bit p.tag.payload 17) || decide (p.block ≤ nowBlock s))
  match (unitSt s uSYS).pend.find? ready with
  | some p =>
    let k := fld p.tag.payload 15 0
    let s1 := removePend uSYS p s
    if !running s then .ok s
    else if bit p.tag.payload 17 then pairCapture (if p.snap ≠ [] then none else some k) (tagTick s p) s1
    else if p.snap ≠ [] then .ok (snapEvent k (if bit p.tag.payload 16 then 3 else 2) (tagTick s p) s1)
    else if bit p.tag.payload 16 then snapRecall k (tagTick s p) s1
    else snapSave k (tagTick s p) s1
  | none => .ok s

end Sys2Proof.Machine
end

