-- ==== Sys2Proof/Machine/Clocks.lean ====
section
/-! DEFINITION. The rows of clocks and time (R278 to R311). -/

namespace Sys2Proof.Machine

open Sys2Proof

/-! ### Candidates and the DPLL (R280 to R295) -/

/-- The 1PPS candidates: the one input feeds them all. -/
def ppsCands (s : State) : List Nat := (List.range 8).filter (fun c => candUsable s c && candType s c == 4)

/-- The first of them, under whose number the input's edges come. -/
def firstPps (s : State) : Option Nat := (ppsCands s).head?

/-- An edge of an edge-timed candidate: its period in ps, the distance to the device's nearest sample boundary of the
reference's rate, or second, in 2^-16 ns, and its frequency in 2^-16 ppm as measured (R279 to R282, R289). A 1PPS edge
moves the second named (R301), with no candidate too (`cand` 8). -/
def execReferenceEdge (cand period : Nat) (phase freq : Int) (s : State) : Host.Outcome State Fault Refusal :=
  run (whenUp uCLK (fun t =>
    if 8 ≤ cand then (if (firstPps t).isNone then ppsEdge id t else t)
    else if candType t cand ≠ 4 then edgeSeen cand period phase freq t
    else if firstPps t = some cand then
      ppsEdge (fun u => (ppsCands u).foldl (fun w c => edgeSeen c period phase freq w) u) t
    else t)) s

/-- No edge for three periods (R282). -/
def execCandidateLoss (cand : Nat) (s : State) : Host.Outcome State Fault Refusal :=
  run (whenUp uCLK (fun t => when (decide (cand < 8)) (candLoss cand) t)) s

/-- A qualification time has run out (R280). -/
def execQualificationComplete (cand : Nat) (s : State) : Host.Outcome State Fault Refusal :=
  run (whenUp uCLK (fun t => when (decide (cand < 8)) (qualDone cand) t)) s

/-- The lock criterion has held for 1 s (R291). -/
def execLockAchieved (s : State) : Host.Outcome State Fault Refusal := run (whenUp uCLK lockAchieved) s

/-- HOLD_MAX seconds of holdover have passed (R287). -/
def execHoldMaxExpiry (s : State) : Host.Outcome State Fault Refusal := run (whenUp uCLK holdExpiry) s

/-- A write to `CLK_CTRL` (R286): the row is the write together with the block boundary at which it acts (R15, log 53). -/
def execClkCtrlWrite (value : Word) (s : State) : Host.Outcome State Fault Refusal := run (whenUp uCLK (clkCtrl value)) s

/-- A write to a word of a candidate's record (R285), together with the block boundary at which it acts (R15, log 53). -/
def execCandidateWrite (cand word : Nat) (value : Word) (s : State) : Host.Outcome State Fault Refusal :=
  run (whenUp uCLK (fun t => when (decide (cand < 8 ∧ word < 4)) (candWrite cand word value) t)) s

/-- DPLL A is retired (R295, R569). -/
def execDpllRetire (cause : Nat) (s : State) : Host.Outcome State Fault Refusal :=
  run (whenUp uCLK (hltRetire 4 0 (cause % 5))) s

/-! ### PTP (R283, R297 to R300) -/

/-- TIM takes the next frame of its queues (R326). -/
def takeTim (s : State) : State :=
  match s.net.queues.findSome? (fun q => consume 2 q.1 s) with
  | some (_, _, t) => t
  | none => s

/-- A Sync exchange: its header's domainNumber (bits 7:0) and logMessageInterval (bits 15:8), its instants in 2^-16 ns,
correction, the loop's prediction of the offset, and the master's frequency in 2^-16 ppm (R297, R299). -/
def execSyncReceive (header : Nat) (t1 t2 corr pred freq : Int) (s : State) : Host.Outcome State Fault Refusal :=
  run (whenUp uTIM (fun t => syncReceive header t1 t2 corr pred freq (takeTim t))) s

/-- An Announce: the data set it carries, the identity of its sender and its interval in ns (R298). -/
def execAnnounceReceive (domain prio1 cls acc var prio2 gm steps sender utc interval : Nat) (s : State) :
    Host.Outcome State Fault Refusal :=
  run (whenUp uTIM (fun t =>
    announce domain ⟨prio1, cls, acc, var, prio2, gm, steps, sender, utc, monoNs t, interval⟩ (takeTim t))) s

/-- The Announce receipt timeout (R283). -/
def execAnnounceTimeout (s : State) : Host.Outcome State Fault Refusal := run (whenUp uTIM announceTimeout) s

/-- PORT's link has been up for 2 s (R298). -/
def execPtpPortReturn (s : State) : Host.Outcome State Fault Refusal := run (whenUp uTIM ptpReturn) s

/-- No Sync for three intervals (R283). -/
def execSyncTimeout (s : State) : Host.Outcome State Fault Refusal := run (whenUp uTIM syncTimeout) s

/-- No valid TIME frame of a link for three intervals (R283). -/
def execTimeFrameTimeout (link : Nat) (s : State) : Host.Outcome State Fault Refusal :=
  run (whenUp uLNK (timeTimeout link)) s

/-- The PTP instance sends a message whose time has come: 0 Sync, 1 Announce, 2 Delay_Req or Pdelay_Req (R298). -/
def execPtpMessageSend (kind : Nat) (s : State) : Host.Outcome State Fault Refusal := run (whenUp uTIM (ptpSend kind)) s

/-- A delay message: 0 Delay_Req, 1 Delay_Resp, 2 Pdelay_Req, 3 Pdelay_Resp, with its instants in 2^-16 ns, correction,
and the neighbour rate ratio with 32 fraction bits (R299). -/
def execDelayMessageReceive (kind domain : Nat) (t1 t2 t3 t4 corr ratio : Int) (s : State) :
    Host.Outcome State Fault Refusal :=
  run (whenUp uTIM (fun t => delayMessage kind domain t1 t2 t3 t4 corr ratio (takeTim t))) s

/-! ### Seconds, triggers, captures (R301 to R311) -/

/-- A write to one word of `TIM_PPS_SEC` (R301). -/
def execPpsSecWrite (high : Bool) (value : Word) (s : State) : Host.Outcome State Fault Refusal :=
  run (whenUp uTIM (ppsWrite high value)) s

/-- Word 3 of a trigger's record is written (R304). -/
def execTriggerArm (trigger : Nat) (value : Word) (s : State) : Host.Outcome State Fault Refusal :=
  run (whenUp uTIM (fun t => when (decide (trigger < 32)) (trigWrite trigger value) t)) s

/-- A trigger's point has come (R302 to R304). -/
def execTriggerFire (trigger : Nat) (s : State) : Host.Outcome State Fault Refusal :=
  run (whenUp uTIM (fun t => when (decide (trigger < 32)) (trigFire trigger) t)) s

/-- An edge on a capture source, `quarter` units of 250 ps into the sample in progress (R305). -/
def execCaptureEdge (source : Nat) (falling : Bool) (quarter : Nat) (s : State) : Host.Outcome State Fault Refusal :=
  run (whenUp uTIM (captureEdge source falling quarter)) s

end Sys2Proof.Machine
end

