-- ==== Sys2Proof/Machine/Cluster.lean ====
section
/-! DEFINITION. The rows of the Druora cluster beside its instructions (R483 to R497). -/

namespace Sys2Proof.Machine

open Sys2Proof

/-- A core takes a pending enabled source, 0 DOORBELL or 1 TIMER, between two instructions (R483). -/
def execInterruptTake (core source : Nat) (s : State) : Host.Outcome State Fault Refusal :=
  run (whenUp uDRU (interruptTake core source)) s

/-- TMR of a core reaches 0 while no instruction of it ends (R483). -/
def execTimerExpiry (core : Nat) (s : State) : Host.Outcome State Fault Refusal := run (whenUp uDRU (timerExpiry core)) s

/-- A write to `DRU_DOORBELL` (R483). -/
def execDoorbell (value : Word) (s : State) : Host.Outcome State Fault Refusal := run (whenUp uDRU (doorbell value)) s

/-- CMD START (R497). -/
def execCoreStart (core : Nat) (s : State) : Host.Outcome State Fault Refusal := run (whenUp uDRU (coreStart core)) s

/-- CMD STOP (R497). -/
def execCoreStop (core : Nat) (s : State) : Host.Outcome State Fault Refusal := run (whenUp uDRU (coreStop core)) s

/-- CMD RESET (R497). -/
def execCoreReset (core : Nat) (s : State) : Host.Outcome State Fault Refusal := run (whenUp uDRU (coreReset core)) s

/-- The copy of a program into a core completes (R486). -/
def execProgramLoadDone (core : Nat) (s : State) : Host.Outcome State Fault Refusal := run (whenUp uDRU (loadDone core)) s

/-- A task begins on its core (R487). -/
def execTaskStart (core : Nat) (s : State) : Host.Outcome State Fault Refusal := run (whenUp uDRU (taskStart core)) s

/-- A stream core starts its next run (R490). -/
def execStreamRunStart (core : Nat) (s : State) : Host.Outcome State Fault Refusal :=
  runE (fun t => if !(running t && unitPresent t uDRU) then .ok t
    else if runReady core t && buffersBad t core then .error .streamBuffer else .ok (streamRunStart core t)) s

/-- A run is due (R491). -/
def execRunOverrun (core : Nat) (s : State) : Host.Outcome State Fault Refusal := run (whenUp uDRU (runOverrun core)) s

/-- A task has run for DRU_TASK_MAX µs (R488). -/
def execTaskWatchdog (core : Nat) (s : State) : Host.Outcome State Fault Refusal :=
  run (whenUp uDRU (taskWatchdog core)) s

/-- The health unit retires a physical core, with a cause of R572 (R495, R569). -/
def execCoreRetire (core cause : Nat) (s : State) : Host.Outcome State Fault Refusal :=
  run (whenUp uDRU (hltRetire 3 core (cause % 5))) s

/-- The copy to the spare is complete and the core is between tasks or runs (R495). -/
def execSpareCoreCopyEnd (s : State) : Host.Outcome State Fault Refusal := run (whenUp uDRU spareCopyEnd) s

end Sys2Proof.Machine
end

