-- ==== Sys2Proof/Machine/Load.lean ====
section
/-! DEFINITION. The end of a start (R411 steps 7 and 8, R423), restarts of the device and of single units (R410, R562,
R578 to R582), supplies and temperature (R590, R600), and the test access port (R598). -/

namespace Sys2Proof.Machine

open Sys2Proof

/-! ### Step 7 (R411, R423, R424, R428) -/

/-- Every shadow copy goes live and every L field acts (R423). -/
def stageAll (s : State) : State :=
  { s with words := { s.words with
    act := s.words.wr.foldl (fun t p => tabSet p.1 p.2 t) s.words.act, dirtyS := [], dirtyL := [] } }

/-- The units of the block stream stand before the block `b`. -/
def unitsStart (b : Nat) (s : State) : State :=
  let s1 := ((List.range 0x1E).filter (fun u => honoursTags u && unitPresent s u)).foldl
    (fun t u => modUnit u (fun x => { x with next := b, begun := false, tickDone := none }) t) s
  { s1 with
    rte := { s1.rte with outNext := b }
    mst := { s1.mst with outNext := b }
    lnk := { s1.lnk with outNext := b }
    ser := { s1.ser with tdmOut := b, aesOut := b }
    mea := { s1.mea with capNext := b, lastFrame := 16 * b }
    mot := { s1.mot with nextTick := b / tickBlocks s1 } }

/-- Lanes, slices and geometry units take their logical numbers from what is not retired (R189, R192, R222). -/
def logicalStart (s : State) : State :=
  let gone := (s.lan.lanes.filter (fun l => decide (l.2.state = .retired))).map (·.1)
  let geo := ((List.range 17).filter (fun p => !s.dsx.retired.contains p)).take 16
  let s1 := slicesStart (lanStart gone s)
  { s1 with
    dsx := { s1.dsx with phys := geo.mapIdx (fun k p => (k, p)) }
    clk := { s1.clk with bActive := s1.clk.retired.contains 0 } }

/-- The S words of a unit that the load changed. -/
def loadedWords (o n : State) (u : Nat) : List Nat :=
  (n.words.wr.map (·.1)).filter (fun a => decide (unitOf a = some u) && actW o a != actW n a)

/-- What the load's values bring about at a unit's first tick, as a COMMIT would (R423). -/
def loadCommit (b : Nat) (o : State) (n : State) (u : Nat) : State := commitFx u b o n (loadedWords o n u)

/-- Every object has a recovery event at its first tick (R122, R128). -/
def objsStart (k : Nat) (s : State) : State :=
  (objsInUse s).foldl (fun t n => modObj n (fun x => { recover k x with fresh := true }) t) s

/-- The time engine's time, which counts from zero at supplies valid, and the sample index at the render rate (R44,
R411). -/
def timeStart (s : State) : State :=
  { s with time := { s.time with
    sec := s.time.mono / subPerSec, sub := s.time.mono % subPerSec, idx := s.time.mono / subPerSample s } }

/-- Step 7: every unit starts. -/
def loadComplete (s : State) : State :=
  if !powered s ∨ s.start.stage ≠ 4 ∨ s.start.loading then s
  else
    let down := actF s Reg.SYS_RENDER_RATE.base 1 0 == 2 && !accepted s 1
    let o := timeStart s
    let n0 := timeStart (when down (setF Reg.FEA_STAT.base 2 2 1) (stageGo 5 (stageAll o)))
    let b := tickStart n0 (nowTick n0 + 1)
    let n1 := logicalStart (unitsStart b n0)
    let n2 := [uINC, uRTE, uMOT, uSLV, uCOR].foldl (fun t u => loadCommit b o t u) n1
    let n3 := bootSet (objsStart (b / tickBlocks n2) n2)
    let n4 := when (ptpOn n3) ptpEnable (candsStart (mclkChange n3))
    let n5 := parStart (wearFlush (setF Reg.FEA_STAT.base 0 0 1 (storeBytes n4 52 [1])))
    let n6 := { n5 with
      mst := { n5.mst with claims := [(0, n5.par.claim)] }, lnk := { n5.lnk with claims := [(0, n5.par.claim)] } }
    let n7 := ringRefresh b (serRefresh true b (serRefresh false b n6))
    lnkTxRefresh b (rxRefresh true (txRefresh b (rxRefresh false n7)))

/-! ### Restarts of the device (R410, R442, R562, R600) -/

/-- `RESTART`: the host gets no response, since the rings start empty; a frame's answer leaves before the restart, later
commands of the frame `DISCARDED` (R443, R448). -/
def cmdRestart (src tag slot : Nat) (noresp : Bool) (s : State) : State :=
  if !cmdReady s src (fun r => recIs 11 tag noresp r && r.count % 4 == slot) then s
  else
    let left := match (sourceOf s src).reply with
      | c :: _ => c.left
      | [] => 0
    let q := if src ≤ 16 then 512 + ((sourceOf s src).reply.head?.map (·.port)).getD 0 else linkRspQueue s (src - 17)
    let s1 := if src = 0 then s else
      sendLast q (queueSt s q).frames.length <| finish src noresp ⟨11, 0, tag, 1, 0, []⟩ (modSource src (fun x => { x with taken := x.taken.zipIdx.map (fun q =>
        if 0 < q.2 ∧ q.2 < left then { q.1 with flags := q.1.flags % cmdDiscard + cmdDiscard } else q.1) }) s)
    startBegin 2 (if slot = 1 then some 0 else if slot = 2 then some 1 else none) s1

/-- 100 ms after an abdication the device restarts with cause 3, where RESTART_EN is 1 (R562 step 5). -/
def abdicationRestart (s : State) : State :=
  match s.par.abd with
  | some a =>
    if running s ∧ s.par.role = 3 ∧ restartEn s ∧ a.began + 100000000 ≤ monoNs s then startBegin 3 none s else s
  | none => s

/-- Above 125 °C for 1 ms everything but the always-on domain is held in reset (R600); `tj` is what the sensor reads,
in s7.8 °C, and `us` how long it has read above 125 °C. -/
def overTemperature (tj : Int) (us : Nat) (s : State) : State :=
  let s1 := modHlt (fun h => { h with tj := tj }) s
  if s.start.supplies ∧ 125 * 256 < tj ∧ 1000 ≤ us ∧ !s.start.hot then
    modStart (fun x => { x with hot := true }) (resetMachine s1)
  else s1

/-- Below 105 °C a part held by its temperature starts with cause 3, once RESET_N is high too (R600). -/
def cooldownStart (tj : Int) (s : State) : State :=
  let s1 := modHlt (fun h => { h with tj := tj }) s
  if !s.start.hot ∨ 105 * 256 ≤ tj then s1
  else if s.start.resetLow then modStart (fun x => { x with hot := false }) s1
  else startBegin 3 none s1

/-! ### Restarts of one unit (R578 to R582) -/

/-- Responses that wait when the command interpreter restarts become `DISCARDED`, but for commands that have acted: a
`DISCARDED` write or tag has not acted (R580 to R582). -/
def dropResponse (r : RspRec) : RspRec :=
  if [2, 3, 6, 7, 8, 9].contains r.opcode then r else { r with status := 4, done := 0, data := 0, words := [] }

/-- The command interpreter restarts: commands taken and responses not yet written are answered `DISCARDED`. -/
def restartCmd (s : State) : State :=
  (s.sys.sources.map (·.1)).foldl (fun t src =>
    let t1 := modSource src (fun x => { x with
      rsps := x.rsps.map dropResponse
      taken := x.taken.map (fun r => { r with flags := r.flags % cmdDiscard + cmdDiscard }) }) t
    dropMarked src (sourceOf t1 src).taken.length t1) s

/-- A DMA engine restarts: chains are discarded, channels fall IDLE and keep the address of their descriptor; on
engine B the snapshot in transfer is lost. -/
def restartDma (b : Bool) (s : State) : State :=
  let s1 := modEng b (fun e => { e with run := none, lastPriv := dmaCount b - 1, lastOrd := dmaCount b - 1 }) s
  let s2 := ((dmaEng s b).chans.map (·.1)).foldl (fun t c => modChanD b c (fun x => { dmaChanZero with cur := x.cur }) t) s1
  match b, s2.par.filling with
  | true, some k => slotBad k (slotOf s2 k).seq (slotOf s2 k).total s2
  | _, _ => s2

/-- The measurement engine restarts: runs not DONE return to IDLE, live estimates start from zero. -/
def restartMea (s : State) : State :=
  let s1 := (s.mea.runs.map (·.1)).foldl (fun t k =>
    if (meaRun t k).state = 4 then t else runState k 0 (modRun k (fun _ => runZero) t)) s
  { s1 with mea := { s1.mea with
    fades := [], queue := [], mics := [], refs := [], pairs := [] } }

/-- The health unit restarts a unit that has held a fabric port, or made no progress, for 50 ms (R578): 0 the command
interpreter, 1 and 2 the DMA engines, 3 the measurement engine. -/
def unitRestart (u ms : Nat) (s : State) : State :=
  if !running s ∨ ms < 50 ∨ 3 < u ∨ (u = 3 ∧ !unitPresent s uMEA) then s
  else
    let s1 := setN Reg.HLT_UNIT_LAST.base u (count Reg.HLT_UNIT_RESTART_CNT.base s)
    if u = 0 then restartCmd s1 else if u = 3 then restartMea s1 else restartDma (u == 2) s1

/-! ### Supplies (R590) -/

/-- A monitor has been outside its operating range for `ns` nanoseconds, still above the valid threshold; `outside`
false: it is back. -/
def supplyRange (monitor ns : Nat) (outside : Bool) (s : State) : State :=
  if !running s ∨ 11 < monitor then s
  else if !outside then modHlt (fun h => { h with supplies := setDel monitor h.supplies }) s
  else if ns < 1000 ∨ s.hlt.supplies.contains monitor then s
  else raise 0x9B (bytesOf 1 monitor) (stick Reg.HLT_STAT.base 4 (modHlt (fun h => { h with supplies := setAdd monitor h.supplies }) s))

/-- What is left when supplies end: the fuses, the flash with its wear log, and what the pins carry. -/
def unpowered (s : State) : State :=
  { State.reset with
    pending := s.pending
    fuse := s.fuse
    free := s.free
    start := { State.reset.start with resetLow := s.start.resetLow }
    hlt := { State.reset.hlt with tj := s.hlt.tj, wear := s.hlt.wear } }

/-! ### The test access port (R598) -/

/-- The IDCODE: DIE_REV, the grade's number, 0x469 and 1. -/
def idcodeWord (s : State) : Nat :=
  let part := match s.fuse.grade with
    | .ih1024 => 0x1024
    | .ih0512 => 0x0512
    | .ih0256 => 0x0256
  s.fuse.dieRev % 16 * 2 ^ 28 + part * 2 ^ 12 + 0x469 * 2 + 1

/-- TRST_N low holds the TAP in reset, with IDCODE as its instruction. -/
def tapReset (s : State) : State := { s with tap := { s.tap with ir := .idcode } }

/-- The access port shifts bits with an instruction: `f` where TRST_N is high and the part has its supplies. -/
def tapScan (trstLow : Bool) (ir : TapIr) (f : State → State) (s : State) : State :=
  if !s.start.supplies then s
  else if trstLow then tapReset s
  else f { s with tap := { s.tap with ir := ir } }

/-- One bit register between TDI and TDO, zero at first. -/
def bypassShift (bits : List Bool) (s : State) : State :=
  emit (.tdo ((false :: bits).take bits.length)) s

/-- `n` levels sampled at the balls. -/
def sampleBalls : Nat → State → List Bool × State
  | 0, s => ([], s)
  | n + 1, s =>
    let (b, s1) := drawBit s
    let (bs, s2) := sampleBalls n s1
    (b :: bs, s2)

/-- The balls' levels are shifted out, the cells preloaded. -/
def sampleShift (cells : List Bool) (s : State) : State :=
  let (bs, s1) := sampleBalls cells.length s
  emit (.tdo bs) { s1 with tap := { s1.tap with cells := cells } }

/-- While RESET_N is low the cells drive the balls; else EXTEST acts as BYPASS. -/
def extestShift (cells : List Bool) (s : State) : State :=
  if s.start.resetLow then emit (.balls cells) (sampleShift cells (emit (.balls s.tap.cells) s))
  else bypassShift cells s

end Sys2Proof.Machine
end

