-- ==== Sys2Proof/Machine/Control.lean ====
section
/-! DEFINITION. The rows of control: commands and their records, the host port, remote frames, register accesses with an
effect, and tags on their way (R20, R51 to R73, R435 to R456). -/

namespace Sys2Proof.Machine

open Sys2Proof

/-! ### Commands (R442 to R444) -/

/-- `READ`: one aligned word, returned in the response. -/
def execRead (src tag addr : Nat) (noresp : Bool) (s : State) : Host.Outcome State Fault Refusal :=
  runE (cmdREAD src tag addr noresp) s

/-- `WRITE`: one aligned word. -/
def execWrite (src tag addr : Nat) (noresp : Bool) (data : Word) (s : State) : Host.Outcome State Fault Refusal :=
  runE (cmdWRITE src tag addr noresp data) s

/-- `MODIFY`: WIDTH bits at LSB of one word, read and written as one. -/
def execModify (src tag addr : Nat) (noresp : Bool) (lsb width : Nat) (data : Word) (s : State) :
    Host.Outcome State Fault Refusal :=
  runE (cmdMODIFY src tag addr noresp lsb width data) s

/-- `BURST_READ`: COUNT consecutive words. -/
def execBurstRead (src tag addr : Nat) (noresp : Bool) (count buf : Nat) (s : State) : Host.Outcome State Fault Refusal :=
  runE (cmdBurstRead src tag addr noresp count buf) s

/-- `BURST_WRITE`: COUNT consecutive words, in ascending address. -/
def execBurstWrite (src tag addr : Nat) (noresp : Bool) (count buf : Nat) (words : List Word) (s : State) :
    Host.Outcome State Fault Refusal :=
  runE (cmdBurstWrite src tag addr noresp count buf words) s

/-- `COMMIT`: a COMMIT tag for a unit, or for all (R69). -/
def execCommit (src tag target unit : Nat) (noresp : Bool) (s : State) : Host.Outcome State Fault Refusal :=
  run (cmdCommit src tag target unit noresp) s

/-- `CUE`: a CUE tag (R456). -/
def execCue (src tag target cue : Nat) (noresp : Bool) (s : State) : Host.Outcome State Fault Refusal :=
  run (cmdTag src 7 tag noresp (fun r => recTarget r == target && r.count == cue)
    (mkTag tCUE uSYS 0xFF (cue % 2 ^ 16) target)) s

/-- `SNAP_SAVE`: a SNAP tag that saves (R455). -/
def execSnapSave (src tag target snap : Nat) (noresp : Bool) (s : State) : Host.Outcome State Fault Refusal :=
  run (cmdTag src 8 tag noresp (fun r => recTarget r == target && r.count == snap)
    (mkTag tSNAP uSYS 0xFF (snap % 2 ^ 16) target)) s

/-- `SNAP_RECALL`: a SNAP tag that recalls (R455). -/
def execSnapRecall (src tag target snap : Nat) (noresp : Bool) (s : State) : Host.Outcome State Fault Refusal :=
  run (cmdTag src 9 tag noresp (fun r => recTarget r == target && r.count == snap)
    (mkTag tSNAP uSYS 0xFF (0x10000 + snap % 2 ^ 16) target)) s

/-- `FEATURE_REQUEST`: the driver's request in the start window (R427). -/
def execFeatureRequest (src tag : Nat) (noresp : Bool) (request : Word) (close : Bool) (s : State) :
    Host.Outcome State Fault Refusal :=
  run (cmdFeature src tag noresp request close) s

/-- `RESTART`: a start with cause 2 (R410). -/
def execRestart (src tag slot : Nat) (noresp : Bool) (s : State) : Host.Outcome State Fault Refusal :=
  run (cmdRestart src tag slot noresp) s

/-! ### The host port and remote control (R435 to R451) -/

/-- A host write of a halfword. -/
def execHostWrite (half : Nat) (lo hi : Bool) (data collide : Nat) (s : State) : Host.Outcome State Fault Refusal :=
  runE (fun t => if !powered t then .ok t
    else if chainsDiffer t (hostWrite half lo hi data collide t) then .error .chainChanged
    else .ok (hostWrite half lo hi data collide t)) s

/-- A host read of a halfword. -/
def execHostRead (half collide : Nat) (s : State) : Host.Outcome State Fault Refusal :=
  run (fun t => when (powered t) (hostRead half collide) t) s

/-- A command record is taken from the host ring. -/
def execCommandTake (s : State) : Host.Outcome State Fault Refusal := run commandTake s

/-- A response record is written to the host ring. -/
def execResponseWrite (s : State) : Host.Outcome State Fault Refusal := run responseWrite s

/-- A remote control frame, or a COMMAND frame of a link, is taken from a queue (R377, R446). -/
def execRemoteCommandFrame (queue : Nat) (s : State) : Host.Outcome State Fault Refusal :=
  run (fun t => if (linkHead 6 queue t).isSome then linkCommand queue t else remoteFrame queue t) s

/-- An event frame goes out (R449). -/
def execEventFrameSend (s : State) : Host.Outcome State Fault Refusal := run eventFrame s

/-! ### Registers (R15 to R23, R72, R221, R308, R311) -/

/-- A write to a register or table word, with the word's effect; an address that holds none takes nothing (R21). -/
def execRegisterWrite (addr : Nat) (value : Word) (s : State) : Host.Outcome State Fault Refusal :=
  runE (fun t =>
    if cmdsOn t && assigned t addr && (liveSpec t addr).isSome then fabWriteWord 3 10 0 t addr value else .ok t) s

/-- A read of `TIM_SIDX_LO` (R72). -/
def execSidxRead (s : State) : Host.Outcome State Fault Refusal := run (fun t => when (cmdsOn t) (fun u => (sidxRead u).2) t) s

/-- A read of `RED_LAST_LO` (R221). -/
def execRedLastRead (s : State) : Host.Outcome State Fault Refusal :=
  run (fun t => when (cmdsOn t) redLastRead t) s

/-- A read of `TIM_TIME_SEC_LO` (R308). -/
def execTimeRead (s : State) : Host.Outcome State Fault Refusal := run (fun t => when (cmdsOn t) (fun u => (timeRead u).2) t) s

/-- A read of `TIM_GM_ID_LO` (R308). -/
def execGmIdRead (s : State) : Host.Outcome State Fault Refusal := run (fun t => when (cmdsOn t) (fun u => (gmIdRead u).2) t) s

/-- A read of `TIM_OFFSET_LO` (R308). -/
def execOffsetRead (s : State) : Host.Outcome State Fault Refusal := run (fun t => when (cmdsOn t) (fun u => (offsetRead u).2) t) s

/-- A read of word 0 of a capture queue (R311). -/
def execCaptureRead (ch : Nat) (s : State) : Host.Outcome State Fault Refusal :=
  run (fun t => when (cmdsOn t && decide (ch < 16)) (fun u => (captureRead ch u).2) t) s

/-! ### Tags (R51 to R59) -/

/-- A write to `SYS_TAG_W3` (R53, R72). -/
def execTagSubmit (w3 : Word) (s : State) : Host.Outcome State Fault Refusal :=
  run (fun t => when (cmdsOn t) (submitW3 w3) t) s

/-- A held tag enters its unit's queue (R54). -/
def execTagHeldRelease (s : State) : Host.Outcome State Fault Refusal := run heldRelease s

/-- The next tag of a unit's stream reaches it (R55 to R57, R64, R67). -/
def execTagArrival (unit : Nat) (s : State) : Host.Outcome State Fault Refusal :=
  run (tagArrive (fun _ => true) unit) s

/-- A COMMIT acts at a unit (R67). -/
def execCommitTag (unit : Nat) (s : State) : Host.Outcome State Fault Refusal :=
  run (tagRow unit (fun p => p.tag.typ == tCOMMIT)) s

/-- A ROUTE acts at RTE (R95). -/
def execRoute (s : State) : Host.Outcome State Fault Refusal := run (tagRow uRTE (fun p => p.tag.typ == tROUTE)) s

/-- A RAMP acts at RTE, INC or COR (R77, R95, R225). -/
def execRamp (unit : Nat) (s : State) : Host.Outcome State Fault Refusal :=
  run (tagRow unit (fun p => p.tag.typ == tRAMP)) s

/-- The copies of the migrations that name the next tick begin (R212). -/
def execMigrationCopyStart (s : State) : Host.Outcome State Fault Refusal :=
  run (fun t => when (running t) migrationCopyStart t) s

/-- A MIGRATE acts at LAN (R212, R214). -/
def execMigrate (s : State) : Host.Outcome State Fault Refusal := run (tagRow uLAN (fun p => p.tag.typ == tMIGRATE)) s

/-- A SWAP acts at COR: its batch's crossfade starts, or it slips (R241, R242, R245). -/
def execSwap (s : State) : Host.Outcome State Fault Refusal := run (tagRow uCOR (fun p => p.tag.typ == tSWAP)) s

/-- A CUE is carried out (R456). -/
def execCueTag (s : State) : Host.Outcome State Fault Refusal := runE cueTag s

/-- A snapshot is saved, recalled, or captured for the partner (R455, R557). -/
def execSnapTag (s : State) : Host.Outcome State Fault Refusal := runE snapTag s

/-- A MARK passes at a unit (R51). -/
def execMarkTag (unit : Nat) (s : State) : Host.Outcome State Fault Refusal :=
  run (tagRow unit (fun p => p.tag.typ == tMARK)) s

/-- An EPOCH acts at a unit (R65). -/
def execEpochTag (unit : Nat) (s : State) : Host.Outcome State Fault Refusal :=
  run (tagRow unit (fun p => p.tag.typ == tEPOCH)) s

end Sys2Proof.Machine
end

