-- ==== Sys2Proof/Machine/DruMem.lean ====
section
/-! DEFINITION. Memory accesses and control instructions of the Druora cores (R464, R465, R471, R472, R476 to R483). -/

namespace Sys2Proof.Machine

open Sys2Proof

/-- Entries of a write buffer written to the fabric in program order (R481). -/
def drainList (n : Nat) (s : State) : List (Nat × List Byte) → Except Fault State
  | [] => .ok s
  | (a, bs) :: t =>
    match fabWrite 4 5 n s a bs with
    | .error e => .error e
    | .ok s1 => drainList n s1 t

/-- A core's write buffer drained (R482). -/
def drainCore (n : Nat) (s : State) : Except Fault State :=
  drainList n (modCore n (fun c => { c with wbuf := [] }) s) (coreOf s n).wbuf

/-- A write of a core's own data memory (R464). -/
def localStore (n a : Nat) (bs : List Byte) (s : State) : State :=
  if a + bs.length ≤ 0x40000 then storeMem 5 n s (coreWindow n + a) bs else localWrite n a bs s

/-- A number of a load's bytes as a register value: sign-extended from its size. -/
def loadExt (size : Nat) (bs : List Byte) : Word := wordOfInt (signed (8 * size) (ofBytes bs))

/-- A load's result written, its address register updated, and the core moved on. -/
def loadEnd (n rd an : Nat) (v : Word) (up : Option Word) (s : State) : State :=
  coreDone n (updateAn n an up (modCore n (writeReg rd v) s))

/-- A load of `size` bytes (R471): `any` where it may cross an 8-byte boundary; the value of another that does is free
(R465). -/
def loadRow (n size : Nat) (any : Bool) (w : Word) (s : State) : Except Fault State :=
  let c := coreOf s n
  let rd := fld w 25 22
  let an := fld w 21 19
  let (a, up) := druAddr c an (fld w 18 17) (fld w 16 0) size
  let crossing := !any && crosses8 a size
  let v (bs : List Byte) : Word := if crossing then Config.freeWord s.free else loadExt size bs
  let s0 := if crossing then { s with free := s.free + 1 } else s
  if isLocal a then
    let (bs, s1) := localLoad n a size s0
    .ok (loadEnd n rd an (v bs) up s1)
  else if c.rep.isSome then .error .coreContract
  else
    match drainCore n s0 with
    | .error e => .error e
    | .ok s1 =>
      let (ok, bs, s2) := fabRead 5 n s1 (sharedAddr c a) size
      .ok (if !ok && decide (dramBase ≤ sharedAddr c a) then coreFault n 5 s2 else loadEnd n rd an (v bs) up s2)

/-- A shared store posted (R481): a full buffer first passes its oldest entry on. -/
def postStore (n a : Nat) (bs : List Byte) (s : State) : Except Fault State :=
  let put (t : State) : State := modCore n (fun c => { c with wbuf := c.wbuf ++ [(a, bs)] }) t
  match (coreOf s n).wbuf with
  | [] => .ok (put s)
  | e :: rest =>
    if rest.length < 7 then .ok (put s)
    else
      match fabWrite 4 5 n (modCore n (fun c => { c with wbuf := rest }) s) e.1 e.2 with
      | .error x => .error x
      | .ok t => .ok (put t)

/-- A store of `size` bytes (R471): bytes of an ordinary store that crosses an 8-byte boundary are free (R465). -/
def storeRow (n size : Nat) (any : Bool) (w : Word) (s : State) : Except Fault State :=
  let c := coreOf s n
  let an := fld w 21 19
  let (a, up) := druAddr c an (fld w 18 17) (fld w 16 0) size
  let crossing := !any && crosses8 a size
  let bs := bytesOf size (if crossing then Config.freeWord s.free else dReg c (fld w 25 22)).toNat
  let s1 := if crossing then { s with free := s.free + 1 } else s
  if isLocal a then .ok (coreDone n (updateAn n an up (localStore n a bs s1)))
  else if c.rep.isSome then .error .coreContract
  else
    match postStore n (sharedAddr c a) bs s1 with
    | .error e => .error e
    | .ok s2 => .ok (coreDone n (updateAn n an up s2))

/-! ### Control (R476 to R478) -/

/-- A branch that is not taken: its two delay slots still follow it (R477). -/
def skipBranch (n : Nat) (s : State) : Except Fault State :=
  let c := coreOf s n
  let inBody := c.handler || (match c.loops with
    | l :: _ => decide (c.pc + 2 ≤ l.last)
    | [] => true)
  if !inBody then .error .coreContract
  else .ok (coreDone n (modCore n (fun x => { x with branch := some ⟨3, (c.pc + 3) % 16384, false⟩ }) s))

/-- The target PC + sext(off) of `BR` and `CALL`. -/
def branchTarget (c : CoreSt) (w : Word) : Int := c.pc + sfld w 20 0

/-- Count of a `REP` (R478). -/
def repCount (c : CoreSt) (w : Word) : Nat := if bit w 24 then (dReg c (fld w 11 8)).toNat % 2 ^ 16 else fld w 23 8

/-- Count of a `LOOP` (R478). -/
def loopCount (c : CoreSt) (w : Word) : Nat := if bit w 24 then (dReg c (fld w 15 12)).toNat % 2 ^ 16 else fld w 23 12

/-- `REP`: the next instruction is repeated, or skipped at a count of 0. -/
def repRow (n : Nat) (w : Word) (s : State) : State :=
  let k := repCount (coreOf s n) w
  modCore n (fun c => if k = 0 then coreNext c else { c with rep := some k }) (coreDone n s)

/-- `LOOP`: the body runs count times, or is skipped at a count of 0. A length of 0 names no body: the core goes on to the
next instruction (DESIGN CHOICE, log entry 62). -/
def loopRow (n : Nat) (w : Word) (s : State) : Except Fault State :=
  let c := coreOf s n
  let k := loopCount c w
  let len := fld w 11 0
  if len = 0 then .ok (coreDone n s)
  else if 2 ≤ c.loops.length ∧ k ≠ 0 then .error .coreContract
  else if k = 0 then .ok (modCore n (fun x => coreNext { x with pc := (c.pc + len) % 16384 }) (coreDone n s))
  else
    let i := c.loops.length
    .ok (modCore n (fun x => { writeReg (38 + i) (wordOf k) x with loops := ⟨c.pc + 1, c.pc + len, i == 1⟩ :: x.loops })
      (coreDone n s))

/-- A coded register written by `MOVR` or `SETR`; a written TMR counts from the next instruction on. -/
def regRow (n dst : Nat) (v : Word) (s : State) : State :=
  if dst = 44 then modCore n (writeReg 44 v) (coreDone n s) else coreDone n (modCore n (writeReg dst v) s)

/-! ### Special instructions -/

/-- `SIGNAL` (R482): drained, then the descriptor is offered; while it is back-pressured the core stalls. -/
def signalRow (n : Nat) (w : Word) (s : State) : Except Fault State :=
  match drainCore n s with
  | .error e => .error e
  | .ok s1 =>
    let c := coreOf s1 n
    let q := 4 * fld w 23 22
    let (r, s2) := offer (descOfWords 1 (dReg c q) (dReg c (q + 1)) (dReg c (q + 2)) (dReg c (q + 3))) s1
    .ok (if r = .refused then modCore n (fun x => { x with signal := true }) s2
      else coreDone n (modCore n (fun x => { x with signal := false }) s2))

/-- `HALT` (R488): drained, and the task completes; a fault on a stream core (R493). -/
def haltRow (n : Nat) (s : State) : Except Fault State :=
  if coreStream s n then .ok (coreFault n 2 s)
  else
    match drainCore n s with
    | .error e => .error e
    | .ok s1 => .ok (taskEnd n (coreDone n s1))

/-- `BLKEND` (R490): the run ends without draining; a fault on a task core (R493). -/
def blkendRow (n : Nat) (s : State) : State :=
  if coreStream s n then streamRunEnd n (coreDone n s) else coreFault n 2 s

/-- An enabled source of a core is pending. -/
def sourcePending (c : CoreSt) : Bool := (c.doorbell && bit (srReg c) 8) || (c.timer && bit (srReg c) 9)

/-- `WAIT` (R483): the core stalls until an enabled source is pending. -/
def waitRow (n : Nat) (s : State) : State :=
  let s1 := coreDone n s
  if sourcePending (coreOf s1 n) then s1 else coreState n 3 s1

/-- SR.IE set or cleared. -/
def ieRow (n v : Nat) (s : State) : State := modCore n (fun c => writeReg 36 (putFld (srReg c) 6 6 v) c) s

/-- An illegal instruction (R479): not executed, fault code 1. -/
def illegalRow (n : Nat) (s : State) : State :=
  if coreRuns s n ∧ druDecode (fetchWord s n) = none then coreFault n 1 s else s

end Sys2Proof.Machine
end

