-- ==== Sys2Proof/Machine/Druora.lean ====
section
/-! DEFINITION. The instructions of the Druora cores, one definition per row (R469 to R483, R488, R490). Each acts on
a logical core that runs and whose PC points at a word that spells it; it is the core's next instruction. -/

namespace Sys2Proof.Machine

open Sys2Proof

/-- `ADD` (R469): Rd ← Ra + Rb, NZCV. -/
def execAdd (core : Nat) (s : State) : Host.Outcome State Fault Refusal :=
  runE (druPlain core .add (aluRow core aluAdd)) s

/-- `SUB` (R469): Rd ← Ra − Rb, NZCV. -/
def execSub (core : Nat) (s : State) : Host.Outcome State Fault Refusal :=
  runE (druPlain core .sub (aluRow core aluSub)) s

/-- `ADDS` (R469): the sum saturated, NZV and SV. -/
def execAdds (core : Nat) (s : State) : Host.Outcome State Fault Refusal :=
  runE (druPlain core .adds (aluRow core (fun x y => aluSat (x.toInt + y.toInt)))) s

/-- `SUBS` (R469): the difference saturated, NZV and SV. -/
def execSubs (core : Nat) (s : State) : Host.Outcome State Fault Refusal :=
  runE (druPlain core .subs (aluRow core (fun x y => aluSat (x.toInt - y.toInt)))) s

/-- `AND` (R469), NZ. -/
def execAnd (core : Nat) (s : State) : Host.Outcome State Fault Refusal :=
  runE (druPlain core .and (aluRow core (fun x y => aluNz (x &&& y)))) s

/-- `OR` (R469), NZ. -/
def execOr (core : Nat) (s : State) : Host.Outcome State Fault Refusal :=
  runE (druPlain core .or (aluRow core (fun x y => aluNz (x ||| y)))) s

/-- `XOR` (R469), NZ. -/
def execXor (core : Nat) (s : State) : Host.Outcome State Fault Refusal :=
  runE (druPlain core .xor (aluRow core (fun x y => aluNz (x ^^^ y)))) s

/-- `SHL` (R469): shift left by Rb[4:0], NZC. -/
def execShl (core : Nat) (s : State) : Host.Outcome State Fault Refusal :=
  runE (druPlain core .shl (shiftRow core aluShl)) s

/-- `SHR` (R469): logical right shift by Rb[4:0], NZC. -/
def execShr (core : Nat) (s : State) : Host.Outcome State Fault Refusal :=
  runE (druPlain core .shr (shiftRow core aluShr)) s

/-- `ASR` (R469): arithmetic right shift by Rb[4:0], NZC. -/
def execAsr (core : Nat) (s : State) : Host.Outcome State Fault Refusal :=
  runE (druPlain core .asr (shiftRow core aluAsr)) s

/-- `MIN` (R469): signed, NZ. -/
def execMin (core : Nat) (s : State) : Host.Outcome State Fault Refusal :=
  runE (druPlain core .min (aluRow core (fun x y => aluNz (if x.toInt ≤ y.toInt then x else y)))) s

/-- `MAX` (R469): signed, NZ. -/
def execMax (core : Nat) (s : State) : Host.Outcome State Fault Refusal :=
  runE (druPlain core .max (aluRow core (fun x y => aluNz (if x.toInt ≤ y.toInt then y else x)))) s

/-- `ABS` (R469): saturated, NZ and SV. -/
def execAbs (core : Nat) (s : State) : Host.Outcome State Fault Refusal :=
  runE (druPlain core .abs (aluRow core (fun x _ => aluSatNz x.toInt.natAbs))) s

/-- `NEG` (R469): saturated, NZ and SV. -/
def execNeg (core : Nat) (s : State) : Host.Outcome State Fault Refusal :=
  runE (druPlain core .neg (aluRow core (fun x _ => aluSatNz (-x.toInt)))) s

/-- `MUL` (R469): low 32 bits of the product, NZ. -/
def execMul (core : Nat) (s : State) : Host.Outcome State Fault Refusal :=
  runE (druPlain core .mul (aluRow core (fun x y => aluNz (x * y)))) s

/-- `CMP` (R469): flags of Ra − Rb. -/
def execCmp (core : Nat) (s : State) : Host.Outcome State Fault Refusal :=
  runE (druPlain core .cmp (cmpRow core)) s

/-- `MOV` (R469): Rd ← Ra, NZ. -/
def execMov (core : Nat) (s : State) : Host.Outcome State Fault Refusal :=
  runE (druPlain core .mov (aluRow core (fun x _ => aluNz x))) s

/-- `CLS` (R469): leading sign bits minus 1, Z. -/
def execCls (core : Nat) (s : State) : Host.Outcome State Fault Refusal :=
  runE (druPlain core .cls (aluRow core (fun x _ => aluCls x))) s

/-- `ADDI` (R470): Rd ← Ra + sext(imm17), NZCV. -/
def execAddi (core : Nat) (s : State) : Host.Outcome State Fault Refusal :=
  runE (druPlain core .addi (immRow core (fun x k => aluAdd x (sext17 k)))) s

/-- `ANDI` (R470) with zext(imm17), NZ. -/
def execAndi (core : Nat) (s : State) : Host.Outcome State Fault Refusal :=
  runE (druPlain core .andi (immRow core (fun x k => aluNz (x &&& wordOf k)))) s

/-- `ORI` (R470) with zext(imm17), NZ. -/
def execOri (core : Nat) (s : State) : Host.Outcome State Fault Refusal :=
  runE (druPlain core .ori (immRow core (fun x k => aluNz (x ||| wordOf k)))) s

/-- `XORI` (R470) with zext(imm17), NZ. -/
def execXori (core : Nat) (s : State) : Host.Outcome State Fault Refusal :=
  runE (druPlain core .xori (immRow core (fun x k => aluNz (x ^^^ wordOf k)))) s

/-- `SHLI` (R470): shift left by imm17[4:0], NZC. -/
def execShli (core : Nat) (s : State) : Host.Outcome State Fault Refusal :=
  runE (druPlain core .shli (shiftImmRow core aluShl)) s

/-- `SHRI` (R470): logical right shift by imm17[4:0], NZC. -/
def execShri (core : Nat) (s : State) : Host.Outcome State Fault Refusal :=
  runE (druPlain core .shri (shiftImmRow core aluShr)) s

/-- `ASRI` (R470): arithmetic right shift by imm17[4:0], NZC. -/
def execAsri (core : Nat) (s : State) : Host.Outcome State Fault Refusal :=
  runE (druPlain core .asri (shiftImmRow core aluAsr)) s

/-- `CMPI` (R470): flags of Ra − sext(imm17). -/
def execCmpi (core : Nat) (s : State) : Host.Outcome State Fault Refusal :=
  runE (druPlain core .cmpi (fun w => modCore core (fun c => setFlags (aluSub (dReg c (fld w 20 17)) (sext17 (fld w 16 0))).2 c))) s

/-- `MOVI` (R470): Rd ← sext(imm17), no flag. -/
def execMovi (core : Nat) (s : State) : Host.Outcome State Fault Refusal :=
  runE (druPlain core .movi (fun w => modCore core (writeReg (fld w 24 21) (sext17 (fld w 16 0))))) s

/-- `MOVHI` (R470): Rd ← imm17 << 15, no flag. -/
def execMovhi (core : Nat) (s : State) : Host.Outcome State Fault Refusal :=
  runE (druPlain core .movhi (fun w => modCore core (writeReg (fld w 24 21) (wordOf (fld w 16 0) <<< 15)))) s

/-- `LD` (R471): loads a word. -/
def execLd (core : Nat) (s : State) : Host.Outcome State Fault Refusal :=
  runE (druStep core .ld (loadRow core 4 false)) s

/-- `LDH` (R471): loads a sign-extended halfword. -/
def execLdh (core : Nat) (s : State) : Host.Outcome State Fault Refusal :=
  runE (druStep core .ldh (loadRow core 2 false)) s

/-- `LDB` (R471): loads a sign-extended byte. -/
def execLdb (core : Nat) (s : State) : Host.Outcome State Fault Refusal :=
  runE (druStep core .ldb (loadRow core 1 false)) s

/-- `LD24` (R471): loads a sign-extended 24-bit value. -/
def execLd24 (core : Nat) (s : State) : Host.Outcome State Fault Refusal :=
  runE (druStep core .ld24 (loadRow core 3 true)) s

/-- `ST` (R471): stores a word. -/
def execSt (core : Nat) (s : State) : Host.Outcome State Fault Refusal :=
  runE (druStep core .st (storeRow core 4 false)) s

/-- `STH` (R471): stores Rd[15:0]. -/
def execSth (core : Nat) (s : State) : Host.Outcome State Fault Refusal :=
  runE (druStep core .sth (storeRow core 2 false)) s

/-- `STB` (R471): stores Rd[7:0]. -/
def execStb (core : Nat) (s : State) : Host.Outcome State Fault Refusal :=
  runE (druStep core .stb (storeRow core 1 false)) s

/-- `ST24` (R471): stores Rd[23:0]. -/
def execSt24 (core : Nat) (s : State) : Host.Outcome State Fault Refusal :=
  runE (druStep core .st24 (storeRow core 3 true)) s

/-- `MAC` (R473): ACCa ← ACCa + X·Y, with parallel loads. -/
def execMac (core : Nat) (s : State) : Host.Outcome State Fault Refusal :=
  runE (druPlain core .mac (macRow core (fun c a x y => accPlus a (product c x y) c))) s

/-- `MSU` (R473): ACCa ← ACCa − X·Y, with parallel loads. -/
def execMsu (core : Nat) (s : State) : Host.Outcome State Fault Refusal :=
  runE (druPlain core .msu (macRow core (fun c a x y => accPlus a (-product c x y) c))) s

/-- `MPY` (R473): ACCa ← X·Y, with parallel loads. -/
def execMpy (core : Nat) (s : State) : Host.Outcome State Fault Refusal :=
  runE (druPlain core .mpy (macRow core (fun c a x y => setAcc a (BitVec.ofInt 72 (product c x y)) c))) s

/-- `DMAC` (R473): the pair of accumulators takes X·Y and X′·Y′, with parallel loads. -/
def execDmac (core : Nat) (s : State) : Host.Outcome State Fault Refusal :=
  runE (druPlain core .dmac (macRow core (fun c a x y =>
    accPlus (flipBit a) (product c (flipBit x) (flipBit y)) (accPlus a (product c x y) c)))) s

/-- `NOP` (R474). -/
def execNop (core : Nat) (s : State) : Host.Outcome State Fault Refusal :=
  runE (druPlain core .nop (fun _ t => t)) s

/-- `MOVR` (R474): dst ← src between coded registers. -/
def execMovr (core : Nat) (s : State) : Host.Outcome State Fault Refusal :=
  runE (druStep core .movr (fun w t => .ok (regRow core (fld w 23 18) (readReg t core (fld w 17 12)) t))) s

/-- `SETR` (R474): dst ← zext(imm18). -/
def execSetr (core : Nat) (s : State) : Host.Outcome State Fault Refusal :=
  runE (druStep core .setr (fun w t => .ok (regRow core (fld w 23 18) (wordOf (fld w 17 0)) t))) s

/-- `RND` (R475): an accumulator narrowed into Dd. -/
def execRnd (core : Nat) (s : State) : Host.Outcome State Fault Refusal :=
  runE (druPlain core .rnd (fun w => modCore core (fun c =>
    let q := accRound (accOf c (fld w 23 22)) (fld w 17 12) (fld w 11 10)
    setFlags q.2 (writeReg (fld w 21 18) q.1 c)))) s

/-- `CLR` (R474): ACCa ← 0. -/
def execClr (core : Nat) (s : State) : Host.Outcome State Fault Refusal :=
  runE (druPlain core .clr (fun w => modCore core (setAcc (fld w 23 22) 0))) s

/-- `LDACC` (R474): ACCa ← sext(Dm) × 2^s. -/
def execLdacc (core : Nat) (s : State) : Host.Outcome State Fault Refusal :=
  runE (druPlain core .ldacc (fun w => modCore core (fun c =>
    setAcc (fld w 23 22) (BitVec.ofInt 72 ((dReg c (fld w 21 18)).toInt * 2 ^ fld w 17 12)) c))) s

/-- `ADDACC` (R474): ACCa ← ACCa + ACCb, AV on wrap. -/
def execAddacc (core : Nat) (s : State) : Host.Outcome State Fault Refusal :=
  runE (druPlain core .addacc (fun w => modCore core (fun c => accPlus (fld w 23 22) (accOf c (fld w 21 20)).toInt c))) s

/-- `DRAIN` (R482): every posted store is accepted by its target. -/
def execDrain (core : Nat) (s : State) : Host.Outcome State Fault Refusal :=
  runE (druStep core .drain (fun _ t => match drainCore core t with
    | .error e => .error e
    | .ok t1 => .ok (coreDone core t1))) s

/-- `SIGNAL` (R482): drains, then submits D(4q) to D(4q + 3) as a descriptor of source DRU. -/
def execSignal (core : Nat) (s : State) : Host.Outcome State Fault Refusal :=
  runE (druStep core .signal (signalRow core)) s

/-- `HALT` (R488): drains and ends the task. -/
def execHalt (core : Nat) (s : State) : Host.Outcome State Fault Refusal :=
  runE (druStep core .halt (fun _ => haltRow core)) s

/-- `BLKEND` (R490): ends a stream run. -/
def execBlkend (core : Nat) (s : State) : Host.Outcome State Fault Refusal :=
  runE (druStep core .blkend (fun _ t => .ok (blkendRow core t))) s

/-- `WAIT` (R483): stalls until an enabled source is pending. -/
def execWait (core : Nat) (s : State) : Host.Outcome State Fault Refusal :=
  runE (druStep core .wait (fun _ t => .ok (waitRow core t))) s

/-- `EI` (R474): SR.IE ← 1; outside the contract in a handler (R483). -/
def execEi (core : Nat) (s : State) : Host.Outcome State Fault Refusal :=
  runE (druStep core .ei (fun _ t => if (coreOf t core).handler then .error .coreContract else .ok (coreDone core (ieRow core 1 t)))) s

/-- `DI` (R474): SR.IE ← 0. -/
def execDi (core : Nat) (s : State) : Host.Outcome State Fault Refusal :=
  runE (druPlain core .di (fun _ => ieRow core 0)) s

/-- `EVT` (R474, R499): `EV_DRU_USER` with Dd. -/
def execEvt (core : Nat) (s : State) : Host.Outcome State Fault Refusal :=
  runE (druPlain core .evt (fun w t => raise 0x63 (bytesOf 1 core ++ [0] ++ bytesOf 4 (dReg (coreOf t core) (fld w 21 18)).toNat) t)) s

/-- `BR` (R476): a conditional branch with two delay slots. -/
def execBr (core : Nat) (s : State) : Host.Outcome State Fault Refusal :=
  runE (druStep core .br (fun w t =>
    let c := coreOf t core
    if condHolds (srReg c) (fld w 24 21) then takeBranch core (branchTarget c w) false id t else skipBranch core t)) s

/-- `CALL` (R476): LR ← PC + 3, then a branch. -/
def execCall (core : Nat) (s : State) : Host.Outcome State Fault Refusal :=
  runE (druStep core .call (fun w t =>
    let c := coreOf t core
    takeBranch core (branchTarget c w) false (writeReg 40 (wordOf (c.pc + 3))) t)) s

/-- `RET` (R476): PC ← LR after the delay slots. -/
def execRet (core : Nat) (s : State) : Host.Outcome State Fault Refusal :=
  runE (druStep core .ret (fun _ t => takeBranch core (tabGet 0 (coreOf t core).regs 40).toNat false id t)) s

/-- `RTI` (R476): PC ← IPC and SR ← ISR after the delay slots. -/
def execRti (core : Nat) (s : State) : Host.Outcome State Fault Refusal :=
  runE (druStep core .rti (fun _ t => takeBranch core (tabGet 0 (coreOf t core).regs 41).toNat true id t)) s

/-- `JMP` (R476): PC ← Dd[13:0] after the delay slots. -/
def execJmp (core : Nat) (s : State) : Host.Outcome State Fault Refusal :=
  runE (druStep core .jmp (fun w t => takeBranch core (fld (dReg (coreOf t core) (fld w 24 21)) 13 0) false id t)) s

/-- `REP` (R478): the next instruction executes count times. -/
def execRep (core : Nat) (s : State) : Host.Outcome State Fault Refusal :=
  runE (druStep core .rep (fun w t => .ok (repRow core w t))) s

/-- `LOOP` (R478): the body executes count times. -/
def execLoop (core : Nat) (s : State) : Host.Outcome State Fault Refusal :=
  runE (druStep core .loop (loopRow core)) s

/-- An illegal instruction (R479): not executed, the core faults with code 1. -/
def execIllegalInstruction (core : Nat) (s : State) : Host.Outcome State Fault Refusal :=
  run (illegalRow core) s

end Sys2Proof.Machine
end

