-- ==== Sys2Proof/Machine/Engines.lean ====
section
/-! DEFINITION. The rows of the DMA engines (R535 to R545); `engineB`: engine B, else engine A. -/

namespace Sys2Proof.Machine

open Sys2Proof

/-- What the DMA unit does while the device runs. -/
def dmaUp (f : State → Except Fault State) (s : State) : Except Fault State :=
  if running s ∧ unitPresent s uDMA then f s else .ok s

/-- A write to `DMA_CH_GO_HI` (R545). -/
def execDmaGo (engineB : Bool) (channel : Nat) (value : Word) (s : State) : Host.Outcome State Fault Refusal :=
  run (whenUp uDMA (dmaOwnerGate engineB channel (dmaGo engineB channel value))) s

/-- STOP written to `DMA_CH_CTRL` (R544). -/
def execDmaStop (engineB : Bool) (channel : Nat) (s : State) : Host.Outcome State Fault Refusal :=
  run (whenUp uDMA (dmaOwnerGate engineB channel (dmaStop engineB channel))) s

/-- A write to `DMA_REQ_ADD` of a line (R541). -/
def execDmaReqAdd (line : Nat) (value : Word) (s : State) : Host.Outcome State Fault Refusal :=
  run (whenUp uDMA (reqAdd line value)) s

/-- An engine takes the next ready channel (R536). -/
def execChannelTake (engineB : Bool) (s : State) : Host.Outcome State Fault Refusal :=
  run (whenUp uDMA (channelTake engineB)) s

/-- The running channel fetches a descriptor (R540). -/
def execDescriptorFetch (engineB : Bool) (s : State) : Host.Outcome State Fault Refusal :=
  runE (dmaUp (descFetch engineB)) s

/-- The running channel moves a burst (R541, R542). -/
def execDmaBurst (engineB : Bool) (s : State) : Host.Outcome State Fault Refusal := runE (dmaUp (dmaBurst engineB)) s

/-- The running channel's descriptor completes (R543). -/
def execDescriptorComplete (engineB : Bool) (s : State) : Host.Outcome State Fault Refusal :=
  runE (dmaUp (descDone engineB)) s

end Sys2Proof.Machine
end

