-- ==== Sys2Proof/Machine/Links.lean ====
section
/-! DEFINITION. The rows of the Zwildo links (R369 to R385). -/

namespace Sys2Proof.Machine

open Sys2Proof

/-- What a link of the grade does while the device runs with LINKS accepted (R3, R369). -/
def onLink (n : Nat) (f : State → State) (s : State) : State :=
  whenUp uLNK (fun t => when (decide (n < linkCount t)) f t) s

/-- Every lane of the map has held lock and alignment for 1 ms: the retired lanes that both devices agreed for each
direction (R370). -/
def execLinkUp (link : Nat) (rxRet txRet : List Nat) (s : State) : Host.Outcome State Fault Refusal :=
  run (onLink link (linkUp link rxRet txRet)) s

/-- Alignment has been lost for 1 ms, or the map holds no usable lane; `cut`: a frame was being received (R370). -/
def execLinkDown (link : Nat) (cut : Bool) (s : State) : Host.Outcome State Fault Refusal :=
  run (onLink link (linkDown link cut)) s

/-- A frame is received, `quarter` units of 250 ps into the sample in progress; `codeError`: a code or alignment error
within it (R373). -/
def execLinkFrameReceive (link : Nat) (bytes : List Byte) (codeError : Bool) (quarter : Nat) (s : State) :
    Host.Outcome State Fault Refusal :=
  run (onLink link (linkReceive link bytes codeError quarter)) s

/-- An AUDIO frame is taken from the queue that a link's map names (R375). -/
def execAudioFrame (queue : Nat) (s : State) : Host.Outcome State Fault Refusal := run (whenUp uLNK (audioFrame queue)) s

/-- A HEARTBEAT of the partner (R376, R551 to R554); one with this device's own rank is outside the contract (R549). -/
def execHeartbeatReceive (link : Nat) (s : State) : Host.Outcome State Fault Refusal :=
  runE (fun t => if running t ∧ unitPresent t uPAR ∧ unitPresent t uLNK ∧ link < linkCount t then
      (if ranksEqual link t then .error .equalRanks else .ok (heartbeatReceive link t)) else .ok t) s

/-- A HEALTH frame of the partner (R376, R555). -/
def execHealthReceive (queue : Nat) (s : State) : Host.Outcome State Fault Refusal :=
  run (whenUp uPAR (whenUp uLNK (healthReceive queue))) s

/-- A SNAPSHOT segment (R377, R558). -/
def execSnapshotSegment (queue : Nat) (s : State) : Host.Outcome State Fault Refusal :=
  runE (fun t => if running t ∧ unitPresent t uPAR ∧ unitPresent t uLNK then snapshotSegment queue t else .ok t) s

/-- A TIME frame, with the loop's prediction of the offset in 2^-16 ns and the partner's frequency in 2^-16 ppm as
measured (R378). -/
def execTimeFrame (link : Nat) (pred freq : Int) (s : State) : Host.Outcome State Fault Refusal :=
  run (onLink link (timeFrame link pred freq)) s

/-- A CLOCK frame (R378). -/
def execClockFrame (link : Nat) (s : State) : Host.Outcome State Fault Refusal := run (onLink link (clockFrame link)) s

/-- A TIME frame falls due (R378). -/
def execTimeFrameSend (link : Nat) (s : State) : Host.Outcome State Fault Refusal := run (onLink link (timeSend link)) s

/-- A CLOCK frame falls due (R378). -/
def execClockFrameSend (link : Nat) (s : State) : Host.Outcome State Fault Refusal := run (onLink link (clockSend link)) s

/-- A frame boundary: the first waiting frame goes out (R379). -/
def execLinkFrameTransmit (link : Nat) (s : State) : Host.Outcome State Fault Refusal :=
  run (onLink link (fun t => snapSend snapSegs (linkTransmit link t))) s

/-- The transmitter sheds lanes at a tick boundary (R380). -/
def execShed (link : Nat) (s : State) : Host.Outcome State Fault Refusal := run (onLink link (linkShed link)) s

/-- The transmitter restores its width at a tick boundary (R380). -/
def execRestore (link : Nat) (s : State) : Host.Outcome State Fault Refusal := run (onLink link (linkRestore link)) s

/-- The ACK of a width change (R382). -/
def execWidthAck (link : Nat) (s : State) : Host.Outcome State Fault Refusal := run (onLink link (widthAck link)) s

/-- No ACK within 10 µs (R382). -/
def execShedTimeout (link : Nat) (s : State) : Host.Outcome State Fault Refusal := run (onLink link (shedTimeout link)) s

/-- A receive lane's eye margin in mUI has been read over 100 ms: shown, and below MARGIN_MIN the lane is retired (R383,
R569). -/
def execSpareMove (link lane margin : Nat) (s : State) : Host.Outcome State Fault Refusal :=
  run (onLink link (fun t => when (decide (lane < 5))
    (fun u => if weakLane u link margin then hltRetire 5 (link * 8 + lane) 0 (laneMargin link lane margin u)
      else laneMargin link lane margin u) t)) s

/-- A control block is received (R381 to R383). -/
def execControlBlockReceive (link code arg : Nat) (s : State) : Host.Outcome State Fault Refusal :=
  run (onLink link (controlBlock link code arg)) s

/-- A working lane loses lock with `frames` frames in flight on it: receive lanes 0 to 4, or transmit lanes 5 to 9 (R383). -/
def execLaneLockLoss (link lane frames : Nat) (s : State) : Host.Outcome State Fault Refusal :=
  run (onLink link (laneLost link lane frames)) s

end Sys2Proof.Machine
end

