-- ==== Sys2Proof/Machine/Measure.lean ====
section
/-! DEFINITION. The rows of the measurement engine (R262 to R270). -/

namespace Sys2Proof.Machine

open Sys2Proof

/-- Armed runs enter RUNNING at their block (R262). -/
def execRunBegin (s : State) : Host.Outcome State Fault Refusal := run (tagRow uMEA (fun p => p.tag.typ == tSTART)) s

/-- After its last captured sample a run enters COMPUTING (R264). -/
def execCaptureEnd (number : Nat) (s : State) : Host.Outcome State Fault Refusal :=
  run (whenUp uMEA (captureEnd number)) s

/-- A run's computation finishes (R264, R265). -/
def execRunDone (s : State) : Host.Outcome State Fault Refusal := run (whenUp uMEA runDone) s

/-- Half a frame has passed: each enabled pair takes a frame (R268). -/
def execLiveFrame (s : State) : Host.Outcome State Fault Refusal := run (whenUp uMEA liveFrames) s

/-- The delay finder searches one pair (R269). -/
def execDelaySearch (s : State) : Host.Outcome State Fault Refusal := run (whenUp uMEA delaySearch) s

/-- Each pair's estimate is published (R270). -/
def execLivePublish (s : State) : Host.Outcome State Fault Refusal := run (whenUp uMEA livePublish) s

end Sys2Proof.Machine
end

