-- ==== Sys2Proof/Machine/Memories.lean ====
section
/-! DEFINITION. The rows of memory, DRAM, tamper and life cycle (R500 to R528). -/

namespace Sys2Proof.Machine

open Sys2Proof

/-- What a part under power and out of reset does. -/
def whenOn (f : State → State) (s : State) : State := when (powered s) f s

/-- A scratchpad bank brought on finishes its zero fill (R502). -/
def execBankPowerOn (bank : Nat) (s : State) : Host.Outcome State Fault Refusal := run (whenOn (bankFilled bank)) s

/-- A write to `MEM_SCRATCH_PWR` (R503). -/
def execScratchPwrWrite (value : Word) (s : State) : Host.Outcome State Fault Refusal := run (whenOn (scratchPower value)) s

/-- A scrub pass over every SRAM bank that is on, with the words it finds failing (R505). -/
def execSramScrubPass (finds : List ScrubFind) (s : State) : Host.Outcome State Fault Refusal :=
  run (whenUp uMEM (scrubPass finds)) s

/-- The fill level of a real-time port falls (R522). -/
def execPanicEnter (port amount : Nat) (s : State) : Host.Outcome State Fault Refusal :=
  run (whenUp uDRC (panicEnter port amount)) s

/-- The fill level of a real-time port rises (R522). -/
def execPanicExit (port amount : Nat) (s : State) : Host.Outcome State Fault Refusal :=
  run (whenUp uDRC (panicExit port amount)) s

/-- One bank of a channel is refreshed (R523). -/
def execDramRefresh (channel bank : Nat) (s : State) : Host.Outcome State Fault Refusal :=
  run (whenOn (dramRefresh channel bank)) s

/-- The drift of a channel is tracked (R523). -/
def execDriftTrack (channel : Nat) (s : State) : Host.Outcome State Fault Refusal := run (whenOn (driftTrack channel)) s

/-- No request has come for `us` microseconds (R524). -/
def execSelfRefreshEnter (us : Nat) (s : State) : Host.Outcome State Fault Refusal :=
  run (whenOn (selfRefreshEnter us)) s

/-- A request arrives (R524). -/
def execSelfRefreshExit (s : State) : Host.Outcome State Fault Refusal := run (whenOn selfRefreshExit) s

/-- A requester has activated a row of a bank so many times more in the running window (R525). -/
def execRowHammer (acts requester number channel bank : Nat) (s : State) : Host.Outcome State Fault Refusal :=
  run (whenUp uDRC (rowHammer acts requester number channel bank)) s

/-- A patrol pass over the range, with the addresses whose words it corrects and those it finds uncorrectable (R527). -/
def execPatrolScrubPass (fixed bad : List Nat) (s : State) : Host.Outcome State Fault Refusal :=
  run (whenUp uDRC (patrolPass fixed bad)) s

/-- TAMPER_N has fallen and stayed low for `ns` nanoseconds (R517). -/
def execTamper (ns : Nat) (s : State) : Host.Outcome State Fault Refusal := run (fun t => when t.start.supplies (tamper ns) t) s

/-- A write to `SEC_LC_REQ` that arms a request, or meets an armed one (R516 steps 1 and 2). -/
def execLcArm (value : Word) (s : State) : Host.Outcome State Fault Refusal :=
  run (whenOn (fun t => when (lcArms t value) (lcWrite value) t)) s

/-- The second write to `SEC_LC_REQ` (R516 step 2). -/
def execLcExecute (value : Word) (s : State) : Host.Outcome State Fault Refusal :=
  run (whenOn (fun t => when t.sec.armed.isSome (lcWrite value) t)) s

/-- 1 ms has passed since a request was armed (R516). -/
def execLcArmExpiry (s : State) : Host.Outcome State Fault Refusal := run (whenOn lcExpire) s

/-- The fuses are programmed (R516 step 4). -/
def execLcFuseDone (s : State) : Host.Outcome State Fault Refusal := runFuse (whenOn lcFuse) s

end Sys2Proof.Machine
end

