-- ==== Sys2Proof/Machine/Pairing.lean ====
section
/-! DEFINITION. The rows of pairing, margin clocking, retirement and self-test (R549 to R570). -/

namespace Sys2Proof.Machine

open Sys2Proof

/-- 250 µs have passed since the last HEARTBEAT (R554). -/
def execHeartbeatSend (s : State) : Host.Outcome State Fault Refusal := run (whenUp uPAR heartbeatSend) s

/-- 1.0 ms has passed without a HEARTBEAT (R554). -/
def execHeartbeatLoss (s : State) : Host.Outcome State Fault Refusal := run (whenUp uPAR heartbeatLoss) s

/-- 100 ms have passed since the last HEALTH frame (R555). -/
def execHealthSend (s : State) : Host.Outcome State Fault Refusal := run (whenUp uPAR healthSend) s

/-- YIELD_IN_N has fallen and stayed low for `ns` nanoseconds (R556). -/
def execYieldEdge (ns : Nat) (s : State) : Host.Outcome State Fault Refusal := run (whenUp uPAR (yieldEdge ns)) s

/-- The election wait has passed (R552). -/
def execElection (s : State) : Host.Outcome State Fault Refusal := run (whenUp uPAR election) s

/-- The restore of a cut-in finishes (R564). -/
def execRestoreComplete (s : State) : Host.Outcome State Fault Refusal :=
  runE (fun t => if running t ∧ unitPresent t uPAR then restoreComplete t else .ok t) s

/-- The first sample of the new LEAD's first tick (R563). -/
def execRenderBegin (s : State) : Host.Outcome State Fault Refusal := run (whenUp uPAR renderBegin) s

/-- SNAP_MS has passed since the last pairing snapshot (R557, R558). -/
def execSnapshotTake (s : State) : Host.Outcome State Fault Refusal := run (whenUp uPAR snapshotTake) s

/-- 100 ms have passed since an abdication (R562). -/
def execAbdicationRestart (s : State) : Host.Outcome State Fault Refusal := run (whenUp uPAR abdicationRestart) s

/-- A write to `PAR_CTRL` with HANDOVER 1 (R567). -/
def execHandover (s : State) : Host.Outcome State Fault Refusal := run (whenUp uPAR handover) s

/-- An island reports its slack in ps; below LOW its clock steps down (R568). -/
def execMarginStepDown (island slack : Nat) (s : State) : Host.Outcome State Fault Refusal :=
  run (whenUp uHLT (marginDown island slack)) s

/-- An island reports its slack in ps; at or above HIGH for UP_S seconds its clock steps up (R568). -/
def execMarginStepUp (island slack : Nat) (s : State) : Host.Outcome State Fault Refusal :=
  run (whenUp uHLT (marginUp island slack)) s

/-- An island reports its slack in ps; short at its floor for RETIRE_MS it is retired (R569). -/
def execIslandRetire (island slack : Nat) (s : State) : Host.Outcome State Fault Refusal :=
  run (whenUp uHLT (islandRetire island slack)) s

/-- A write to `HLT_RETIRE` (R569). -/
def execRetireWrite (value : Word) (s : State) : Host.Outcome State Fault Refusal :=
  run (whenUp uHLT (retireWrite value)) s

/-- SELFTEST seconds have passed in a FOLLOW (R570). -/
def execFollowSelftest (s : State) : Host.Outcome State Fault Refusal := run (whenUp uHLT selftestStart) s

/-- A self-test of 2 s ends; `core`: of the Druora cores, the one that failed (R570). -/
def execFollowSelftestEnd (pass : Bool) (core : Nat) (s : State) : Host.Outcome State Fault Refusal :=
  run (whenUp uHLT (selftestEnd pass core)) s

end Sys2Proof.Machine
end

