-- ==== Sys2Proof/Machine/Shift.lean ====
section
/-! DEFINITION. A step of the time scale takes effect (R62 to R64): only the numbering moves. -/

namespace Sys2Proof.Machine

open Sys2Proof

/-- Received streams place what they hold by its timestamp in the new scale (R63). -/
def replaceRx (s : State) : State :=
  let again (k : Nat) (p : RxPkt) : RxPkt :=
    match p.ts with
    | some t => { p with i := if bit (rxW0 false s k) 30 then aafIndex s k t else rtpIndex s k t }
    | none => p
  { s with mst := { s.mst with rx := s.mst.rx.map (fun x => (x.1, { x.2 with pkts := x.2.pkts.map (again x.1) })) } }

/-- The offsets last measured of time-bearing candidates, seen from a scale moved by `d` ticks (R289, R300). -/
def phasesStep (d : Int) (s : State) : State :=
  (List.range 8).foldl (fun t c =>
    if bearsTime t c then modCand c (fun x => { x with phase := x.phase - d * 1000000 * 65536 }) t else t) s

/-- A decided step takes effect at the first sample of its tick (R62): TAI time moves by the step's offset and the event
tells the boundary's old and new index. The offset of the index itself counts from that sample on. -/
def timeStep (s : State) : State :=
  match s.time.steps with
  | [] => s
  | (tick, ofs) :: before =>
    let x : Int := tick * tickLen s
    if !s.time.stepWaits ∨ !running s ∨ (s.time.idx : Int) < x then s
    else
      let was : Int := (before.head?.map (·.2)).getD 0 * tickLen s
      let on : Int := ofs * tickLen s
      let now := ((s.time.sec * subPerSec + s.time.sub : Nat) + (on - was) * subPerSample s).toNat
      let s1 := { s with time := { s.time with
        sec := now / subPerSec, sub := now % subPerSec, stepWaits := false } }
      phasesStep (ofs - (before.head?.map (·.2)).getD 0) <| replaceRx <| trigsStep (on - was) (stick Reg.TIM_STAT.base 0
        (raise 0x02 (bytesOf 8 (x + was).toNat ++ bytesOf 8 (x + on).toNat) s1))

end Sys2Proof.Machine
end

