-- ==== Sys2Proof/Machine/Pipeline.lean ====
section
/-! DEFINITION. The rows of the block stream: START and STOP tags that act, blocks, ticks, releases, missed deadlines and
steps of the time scale (R32, R44, R60 to R62, R261 to R266, R346, R375, R391, R404). -/

namespace Sys2Proof.Machine

open Sys2Proof

/-- A START or STOP for rings (R404). -/
def ringTag (typ : Nat) (p : PendTag) : Bool := p.tag.typ == typ && bit p.tag.payload 0

/-- A START acts on the data of serial ports (R391). -/
def execPortStart (aes : Bool) (s : State) : Host.Outcome State Fault Refusal :=
  run (tagRow (serUnit aes) (fun p => p.tag.typ == tSTART && (aes || !bit p.tag.payload 0))) s

/-- A STOP acts on the data of serial ports (R391). -/
def execPortStop (aes : Bool) (s : State) : Host.Outcome State Fault Refusal :=
  run (tagRow (serUnit aes) (fun p => p.tag.typ == tSTOP && (aes || !bit p.tag.payload 0))) s

/-- A START sets the EN of media streams (R346). -/
def execStreamStart (s : State) : Host.Outcome State Fault Refusal := run (tagRow uMST (fun p => p.tag.typ == tSTART)) s

/-- A STOP clears the EN of media streams (R346). -/
def execStreamStop (s : State) : Host.Outcome State Fault Refusal := run (tagRow uMST (fun p => p.tag.typ == tSTOP)) s

/-- A START starts link audio streams (R375). -/
def execLinkStreamStart (s : State) : Host.Outcome State Fault Refusal :=
  run (tagRow uLNK (fun p => p.tag.typ == tSTART)) s

/-- A STOP stops link audio streams (R375). -/
def execLinkStreamStop (s : State) : Host.Outcome State Fault Refusal :=
  run (tagRow uLNK (fun p => p.tag.typ == tSTOP)) s

/-- A START reaches MEA: the runs it names are armed, or fail with a reason (R261). -/
def execRunStart (s : State) : Host.Outcome State Fault Refusal :=
  run (tagArrive (fun g => g.typ == tSTART) uMEA) s

/-- A STOP ends running runs (R266). -/
def execRunStop (s : State) : Host.Outcome State Fault Refusal := run (tagRow uMEA (fun p => p.tag.typ == tSTOP)) s

/-- A START, or RUN written 1, starts rings: the port unit begins its block (R404). -/
def execRingStart (s : State) : Host.Outcome State Fault Refusal :=
  run (openRow uTDM (ringTag tSTART)) s

/-- A STOP, or RUN written 0, stops rings: the port unit begins its block (R404). -/
def execRingStop (s : State) : Host.Outcome State Fault Refusal :=
  run (openRow uTDM (ringTag tSTOP)) s

/-- A unit begins a block of its stage and works on it (R32). -/
def execPipelineBlock (unit : Nat) (x : BlockIn) (s : State) : Host.Outcome State Fault Refusal :=
  run (pipelineBlock unit x) s

/-- A unit begins the first block of a tick (R44). -/
def execTickBoundary (unit : Nat) (s : State) : Host.Outcome State Fault Refusal := run (tickBoundary unit) s

/-- RED releases a block (R60, R208). -/
def execBlockRelease (errs : List (Nat × Nat)) (s : State) : Host.Outcome State Fault Refusal :=
  run (blockRelease errs) s

/-- A block has not reached an output when its first wire sample is due (R61). -/
def execDeadlineMiss (kind number : Nat) (s : State) : Host.Outcome State Fault Refusal :=
  run (deadlineMiss kind number) s

/-- The time engine decides a step (R62, R300). -/
def execTimeStepDecide (s : State) : Host.Outcome State Fault Refusal := run (whenUp uTIM stepDecide) s

/-- A decided step takes effect (R62). -/
def execTimeStep (s : State) : Host.Outcome State Fault Refusal := run timeStep s

end Sys2Proof.Machine
end

