-- ==== Sys2Proof/Machine/Ports.lean ====
section
/-! DEFINITION. The rows of the serial audio ports (R387 to R401). -/

namespace Sys2Proof.Machine

open Sys2Proof

/-- What a port of the grade does while the device runs and its unit is there (R387). -/
def onPort (aes : Bool) (p : Nat) (f : State → State) (s : State) : State :=
  whenUp (serUnit aes) (fun t => when (decide (p < serCount aes t)) f t) s

/-- A frame boundary has drifted by one render sample; `ahead`: the port has run ahead (R395). -/
def execPortSlip (aes : Bool) (port : Nat) (ahead : Bool) (s : State) : Host.Outcome State Fault Refusal :=
  run (onPort aes port (serSlip aes port ahead)) s

/-- A port's RATE in Hz over 64 frames and PPM over a second (s15.16) have been measured: shown, and beyond SLIP_PPM the
port goes out of range (R396). -/
def execPortOutOfRange (aes : Bool) (port rate : Nat) (ppm : Int) (s : State) : Host.Outcome State Fault Refusal :=
  run (onPort aes port (fun t => when (serSlave aes t port)
    (fun u => serOutOfRange aes port ppm (serMeasured aes port rate ppm u)) t)) s

/-- A port has stayed within SLIP_PPM for 1 s (R396). -/
def execPortRangeReturn (aes : Bool) (port : Nat) (ppm : Int) (s : State) : Host.Outcome State Fault Refusal :=
  run (onPort aes port (serRangeReturn aes port ppm)) s

/-- No FS for three frame periods, or no BCLK edge for three bit periods (R397). -/
def execPortClockLoss (aes : Bool) (port : Nat) (s : State) : Host.Outcome State Fault Refusal :=
  run (onPort aes port (serLose aes port)) s

/-- One period outside P ± 12.5% (R397). -/
def execPortGlitch (aes : Bool) (port : Nat) (s : State) : Host.Outcome State Fault Refusal :=
  run (onPort aes port (serGlitch aes port)) s

/-- A port's rate, in Hz, has moved by more than 1% (R397). -/
def execPortRateChange (aes : Bool) (port rate : Nat) (s : State) : Host.Outcome State Fault Refusal :=
  run (onPort aes port (serRateChange aes port rate)) s

/-- 64 good frames at a rate in Hz (R397). -/
def execPortClockReturn (aes : Bool) (port rate : Nat) (s : State) : Host.Outcome State Fault Refusal :=
  run (onPort aes port (serClockReturn aes port rate)) s

/-- EN of a port is cleared: it acts at the unit's next block (R15, R391). -/
def execPortEnClear (aes : Bool) (port : Nat) (s : State) : Host.Outcome State Fault Refusal :=
  runE (fun t =>
    let a := if aes then Reg.AES_CFG.at port else Reg.TDM_CFG.at port
    if running t ∧ unitPresent t (serUnit aes) ∧ port < serCount aes t then
      writeWord 3 a (putFld (regW t a) 31 31 0) t
    else .ok t) s

/-- A port's data begins at the block its unit begins now, the clocks having run for 1,024 frames (R391). -/
def execPortDataBegin (aes : Bool) (port : Nat) (s : State) : Host.Outcome State Fault Refusal :=
  run (onPort aes port (fun t =>
    let u := openBlock (serUnit aes) t
    if (serOf aes t port).state ≠ 2 ∧ (serOf aes u port).state = 2 then u else t)) s

/-- A channel-status block of 192 frames: 24 bytes of subframe A or B (R400). -/
def execAesCsBlock (port : Nat) (subB : Bool) (bytes : List Byte) (s : State) : Host.Outcome State Fault Refusal :=
  run (onPort true port (aesCs port subB bytes)) s

/-- The next 1/300 s instant after a change of an MCLK code (R398). -/
def execMclkChange (s : State) : Host.Outcome State Fault Refusal := run (whenUp uTDM mclkChange) s

end Sys2Proof.Machine
end

