-- ==== Sys2Proof/Machine/Queues.lean ====
section
/-! DEFINITION. The rows of Ethernet ports and frame queues (R314 to R340). -/

namespace Sys2Proof.Machine

open Sys2Proof

/-- A frame without its FCS is received on a port; `codeError`, `fcsError`: what the PCS and the FCS check found;
`quarter`: units of 250 ps into the sample in progress (R314, R316). -/
def execFrameReceive (port : Nat) (bytes : List Byte) (codeError fcsError : Bool) (quarter : Nat) (s : State) :
    Host.Outcome State Fault Refusal :=
  run (whenUp uNET (fun t => when (decide (port < netPorts t)) (frameReceive port bytes codeError fcsError quarter) t)) s

/-- A port's link rises or falls; `rate`: the rate code of R335 that an SGMII control word reports (R312, R315). Streams report
their groups on a port that has come up (R343); the PTP instance leaves a PORT that is down (R298). -/
def execLinkStateChange (port : Nat) (up : Bool) (rate : Nat) (s : State) : Host.Outcome State Fault Refusal :=
  run (whenUp uNET (fun t => when (decide (port < netPorts t)) (fun t =>
    let u := portLink port up rate t
    when ((portSt u port).link && !(portSt t port).link) (igmpPort port) u) t)) s

/-- A port's frame finishes, or it has been idle for `idle` ns, and it selects its next frame (R333, R334). -/
def execFrameTransmit (port idle : Nat) (s : State) : Host.Outcome State Fault Refusal :=
  run (whenUp uNET (fun t => when (decide (port < netPorts t)) (frameTransmit port idle) t)) s

/-- A waiting frame of class A or B starts when its credit is back at 0 (R333). -/
def execShaperCreditZero (port : Nat) (s : State) : Host.Outcome State Fault Refusal :=
  run (whenUp uNET (fun t => when (decide (port < netPorts t)) (shaperZero port) t)) s

/-- `QMG_OP` READ (R326). -/
def execQueueRead (queue : Nat) (s : State) : Host.Outcome State Fault Refusal := 
  runE (fun t => if running t && unitPresent t uQMG then queueOp 1 queue t else .ok t) s

/-- `QMG_OP` MARK (R326). -/
def execQueueMark (queue : Nat) (s : State) : Host.Outcome State Fault Refusal := run (whenUp uQMG (queueKeep 2 queue)) s

/-- `QMG_OP` REWIND (R326). -/
def execQueueRewind (queue : Nat) (s : State) : Host.Outcome State Fault Refusal := run (whenUp uQMG (queueKeep 3 queue)) s

/-- `QMG_OP` RELEASE (R326). -/
def execQueueRelease (queue : Nat) (s : State) : Host.Outcome State Fault Refusal := run (whenUp uQMG (queueKeep 4 queue)) s

/-- `QMG_OP` FLUSH (R326). -/
def execQueueFlush (queue : Nat) (s : State) : Host.Outcome State Fault Refusal := run (whenUp uQMG (queueKeep 5 queue)) s

/-- A write to `QMG_TXS_GO` (R332). -/
def execTxsGo (value : Word) (s : State) : Host.Outcome State Fault Refusal :=
  runE (fun t => if !(running t && unitPresent t uQMG) then .ok t
    else if txsBad value t then .error .badLength else .ok (txsGo value t)) s

/-- EN of a queue is written (R330). -/
def execQueueEnChange (queue : Nat) (enable : Bool) (s : State) : Host.Outcome State Fault Refusal :=
  runE (fun t =>
    if running t ∧ unitPresent t uQMG ∧ queue < 512 then
      writeWord 3 (Reg.QUEUE0.at queue) (putFld (regW t (Reg.QUEUE0.at queue)) 31 31 (if enable then 1 else 0)) t
    else .ok t) s

end Sys2Proof.Machine
end

