-- ==== Sys2Proof/Machine/Render.lean ====
section
/-! DEFINITION. The rows of the render lanes and the correction engine (R207, R215 to R217, R233, R242, R244, R249). -/

namespace Sys2Proof.Machine

open Sys2Proof

/-- A gated lane wakes for a block that is not silent (R207). -/
def execLaneWake (lane : Nat) (s : State) : Host.Outcome State Fault Refusal := run (whenUp uLAN (laneWake lane)) s

/-- A sit-out starts where one is due (R215, R216). -/
def execSitoutStart (s : State) : Host.Outcome State Fault Refusal := run (whenUp uLAN sitOutStart) s

/-- A sitting-out lane's self-test ends (R216): HEALTH shows its result (R555); the health unit retires a lane that fails,
which counts and is recorded as every retirement is (R569). -/
def execSitoutSelftestEnd (lane : Nat) (pass : Bool) (s : State) : Host.Outcome State Fault Refusal :=
  run (whenUp uLAN (fun t =>
    match sitDone t lane with
    | some x => testResult lane pass (if pass then sitPassed x t else retired 0 x.lane 2 true true (sitFailed x t))
    | none => t)) s

/-- A lane is retired (R217, R569). -/
def execLaneRetire (lane cause : Nat) (s : State) : Host.Outcome State Fault Refusal :=
  run (whenUp uLAN (hltRetire 0 lane (cause % 5))) s

/-- Tick B − 2 of a swap's batch (R242 step 1). -/
def execSwapPrepare (s : State) : Host.Outcome State Fault Refusal := run (whenUp uCOR swapPrepare) s

/-- Tick B − 1: the new coefficients load (R242 steps 2 and 3). -/
def execSwapLoad (s : State) : Host.Outcome State Fault Refusal := run (whenUp uCOR swapLoad) s

/-- A batch's crossfade has ended (R242 step 5). -/
def execCrossfadeEnd (s : State) : Host.Outcome State Fault Refusal := run (whenUp uCOR crossfadeEnd) s

/-- Far tails stop reading old coefficients (R244). -/
def execTransitionEnd (s : State) : Host.Outcome State Fault Refusal := run (whenUp uCOR transitionEnd) s

/-- Charges return to the new lengths (R233). -/
def execChargeReturn (s : State) : Host.Outcome State Fault Refusal := run (whenUp uCOR chargeReturn) s

/-- A correction slice is retired (R249, R569). -/
def execSliceRetire (slice cause : Nat) (s : State) : Host.Outcome State Fault Refusal :=
  run (whenUp uCOR (hltRetire 2 slice (cause % 5))) s

end Sys2Proof.Machine
end

