-- ==== Sys2Proof/Machine/Scene.lean ====
section
/-! DEFINITION. The rows of conditioning, objects, dispatcher and solver (R81 to R85, R105 to R130, R173 to R190). -/

namespace Sys2Proof.Machine

open Sys2Proof

/-! ### Converters and silence (R81 to R85, R247) -/

/-- A converter has measured its rate for 20 ms (R81). -/
def execAsrcLock (ch rate : Nat) (s : State) : Host.Outcome State Fault Refusal :=
  run (whenUp uINC (fun t => when ((chanSt t ch).lock == .measuring) (asrcLock ch rate) t)) s

/-- A converter's settling time has passed (R81). -/
def execAsrcSettled (ch : Nat) (s : State) : Host.Outcome State Fault Refusal := run (whenUp uINC (asrcSettled ch)) s

/-- A channel out of range measures its rate anew (R83). -/
def execAsrcRangeRetry (ch rate : Nat) (s : State) : Host.Outcome State Fault Refusal :=
  run (whenUp uINC (fun t => when ((chanSt t ch).lock == .outOfRange) (asrcLock ch rate) t)) s

/-- A channel (R85) or an output (R247) has been silent for its hold. -/
def execWallflowerEnter (output : Bool) (number : Nat) (s : State) : Host.Outcome State Fault Refusal :=
  run (fun t => if output then whenUp uCOR (outWallEnter number) t else whenUp uINC (chanWallEnter number) t) s

/-! ### Ingest (R105 to R115) -/

/-- An OSC datagram is taken from a queue with CONSUMER 3 (R109, R110), where OSC_EN is 1 and it is to the device (R105,
R131). -/
def execOscDatagram (queue : Nat) (s : State) : Host.Outcome State Fault Refusal :=
  run (whenUp uMOT (fun t =>
    match consume 3 queue t with
    | some (_, bs, u) =>
      match udpOf bs with
      | some d =>
        when (actB u Reg.MOT_CTRL.base 0 && toDevice u d.dst d.dport (actF u Reg.MOT_OSC_PORT.base 15 0))
          (oscDatagram d.payload) u
      | none => u
    | none => t)) s

/-- Held OSC messages whose block has come enter conditioning (R110). -/
def execOscScheduledEntry (s : State) : Host.Outcome State Fault Refusal := run (whenUp uMOT oscScheduled) s

/-- A native payload is taken from a queue with CONSUMER 4, where NATIVE_UDP_EN is 1 and it is to the device, or from an
OBJECT frame of a link (R105, R111 to R113, R131). -/
def execNativePayload (queue : Nat) (s : State) : Host.Outcome State Fault Refusal :=
  run (whenUp uMOT (fun t =>
    match takeLink 2 queue t with
    | some (_, bs, _, u) => nativePayload (lfPayload bs) u
    | none =>
      match consume 4 queue t with
      | some (_, bs, u) =>
        match udpOf bs with
        | some d =>
          when (actB u Reg.MOT_CTRL.base 1 && toDevice u d.dst d.dport (actF u Reg.MOT_NATIVE_PORT.base 15 0))
            (nativePayload d.payload) u
        | none => u
      | none => t)) s

/-- Word 7 of an ingest slot is written, by a command or by a Druora core (R108). -/
def execIngestSubmit (core : Bool) (slot : Nat) (value : Word) (s : State) : Host.Outcome State Fault Refusal :=
  run (whenUp uMOT (ingestSubmit (if core then pathDru else pathCmd) slot value)) s

/-- MOT's tick (R116, R128). -/
def execMotTick (s : State) : Host.Outcome State Fault Refusal :=
  run (whenUp uMOT (fun t => when (tickOpen t uMOT) (beginBlock uMOT) t)) s

/-- TIMEOUT ticks have passed without a sample (R126). -/
def execObjectLost (obj : Nat) (s : State) : Host.Outcome State Fault Refusal :=
  run (whenUp uMOT (fun t => when (decide (obj < objCount t) && lossDue t t.mot.nextTick obj) (loseObj obj) t)) s

/-! ### Dispatcher and solver (R173 to R190) -/

/-- A write to `DSX_SUBMIT_W3` offers a descriptor as source CMD (R188, R190). -/
def execDsxSubmit (w3 : Word) (s : State) : Host.Outcome State Fault Refusal := run (whenUp uDSX (dsxSubmit w3)) s

/-- A descriptor that its source holds is offered again (R187, R188). -/
def execDescriptorAccept (source : Nat) (s : State) : Host.Outcome State Fault Refusal :=
  run (whenUp uDSX (fun t => if source = 0 then acceptMot t else acceptHeld source t)) s

/-- An idle engine takes the job it is due (R182): a logical geometry unit, or a Druora task core. -/
def execJobDispatch (task : Bool) (engine : Nat) (s : State) : Host.Outcome State Fault Refusal :=
  run (whenUp uDSX (fun t =>
    if !engineIdle t (if task then 1 else 0) engine then t
    else if inFollow t then t
    else if task then
      match pickJob t 1 engine with
      | some j => taskDispatch engine j t
      | none => t
    else jobDispatch 0 engine t)) s

/-- A solver job completes on a physical geometry unit (R184 to R186); a task completes with its HALT. -/
def execJobComplete (engine : Nat) (s : State) : Host.Outcome State Fault Refusal :=
  run (whenUp uDSX (jobComplete 0 engine)) s

/-- A finished result is written into the shadow table (R173, R174). -/
def execResultWrite (obj : Nat) (s : State) : Host.Outcome State Fault Refusal := run (whenUp uSLV (resultWrite obj)) s

/-- The cutoff at the last block of a tick (R173). -/
def execSolverCutoff (s : State) : Host.Outcome State Fault Refusal :=
  run (whenUp uSLV (fun t => when (renders t (unitSt t uSLV).next) solverCutoff t)) s

/-- A write to `SLV_REFRESH` (R177). -/
def execSlvRefresh (value : Word) (s : State) : Host.Outcome State Fault Refusal := run (whenUp uSLV (slvRefresh value)) s

/-- A geometry unit is retired (R189, R569). -/
def execGeometryRetire (unit cause : Nat) (s : State) : Host.Outcome State Fault Refusal :=
  run (whenUp uDSX (hltRetire 1 unit (cause % 5))) s

end Sys2Proof.Machine
end

