-- ==== Sys2Proof/Machine/Starts.lean ====
section
/-! DEFINITION. The rows of the start, of faults that restart, of supplies and temperature, and of the test access port
(R410 to R432, R578, R590, R598, R600). -/

namespace Sys2Proof.Machine

open Sys2Proof

/-- All supplies are valid and the oscillator runs: a start with cause 0, with the straps as the pins give them
(`img`: STRAP_IMG 0 open, 1 low, 2 high; `pins`: bits 1:0 STRAP_RANK, bits 2 and 3 whether REFCLK0 and REFCLK1 run), once
RESET_N is high (R410, R415, R593). -/
def execSuppliesValid (img pins : Nat) (s : State) : Host.Outcome State Fault Refusal := run (suppliesValid img pins) s

/-- RESET_N goes low (R410). -/
def execResetAssert (s : State) : Host.Outcome State Fault Refusal := run resetAssert s

/-- RESET_N goes high (R410). -/
def execResetRelease (img rank : Nat) (s : State) : Host.Outcome State Fault Refusal := run (resetRelease img rank) s

/-- Steps 3 and 4 of a start end, with what BIST, the flash and DRAM training found (R411, R416). -/
def execBistComplete (x : BistIn) (s : State) : Host.Outcome State Fault Refusal := runE (bistComplete x) s

/-- The start window closes (R427). -/
def execStartWindowClose (s : State) : Host.Outcome State Fault Refusal := run windowClose s

/-- The next section of the image loads (R417, R421 to R423). -/
def execSectionLoad (s : State) : Host.Outcome State Fault Refusal := runE sectionStep s

/-- The load is complete (R411 step 7). -/
def execLoadComplete (s : State) : Host.Outcome State Fault Refusal := run loadComplete s

/-- A unit has made no progress for `ms` milliseconds: 0 the command interpreter, 1 and 2 the DMA engines, 3 the
measurement engine (R578). -/
def execUnitRestart (unit ms : Nat) (s : State) : Host.Outcome State Fault Refusal := run (unitRestart unit ms) s

/-- A supply monitor has been outside its range for `ns` nanoseconds, or is back (R559, R590). -/
def execSupplyOutOfRange (monitor ns : Nat) (outside : Bool) (s : State) : Host.Outcome State Fault Refusal :=
  run (supplyRange monitor ns outside) s

/-- A supply has been below its valid threshold for `us` microseconds; from 10 µs on, supplies valid has ended (R590).
Between the start of a life-cycle transition and its fuses this is outside the contract (R516). -/
def execSupplyLoss (us : Nat) (s : State) : Host.Outcome State Fault Refusal :=
  if !s.start.supplies ∨ us < 10 then run id s
  else if s.sec.executing.isSome then .fault .lcCutShort
  else .next (unpowered s)

/-- The sensor reads a temperature (s7.8 °C) and has read above 125 °C for `us` microseconds (R600). -/
def execOverTemperature (tj : Int) (us : Nat) (s : State) : Host.Outcome State Fault Refusal :=
  run (overTemperature tj us) s

/-- The sensor reads a temperature (s7.8 °C) on a part held by its temperature (R600). -/
def execCooldownStart (tj : Int) (s : State) : Host.Outcome State Fault Refusal := run (cooldownStart tj) s

/-- Bits shifted through the one bit register, with TRST_N at a level (R598). -/
def execBypass (trstLow : Bool) (bits : List Bool) (s : State) : Host.Outcome State Fault Refusal :=
  run (tapScan trstLow .bypass (bypassShift bits)) s

/-- Bits shifted through the identification register, its bit 0 first (R598). -/
def execIdcode (trstLow : Bool) (bits : List Bool) (s : State) : Host.Outcome State Fault Refusal :=
  run (tapScan trstLow .idcode (fun t =>
    emit (.tdo (((List.range 32).map (fun (j : Nat) => (idcodeWord t).testBit j) ++ bits).take bits.length)) t)) s

/-- The boundary-scan chain is sampled and preloaded with cells (R598). -/
def execSamplePreload (trstLow : Bool) (cells : List Bool) (s : State) : Host.Outcome State Fault Refusal :=
  run (tapScan trstLow .sample (sampleShift cells)) s

/-- EXTEST: while RESET_N is low the boundary cells drive the balls (R598). -/
def execExtest (trstLow : Bool) (cells : List Bool) (s : State) : Host.Outcome State Fault Refusal :=
  run (tapScan trstLow .extest (extestShift cells)) s

end Sys2Proof.Machine
end

