-- ==== Sys2Proof/Machine/Streams.lean ====
section
/-! DEFINITION. The rows of the media streams (R343 to R363). -/

namespace Sys2Proof.Machine

open Sys2Proof

/-- An RTP packet is taken from a queue with CONSUMER 1 (R347 to R350). -/
def execRtpPacket (queue : Nat) (s : State) : Host.Outcome State Fault Refusal := run (whenUp uMST (rtpPacket queue)) s

/-- An AAF packet is taken from a queue with CONSUMER 1 (R347, R349). -/
def execAafPacket (queue : Nat) (s : State) : Host.Outcome State Fault Refusal := run (whenUp uMST (aafPacket queue)) s

/-- 1 s after going out of range a SLIP stream tries again (R360). -/
def execStreamRangeRetry (stream : Nat) (s : State) : Host.Outcome State Fault Refusal :=
  run (whenUp uMST (rangeRetry stream)) s

/-- A claim has not been seen for 2 ms, on a media stream or a link stream (R362). -/
def execClaimLapse (link : Bool) (stream : Nat) (s : State) : Host.Outcome State Fault Refusal :=
  run (whenUp (if link then uLNK else uMST) (claimLapse link stream)) s

/-- A hold has lasted 50 ms (R363). -/
def execHoldRamp (link : Bool) (stream : Nat) (s : State) : Host.Outcome State Fault Refusal :=
  run (whenUp (if link then uLNK else uMST) (holdRamp link stream)) s

/-- An ARP request is answered (R343). -/
def execArpRequest (queue : Nat) (s : State) : Host.Outcome State Fault Refusal := run (whenUp uMST (arpRequest queue)) s

/-- An IGMP query is answered (R343). -/
def execIgmpQuery (queue : Nat) (s : State) : Host.Outcome State Fault Refusal := run (whenUp uMST (igmpQuery queue)) s

end Sys2Proof.Machine
end

