-- ==== Sys2Proof/Machine/Dispatch.lean ====
section
/-! DEFINITION. One arm per command: each a direct call of that command's meaning. -/

namespace Sys2Proof.Machine

open Sys2Proof

/-- The effect of a command on everything but the queue of waiting commands. -/
def exec (i : Instr) (s : State) : Host.Outcome State Fault Refusal :=
  match i with
  | .read src tag addr noresp => Sys2Proof.Machine.execRead src tag addr noresp s
  | .write src tag addr noresp data => Sys2Proof.Machine.execWrite src tag addr noresp data s
  | .modify src tag addr noresp lsb width data => Sys2Proof.Machine.execModify src tag addr noresp lsb width data s
  | .burstRead src tag addr noresp count buf => Sys2Proof.Machine.execBurstRead src tag addr noresp count buf s
  | .burstWrite src tag addr noresp count buf words => Sys2Proof.Machine.execBurstWrite src tag addr noresp count buf words s
  | .commit src tag target unit noresp => Sys2Proof.Machine.execCommit src tag target unit noresp s
  | .cue src tag target cue noresp => Sys2Proof.Machine.execCue src tag target cue noresp s
  | .snapSave src tag target snap noresp => Sys2Proof.Machine.execSnapSave src tag target snap noresp s
  | .snapRecall src tag target snap noresp => Sys2Proof.Machine.execSnapRecall src tag target snap noresp s
  | .featureRequest src tag noresp request close => Sys2Proof.Machine.execFeatureRequest src tag noresp request close s
  | .restart src tag slot noresp => Sys2Proof.Machine.execRestart src tag slot noresp s
  | .hostWrite half lo hi data collide => Sys2Proof.Machine.execHostWrite half lo hi data collide s
  | .hostRead half collide => Sys2Proof.Machine.execHostRead half collide s
  | .commandTake => Sys2Proof.Machine.execCommandTake s
  | .responseWrite => Sys2Proof.Machine.execResponseWrite s
  | .remoteCommandFrame queue => Sys2Proof.Machine.execRemoteCommandFrame queue s
  | .eventFrameSend => Sys2Proof.Machine.execEventFrameSend s
  | .registerWrite addr value => Sys2Proof.Machine.execRegisterWrite addr value s
  | .sidxRead => Sys2Proof.Machine.execSidxRead s
  | .redLastRead => Sys2Proof.Machine.execRedLastRead s
  | .timeRead => Sys2Proof.Machine.execTimeRead s
  | .gmIdRead => Sys2Proof.Machine.execGmIdRead s
  | .offsetRead => Sys2Proof.Machine.execOffsetRead s
  | .captureRead ch => Sys2Proof.Machine.execCaptureRead ch s
  | .tagSubmit w3 => Sys2Proof.Machine.execTagSubmit w3 s
  | .tagHeldRelease => Sys2Proof.Machine.execTagHeldRelease s
  | .tagArrival unit => Sys2Proof.Machine.execTagArrival unit s
  | .commitTag unit => Sys2Proof.Machine.execCommitTag unit s
  | .route => Sys2Proof.Machine.execRoute s
  | .ramp unit => Sys2Proof.Machine.execRamp unit s
  | .migrationCopyStart => Sys2Proof.Machine.execMigrationCopyStart s
  | .migrate => Sys2Proof.Machine.execMigrate s
  | .swap => Sys2Proof.Machine.execSwap s
  | .cueTag => Sys2Proof.Machine.execCueTag s
  | .snapTag => Sys2Proof.Machine.execSnapTag s
  | .markTag unit => Sys2Proof.Machine.execMarkTag unit s
  | .epochTag unit => Sys2Proof.Machine.execEpochTag unit s
  | .portStart aes => Sys2Proof.Machine.execPortStart aes s
  | .portStop aes => Sys2Proof.Machine.execPortStop aes s
  | .streamStart => Sys2Proof.Machine.execStreamStart s
  | .streamStop => Sys2Proof.Machine.execStreamStop s
  | .linkStreamStart => Sys2Proof.Machine.execLinkStreamStart s
  | .linkStreamStop => Sys2Proof.Machine.execLinkStreamStop s
  | .runStart => Sys2Proof.Machine.execRunStart s
  | .runStop => Sys2Proof.Machine.execRunStop s
  | .ringStart => Sys2Proof.Machine.execRingStart s
  | .ringStop => Sys2Proof.Machine.execRingStop s
  | .pipelineBlock unit x => Sys2Proof.Machine.execPipelineBlock unit x s
  | .tickBoundary unit => Sys2Proof.Machine.execTickBoundary unit s
  | .blockRelease errs => Sys2Proof.Machine.execBlockRelease errs s
  | .deadlineMiss kind number => Sys2Proof.Machine.execDeadlineMiss kind number s
  | .timeStepDecide => Sys2Proof.Machine.execTimeStepDecide s
  | .timeStep => Sys2Proof.Machine.execTimeStep s
  | .asrcLock ch rate => Sys2Proof.Machine.execAsrcLock ch rate s
  | .asrcSettled ch => Sys2Proof.Machine.execAsrcSettled ch s
  | .asrcRangeRetry ch rate => Sys2Proof.Machine.execAsrcRangeRetry ch rate s
  | .wallflowerEnter output number => Sys2Proof.Machine.execWallflowerEnter output number s
  | .oscDatagram queue => Sys2Proof.Machine.execOscDatagram queue s
  | .oscScheduledEntry => Sys2Proof.Machine.execOscScheduledEntry s
  | .nativePayload queue => Sys2Proof.Machine.execNativePayload queue s
  | .ingestSubmit core slot value => Sys2Proof.Machine.execIngestSubmit core slot value s
  | .motTick => Sys2Proof.Machine.execMotTick s
  | .objectLost obj => Sys2Proof.Machine.execObjectLost obj s
  | .dsxSubmit w3 => Sys2Proof.Machine.execDsxSubmit w3 s
  | .descriptorAccept source => Sys2Proof.Machine.execDescriptorAccept source s
  | .jobDispatch task engine => Sys2Proof.Machine.execJobDispatch task engine s
  | .jobComplete engine => Sys2Proof.Machine.execJobComplete engine s
  | .resultWrite obj => Sys2Proof.Machine.execResultWrite obj s
  | .solverCutoff => Sys2Proof.Machine.execSolverCutoff s
  | .slvRefresh value => Sys2Proof.Machine.execSlvRefresh value s
  | .geometryRetire unit cause => Sys2Proof.Machine.execGeometryRetire unit cause s
  | .laneWake lane => Sys2Proof.Machine.execLaneWake lane s
  | .sitoutStart => Sys2Proof.Machine.execSitoutStart s
  | .sitoutSelftestEnd lane pass => Sys2Proof.Machine.execSitoutSelftestEnd lane pass s
  | .laneRetire lane cause => Sys2Proof.Machine.execLaneRetire lane cause s
  | .swapPrepare => Sys2Proof.Machine.execSwapPrepare s
  | .swapLoad => Sys2Proof.Machine.execSwapLoad s
  | .crossfadeEnd => Sys2Proof.Machine.execCrossfadeEnd s
  | .transitionEnd => Sys2Proof.Machine.execTransitionEnd s
  | .chargeReturn => Sys2Proof.Machine.execChargeReturn s
  | .sliceRetire slice cause => Sys2Proof.Machine.execSliceRetire slice cause s
  | .runBegin => Sys2Proof.Machine.execRunBegin s
  | .captureEnd number => Sys2Proof.Machine.execCaptureEnd number s
  | .runDone => Sys2Proof.Machine.execRunDone s
  | .liveFrame => Sys2Proof.Machine.execLiveFrame s
  | .delaySearch => Sys2Proof.Machine.execDelaySearch s
  | .livePublish => Sys2Proof.Machine.execLivePublish s
  | .referenceEdge cand period phase freq => Sys2Proof.Machine.execReferenceEdge cand period phase freq s
  | .candidateLoss cand => Sys2Proof.Machine.execCandidateLoss cand s
  | .qualificationComplete cand => Sys2Proof.Machine.execQualificationComplete cand s
  | .lockAchieved => Sys2Proof.Machine.execLockAchieved s
  | .holdMaxExpiry => Sys2Proof.Machine.execHoldMaxExpiry s
  | .clkCtrlWrite value => Sys2Proof.Machine.execClkCtrlWrite value s
  | .candidateWrite cand word value => Sys2Proof.Machine.execCandidateWrite cand word value s
  | .dpllRetire cause => Sys2Proof.Machine.execDpllRetire cause s
  | .syncReceive header t1 t2 corr pred freq => Sys2Proof.Machine.execSyncReceive header t1 t2 corr pred freq s
  | .announceReceive domain prio1 cls acc var prio2 gm steps sender utc interval => Sys2Proof.Machine.execAnnounceReceive domain prio1 cls acc var prio2 gm steps sender utc interval s
  | .announceTimeout => Sys2Proof.Machine.execAnnounceTimeout s
  | .ptpPortReturn => Sys2Proof.Machine.execPtpPortReturn s
  | .ppsSecWrite high value => Sys2Proof.Machine.execPpsSecWrite high value s
  | .triggerArm trigger value => Sys2Proof.Machine.execTriggerArm trigger value s
  | .triggerFire trigger => Sys2Proof.Machine.execTriggerFire trigger s
  | .captureEdge source falling quarter => Sys2Proof.Machine.execCaptureEdge source falling quarter s
  | .frameReceive port bytes codeError fcsError quarter => Sys2Proof.Machine.execFrameReceive port bytes codeError fcsError quarter s
  | .linkStateChange port up rate => Sys2Proof.Machine.execLinkStateChange port up rate s
  | .frameTransmit port idle => Sys2Proof.Machine.execFrameTransmit port idle s
  | .queueRead queue => Sys2Proof.Machine.execQueueRead queue s
  | .queueMark queue => Sys2Proof.Machine.execQueueMark queue s
  | .queueRewind queue => Sys2Proof.Machine.execQueueRewind queue s
  | .queueRelease queue => Sys2Proof.Machine.execQueueRelease queue s
  | .queueFlush queue => Sys2Proof.Machine.execQueueFlush queue s
  | .txsGo value => Sys2Proof.Machine.execTxsGo value s
  | .queueEnChange queue enable => Sys2Proof.Machine.execQueueEnChange queue enable s
  | .rtpPacket queue => Sys2Proof.Machine.execRtpPacket queue s
  | .aafPacket queue => Sys2Proof.Machine.execAafPacket queue s
  | .streamRangeRetry stream => Sys2Proof.Machine.execStreamRangeRetry stream s
  | .claimLapse link stream => Sys2Proof.Machine.execClaimLapse link stream s
  | .holdRamp link stream => Sys2Proof.Machine.execHoldRamp link stream s
  | .arpRequest queue => Sys2Proof.Machine.execArpRequest queue s
  | .igmpQuery queue => Sys2Proof.Machine.execIgmpQuery queue s
  | .linkUp link rxRet txRet => Sys2Proof.Machine.execLinkUp link rxRet txRet s
  | .linkDown link cut => Sys2Proof.Machine.execLinkDown link cut s
  | .linkFrameReceive link bytes codeError quarter => Sys2Proof.Machine.execLinkFrameReceive link bytes codeError quarter s
  | .audioFrame queue => Sys2Proof.Machine.execAudioFrame queue s
  | .heartbeatReceive link => Sys2Proof.Machine.execHeartbeatReceive link s
  | .healthReceive queue => Sys2Proof.Machine.execHealthReceive queue s
  | .snapshotSegment queue => Sys2Proof.Machine.execSnapshotSegment queue s
  | .timeFrame link pred freq => Sys2Proof.Machine.execTimeFrame link pred freq s
  | .clockFrame link => Sys2Proof.Machine.execClockFrame link s
  | .timeFrameSend link => Sys2Proof.Machine.execTimeFrameSend link s
  | .clockFrameSend link => Sys2Proof.Machine.execClockFrameSend link s
  | .linkFrameTransmit link => Sys2Proof.Machine.execLinkFrameTransmit link s
  | .shed link => Sys2Proof.Machine.execShed link s
  | .restore link => Sys2Proof.Machine.execRestore link s
  | .widthAck link => Sys2Proof.Machine.execWidthAck link s
  | .shedTimeout link => Sys2Proof.Machine.execShedTimeout link s
  | .spareMove link lane margin => Sys2Proof.Machine.execSpareMove link lane margin s
  | .portSlip aes port ahead => Sys2Proof.Machine.execPortSlip aes port ahead s
  | .portOutOfRange aes port rate ppm => Sys2Proof.Machine.execPortOutOfRange aes port rate ppm s
  | .portRangeReturn aes port ppm => Sys2Proof.Machine.execPortRangeReturn aes port ppm s
  | .portClockLoss aes port => Sys2Proof.Machine.execPortClockLoss aes port s
  | .portGlitch aes port => Sys2Proof.Machine.execPortGlitch aes port s
  | .portRateChange aes port rate => Sys2Proof.Machine.execPortRateChange aes port rate s
  | .portClockReturn aes port rate => Sys2Proof.Machine.execPortClockReturn aes port rate s
  | .portEnClear aes port => Sys2Proof.Machine.execPortEnClear aes port s
  | .portDataBegin aes port => Sys2Proof.Machine.execPortDataBegin aes port s
  | .aesCsBlock port subB bytes => Sys2Proof.Machine.execAesCsBlock port subB bytes s
  | .mclkChange => Sys2Proof.Machine.execMclkChange s
  | .suppliesValid img pins => Sys2Proof.Machine.execSuppliesValid img pins s
  | .resetAssert => Sys2Proof.Machine.execResetAssert s
  | .resetRelease img rank => Sys2Proof.Machine.execResetRelease img rank s
  | .bistComplete x => Sys2Proof.Machine.execBistComplete x s
  | .startWindowClose => Sys2Proof.Machine.execStartWindowClose s
  | .sectionLoad => Sys2Proof.Machine.execSectionLoad s
  | .loadComplete => Sys2Proof.Machine.execLoadComplete s
  | .add core => Sys2Proof.Machine.execAdd core s
  | .sub core => Sys2Proof.Machine.execSub core s
  | .adds core => Sys2Proof.Machine.execAdds core s
  | .subs core => Sys2Proof.Machine.execSubs core s
  | .and core => Sys2Proof.Machine.execAnd core s
  | .or core => Sys2Proof.Machine.execOr core s
  | .xor core => Sys2Proof.Machine.execXor core s
  | .shl core => Sys2Proof.Machine.execShl core s
  | .shr core => Sys2Proof.Machine.execShr core s
  | .asr core => Sys2Proof.Machine.execAsr core s
  | .min core => Sys2Proof.Machine.execMin core s
  | .max core => Sys2Proof.Machine.execMax core s
  | .abs core => Sys2Proof.Machine.execAbs core s
  | .neg core => Sys2Proof.Machine.execNeg core s
  | .mul core => Sys2Proof.Machine.execMul core s
  | .cmp core => Sys2Proof.Machine.execCmp core s
  | .mov core => Sys2Proof.Machine.execMov core s
  | .cls core => Sys2Proof.Machine.execCls core s
  | .addi core => Sys2Proof.Machine.execAddi core s
  | .andi core => Sys2Proof.Machine.execAndi core s
  | .ori core => Sys2Proof.Machine.execOri core s
  | .xori core => Sys2Proof.Machine.execXori core s
  | .shli core => Sys2Proof.Machine.execShli core s
  | .shri core => Sys2Proof.Machine.execShri core s
  | .asri core => Sys2Proof.Machine.execAsri core s
  | .cmpi core => Sys2Proof.Machine.execCmpi core s
  | .movi core => Sys2Proof.Machine.execMovi core s
  | .movhi core => Sys2Proof.Machine.execMovhi core s
  | .ld core => Sys2Proof.Machine.execLd core s
  | .ldh core => Sys2Proof.Machine.execLdh core s
  | .ldb core => Sys2Proof.Machine.execLdb core s
  | .ld24 core => Sys2Proof.Machine.execLd24 core s
  | .st core => Sys2Proof.Machine.execSt core s
  | .sth core => Sys2Proof.Machine.execSth core s
  | .stb core => Sys2Proof.Machine.execStb core s
  | .st24 core => Sys2Proof.Machine.execSt24 core s
  | .mac core => Sys2Proof.Machine.execMac core s
  | .msu core => Sys2Proof.Machine.execMsu core s
  | .mpy core => Sys2Proof.Machine.execMpy core s
  | .dmac core => Sys2Proof.Machine.execDmac core s
  | .nop core => Sys2Proof.Machine.execNop core s
  | .movr core => Sys2Proof.Machine.execMovr core s
  | .setr core => Sys2Proof.Machine.execSetr core s
  | .rnd core => Sys2Proof.Machine.execRnd core s
  | .clr core => Sys2Proof.Machine.execClr core s
  | .ldacc core => Sys2Proof.Machine.execLdacc core s
  | .addacc core => Sys2Proof.Machine.execAddacc core s
  | .drain core => Sys2Proof.Machine.execDrain core s
  | .signal core => Sys2Proof.Machine.execSignal core s
  | .halt core => Sys2Proof.Machine.execHalt core s
  | .blkend core => Sys2Proof.Machine.execBlkend core s
  | .wait core => Sys2Proof.Machine.execWait core s
  | .ei core => Sys2Proof.Machine.execEi core s
  | .di core => Sys2Proof.Machine.execDi core s
  | .evt core => Sys2Proof.Machine.execEvt core s
  | .br core => Sys2Proof.Machine.execBr core s
  | .call core => Sys2Proof.Machine.execCall core s
  | .ret core => Sys2Proof.Machine.execRet core s
  | .rti core => Sys2Proof.Machine.execRti core s
  | .jmp core => Sys2Proof.Machine.execJmp core s
  | .rep core => Sys2Proof.Machine.execRep core s
  | .loop core => Sys2Proof.Machine.execLoop core s
  | .illegalInstruction core => Sys2Proof.Machine.execIllegalInstruction core s
  | .interruptTake core source => Sys2Proof.Machine.execInterruptTake core source s
  | .timerExpiry core => Sys2Proof.Machine.execTimerExpiry core s
  | .doorbell value => Sys2Proof.Machine.execDoorbell value s
  | .coreStart core => Sys2Proof.Machine.execCoreStart core s
  | .coreStop core => Sys2Proof.Machine.execCoreStop core s
  | .coreReset core => Sys2Proof.Machine.execCoreReset core s
  | .programLoadDone core => Sys2Proof.Machine.execProgramLoadDone core s
  | .taskStart core => Sys2Proof.Machine.execTaskStart core s
  | .streamRunStart core => Sys2Proof.Machine.execStreamRunStart core s
  | .runOverrun core => Sys2Proof.Machine.execRunOverrun core s
  | .taskWatchdog core => Sys2Proof.Machine.execTaskWatchdog core s
  | .coreRetire core cause => Sys2Proof.Machine.execCoreRetire core cause s
  | .bankPowerOn bank => Sys2Proof.Machine.execBankPowerOn bank s
  | .scratchPwrWrite value => Sys2Proof.Machine.execScratchPwrWrite value s
  | .sramScrubPass finds => Sys2Proof.Machine.execSramScrubPass finds s
  | .panicEnter port level => Sys2Proof.Machine.execPanicEnter port level s
  | .panicExit port level => Sys2Proof.Machine.execPanicExit port level s
  | .dramRefresh channel bank => Sys2Proof.Machine.execDramRefresh channel bank s
  | .driftTrack channel => Sys2Proof.Machine.execDriftTrack channel s
  | .selfRefreshEnter us => Sys2Proof.Machine.execSelfRefreshEnter us s
  | .selfRefreshExit => Sys2Proof.Machine.execSelfRefreshExit s
  | .rowHammer acts requester number channel bank => Sys2Proof.Machine.execRowHammer acts requester number channel bank s
  | .patrolScrubPass fixed bad => Sys2Proof.Machine.execPatrolScrubPass fixed bad s
  | .tamper ns => Sys2Proof.Machine.execTamper ns s
  | .lcArm value => Sys2Proof.Machine.execLcArm value s
  | .lcExecute value => Sys2Proof.Machine.execLcExecute value s
  | .lcArmExpiry => Sys2Proof.Machine.execLcArmExpiry s
  | .lcFuseDone => Sys2Proof.Machine.execLcFuseDone s
  | .dmaGo engineB channel value => Sys2Proof.Machine.execDmaGo engineB channel value s
  | .dmaStop engineB channel => Sys2Proof.Machine.execDmaStop engineB channel s
  | .dmaReqAdd line value => Sys2Proof.Machine.execDmaReqAdd line value s
  | .channelTake engineB => Sys2Proof.Machine.execChannelTake engineB s
  | .descriptorFetch engineB => Sys2Proof.Machine.execDescriptorFetch engineB s
  | .dmaBurst engineB => Sys2Proof.Machine.execDmaBurst engineB s
  | .descriptorComplete engineB => Sys2Proof.Machine.execDescriptorComplete engineB s
  | .heartbeatSend => Sys2Proof.Machine.execHeartbeatSend s
  | .heartbeatLoss => Sys2Proof.Machine.execHeartbeatLoss s
  | .healthSend => Sys2Proof.Machine.execHealthSend s
  | .yieldEdge ns => Sys2Proof.Machine.execYieldEdge ns s
  | .election => Sys2Proof.Machine.execElection s
  | .restoreComplete => Sys2Proof.Machine.execRestoreComplete s
  | .renderBegin => Sys2Proof.Machine.execRenderBegin s
  | .snapshotTake => Sys2Proof.Machine.execSnapshotTake s
  | .abdicationRestart => Sys2Proof.Machine.execAbdicationRestart s
  | .handover => Sys2Proof.Machine.execHandover s
  | .marginStepDown island slack => Sys2Proof.Machine.execMarginStepDown island slack s
  | .marginStepUp island slack => Sys2Proof.Machine.execMarginStepUp island slack s
  | .islandRetire island slack => Sys2Proof.Machine.execIslandRetire island slack s
  | .retireWrite value => Sys2Proof.Machine.execRetireWrite value s
  | .followSelftest => Sys2Proof.Machine.execFollowSelftest s
  | .unitRestart unit ms => Sys2Proof.Machine.execUnitRestart unit ms s
  | .supplyOutOfRange monitor ns outside => Sys2Proof.Machine.execSupplyOutOfRange monitor ns outside s
  | .supplyLoss us => Sys2Proof.Machine.execSupplyLoss us s
  | .overTemperature tj us => Sys2Proof.Machine.execOverTemperature tj us s
  | .cooldownStart tj => Sys2Proof.Machine.execCooldownStart tj s
  | .bypass trstLow bits => Sys2Proof.Machine.execBypass trstLow bits s
  | .idcode trstLow bits => Sys2Proof.Machine.execIdcode trstLow bits s
  | .samplePreload trstLow cells => Sys2Proof.Machine.execSamplePreload trstLow cells s
  | .extest trstLow cells => Sys2Proof.Machine.execExtest trstLow cells s
  | .syncTimeout => Sys2Proof.Machine.execSyncTimeout s
  | .timeFrameTimeout link => Sys2Proof.Machine.execTimeFrameTimeout link s
  | .ptpMessageSend kind => Sys2Proof.Machine.execPtpMessageSend kind s
  | .delayMessageReceive kind domain t1 t2 t3 t4 corr ratio => Sys2Proof.Machine.execDelayMessageReceive kind domain t1 t2 t3 t4 corr ratio s
  | .shaperCreditZero port => Sys2Proof.Machine.execShaperCreditZero port s
  | .controlBlockReceive link code arg => Sys2Proof.Machine.execControlBlockReceive link code arg s
  | .laneLockLoss link lane frames => Sys2Proof.Machine.execLaneLockLoss link lane frames s
  | .spareCoreCopyEnd => Sys2Proof.Machine.execSpareCoreCopyEnd s
  | .followSelftestEnd pass core => Sys2Proof.Machine.execFollowSelftestEnd pass core s

end Sys2Proof.Machine
end

