-- ==== Sys2Proof/Machine/Idle.lean ====
section
/-! DEFINITION. What the block does while no command waits: the media clock advances by one render sample, and what
the rules count per tick and per second is shown (R42, R43, R174, R446, R526). -/

namespace Sys2Proof.Machine

open Sys2Proof

/-- Late results of a tick that ends are told in one event (R174). -/
def lateFlush (s : State) : State :=
  if s.slv.lateCount = 0 then s
  else raise 0x13 (bytesOf 4 (extTick s (nowTick s)) ++ bytesOf 2 s.slv.lateCount) { s with slv := { s.slv with lateCount := 0 } }

/-- Uncorrectable DRAM errors of a tick that ends are told in one event (R526). -/
def ueFlush (s : State) : State :=
  if s.drc.ueCount = 0 then s
  else raise 0x72 (bytesOf 2 s.drc.ueCount ++ bytesOf 4 s.drc.ueFirst) { s with drc := { s.drc with ueCount := 0 } }

/-- Frames discarded by authentication in a tick that ends are told in one event (R446). -/
def authFlush (s : State) : State :=
  if s.sys.authCnt = 0 then s
  else raise 0x04 (bytesOf 1 s.sys.authKey ++ bytesOf 2 s.sys.authCnt) { s with sys := { s.sys with authCnt := 0 } }

/-- A second has ended: its real-time errors are shown (R526, R531). -/
def secondEnd (s : State) : State :=
  setF Reg.DRC_RT_UE_SEC.base 15 0 (min s.drc.rtCount 0xFFFF)
    { s with drc := { s.drc with rtSec := s.time.mono / subPerSec, rtCount := 0 } }

/-- TAI time moved on by one render sample (R42). -/
def timeOn (s : State) : TimeSt :=
  let sub := s.time.sub + subPerSample s
  { s.time with
    sec := s.time.sec + sub / subPerSec
    sub := sub % subPerSec
    idx := s.time.idx + 1
    mono := s.time.mono + subPerSample s }

/-- The media clock advances by one render sample: the index moves on by one (R43), the clock outputs run on (R296), and
at a block boundary the L fields that wait in the units outside the block stream act (R15). Time since supplies valid
runs on before the device renders, too. Spare moves of the links, which take at most 50 µs, end with the sample in which they
began (R383). -/
def mediaSample (s : State) : State :=
  if !s.start.supplies then s
  else if !running s then { s with time := { s.time with mono := s.time.mono + subPerSample s } }
  else
    let s1 := if (s.time.idx + 1) % tickLen s = 0 then authFlush (ueFlush (lateFlush s)) else s
    let s0 := clockOuts s1
    let s3 := laneMovesEnd { s0 with time := timeOn s0 }
    let s2 := if s3.time.idx % 16 = 0 then boundaryLive s3 else s3
    if s2.time.mono / subPerSec ≠ s2.drc.rtSec then secondEnd s2 else s2

/-- The step on an empty queue. -/
def idle (s : State) : Host.Outcome State Fault Refusal := run mediaSample s

end Sys2Proof.Machine
end

