-- ==== Sys2Proof/WellFormed.lean ====
section
/-! DEFINITION. Well-formed commands: every operand within the field, or the range of numbers, that its source gives
it. `exec` gives a meaning to every command, well formed or not. -/

namespace Sys2Proof

/-- A number below a bound. -/
def fits (n bound : Nat) : Bool := decide (n < bound)

/-- A command's operands are within the ranges of their fields: command records (R441, R442, R445), units of a tag
(R50), and the numbers of channels, lanes, ports, links, queues, cores, engines and channels that the grades can have. -/
def wellFormed : Instr → Bool
  | .read src tag addr _ => fits src 25 && fits tag (2 ^ 16) && fits addr (2 ^ 40) && addr % 4 == 0
  | .write src tag addr _ _ => fits src 25 && fits tag (2 ^ 16) && fits addr (2 ^ 40) && addr % 4 == 0
  | .modify src tag addr _ lsb width _ => fits src 25 && fits tag (2 ^ 16) && fits addr (2 ^ 40) && fits lsb 32 &&
      fits width 33 && addr % 4 == 0 && decide (1 ≤ width)
  | .burstRead src tag addr _ count buf => fits src 25 && fits tag (2 ^ 16) && fits addr (2 ^ 40) && fits count 4097 &&
      fits buf (2 ^ 32) && addr % 4 == 0 && decide (1 ≤ count)
  | .burstWrite src tag addr _ count buf words => fits src 25 && fits tag (2 ^ 16) && fits addr (2 ^ 40) && fits count 4097 &&
      fits buf (2 ^ 32) && addr % 4 == 0 && (words.length == count || words.isEmpty) && decide (1 ≤ count)
  | .commit src tag target unit _ => fits src 25 && fits tag (2 ^ 16) && fits target (2 ^ 64) && fits unit 256
  | .cue src tag target cue _ => fits src 25 && fits tag (2 ^ 16) && fits target (2 ^ 64) && fits cue (2 ^ 24)
  | .snapSave src tag target snap _ => fits src 25 && fits tag (2 ^ 16) && fits target (2 ^ 64) && fits snap (2 ^ 24)
  | .snapRecall src tag target snap _ => fits src 25 && fits tag (2 ^ 16) && fits target (2 ^ 64) && fits snap (2 ^ 24)
  | .featureRequest src tag _ _ _ => fits src 25 && fits tag (2 ^ 16)
  | .restart src tag slot _ => fits src 25 && fits tag (2 ^ 16) && fits slot 4
  | .hostWrite half _ _ data collide => fits half (2 ^ 16) && fits data (2 ^ 16) && fits collide 5
  | .hostRead half collide => fits half (2 ^ 16) && fits collide 4
  | .commandTake => true
  | .responseWrite => true
  | .remoteCommandFrame queue => fits queue 512
  | .eventFrameSend => true
  | .registerWrite addr _ => fits addr (2 ^ 40) && addr % 4 == 0
  | .sidxRead => true
  | .redLastRead => true
  | .timeRead => true
  | .gmIdRead => true
  | .offsetRead => true
  | .captureRead ch => fits ch 16
  | .tagSubmit _ => true
  | .tagHeldRelease => true
  | .tagArrival unit => fits unit 256
  | .commitTag unit => fits unit 256
  | .route => true
  | .ramp unit => fits unit 256
  | .migrationCopyStart => true
  | .migrate => true
  | .swap => true
  | .cueTag => true
  | .snapTag => true
  | .markTag unit => fits unit 256
  | .epochTag unit => fits unit 256
  | .portStart _ => true
  | .portStop _ => true
  | .streamStart => true
  | .streamStop => true
  | .linkStreamStart => true
  | .linkStreamStop => true
  | .runStart => true
  | .runStop => true
  | .ringStart => true
  | .ringStop => true
  | .pipelineBlock unit _ => fits unit 256
  | .tickBoundary unit => fits unit 256
  | .blockRelease _ => true
  | .deadlineMiss kind number => fits kind 4 && fits number 512
  | .timeStepDecide => true
  | .timeStep => true
  | .asrcLock ch rate => fits ch 2048 && fits rate 400000
  | .asrcSettled ch => fits ch 2048
  | .asrcRangeRetry ch rate => fits ch 2048 && fits rate 400000
  | .wallflowerEnter _ number => fits number 2048
  | .oscDatagram queue => fits queue 512
  | .oscScheduledEntry => true
  | .nativePayload queue => fits queue 512
  | .ingestSubmit _ slot _ => fits slot 1024
  | .motTick => true
  | .objectLost obj => fits obj 1024
  | .dsxSubmit _ => true
  | .descriptorAccept source => fits source 5
  | .jobDispatch _ engine => fits engine 32
  | .jobComplete engine => fits engine 17
  | .resultWrite obj => fits obj 1024
  | .solverCutoff => true
  | .slvRefresh _ => true
  | .geometryRetire unit cause => fits unit 17 && fits cause 5
  | .laneWake lane => fits lane 36
  | .sitoutStart => true
  | .sitoutSelftestEnd lane _ => fits lane 36
  | .laneRetire lane cause => fits lane 36 && fits cause 5
  | .swapPrepare => true
  | .swapLoad => true
  | .crossfadeEnd => true
  | .transitionEnd => true
  | .chargeReturn => true
  | .sliceRetire slice cause => fits slice 9 && fits cause 5
  | .runBegin => true
  | .captureEnd number => fits number 16
  | .runDone => true
  | .liveFrame => true
  | .delaySearch => true
  | .livePublish => true
  | .referenceEdge cand _ _ _ => fits cand 8
  | .candidateLoss cand => fits cand 8
  | .qualificationComplete cand => fits cand 8
  | .lockAchieved => true
  | .holdMaxExpiry => true
  | .clkCtrlWrite _ => true
  | .candidateWrite cand word _ => fits cand 8 && fits word 4
  | .dpllRetire cause => fits cause 5
  | .syncReceive header _ _ _ _ _ => fits header (2 ^ 16)
  | .announceReceive domain _ _ _ _ _ _ _ _ _ _ => fits domain 256
  | .announceTimeout => true
  | .ptpPortReturn => true
  | .ppsSecWrite _ _ => true
  | .triggerArm trigger _ => fits trigger 32
  | .triggerFire trigger => fits trigger 32
  | .captureEdge source _ quarter => fits source 32 && fits quarter 83334
  | .frameReceive port _ _ _ quarter => fits port 8 && fits quarter 83334
  | .linkStateChange port _ rate => fits port 8 && fits rate 8
  | .frameTransmit port _ => fits port 8
  | .queueRead queue => fits queue 512
  | .queueMark queue => fits queue 512
  | .queueRewind queue => fits queue 512
  | .queueRelease queue => fits queue 512
  | .queueFlush queue => fits queue 512
  | .txsGo _ => true
  | .queueEnChange queue _ => fits queue 512
  | .rtpPacket queue => fits queue 512
  | .aafPacket queue => fits queue 512
  | .streamRangeRetry stream => fits stream 256
  | .claimLapse _ stream => fits stream 256
  | .holdRamp _ stream => fits stream 256
  | .arpRequest queue => fits queue 512
  | .igmpQuery queue => fits queue 512
  | .linkUp link rxRet txRet => fits link 8 && rxRet.all (fun k => decide (k < 5)) && txRet.all (fun k => decide (k < 5))
  | .linkDown link _ => fits link 8
  | .linkFrameReceive link _ _ quarter => fits link 8 && fits quarter 83334
  | .audioFrame queue => fits queue 512
  | .heartbeatReceive link => fits link 8
  | .healthReceive queue => fits queue 512
  | .snapshotSegment queue => fits queue 512
  | .timeFrame link _ _ => fits link 8
  | .clockFrame link => fits link 8
  | .timeFrameSend link => fits link 8
  | .clockFrameSend link => fits link 8
  | .linkFrameTransmit link => fits link 8
  | .shed link => fits link 8
  | .restore link => fits link 8
  | .widthAck link => fits link 8
  | .shedTimeout link => fits link 8
  | .spareMove link lane margin => fits link 8 && fits lane 5 && fits margin (2 ^ 10)
  | .portSlip _ port _ => fits port 48
  | .portOutOfRange _ port rate _ => fits port 48 && fits rate 400000
  | .portRangeReturn _ port _ => fits port 48
  | .portClockLoss _ port => fits port 48
  | .portGlitch _ port => fits port 48
  | .portRateChange _ port rate => fits port 48 && fits rate 400000
  | .portClockReturn _ port rate => fits port 48 && fits rate 400000
  | .portEnClear _ port => fits port 48
  | .portDataBegin _ port => fits port 48
  | .aesCsBlock port _ bytes => fits port 8 && bytes.length == 24
  | .mclkChange => true
  | .suppliesValid img pins => fits img 3 && fits pins 16
  | .resetAssert => true
  | .resetRelease img rank => fits img 3 && fits rank 4
  | .bistComplete _ => true
  | .startWindowClose => true
  | .sectionLoad => true
  | .loadComplete => true
  | .add core => fits core 16
  | .sub core => fits core 16
  | .adds core => fits core 16
  | .subs core => fits core 16
  | .and core => fits core 16
  | .or core => fits core 16
  | .xor core => fits core 16
  | .shl core => fits core 16
  | .shr core => fits core 16
  | .asr core => fits core 16
  | .min core => fits core 16
  | .max core => fits core 16
  | .abs core => fits core 16
  | .neg core => fits core 16
  | .mul core => fits core 16
  | .cmp core => fits core 16
  | .mov core => fits core 16
  | .cls core => fits core 16
  | .addi core => fits core 16
  | .andi core => fits core 16
  | .ori core => fits core 16
  | .xori core => fits core 16
  | .shli core => fits core 16
  | .shri core => fits core 16
  | .asri core => fits core 16
  | .cmpi core => fits core 16
  | .movi core => fits core 16
  | .movhi core => fits core 16
  | .ld core => fits core 16
  | .ldh core => fits core 16
  | .ldb core => fits core 16
  | .ld24 core => fits core 16
  | .st core => fits core 16
  | .sth core => fits core 16
  | .stb core => fits core 16
  | .st24 core => fits core 16
  | .mac core => fits core 16
  | .msu core => fits core 16
  | .mpy core => fits core 16
  | .dmac core => fits core 16
  | .nop core => fits core 16
  | .movr core => fits core 16
  | .setr core => fits core 16
  | .rnd core => fits core 16
  | .clr core => fits core 16
  | .ldacc core => fits core 16
  | .addacc core => fits core 16
  | .drain core => fits core 16
  | .signal core => fits core 16
  | .halt core => fits core 16
  | .blkend core => fits core 16
  | .wait core => fits core 16
  | .ei core => fits core 16
  | .di core => fits core 16
  | .evt core => fits core 16
  | .br core => fits core 16
  | .call core => fits core 16
  | .ret core => fits core 16
  | .rti core => fits core 16
  | .jmp core => fits core 16
  | .rep core => fits core 16
  | .loop core => fits core 16
  | .illegalInstruction core => fits core 16
  | .interruptTake core source => fits core 16 && fits source 2
  | .timerExpiry core => fits core 16
  | .doorbell _ => true
  | .coreStart core => fits core 16
  | .coreStop core => fits core 16
  | .coreReset core => fits core 16
  | .programLoadDone core => fits core 16
  | .taskStart core => fits core 16
  | .streamRunStart core => fits core 16
  | .runOverrun core => fits core 16
  | .taskWatchdog core => fits core 16
  | .coreRetire core cause => fits core 17 && fits cause 5
  | .bankPowerOn bank => fits bank 15
  | .scratchPwrWrite _ => true
  | .sramScrubPass _ => true
  | .panicEnter port amount => fits port 3 && fits amount 101
  | .panicExit port amount => fits port 3 && fits amount 101
  | .dramRefresh channel bank => fits channel 4 && fits bank 256
  | .driftTrack channel => fits channel 4
  | .selfRefreshEnter _ => true
  | .selfRefreshExit => true
  | .rowHammer _ requester number channel bank => fits requester 13 && fits number 256 && fits channel 4 && fits bank (2 ^ 32)
  | .patrolScrubPass _ _ => true
  | .tamper _ => true
  | .lcArm _ => true
  | .lcExecute _ => true
  | .lcArmExpiry => true
  | .lcFuseDone => true
  | .dmaGo engineB channel _ => fits channel 16 && decide (channel < if engineB then 4 else 16)
  | .dmaStop engineB channel => fits channel 16 && decide (channel < if engineB then 4 else 16)
  | .dmaReqAdd line _ => fits line 32
  | .channelTake _ => true
  | .descriptorFetch _ => true
  | .dmaBurst _ => true
  | .descriptorComplete _ => true
  | .heartbeatSend => true
  | .heartbeatLoss => true
  | .healthSend => true
  | .yieldEdge _ => true
  | .election => true
  | .restoreComplete => true
  | .renderBegin => true
  | .snapshotTake => true
  | .abdicationRestart => true
  | .handover => true
  | .marginStepDown island slack => fits island 160 && fits slack (2 ^ 16)
  | .marginStepUp island slack => fits island 160 && fits slack (2 ^ 16)
  | .islandRetire island slack => fits island 160 && fits slack (2 ^ 16)
  | .retireWrite _ => true
  | .followSelftest => true
  | .unitRestart unit _ => fits unit 4
  | .supplyOutOfRange monitor _ _ => fits monitor 12
  | .supplyLoss _ => true
  | .overTemperature _ _ => true
  | .cooldownStart _ => true
  | .bypass _ _ => true
  | .idcode _ _ => true
  | .samplePreload _ _ => true
  | .extest _ _ => true
  | .syncTimeout => true
  | .timeFrameTimeout link => fits link 8
  | .ptpMessageSend kind => fits kind 3
  | .delayMessageReceive kind domain _ _ _ _ _ _ => fits kind 4 && fits domain 256
  | .shaperCreditZero port => fits port 8
  | .controlBlockReceive link code arg => fits link 8 && fits code 256 && fits arg 256
  | .laneLockLoss link lane _ => fits link 8 && fits lane 10
  | .spareCoreCopyEnd => true
  | .followSelftestEnd _ core => fits core 17

end Sys2Proof
end

