-- ==== Sys2Proof/Safety.lean ====
section
/-! DEFINITION. The terms in which claims are stated: the state a step starts from, what a step leaves, and the
invariants of the model. -/

namespace Sys2Proof.Machine

open Sys2Proof

/-- The state as a step's own function finds it: nothing stored and nothing put out yet. -/
def work (s : State) : State := { s with post := [], out := [] }

/-- The outcome of a step whose own function has left `t`: what it stored goes to memory, the queue and the fuses are
as they were. -/
def leaves (s t : State) : Host.Outcome State Fault Refusal := .next (settle s t)

/-- What holds between steps: memory is in canonical form, and nothing stored waits to go there. -/
def Sound (s : State) : Prop := Memory.wf s.mem = true ∧ s.post = []

/-- The device runs, and a unit is there (R3, R4). -/
def up (s : State) (u : Nat) : Prop := running s = true ∧ unitPresent s u = true

/-- A word is in memory that is on, not uncorrectable, and no running core's code, play data, descriptor of a running
chain or part of a filter set in use. -/
def plainMemory (s : State) (a : Nat) : Prop :=
  readStatus s a = 0 ∧ fabPlace s a = .mem ∧ watched s a 4 = false ∧ ueIn s a 4 = []

/-- The first due tag of a unit once it has begun its block (R58). -/
def dueFirst (s : State) (u : Nat) : Option PendTag := (dueTags (openBlock u s) u).find? (fun p => !sysOwn p)

/-- The words of a burst, read one after another from the scratchpad. -/
def burstValues (s : State) (a n : Nat) : List Word := (List.range n).map (fun k => wordOf (rd32 s (a + 4 * k)))

/-- An output of the correction engine with its newest `n` filters. -/
def corKeep (x : CorOut) (n : Nat) : CorOut := { x with filts := x.filts.take n }

/-- A core runs and the word at its PC spells an instruction that may stand there (R468, R477, R478). -/
def druReady (s : State) (n : Nat) (m : DruMn) : Prop :=
  coreRuns s n = true ∧ druDecode (fetchWord s n) = some m ∧ outsideContract (coreOf s n) m = false

/-- A core with register `d` and its flags written, gone on to its next instruction. -/
def druResult (n d : Nat) (q : Word × FlagSet) (s : State) : State :=
  coreDone n (modCore n (fun c => setFlags q.2 (writeReg d q.1 c)) s)

/-- Rows that do nothing before the device runs (R423): the units take up their work as it starts. -/
def restsUntilRunning : Instr → Bool
  | .tagArrival _ => true
  | .commitTag _ => true
  | .route => true
  | .ramp _ => true
  | .migrationCopyStart => true
  | .migrate => true
  | .swap => true
  | .markTag _ => true
  | .epochTag _ => true
  | .portStart _ => true
  | .portStop _ => true
  | .streamStart => true
  | .streamStop => true
  | .linkStreamStart => true
  | .linkStreamStop => true
  | .runStart => true
  | .runStop => true
  | .ringStart => true
  | .ringStop => true
  | .pipelineBlock _ _ => true
  | .tickBoundary _ => true
  | .blockRelease _ => true
  | .deadlineMiss _ _ => true
  | .timeStepDecide => true
  | .asrcLock _ _ => true
  | .asrcSettled _ => true
  | .asrcRangeRetry _ _ => true
  | .oscDatagram _ => true
  | .oscScheduledEntry => true
  | .nativePayload _ => true
  | .ingestSubmit _ _ _ => true
  | .motTick => true
  | .objectLost _ => true
  | .dsxSubmit _ => true
  | .descriptorAccept _ => true
  | .jobDispatch _ _ => true
  | .jobComplete _ => true
  | .resultWrite _ => true
  | .solverCutoff => true
  | .slvRefresh _ => true
  | .geometryRetire _ _ => true
  | .laneWake _ => true
  | .sitoutStart => true
  | .sitoutSelftestEnd _ _ => true
  | .laneRetire _ _ => true
  | .swapPrepare => true
  | .swapLoad => true
  | .crossfadeEnd => true
  | .transitionEnd => true
  | .chargeReturn => true
  | .sliceRetire _ _ => true
  | .runBegin => true
  | .captureEnd _ => true
  | .runDone => true
  | .liveFrame => true
  | .delaySearch => true
  | .livePublish => true
  | .referenceEdge _ _ _ _ => true
  | .candidateLoss _ => true
  | .qualificationComplete _ => true
  | .lockAchieved => true
  | .holdMaxExpiry => true
  | .clkCtrlWrite _ => true
  | .candidateWrite _ _ _ => true
  | .dpllRetire _ => true
  | .syncReceive _ _ _ _ _ _ => true
  | .announceReceive _ _ _ _ _ _ _ _ _ _ _ => true
  | .announceTimeout => true
  | .ptpPortReturn => true
  | .ppsSecWrite _ _ => true
  | .triggerArm _ _ => true
  | .triggerFire _ => true
  | .captureEdge _ _ _ => true
  | .frameReceive _ _ _ _ _ => true
  | .linkStateChange _ _ _ => true
  | .frameTransmit _ _ => true
  | .queueRead _ => true
  | .queueMark _ => true
  | .queueRewind _ => true
  | .queueRelease _ => true
  | .queueFlush _ => true
  | .txsGo _ => true
  | .rtpPacket _ => true
  | .aafPacket _ => true
  | .streamRangeRetry _ => true
  | .claimLapse _ _ => true
  | .holdRamp _ _ => true
  | .arpRequest _ => true
  | .igmpQuery _ => true
  | .linkUp _ _ _ => true
  | .linkDown _ _ => true
  | .linkFrameReceive _ _ _ _ => true
  | .audioFrame _ => true
  | .heartbeatReceive _ => true
  | .healthReceive _ => true
  | .timeFrame _ _ _ => true
  | .clockFrame _ => true
  | .timeFrameSend _ => true
  | .clockFrameSend _ => true
  | .linkFrameTransmit _ => true
  | .shed _ => true
  | .restore _ => true
  | .widthAck _ => true
  | .shedTimeout _ => true
  | .spareMove _ _ _ => true
  | .portSlip _ _ _ => true
  | .portOutOfRange _ _ _ _ => true
  | .portRangeReturn _ _ _ => true
  | .portClockLoss _ _ => true
  | .portGlitch _ _ => true
  | .portRateChange _ _ _ => true
  | .portClockReturn _ _ _ => true
  | .portDataBegin _ _ => true
  | .aesCsBlock _ _ _ => true
  | .mclkChange => true
  | .interruptTake _ _ => true
  | .timerExpiry _ => true
  | .doorbell _ => true
  | .coreStart _ => true
  | .coreStop _ => true
  | .coreReset _ => true
  | .programLoadDone _ => true
  | .taskStart _ => true
  | .streamRunStart _ => true
  | .runOverrun _ => true
  | .taskWatchdog _ => true
  | .coreRetire _ _ => true
  | .sramScrubPass _ => true
  | .panicEnter _ _ => true
  | .panicExit _ _ => true
  | .rowHammer _ _ _ _ _ => true
  | .patrolScrubPass _ _ => true
  | .dmaGo _ _ _ => true
  | .dmaStop _ _ => true
  | .dmaReqAdd _ _ => true
  | .channelTake _ => true
  | .descriptorFetch _ => true
  | .heartbeatSend => true
  | .heartbeatLoss => true
  | .healthSend => true
  | .yieldEdge _ => true
  | .election => true
  | .renderBegin => true
  | .snapshotTake => true
  | .abdicationRestart => true
  | .handover => true
  | .marginStepDown _ _ => true
  | .marginStepUp _ _ => true
  | .islandRetire _ _ => true
  | .retireWrite _ => true
  | .followSelftest => true
  | .syncTimeout => true
  | .timeFrameTimeout _ => true
  | .ptpMessageSend _ => true
  | .delayMessageReceive _ _ _ _ _ _ _ _ => true
  | .shaperCreditZero _ => true
  | .controlBlockReceive _ _ _ => true
  | .laneLockLoss _ _ _ => true
  | .spareCoreCopyEnd => true
  | .followSelftestEnd _ _ => true
  | _ => false

end Sys2Proof.Machine
end

