-- ==== Sys2Proof/Certificates/Slice0/Obligations.lean ====
section
/-! DEFINITION. The statements about the model. Each says what a command, a step or the whole machine does; each
docstring names the rules it rests on. -/

open Sys2Proof Sys2Proof.Machine

/-- A step with a command at the front of the queue is that command's effect on the state with the queue's rest. -/
def Obligations.StepTakesFrontCommand : Prop :=
  ∀ (s : State) (c : Instr) (rest : List Instr), s.pending = c :: rest → step s = exec c { s with pending := rest }

/-- A step on an empty queue is one sample of the media clock, and nothing else moves time (R42, R43; that the clock
advances in place of a command is the model's choice, assumption log). Where the spec leaves a point open it rests
on log entry 2. -/
def Obligations.IdleStepIsOneSample : Prop :=
  ∀ (s w : State), w = work s → s.pending = [] →
    ∃ t, step s = .next t ∧ t = settle s (mediaSample w) ∧ t.pending = [] ∧
      (w.start.supplies = false → t.time = s.time) ∧
      (w.start.supplies = true → running w = false →
        t.time = { s.time with mono := s.time.mono + subPerSec / rateHz w }) ∧
      (w.start.supplies = true → running w = true →
        t.time.idx = s.time.idx + 1 ∧ t.time.mono = s.time.mono + subPerSec / rateHz w ∧
        t.time.sec * subPerSec + t.time.sub = s.time.sec * subPerSec + s.time.sub + subPerSec / rateHz w ∧
        t.time.sub < subPerSec)

/-- No command changes the queue, and none but the end of a life-cycle transition changes a fuse (R515, R516). -/
def Obligations.CommandsKeepQueueAndFuses : Prop :=
  ∀ (c : Instr) (s t : State), exec c s = .next t →
    t.pending = s.pending ∧ (c ≠ .lcFuseDone → t.fuse = s.fuse)

/-- Every step, of any command or of an empty queue, keeps memory in its canonical form with nothing waiting to be
stored. Where the spec leaves a point open it rests on log entries 8, 9. -/
def Obligations.SoundIsKept : Prop :=
  ∀ s t : State, Sound s → step s = .next t → Sound t

/-- The state after reset is sound, has no supplies and no waiting command, and a word spells no command, since the
table gives no row bits. Where the spec leaves a point open it rests on log entries 10, 12. -/
def Obligations.ResetIsSound : Prop :=
  Sound State.reset ∧ State.reset.pending = [] ∧ State.reset.start.supplies = false ∧ running State.reset = false ∧
    State.reset.time.idx = 0 ∧ (∀ a : Nat, regW State.reset a = resetWord State.reset a ∧ actW State.reset a = resetWord State.reset a) ∧
    (∀ a : Nat, memRead State.reset.mem a = unlisted a) ∧
    (∀ nbits v : Nat, decodeTableWord nbits v = none ∧ State.reset.withFetchWord nbits v = State.reset)

/-- The rows of units that take up their work only as the device starts do nothing before (R411, R423; that such a row
leaves the state as it is rather than stopping is the model's reading, assumption log). Where the spec leaves a
point open it rests on log entry 1. -/
def Obligations.RowsRestUntilRunning : Prop :=
  ∀ (c : Instr) (s w : State), w = work s → restsUntilRunning c = true → running w = false → exec c s = leaves s w

/-- An event that is not enabled leaves no trace; an enabled one that finds room is written record by record, EVT_WR
moving past all of them; one that finds no room is dropped whole and counted (R452). -/
def Obligations.EventsAreRecorded : Prop :=
  ∀ (s : State) (code wr n : Nat) (data : List Byte) (recs : List (List Byte)),
    recs = eventRecords s code data → n = recs.length → wr = rd32 s (ctlBlock + 0x10) →
    (bit (regW s (Reg.SYS_EVT_EN.at (code / 32))) (code % 32) = false → raise code data s = s) ∧
    (bit (regW s (Reg.SYS_EVT_EN.at (code / 32))) (code % 32) = true →
      (wrapSub wr (rd32 s (ctlBlock + 0x14)) + n ≤ 2048 →
        rd32 (raise code data s) (ctlBlock + 0x10) = (wr + n) % 2 ^ 32 ∧
        (∀ k : Nat, k < n → readBytes (raise code data s) (evtRing + (wr + k) % 2048 * 16) 16 = nth [] recs k) ∧
        (raise code data s).words = s.words) ∧
      (2048 < wrapSub wr (rd32 s (ctlBlock + 0x14)) + n → raise code data s = dropEvent s)) ∧
    n = max 1 ((data.length + 5) / 6) ∧
    (∀ k : Nat, k < n → (nth [] recs k).length = 16 ∧ nth 0 (nth [] recs k) 0 = BitVec.ofNat 8 code ∧
      (nth 0 (nth [] recs k) 1).getLsbD 0 = decide (k ≠ 0))

/-- A word that the device sets is that word alone; a sticky bit changes no other bit, and a counter stops at its
all-ones value (R22, R23); only the render rate and the accepted set reach another word, the reset value of
HOME_LANE (R194). -/
def Obligations.DeviceWordsChangeAlone : Prop :=
  ∀ (s : State) (a b hi lo n i : Nat) (v : Word), lo ≤ hi → hi < 32 → i < 32 →
    regW (setW a v s) a = v ∧ actW (setW a v s) a = v ∧
    (a ≠ b → a ≠ Reg.SYS_RENDER_RATE.base → a ≠ Reg.FEA_ACCEPT_LO.base →
      regW (setW a v s) b = regW s b ∧ actW (setW a v s) b = actW s b ∧ regW (stick a i s) b = regW s b ∧
      regW (countF a hi lo n s) b = regW s b) ∧
    bit (regW (stick a i s) a) i = true ∧
    (∀ j : Nat, j ≠ i → bit (regW (stick a i s) a) j = bit (regW s a) j) ∧
    fld (regW (countF a hi lo n s) a) hi lo = min (fld (regW s a) hi lo + n) (2 ^ (hi + 1 - lo) - 1) ∧
    (∀ j : Nat, j < lo ∨ hi < j → bit (regW (countF a hi lo n s) a) j = bit (regW s a) j)

/-- A byte written reads back, every other byte reads as before, the canonical form is kept, and two memories in that
form that read alike are one. Where the spec leaves a point open it rests on log entries 8, 9. -/
def Obligations.MemoryIsByteAddressed : Prop :=
  ∀ (m m' : List Host.Cell) (a : Nat) (v : Byte), Memory.wf m = true →
    Memory.wf (memWrite m a v) = true ∧ memRead (memWrite m a v) a = some v ∧
    (∀ b : Nat, b ≠ a → memRead (memWrite m a v) b = memRead m b) ∧
    (Memory.wf m' = true → (∀ b : Nat, memRead m b = memRead m' b) → m = m')

/-- READ leaves every byte of memory as it was; WRITE and MODIFY of a word store its four bytes, and every byte outside
them and outside their place in a spare core's copy (R495) reads as before (R442); a host write of an upper halfword
stores its two bytes alone (R435). -/
def Obligations.StoresAreLocal : Prop :=
  ∀ (s w : State) (src tag a : Nat) (noresp : Bool) (v : Word), w = work s → Sound s → src ≤ 16 → a % 4 = 0 → plainMemory w a →
    (cmdReady w src (fun r => recIs 1 tag noresp r && r.addr == a) = true →
      ∃ t, exec (.read src tag a noresp) s = .next t ∧ t.mem = s.mem) ∧
    (cmdReady w src (fun r => recIs 2 tag noresp r && r.addr == a && r.data == v.toNat) = true →
      ∃ t, exec (.write src tag a noresp v) s = .next t ∧
        (∀ k : Nat, k < 4 → memRead t.mem (a + k) = some (byteOf v.toNat k)) ∧
        (∀ b : Nat, b < a ∨ a + 4 ≤ b → (∀ c : Nat, copyOf w a 4 = some c → b < c ∨ c + 4 ≤ b) → memRead t.mem b = memRead s.mem b)) ∧
    (∀ lsb width : Nat, cmdReady w src (fun r => recIs 3 tag noresp r && r.addr == a && r.count % 32 == lsb &&
        r.count / 256 % 32 + 1 == width && r.data == v.toNat) = true →
      ∃ t, exec (.modify src tag a noresp lsb width v) s = .next t ∧
        (∀ b : Nat, b < a ∨ a + 4 ≤ b → (∀ c : Nat, copyOf w a 4 = some c → b < c ∨ c + 4 ≤ b) → memRead t.mem b = memRead s.mem b)) ∧
    (∀ half d : Nat, half < 2 ^ 16 → half % 2 = 1 → (w.start.stage = 2 → half < 16 ∨ 22 ≤ half) → powered w = true → w.sys.wrLatch = none → chainDescs w = [] →
      ueIn w (2 * half) 1 = [] → ueIn w (2 * half + 1) 1 = [] →
      ∃ t, exec (.hostWrite half true true d 0) s = .next t ∧
        memRead t.mem (2 * half) = some (byteOf d 0) ∧ memRead t.mem (2 * half + 1) = some (byteOf d 1) ∧
        (∀ b : Nat, b < 2 * half ∨ 2 * half + 2 ≤ b → memRead t.mem b = memRead s.mem b))

/-- READ, WRITE and MODIFY of a word of sound memory. -/
def Obligations.WordCommandsAnswer : Prop :=
  -- READ of a word in memory that is on and sound answers OK with the word (R441, R442, R443). Where the spec
  -- leaves a point open it rests on log entry 14.
  (∀ (s w : State) (src tag a : Nat) (noresp : Bool), w = work s →
      cmdReady w src (fun r => recIs 1 tag noresp r && r.addr == a) = true → a % 4 = 0 → plainMemory w a →
      exec (.read src tag a noresp) s = leaves s (finishOne src 1 tag noresp 0 (rd32 w a) (dramWake a w))) ∧
  -- WRITE and MODIFY of a word in memory that is on and sound store four bytes and answer OK; MODIFY answers the
  -- word before the change and changes the bits of its mask only (R442).
  (∀ (s w : State) (src tag a : Nat) (noresp : Bool) (v : Word), w = work s → a % 4 = 0 → plainMemory w a →
      (cmdReady w src (fun r => recIs 2 tag noresp r && r.addr == a && r.data == v.toNat) = true →
        exec (.write src tag a noresp v) s =
          leaves s (finishOne src 2 tag noresp 0 0 (writeMem (dramWake a w) a (bytesOf 4 v.toNat)))) ∧
      (∀ lsb width : Nat,
        cmdReady w src (fun r => recIs 3 tag noresp r && r.addr == a && r.count % 32 == lsb &&
          r.count / 256 % 32 + 1 == width && r.data == v.toNat) = true →
        exec (.modify src tag a noresp lsb width v) s =
          leaves s (finishOne src 3 tag noresp 0 (rd32 w a) (writeMem (dramWake a w) a
            (bytesOf 4 (mergeMask (wordOf ((2 ^ width - 1) * 2 ^ lsb)) (wordOf (rd32 w a)) (v <<< lsb)).toNat)))))

/-- BURST_READ and BURST_WRITE, by frame and by the host's buffer. -/
def Obligations.BurstsMoveWords : Prop :=
  -- BURST_READ and BURST_WRITE of a frame's source over scratchpad words that are on and sound move every word
  -- in ascending address, and DONE counts them (R442, R444). Where the spec leaves a point open it rests on log
  -- entry 14.
  (∀ (s w : State) (src tag a n buf : Nat) (noresp : Bool), w = work s → 1 ≤ src → burstFault src a n buf = none → a + 4 * n ≤ secBase →
      (∀ k : Nat, k < n → plainMemory w (a + 4 * k)) →
      (cmdReady w src (fun r => recIs 4 tag noresp r && r.addr == a && r.count == n && (src != 0 || r.data == buf)) = true →
        exec (.burstRead src tag a noresp n buf) s =
          leaves s (finish src noresp ⟨4, 0, tag, n, 0, burstValues w a n⟩ w)) ∧
      (∀ ws : List Word, ws.length = n → unguarded w = true →
        cmdReady w src (fun r => recIs 5 tag noresp r && r.addr == a && r.count == n &&
          (if src = 0 then r.data == buf else r.words == ws)) = true →
        exec (.burstWrite src tag a noresp n buf ws) s =
          leaves s (finish src noresp ⟨5, 0, tag, n, 0, []⟩ (storeBytes w a (ws.flatMap (fun v => bytesOf 4 v.toNat)))))) ∧
  -- Bursts of the host move their words through the buffer (R444).
  (∀ (s w : State) (tag a n buf : Nat) (noresp : Bool), w = work s → burstFault 0 a n buf = none → a + 4 * n ≤ secBase →
      (∀ k : Nat, k < n → plainMemory w (a + 4 * k)) → ueIn w buf (4 * n) = [] →
      (cmdReady w 0 (fun r => recIs 4 tag noresp r && r.addr == a && r.count == n && r.data == buf) = true →
        exec (.burstRead 0 tag a noresp n buf) s =
          leaves s (finish 0 noresp ⟨4, 0, tag, n, 0, []⟩
            (storeBytes w buf ((burstValues w a n).flatMap (fun v => bytesOf 4 v.toNat))))) ∧
      (∀ ws : List Word, unguarded w = true →
        cmdReady w 0 (fun r => recIs 5 tag noresp r && r.addr == a && r.count == n && r.data == buf) = true →
        exec (.burstWrite 0 tag a noresp n buf ws) s =
          leaves s (finish 0 noresp ⟨5, 0, tag, n, 0, []⟩
            (storeBytes w a ((burstValues w buf n).flatMap (fun v => bytesOf 4 v.toNat))))))

/-- Commands answered ABSENT or AUTHFAIL, and faults outside the contract. -/
def Obligations.CommandsRefusedAndFaults : Prop :=
  -- A command to an absent unit, an unassigned address or DRAM beyond the top is answered ABSENT, and one to the
  -- secure region AUTHFAIL, with nothing read or written; the host may write the secure region in DEVELOP (R4,
  -- R443, R513).
  (∀ (s w : State) (src tag a : Nat) (noresp : Bool) (v : Word) (st : Nat), w = work s → a % 4 = 0 → readStatus w a = st → st ≠ 0 →
      (cmdReady w src (fun r => recIs 1 tag noresp r && r.addr == a) = true →
        exec (.read src tag a noresp) s = leaves s (finishOne src 1 tag noresp st 0 w)) ∧
      (cmdReady w src (fun r => recIs 2 tag noresp r && r.addr == a && r.data == v.toNat) = true →
        dsxWaits w a = false →
        exec (.write src tag a noresp v) s =
          if st = 3 ∧ src = 0 ∧ w.fuse.life = 1 then leaves s (finishOne src 2 tag noresp 0 0 (secHostWrite a v w))
          else leaves s (finishOne src 2 tag noresp st 0 w)) ∧
      (∀ lsb width : Nat, cmdReady w src (fun r => recIs 3 tag noresp r && r.addr == a && r.count % 32 == lsb &&
          r.count / 256 % 32 + 1 == width && r.data == v.toNat) = true → dsxWaits w a = false →
        exec (.modify src tag a noresp lsb width v) s = leaves s (finishOne src 3 tag noresp st 0 w))) ∧
  -- An unaligned address, and a burst whose count, blocks or buffer R442 rules out, end in the fault of that
  -- name (R442, R585).
  (∀ (s w : State) (src tag a n buf : Nat) (noresp : Bool) (f : Fault), w = work s →
      (a % 4 ≠ 0 → cmdReady w src (fun r => recIs 1 tag noresp r && r.addr == a) = true →
        exec (.read src tag a noresp) s = .fault .unalignedAddr) ∧
      (burstFault src a n buf = some f →
        cmdReady w src (fun r => recIs 4 tag noresp r && r.addr == a && r.count == n && (src != 0 || r.data == buf)) = true →
        exec (.burstRead src tag a noresp n buf) s = .fault f) ∧
      (∀ v : Word, a % 4 = 0 → readStatus w a = 0 → fabPlace w a = .mem → writeStop w a (bytesOf 4 v.toNat) = some f →
        cmdReady w src (fun r => recIs 2 tag noresp r && r.addr == a && r.data == v.toNat) = true →
        exec (.write src tag a noresp v) s = .fault f))

/-- COMMIT, CUE, SNAP_SAVE and SNAP_RECALL insert a tag with their TARGET and answer OK; a COMMIT whose UNIT names no
unit that honours it is ABSENT, and one behind a held tag waits (R54, R69, R442, R443). Where the spec leaves a
point open it rests on log entry 15. -/
def Obligations.TagCommandsInsert : Prop :=
  ∀ (s w : State) (src tag target k : Nat) (noresp : Bool), w = work s →
    (cmdReady w src (fun r => recIs 6 tag noresp r && (recTarget r == target && r.data / 2 ^ 24 == k)) = true →
      exec (.commit src tag target k noresp) s =
        if k ≠ 0xFF ∧ (!unitPresent w k ∨ !honoursType k tCOMMIT) then leaves s (finishOne src 6 tag noresp 1 0 w)
        else if w.heldTags ≠ [] then leaves s w
        else leaves s (finishOne src 6 tag noresp 0 0 (injectFrom (some src) (mkTag tCOMMIT k 0xFF 0 target) w))) ∧
    (w.heldTags = [] →
      (cmdReady w src (fun r => recIs 7 tag noresp r && (recTarget r == target && r.count == k)) = true →
        exec (.cue src tag target k noresp) s =
          leaves s (finishOne src 7 tag noresp 0 0 (injectFrom (some src) (mkTag tCUE uSYS 0xFF (k % 2 ^ 16) target) w))) ∧
      (cmdReady w src (fun r => recIs 8 tag noresp r && (recTarget r == target && r.count == k)) = true →
        exec (.snapSave src tag target k noresp) s =
          leaves s (finishOne src 8 tag noresp 0 0 (injectFrom (some src) (mkTag tSNAP uSYS 0xFF (k % 2 ^ 16) target) w))) ∧
      (cmdReady w src (fun r => recIs 9 tag noresp r && (recTarget r == target && r.count == k)) = true →
        exec (.snapRecall src tag target k noresp) s =
          leaves s (finishOne src 9 tag noresp 0 0
            (injectFrom (some src) (mkTag tSNAP uSYS 0xFF (0x10000 + k % 2 ^ 16) target) w))))

/-- FEATURE_REQUEST and RESTART. -/
def Obligations.FeatureRequestAndRestart : Prop :=
  -- FEATURE_REQUEST in the start window puts the request in the identity area and answers the offer; at any
  -- other time it answers what was accepted (R427, R431, R442).
  (∀ (s w : State) (src tag : Nat) (noresp close : Bool) (req : Word), w = work s →
      cmdReady w src (fun r => recIs 10 tag noresp r && r.data == req.toNat && Nat.testBit r.count 0 == close) = true →
      (w.start.stage = 3 →
        exec (.featureRequest src tag noresp req close) s = leaves s (finishOne src 10 tag noresp 0
          (regW w Reg.FEA_OFFER_LO.base).toNat
          (storeBytes (storeBytes w 32 (bytesOf 8 req.toNat)) 40 (bytesOf 4 (if close then 3 else 1))))) ∧
      (w.start.stage ≠ 3 →
        exec (.featureRequest src tag noresp req close) s =
          leaves s (finishOne src 10 tag noresp 0 (regW w Reg.FEA_ACCEPT_LO.base).toNat w))) ∧
  -- RESTART begins a start of the slot it names; a remote source is answered first, and commands sent after it
  -- are discarded (R410, R442, R581). Where the spec leaves a point open it rests on log entries 14, 28, 74.
  (∀ (s w : State) (src tag slot : Nat) (noresp : Bool), w = work s →
      cmdReady w src (fun r => recIs 11 tag noresp r && r.count % 4 == slot) = true →
      (src = 0 → exec (.restart src tag slot noresp) s =
        leaves s (startBegin 2 (if slot = 1 then some 0 else if slot = 2 then some 1 else none) w)) ∧
      (∀ (c : ReplyCtx) (cs : List ReplyCtx) (q : Nat), src ≠ 0 → (sourceOf w src).reply = c :: cs →
        q = (if src ≤ 16 then 512 + c.port else linkRspQueue w (src - 17)) →
        exec (.restart src tag slot noresp) s =
          leaves s (startBegin 2 (if slot = 1 then some 0 else if slot = 2 then some 1 else none)
            (sendLast q (queueSt w q).frames.length (finish src noresp ⟨11, 0, tag, 1, 0, []⟩ (modSource src (fun x => { x with taken := x.taken.zipIdx.map (fun q =>
              if 0 < q.2 ∧ q.2 < c.left then { q.1 with flags := q.1.flags % cmdDiscard + cmdDiscard } else q.1) }) w))))))

/-- Accesses of the host over its pins: the lower halfword of a write is held and the upper one stores both; a read
takes the word once and gives its halves; HIRQ_N is low for each cause of R450 (R435, R437, R450). Where the spec
leaves a point open it rests on log entries 4, 36, 74. -/
def Obligations.HostPinsAccess : Prop :=
  ∀ (s w : State) (k d c : Nat) (lo hi : Bool), w = work s → powered w = true → k < 2 ^ 15 →
    exec (.hostWrite (2 * k) lo hi d c) s = leaves s (modSys (fun x => { x with hbusy := hostWarned c, wrLatch := some (2 * k, d % 2 ^ 16, ((if lo then 1 else 0) + if hi then 2 else 0)) }) w) ∧
    (∀ d0 l0 : Nat, w.sys.wrLatch = some (2 * k, d0, l0) → chainDescs w = [] →
      (w.start.stage = 2 → 2 * k + 1 < 16 ∨ 22 ≤ 2 * k + 1) →
      exec (.hostWrite (2 * k + 1) lo hi d 0) s = leaves s
        (storeLanes (2 * (2 * k + 1)) d ((if lo then 1 else 0) + (if hi then 2 else 0))
          (storeLanes (2 * (2 * k)) d0 l0 (modSys (fun x => { x with hbusy := false, wrLatch := none }) w)))) ∧
    (w.start.stage = 2 → 16 ≤ 2 * k + 1 → 2 * k + 1 < 22 →
      exec (.hostWrite (2 * k + 1) lo hi d 0) s = leaves s (modSys (fun x => { x with hbusy := false, wrLatch := none }) w)) ∧
    (ueIn w (4 * k) 4 = [] →
      exec (.hostRead (2 * k) 0) s = leaves s (modSys (fun x => { x with hbusy := false, hd := rd32 w (4 * k) % 2 ^ 16, rdLatch := some (2 * k + 1, rd32 w (4 * k) / 2 ^ 16) }) w)) ∧
    (∀ v : Nat, w.sys.rdLatch = some (2 * k + 1, v) →
      exec (.hostRead (2 * k + 1) 0) s = leaves s (modSys (fun x => { x with hbusy := false, hd := v, rdLatch := none }) w)) ∧
    (hirqLow w = true ↔ w.start.stage = 3 ∨
      ((rd32 w (ctlBlock + 0x28)).testBit 0 = true ∧ rd32 w (ctlBlock + 0x08) ≠ rd32 w (ctlBlock + 0x0C)) ∨
      ((rd32 w (ctlBlock + 0x28)).testBit 1 = true ∧ rd32 w (ctlBlock + 0x20) ≠ rd32 w (ctlBlock + 0x24)))

/-- Command and response rings, remote frames, event frames. -/
def Obligations.RingsAndRemoteFrames : Prop :=
  -- COMMAND_TAKE appends the record at the read index of the command ring to those taken and steps the index;
  -- RESPONSE_WRITE moves the first record that waits to the response ring (R439, R440, R441).
  (∀ (s w : State), w = work s →
      (∀ (rd : Nat) (ok : Bool) (bs : List Byte) (t : State), cmdsOn w = true → rd = rd32 w (ctlBlock + 0x04) →
        rd32 w (ctlBlock + 0x00) ≠ rd → loadMem 10 0 w (cmdRing + rd % 2048 * 16) 16 = (ok, bs, t) →
        exec .commandTake s = leaves s (storeBytes
          (modSource 0 (fun x => { x with taken := x.taken ++ [cmdRec bs] }) t) (ctlBlock + 0x04) (bytesOf 4 ((rd + 1) % 2 ^ 32)))) ∧
      (∀ a n : Nat, ueIn w a n = [] → loadMem 10 0 w a n = (true, readBytes w a n, w)) ∧
      (rd32 w (ctlBlock + 0x00) = rd32 w (ctlBlock + 0x04) → exec .commandTake s = leaves s w) ∧
      (∀ (r : RspRec) (rs : List RspRec), (sourceOf w 0).rsps = r :: rs → ringFull w = false →
        exec .responseWrite s = leaves s (storeBytes
          (modSource 0 (fun x => { x with rsps := rs })
            (storeBytes w (rspRing + rd32 w (ctlBlock + 0x08) % 2048 * 16) ((rspRecords w r).headD [])))
          (ctlBlock + 0x08) (bytesOf 4 ((rd32 w (ctlBlock + 0x08) + 1) % 2 ^ 32))))) ∧
  -- A remote frame, or a COMMAND frame of a link, gives its commands to its source; EVENT_FRAME_SEND sends the
  -- events that wait to be forwarded (R377, R445, R446, R447, R448, R449). Where the spec leaves a point open it
  -- rests on log entries 28, 36.
  (∀ (s w : State) (q : Nat), w = work s →
      (∀ (pre bs : List Byte) (t : State) (u : Udp), linkHead 6 q w = none → cmdsOn w = true → accepted w 10 = true →
        bit (actW w Reg.SYS_CTRL.base) 0 = true → consume 5 q w = some (pre, bs, t) → udpOf bs = some u →
        u.dport = fld (actW w Reg.SYS_CTRL.base) 31 16 →
        exec (.remoteCommandFrame q) s = leaves s (remotePayloadIn (getLE pre 2 1) u.src u.sport u.payload t)) ∧
      (∀ (n c : Nat) (bs : List Byte) (t : State), cmdsOn w = true → takeLink 6 q w = some (n, bs, c, t) →
        getLE (lfPayload bs) 1 1 = 0 → 1 ≤ getLE (lfPayload bs) 0 1 →
        16 + 16 * getLE (lfPayload bs) 0 1 ≤ (lfPayload bs).length →
        exec (.remoteCommandFrame q) s = leaves s (takeFrame (17 + n) false 0 0 0
          (parseRecs (getLE (lfPayload bs) 0 1) (records (getLE (lfPayload bs) 0 1) ((lfPayload bs).drop 16))) t)) ∧
      (∀ cfg : Word, cfg = actW w Reg.SYS_EVT_FWD_CFG.base → running w = true → w.sys.fwd ≠ [] →
        bit (actW w Reg.SYS_CTRL.base) 1 = true → w.sys.fwdTick ≠ some (nowTick w) →
        exec .eventFrameSend s = leaves s (modSys (fun x => { x with fwd := x.fwd.drop 560, fwdTick := some (nowTick w) })
          (remoteSend (fld cfg 10 8) (actW w Reg.SYS_EVT_FWD_IP.base).toNat (fld cfg 31 16) 3 (fld cfg 3 0) 0 0
            (w.sys.fwd.take 560) w))) ∧
      (∀ (port ip udp kind key part last : Nat) (recs : List (List Byte)),
        remoteSend port ip udp kind key part last recs w = modSys (fun x => { x with sentSeq := tabMod 0 key (· + 1) x.sentSeq })
          (sendOwn port (List.replicate 42 0 ++ remotePayload w kind key part last recs)
            (some (.udp port ip udp (remotePayload w kind key part last recs))) w) ∧
        (remotePayload w kind key part last recs).drop ((remotePayload w kind key part last recs).length - 16) =
          (hmacSha256 (keyOf w key) ((remotePayload w kind key part last recs).take
            ((remotePayload w kind key part last recs).length - 16))).take 16 ∧
        tabGet 0 (remoteSend port ip udp kind key part last recs w).sys.sentSeq key = tabGet 0 w.sys.sentSeq key + 1))

/-- Register writes by change class, and reads that latch. -/
def Obligations.RegistersStoreAndLatch : Prop :=
  -- A write of a word without behaviour of its own keeps the bits that are no fields; F bits act at once, L bits
  -- where the unit does not wait for a block, S bits wait for a COMMIT, and an F bit changed while its unit runs
  -- is the fault of that name (R15, R16, R17, R20, R21). Where the spec leaves a point open it rests on log
  -- entries 16, 25, 38.
  (∀ (s w : State) (a i j : Nat) (v : Word) (r : RegSpec), w = work s → a % 4 = 0 → cmdsOn w = true → assigned w a = true →
      liveSpec w a = some (r, i, j) → (fabPlace w a = .block ∨ fabPlace w a = .table) →
      writeWord 3 a v w = plainWrite r i a v w →
      (r.acc = .ro ∨ r.acc = .wo → exec (.registerWrite a v) s = leaves s w) ∧
      (r.acc = .w1c → exec (.registerWrite a v) s = leaves s (setW a (regW w a &&& ~~~ (v &&& fieldsMask r)) w)) ∧
      (r.acc = .rw → regW w a &&& classMask r .frozen = v &&& classMask r .frozen ∨ frozenNow w r i = false →
        exec (.registerWrite a v) s = leaves s { w with words := {
          wr := tabSet a (mergeMask (fieldsMask r) (regW w a) v) w.words.wr
          act := tabSet a (mergeMask (if running w then classMask r .frozen else classMask r .frozen ||| classMask r .live)
            (actW w a) v) w.words.act
          dirtyL := if running w = true ∧ classMask r .live ≠ 0 then setAdd a w.words.dirtyL else w.words.dirtyL
          dirtyS := if classMask r .staged ≠ 0 then setAdd a w.words.dirtyS else w.words.dirtyS } }) ∧
      (r.acc = .rw → regW w a &&& classMask r .frozen ≠ v &&& classMask r .frozen → frozenNow w r i = true →
        exec (.registerWrite a v) s = .fault .frozenField)) ∧
  -- Reading the low word of a wide value latches the rest of it (R72, R221, R308, R311).
  (∀ (s w : State), w = work s → cmdsOn w = true →
      exec .sidxRead s = leaves s (setN Reg.TIM_SIDX_HI.base (sampleIdx w / 2 ^ 32 % 2 ^ 32) w) ∧
      exec .redLastRead s = leaves s (setN Reg.RED_LAST_HI.base (w.red.last / 2 ^ 32) w) ∧
      exec .timeRead s = leaves s (setN Reg.TIM_TIME_SEC_HI.base (w.time.sec / 2 ^ 32 % 2 ^ 32)
        (setN Reg.TIM_TIME_NS.base (timeNs w) (setN Reg.TIM_TIME_FRAC.base (timeFrac w / 0x4000 * 0x4000) w))) ∧
      exec .gmIdRead s = leaves s (setN Reg.TIM_GM_ID_HI.base (w.tim.gmId / 2 ^ 32 % 2 ^ 32) w) ∧
      exec .offsetRead s = leaves s (setN Reg.TIM_OFFSET_HI.base (lowBits 64 (sourceOffset w) / 2 ^ 32) w) ∧
      (∀ (c : Nat) (e : List Word) (q : List (List Word)) (h : Option Nat), c < 16 →
        tabGet ⟨[], none⟩ w.tim.caps c = (⟨q, h⟩ : CapSt) → e = q.headD [0, 0, 0, 0] →
        exec (.captureRead c) s = leaves s (setW (Reg.TIM_CAPQ1.at c) (e.getD 1 0) (setW (Reg.TIM_CAPQ2.at c) (e.getD 2 0)
          (setW (Reg.TIM_CAPQ3.at c) (e.getD 3 0)
            (modTim (fun m => { m with caps := tabSet c ⟨q.tail, h⟩ m.caps }) w))))))

/-- Tags are inserted, held, released and arrive. -/
def Obligations.TagsEnterTheStream : Prop :=
  -- A record written to the SYS tag registers is inserted where nothing is held and R53 does not reject it; else
  -- it is counted and dropped. A held tag goes on its way once its unit has room (R53, R54, R72). Where the spec
  -- leaves a point open it rests on log entries 15, 69.
  (∀ (s w : State) (w3 : Word), w = work s →
      (cmdsOn w = true →
        (∀ (g : TagRec) (x : State), x = setW Reg.SYS_TAG_W3.base w3 w → g = tagOfWords (regW w Reg.SYS_TAG_W0.base)
            (regW w Reg.SYS_TAG_W1.base) (regW w Reg.SYS_TAG_W2.base) w3 →
          (w.heldTags = [] → tagBad x g = false → exec (.tagSubmit w3) s = leaves s (injectFrom none g x)) ∧
          (w.heldTags ≠ [] ∨ tagBad x g = true →
            exec (.tagSubmit w3) s = leaves s (count Reg.SYS_TAG_DROP_CNT.base x)))) ∧
      (∀ (src : Option Nat) (g : TagRec) (u : Nat),
        (tagBlocked w u g = true → injectTo src g w u = { w with heldTags := w.heldTags ++ [⟨u, g, src⟩] }) ∧
        (tagBlocked w u g = false →
          injectTo src g w u = modUnit u (fun x => { x with transit := x.transit ++ [g] }) w)) ∧
      (∀ (h : HeldTag) (t : List HeldTag), heldFirst w [] w.heldTags = some (h, t) →
        exec .tagHeldRelease s =
          leaves s (modUnit h.unit (fun x => { x with transit := x.transit ++ [h.tag] }) { w with heldTags := t }))) ∧
  -- A tag at the head of a unit's stream is judged against the block the unit begins next and joins its queue;
  -- the START of a measurement run does so by its own row (R55, R56, R57, R261). Where the spec leaves a point
  -- open it rests on log entries 16, 24.
  (∀ (s w t : State) (u : Nat) (g : TagRec), w = work s → running w = true →
      takeTransit u (sysClock 1 u w) = some (g, t) →
      exec (.tagArrival u) s = leaves s (pastBegun u (takeTag u g) t) ∧
      (u = uMEA → g.typ = tSTART → exec .runStart s = leaves s (pastBegun uMEA (takeTag uMEA g) t)) ∧
      (g.typ = tMARK ∨ g.typ = tEPOCH ∧ bit g.payload 1 = false ∨ g.typ = tCUE ∨ g.typ = tSTOP →
        takeTag u g t = arrivePlain u g [] t) ∧
      (g.typ = tEPOCH → bit g.payload 1 = true → u ∈ [uMST, uLNK, uTDM, uAES] → takeTag u g t = arriveClaim u g t))

/-- The first due tag of a unit acts at the first sample of the block it begins, each type by its own rule (R51, R58,
R65, R67, R95, R212, R240). Where the spec leaves a point open it rests on log entries 16, 24. -/
def Obligations.DueTagsAct : Prop :=
  ∀ (s w : State) (u : Nat) (p : PendTag), w = work s → running w = true → dueFirst w u = some p →
    (p.tag.typ = tCOMMIT → exec (.commitTag u) s = leaves s (commitAct u p (openBlock u w))) ∧
    (p.tag.typ = tMARK → exec (.markTag u) s =
      leaves s (raise 0x01 (bytesOf 4 p.tag.payload.toNat ++ bytesOf 1 u) (removePend u p (openBlock u w)))) ∧
    (p.tag.typ = tEPOCH → exec (.epochTag u) s = leaves s (epochAct u p (openBlock u w))) ∧
    (p.tag.typ = tROUTE → u = uRTE → exec .route s =
      leaves s (routeAct false (unitSt (openBlock u w) u).next p.snap (removePend u p (openBlock u w)))) ∧
    (p.tag.typ = tRAMP →
      (u = uRTE → exec (.ramp u) s =
        leaves s (routeAct true (unitSt (openBlock u w) u).next p.snap (removePend u p (openBlock u w)))) ∧
      (u = uINC → exec (.ramp u) s = leaves s (incRamp p.snap (removePend u p (openBlock u w)))) ∧
      (u = uCOR → exec (.ramp u) s = leaves s (corRamp p.snap (removePend u p (openBlock u w))))) ∧
    (p.tag.typ = tMIGRATE → u = uLAN → exec .migrate s =
      leaves s (migrateAct p.tag.payload (removePend u p (openBlock u w)))) ∧
    (p.tag.typ = tSWAP → u = uCOR → exec .swap s = leaves s (swapAct (openBlock u w)))

/-- START and STOP tags act on the ports, rings, streams and runs they name (R51, R262, R266, R346, R375, R391, R404).
Where the spec leaves a point open it rests on log entries 16, 24. -/
def Obligations.StartStopTagsAct : Prop :=
  ∀ (s w : State) (u : Nat) (p : PendTag), w = work s → running w = true → dueFirst w u = some p →
    (∀ aes : Bool, u = serUnit aes → (aes = true ∨ bit p.tag.payload 0 = false) →
      (p.tag.typ = tSTART → exec (.portStart aes) s =
        leaves s (serialTag aes (unitSt (openBlock u w) u).next p.tag (removePend u p (openBlock u w)))) ∧
      (p.tag.typ = tSTOP → exec (.portStop aes) s =
        leaves s (serialTag aes (unitSt (openBlock u w) u).next p.tag (removePend u p (openBlock u w))))) ∧
    (u = uTDM → bit p.tag.payload 0 = true →
      (p.tag.typ = tSTART → exec .ringStart s = leaves s ((ringNamed p.tag).foldl
        (fun t r => ringStart (unitSt (openBlock u w) u).next r t) (removePend u p (openBlock u w)))) ∧
      (p.tag.typ = tSTOP → exec .ringStop s = leaves s ((ringNamed p.tag).foldl
        (fun t r => ringStop (unitSt (openBlock u w) u).next r t) (removePend u p (openBlock u w))))) ∧
    (u = uMST →
      (p.tag.typ = tSTART → exec .streamStart s = leaves s (txRefresh (unitSt (openBlock u w) u).next
        (rxRefresh false (streamTag false p.tag (removePend u p (openBlock u w)))))) ∧
      (p.tag.typ = tSTOP → exec .streamStop s = leaves s (txRefresh (unitSt (openBlock u w) u).next
        (rxRefresh false (streamTag false p.tag (removePend u p (openBlock u w))))))) ∧
    (u = uLNK →
      (p.tag.typ = tSTART → exec .linkStreamStart s = leaves s (lnkTxRefresh (unitSt (openBlock u w) u).next
        (rxRefresh true (streamTag true p.tag (removePend u p (openBlock u w)))))) ∧
      (p.tag.typ = tSTOP → exec .linkStreamStop s = leaves s (lnkTxRefresh (unitSt (openBlock u w) u).next
        (rxRefresh true (streamTag true p.tag (removePend u p (openBlock u w))))))) ∧
    (u = uMEA →
      (p.tag.typ = tSTART → exec .runBegin s = leaves s (runBegin p.tag.inst (removePend u p (openBlock u w)))) ∧
      (p.tag.typ = tSTOP → exec .runStop s = leaves s (runStop p.tag.inst (removePend u p (openBlock u w)))))

/-- CUE and SNAP tags act as they reach SYS: a cue applies its records, answers with its event and commits all units at
its tick; a snapshot saves to its area, or recalls from it with a commit (R455, R456). Where the spec leaves a point
open it rests on log entries 18, 19. -/
def Obligations.CueAndSnapTagsAct : Prop :=
  ∀ (s w : State) (p : PendTag) (t : SnapTab) (k : Nat), w = work s → running w = true →
    (snapTab (removePend uSYS p w)).1 = some t → fld p.tag.payload 15 0 = k → k ≠ 0xFFFF →
    ((unitSt w uSYS).pend.find? (fun q => q.tag.typ == tCUE) = some p →
      (∀ x : State, x = (snapTab (removePend uSYS p w)).2 →
        (t.cues ≤ k → exec .cueTag s = leaves s (raise 0x05 (bytesOf 2 0xFFFF ++ bytesOf 4 (extTick x (tagTick w p))) x)) ∧
        (∀ (ok : Bool) (c : List Byte) (y z v : State), k < t.cues →
          fabRead 10 0 x (t.base + 16 + 16 * t.snaps + 16 * k) 16 = (ok, c, y) →
          (getLE c 0 2 = 0xFFFF ∧ z = y ∨ (∃ (area : Nat) (as : List Nat) (q : State), getLE c 0 2 ≠ 0xFFFF ∧
            snapEntry t (getLE c 0 2) y = (some (area, as), q) ∧ recallWords as area q = .ok z)) →
          applyRecords (getLE c 2 2) (getLE c 4 5) z = .ok v →
          exec .cueTag s = leaves s (raise 0x05 (bytesOf 2 k ++ bytesOf 4 (extTick v (tagTick w p)))
            (setN Reg.SYS_CUE_POS.base k (commitAll (tagTick w p) v)))))) ∧
    (∀ (area : Nat) (as : List Nat), (unitSt w uSYS).pend.find? (fun q => q.tag.typ == tSNAP &&
        ((bit q.tag.payload 16 && !bit q.tag.payload 17) || decide (q.block ≤ nowBlock w))) = some p →
      bit p.tag.payload 17 = false → p.snap = [] →
      (snapEntry t k (snapTab (removePend uSYS p w)).2).1 = some (area, as) →
      (∀ u : State, bit p.tag.payload 16 = false →
        as.any (snapBars (snapEntry t k (snapTab (removePend uSYS p w)).2).2) = false →
        fabWrite 3 10 0 (wordValues as (snapEntry t k (snapTab (removePend uSYS p w)).2).2).2 area
          (wordValues as (snapEntry t k (snapTab (removePend uSYS p w)).2).2).1 = .ok u →
        exec .snapTag s = leaves s (snapEvent k 0 (tagTick w p) u)) ∧
      (∀ u : State, bit p.tag.payload 16 = true →
        recallWords as area (snapEntry t k (snapTab (removePend uSYS p w)).2).2 = .ok u →
        exec .snapTag s = leaves s (snapEvent k 1 (tagTick w p) (commitAll (tagTick w p) u))))

/-- Migration copies, pipeline blocks and tick boundaries. -/
def Obligations.BlocksAndTicksAdvance : Prop :=
  -- MIGRATION_COPY_START copies every migration that acts at the next tick but one or before (R212, R213). Where
  -- the spec leaves a point open it rests on log entry 16.
  (∀ (s w : State), w = work s → running w = true →
      exec .migrationCopyStart s = leaves s { w with lan := { w.lan with migs := w.lan.migs.map (fun m =>
        if m.tick ≤ tickOfBlock w (unitSt w uLAN).next + 1 then { m with copying := true } else m) } }) ∧
  -- A unit whose inputs are in works on its next block and goes on to the next; its output side likewise (R32,
  -- R45). Where the spec leaves a point open it rests on log entry 3.
  (∀ (s w : State) (u : Nat) (x : BlockIn), w = work s → running w = true → honoursTags u = true → u ≠ uSYS →
      unitPresent w u = true →
      (x.out = false → inputsIn false u (unitSt w u).next w = true →
        exec (.pipelineBlock u x) s = leaves s (blockDone u (inSide u x (unitSt w u).next
          (x.sram.foldl (engineErr false u (unitSt w u).next) (beginBlock u w))))) ∧
      (x.out = true → hasOut u = true → inputsIn true u (sideNext true u w) w = true →
        exec (.pipelineBlock u x) s = leaves s (outSide u x (sideNext true u w)
          (x.sram.foldl (engineErr true u (sideNext true u w)) (if u = uRTE then w else claimTakes (sideNext true u w) w)))) ∧
      (∀ t : State, (unitSt (blockDone u t) u).next = (unitSt t u).next + 1 ∧ (unitSt (blockDone u t) u).begun = false)) ∧
  -- A unit begins the first block of a tick once; the health unit, pairing and the clocks act once in a tick
  -- (R44). Where the spec leaves a point open it rests on log entry 3.
  (∀ (s w : State) (u : Nat), w = work s → running w = true → unitPresent w u = true →
      (honoursTags u = true → tickOpen w u = true → exec (.tickBoundary u) s = leaves s (beginBlock u w)) ∧
      (honoursTags u = false → (unitSt w u).tickDone ≠ some (nowTick w) →
        (u = uPAR → exec (.tickBoundary u) s =
          leaves s (abdTest (modUnit u (fun x => { x with tickDone := some (nowTick w) }) w))) ∧
        (u = uHLT → exec (.tickBoundary u) s =
          leaves s (hltTick (modUnit u (fun x => { x with tickDone := some (nowTick w) }) w))) ∧
        (u = uCLK → exec (.tickBoundary u) s =
          leaves s (clkTick (modUnit u (fun x => { x with tickDone := some (nowTick w) }) w)))))

/-- Block release, missed deadlines and steps of the time scale. -/
def Obligations.ReleaseDeadlineTimeStep : Prop :=
  -- RED releases its next block where its partial results are in; an output whose next block is seven blocks
  -- behind misses its deadline: it is counted, the event is raised and the block is sent as zeros (R60, R61).
  -- Where the spec leaves a point open it rests on log entry 3.
  (∀ (s w : State), w = work s → running w = true →
      (∀ errs : List (Nat × Nat), inputsIn false uRED (unitSt w uRED).next w = true →
        renders w (unitSt w uRED).next = true →
        exec (.blockRelease errs) s = leaves s (blockDone uRED (redRelease (unitSt w uRED).next errs (beginBlock uRED w)))) ∧
      (∀ (kind number b : Nat) (t : State), b = outOfKind kind w → b + 7 ≤ nowBlock w →
        t = raise 0x03 (bytesOf 1 kind ++ bytesOf 1 number ++ bytesOf 4 (extBlk w b)) (count Reg.HLT_DEADLINE_MISS_CNT.base w) →
        exec (.deadlineMiss kind number) s = leaves s (modPar (fun p => { p with
            missTicks := if p.missTicks.contains (tickOfBlock w b) then p.missTicks else tickOfBlock w b :: p.missTicks })
          { t with ser := { t.ser with missed := (kind, number, b) :: t.ser.missed } })) ∧
      (∀ kind number : Nat, nowBlock w < outOfKind kind w + 7 → exec (.deadlineMiss kind number) s = leaves s w)) ∧
  -- A due step of media time inserts its EPOCH tag three ticks on; at its tick time moves by the whole number of
  -- ticks, the scale count steps and the event carries the sample indexes before and after (R62, R63, R300).
  -- Where the spec leaves a point open it rests on log entry 17.
  (∀ (s w : State), w = work s → running w = true →
      (∀ t : State, unitPresent w uTIM = true → w.tim.stepDue = true → w.time.stepWaits = false →
        t = { modTim (fun x => { x with stepDue := false }) w with time := { w.time with haveTime := true } } →
        (stepTicks w = 0 → exec .timeStepDecide s = leaves s t) ∧
        (∀ k : Nat, stepTicks w ≠ 0 → k = nowTick w + 3 →
          exec .timeStepDecide s = leaves s (modClk (fun x => { x with pullRest := x.pullRest ||
              (decide (w.clk.state = 2) && decide (w.clk.sel = timeSource w)) })
            (inject (mkTag tEPOCH 0xFF 0xFF 1 k) { t with time := { t.time with
              steps := (k, ofsTicks w w.time.idx + stepTicks w) :: w.time.steps
              stepWaits := true } })))) ∧
      (∀ (k now : Nat) (ofs : Int) (x on was : Int) (before : List (Nat × Int)), w.time.steps = (k, ofs) :: before →
        x = k * tickLen w → on = ofs * tickLen w → was = (before.head?.map (·.2)).getD 0 * tickLen w →
        now = (((w.time.sec * subPerSec + w.time.sub : Nat) : Int) + (on - was) * (subPerSample w : Nat)).toNat →
        w.time.stepWaits = true →
        (x ≤ w.time.idx → exec .timeStep s = leaves s (phasesStep (ofs - (before.head?.map (·.2)).getD 0) (replaceRx (trigsStep (on - was) (stick Reg.TIM_STAT.base 0
          (raise 0x02 (bytesOf 8 (x + was).toNat ++ bytesOf 8 (x + on).toNat) { w with time :=
            { w.time with sec := now / subPerSec, sub := now % subPerSec, stepWaits := false } })))))) ∧
        (w.time.idx < x → exec .timeStep s = leaves s w)) ∧
      (∀ y : Nat, scaleAt w y = (w.time.steps.filter (fun p => decide (p.1 * tickLen w ≤ y))).length % 16 ∧
        ((∀ p ∈ w.time.steps, y < p.1 * tickLen w) → extSmp w y = y) ∧
        (∀ (p : Nat × Int) (ps : List (Nat × Int)), w.time.steps = p :: ps → p.1 * tickLen w ≤ y →
          extSmp w y = ((y : Int) + p.2 * tickLen w).toNat)))

/-- Converters lock, quiet channels rest. -/
def Obligations.InputsLockAndRest : Prop :=
  -- A channel that measures, or that was out of range and tries again, takes the ratio it finds: in range it
  -- locks and settles, out of range it says so (R79, R81, R83). Where the spec leaves a point open it rests on
  -- log entry 20.
  (∀ (s w : State) (c rate : Nat), w = work s → up w uINC → (chanSt w c).hasAsrc = true →
      (∀ t : State, t = chanBit c 3 false (chanBit c 1 true (chanBit c 0 true
          (modChan c (fun y => { y with lock := .unsettled (settleLen w (fld (actW w (Reg.INCH1.at c)) 2 1)) })
            (setF (Reg.INCS1.at c) 17 0 rate w)))) → 32000 ≤ rate → rate ≤ 216000 →
        ((chanSt w c).lock = .measuring → exec (.asrcLock c rate) s = leaves s t) ∧
        ((chanSt w c).lock = .outOfRange → exec (.asrcRangeRetry c rate) s = leaves s t)) ∧
      (∀ t : State, t = incFault 1 c (chanBit c 3 true (chanBit c 0 false
          (modChan c (fun y => { y with lock := .outOfRange }) (setF (Reg.INCS1.at c) 17 0 rate w)))) →
        rate < 32000 ∨ 216000 < rate →
        ((chanSt w c).lock = .measuring → exec (.asrcLock c rate) s = leaves s t) ∧
        ((chanSt w c).lock = .outOfRange → exec (.asrcRangeRetry c rate) s = leaves s t)) ∧
      ((chanSt w c).lock = .unsettled 0 →
        exec (.asrcSettled c) s = leaves s (chanBit c 1 false (modChan c (fun y =>
          { y with lock := .settled, rampIn := if bit (actW w (Reg.INCH1.at c)) 3 then 0 else 256 }) w)))) ∧
  -- A channel or an output whose samples stay below its threshold for its hold time goes to rest over a ramp
  -- (R85, R247).
  (∀ (s w : State) (n : Nat), w = work s →
      (up w uINC → actF w (Reg.INCH3.at n) 15 0 ≠ 0 →
        actF w (Reg.INCH3.at n) 15 0 * tickLen w ≤ (chanSt w n).quiet → tickLen w ≠ 0 → (chanSt w n).wall = .active →
        exec (.wallflowerEnter false n) s =
          leaves s (modChan n (fun y => { y with wall := .ramping 0 }) w)) ∧
      (up w uCOR → actF w (Reg.COUT5.at n) 15 0 ≠ 0 →
        actF w (Reg.COUT5.at n) 15 0 * tickLen w ≤ (corOut w n).quiet → tickLen w ≠ 0 → (corOut w n).wall = .active →
        exec (.wallflowerEnter true n) s = leaves s (modOut n (fun y => { y with wall := .ramping 0 }) w)))

/-- Samples reach the motion engine. -/
def Obligations.MotionIsIngested : Prop :=
  -- Samples reach the motion engine by OSC datagrams, scheduled entries, native payloads and the ingest window
  -- (R105, R107, R108, R109, R110, R111). Where the spec leaves a point open it rests on log entries 17, 26, 69.
  (∀ (s w : State) (q : Nat), w = work s → up w uMOT →
      (∀ (pre bs : List Byte) (t : State) (d : Udp), consume 3 q w = some (pre, bs, t) → udpOf bs = some d →
        (∀ mine : Bool, mine = (actB t Reg.MOT_CTRL.base 0 && toDevice t d.dst d.dport (actF t Reg.MOT_OSC_PORT.base 15 0)) →
          exec (.oscDatagram q) s = leaves s (if mine = true then oscDatagram d.payload t else t))) ∧
      (∀ due : OscHeld → Bool, due = (fun m => decide (m.time ≤ extBlk w (unitSt w uMOT).next * 16)) →
        exec .oscScheduledEntry s = leaves s ((w.mot.sched.filter due).foldl
          (fun t m => ingest pathOsc (smpOf w m.time).toNat m.raw t)
          { w with mot := { w.mot with sched := w.mot.sched.filter (fun m => !due m) } })) ∧
      (∀ (pre bs : List Byte) (t : State) (d : Udp), takeLink 2 q w = none → consume 4 q w = some (pre, bs, t) →
        udpOf bs = some d →
        (∀ mine : Bool,
          mine = (actB t Reg.MOT_CTRL.base 1 && toDevice t d.dst d.dport (actF t Reg.MOT_NATIVE_PORT.base 15 0)) →
          exec (.nativePayload q) s = leaves s (if mine = true then nativePayload d.payload t else t))) ∧
      (∀ (n c : Nat) (bs : List Byte) (t : State), takeLink 2 q w = some (n, bs, c, t) →
        exec (.nativePayload q) s = leaves s (nativePayload (lfPayload bs) t)) ∧
      (∀ (core : Bool) (n : Nat) (v : Word), objCount w ≤ n → exec (.ingestSubmit core n v) s = leaves s w) ∧
      (∀ (core : Bool) (n : Nat) (v : Word), n < objCount w →
        exec (.ingestSubmit core n v) s = leaves s (ingest (if core then pathDru else pathCmd) (arrival w)
          (sampleOfWords n (fld v 5 0) (fld (regW w (Reg.INGEST5.at n)) 1 0)
            ((List.range 5).map (fun k => regW w (Reg.INGEST.at n k)))) (setW (Reg.INGEST7.at n) (v &&& 0x3F) w)))) ∧
  -- A native payload that breaks a rule of R113 is counted and has no other effect; one that keeps them is heard
  -- from its sender and its records act in order (R111, R112, R113).
  (∀ (w : State) (p : List Byte),
      (p.length < 32 ∨ getLE p 0 2 ≠ 1 ∨ getLE p 2 1 = 0 ∨ p.length ≠ 32 + 32 * getLE p 2 1 ∨
        (∃ x : Sender, w.mot.senders.find? (fun x => x.id == getLE p 4 4) = some x ∧ getLE p 8 8 ≤ x.seq) →
        nativePayload p w = count Reg.MOT_NATIVE_BAD_CNT.base w) ∧
      (32 ≤ p.length → getLE p 0 2 = 1 → getLE p 2 1 ≠ 0 → p.length = 32 + 32 * getLE p 2 1 →
        (∀ x : Sender, w.mot.senders.find? (fun x => x.id == getLE p 4 4) = some x → x.seq < getLE p 8 8) →
        nativePayload p w = (List.range (getLE p 2 1)).foldl (fun t k => nativeRecord (getLE p 3 1 % 2 == 1)
          (getLE p 16 8) (slice p (32 + 32 * k) 32) t) { w with mot := heardFrom w.mot (getLE p 4 4) (getLE p 8 8) }))

/-- Motion ticks, lost objects and descriptors. -/
def Obligations.MotionAndDescriptors : Prop :=
  -- The motion engine works once at each tick boundary; an object silent for its TIMEOUT is lost: its status,
  -- the sticky bit and the event (R116, R126).
  (∀ (s w : State), w = work s → up w uMOT →
      (tickOpen w uMOT = true → exec .motTick s = leaves s (beginBlock uMOT w)) ∧
      (∀ n : Nat, n < objCount w → lossDue w w.mot.nextTick n = true →
        exec (.objectLost n) s = leaves s (raise 0x11 (bytesOf 2 n) (stick Reg.MOT_STAT.base 0
          (setF (Reg.MSTAT4.at n) 2 2 1 (modObj n (fun x => { x with lost := true }) w)))))) ∧
  -- A descriptor written to DSX_SUBMIT_W3 is offered unless CMD is back-pressured, and discarded and counted
  -- where it is; one that a source holds is accepted once there is room (R181, R187, R188, R190).
  (∀ (s w : State), w = work s → up w uDSX →
      (∀ w3 : Word,
        (dsxBusy w = false → exec (.dsxSubmit w3) s = leaves s (offerHold (descOfWords 3 (regW w (Reg.DSX_SUBMIT_W.at 0))
          (regW w (Reg.DSX_SUBMIT_W.at 1)) (regW w (Reg.DSX_SUBMIT_W.at 2)) w3) (setW (Reg.DSX_SUBMIT_W.at 3) w3 w))) ∧
        (dsxBusy w = true →
          exec (.dsxSubmit w3) s = leaves s (count Reg.DSX_BAD_CNT.base w))) ∧
      (∀ (n : Nat) (x : ObjSt) (d : Desc), w.mot.objs.find? (fun p => p.2.slot.isSome) = some (n, x) → x.slot = some d →
        exec (.descriptorAccept 0) s = leaves s (if (offer d w).1 = .refused then (offer d w).2
          else modObj n (fun y => { y with slot := none }) (offer d w).2)) ∧
      (∀ (src : Nat) (d : Desc) (t : List Desc), src ≠ 0 → tabGet [] w.dsx.held src = d :: t →
        exec (.descriptorAccept src) s = leaves s (if (offer d w).1 = .refused then (offer d w).2
          else { (offer d w).2 with dsx := { (offer d w).2.dsx with held := tabSet src t (offer d w).2.dsx.held } })))

/-- Jobs, solver results, cutoff and refresh. -/
def Obligations.JobsResultsAndCutoff : Prop :=
  -- An idle engine takes the job R182 gives it: a solver job runs on its geometry unit, a task starts its core
  -- at the entry it names; a job that has run completes (R182, R184, R486). Where the spec leaves a point open
  -- it rests on log entries 29, 70.
  (∀ (s w : State) (e : Nat) (j : Job), w = work s → up w uDSX →
      (engineIdle w 0 e = true → inFollow w = false → pickJob w 0 e = some j →
        exec (.jobDispatch false e) s =
          leaves s (if slvReached w j.desc.arg = true then runSolver j (engineNo w 0 e) w else w)) ∧
      (engineIdle w 1 e = true → inFollow w = false → pickJob w 1 e = some j →
        exec (.jobDispatch true e) s = leaves s (coreLoad e j.desc.entry (setJob { j with pos := .running e } w))) ∧
      (w.dsx.jobs.find? (fun j => j.desc.kind == 0 && decide (j.pos = .running e)) = some j →
        exec (.jobComplete e) s = leaves s (completeJob j w))) ∧
  -- A solver result that is ready is written to the shadow windows of its object; one that is late is counted
  -- and marked, and gives way to a newer one (R173, R174, R195).
  (∀ (s w : State) (obj : Nat) (r : SolveRes), w = work s → up w uSLV →
      w.slv.results.find? (fun r => r.obj == obj && resultReady w r) = some r →
      commitOnWay w = false →
      (∀ x : State, x = { w with slv := { w.slv with results := w.slv.results.erase r } } → ∀ y : State,
        y = (if resultLate w r = true then stick Reg.SLV_STAT.base 1 (count Reg.SLV_LATE_JOB_CNT.base
          { x with slv := { x.slv with lateCount := x.slv.lateCount + 1 } }) else x) →
        (∀ z : State, z = writeWindow Reg.LSHL.base Reg.LSHH0.base obj (resultTick w r) r y →
          (∀ old : SolveRes, tabFind? obj w.slv.shadow = some old → old.tick ≤ r.tick) →
          exec (.resultWrite obj) s = leaves s { z with slv := { z.slv with shadow := tabSet obj r z.slv.shadow } }) ∧
        (∀ old : SolveRes, tabFind? obj w.slv.shadow = some old → r.tick < old.tick →
          exec (.resultWrite obj) s = leaves s y))) ∧
  -- At the cutoff of a tick the solver commits the lanes for the tick after; SLV_REFRESH asks for every object;
  -- a geometry unit retires at once where none of its class waits (R70, R173, R177, R189).
  (∀ (s w : State), w = work s →
      (up w uSLV → renders w (unitSt w uSLV).next = true → (unitSt w uSLV).next % tickBlocks w = tickBlocks w - 1 →
        w.slv.cutoff ≠ some (tickOfBlock w (unitSt w uSLV).next) →
        exec .solverCutoff s = leaves s (inject (mkTag tCOMMIT uLAN 0xFF 0 (tickOfBlock w (unitSt w uSLV).next + 1))
          { w with slv := { w.slv with cutoff := some (tickOfBlock w (unitSt w uSLV).next) } })) ∧
      (∀ v : Word, up w uSLV → exec (.slvRefresh v) s = leaves s (if bit v 0 = true then { w with
        mot := { w.mot with refresh := true } } else w)) ∧
      (∀ g cause : Nat, up w uDSX → cause < 5 → retirable w 1 g = true →
        (w.hlt.waiting.any (fun x => x.cls == 1) = false → retireBusy w 1 g = false →
          exec (.geometryRetire g cause) s = leaves s (retireUnit 1 g cause w)) ∧
        (w.hlt.waiting.any (fun x => x.cls == 1 && x.inst == g) = false →
          (w.hlt.waiting.any (fun x => x.cls == 1) = true ∨ retireBusy w 1 g = true) →
          exec (.geometryRetire g cause) s =
            leaves s { w with hlt := { w.hlt with waiting := w.hlt.waiting ++ [⟨1, g, cause⟩] } })))

/-- Lanes wake, sit out and retire. -/
def Obligations.LanesWakeSitOutRetire : Prop :=
  -- A gated lane wakes where sound reaches it or it may no longer be gated; the lane or correction slice that a
  -- retirement names retires where none of its class waits, and waits its turn else (R207, R217, R249).
  (∀ (s w : State) (n cause : Nat), w = work s → cause < 5 →
      (up w uLAN → (laneSt w n).gated = true → (bringsSound w n (unitSt w uLAN).next = true ∨ mayGate w n = false) →
        exec (.laneWake n) s = leaves s (modLane n (fun l => { l with gated := false }) w)) ∧
      (up w uLAN → retirable w 0 n = true → w.hlt.waiting.any (fun x => x.cls == 0) = false → retireBusy w 0 n = false →
        exec (.laneRetire n cause) s = leaves s (retireUnit 0 n cause w)) ∧
      (up w uLAN → retirable w 0 n = true → w.hlt.waiting.any (fun x => x.cls == 0 && x.inst == n) = false →
        (w.hlt.waiting.any (fun x => x.cls == 0) = true ∨ retireBusy w 0 n = true) →
        exec (.laneRetire n cause) s =
          leaves s { w with hlt := { w.hlt with waiting := w.hlt.waiting ++ [⟨0, n, cause⟩] } }) ∧
      (up w uCOR → retirable w 2 n = true →
        (w.hlt.waiting.any (fun x => x.cls == 2) = false → retireBusy w 2 n = false →
          exec (.sliceRetire n cause) s = leaves s (retireUnit 2 n cause w)) ∧
        (w.hlt.waiting.any (fun x => x.cls == 2 && x.inst == n) = false →
          (w.hlt.waiting.any (fun x => x.cls == 2) = true ∨ retireBusy w 2 n = true) →
          exec (.sliceRetire n cause) s =
            leaves s { w with hlt := { w.hlt with waiting := w.hlt.waiting ++ [⟨2, n, cause⟩] } }))) ∧
  -- A lane whose turn it is sits out: a free spare takes its objects and the event says so; at the end of its
  -- self-test it becomes a spare, or retires (R215, R216).
  (∀ (s w : State), w = work s → up w uLAN →
      (∀ (l p : Nat) (ps : List Nat), accepted w 14 = true → actB w Reg.LAN_ROTATE.base 0 = true →
        w.lan.lastStart + sitPeriod w ≤ nowTick w → (w.lan.sits.filter (fun x => !x.retire)).length < sitConc w →
        ∀ t : State, t = { w with lan := { w.lan with lastStart := nowTick w } } →
        minBy (sitOrder w)
          ((lanesIn w .active).filter
            (fun p => !(w.lan.sits.any (fun x => x.lane == p || (x.spare == p && !x.testing))))) = some l →
        (freeSpares w = p :: ps → exec .sitoutStart s = leaves s (handOver l p false t)) ∧
        (freeSpares w = [] →
          exec .sitoutStart s = leaves s (raise 0x18 (bytesOf 1 l ++ [0xFF, 3]) (stick Reg.LAN_STAT.base 4 t)))) ∧
      (∀ (n : Nat) (x : SitOut), sitDone w n = some x →
        (exec (.sitoutSelftestEnd n true) s = leaves s (testResult n true (raise 0x18 (bytesOf 1 x.lane ++ bytesOf 1 x.spare ++ [1])
          (count Reg.LAN_SITOUT_CNT.base (modLane x.lane (fun l => { l with state := .spare, lastSit := some (nowTick w) })
            { w with lan := { w.lan with sits := w.lan.sits.erase x } }))))) ∧
        (exec (.sitoutSelftestEnd n false) s = leaves s (testResult n false (retired 0 x.lane 2 true true
          (raise 0x18 (bytesOf 1 x.lane ++ bytesOf 1 x.spare ++ [2])
            (stick Reg.LAN_STAT.base 3 (modLane x.lane (fun l => { l with state := .retired })
              { w with lan := { w.lan with sits := w.lan.sits.erase x } }))))))))

/-- Filter swaps, transitions and charges. -/
def Obligations.FiltersSwapAndEnd : Prop :=
  -- A filter set swaps in steps: it is prepared two ticks before, loaded at the next, and fades; a batch that
  -- has faded makes way for the next, or the swap ends with its event (R242, R243, R245).
  (∀ (s w : State) (x : SwapRec) (xs : List SwapRec), w = work s → up w uCOR → w.cor.swaps = x :: xs →
      (x.phase = .waiting → x.start ≤ corTickNow w + 2 → w.cor.slot ≤ corTickNow w + 2 →
        exec .swapPrepare s = leaves s (modHead (fun y => { y with phase := .prepared, prepTick := corTickNow w }) w)) ∧
      (x.phase = .prepared → x.prepTick < corTickNow w →
        exec .swapLoad s = leaves s (modHead (fun y => { y with phase := .loaded }) (x.cur.foldl (loadOne x.set) w))) ∧
      (∀ t : State, t = x.cur.foldl (fun u o => modOut o (fun z => { z with xfade := none }) u) w →
        x.phase = .fading → x.start + x.xf + 1 ≤ corTickNow w →
        (∀ (c : List Nat) (cs : List (List Nat)), x.rest = c :: cs →
          exec .crossfadeEnd s = leaves s (inject (mkTag tSWAP uCOR 0xFF (batchPayload x.payload c).toNat (x.start + x.xf + 3))
            (modHead (fun y => { y with payload := batchPayload x.payload c, start := x.start + x.xf + 3
                                        batch := y.batch + 1, cur := c, rest := cs, phase := .waiting, fresh := [] })
              { t with cor := { t.cor with slot := x.start + x.xf + 3 } }))) ∧
        (x.rest = [] →
          ∀ u : State, u = { t with cor := { t.cor with slot := x.start + x.xf + 3, swaps := xs } } →
          exec .crossfadeEnd s = leaves s (swapQueued (unitSt u uCOR).pend.length
            (raise 0x1B (bytesOf 1 x.set ++ bytesOf 1 2 ++ bytesOf 1 0 ++ bytesOf 2 0) u))))) ∧
  -- A transition of a filter ends when its old partitions have run out, and a charge returns to the pool at its
  -- sample (R233, R244).
  (∀ (s w : State), w = work s → up w uCOR →
      (∀ (n : Nat) (keep : Nat × CorOut → Nat), n = 16 * (unitSt w uCOR).next →
        keep = (fun q => (q.2.filts.zip q.2.filts.tail).zipIdx.foldl (fun m p =>
          if decide (n < oldReach w (sliceOf w q.1) p.1.1.2 p.1.2.1) || (p.2 == 0 && q.2.xfade.isSome) then p.2 + 2 else m) 1) →
        exec .transitionEnd s = leaves s { w with cor := { w.cor with
          outs := w.cor.outs.map (fun q => (q.1, corKeep q.2 (keep q))) } }) ∧
      exec .chargeReturn s = leaves s { w with cor := { w.cor with outs := w.cor.outs.map (fun q =>
        (q.1, { q.2 with charges := q.2.charges.filter (fun c => decide (16 * (unitSt w uCOR).next < c.2)) })) } })

/-- Measurement runs and live estimation (results are free values). -/
def Obligations.MeasurementRuns : Prop :=
  -- A run whose capture is full keeps its samples and waits for its results; the run at the head of the queue
  -- writes them, or fails where its memory is uncorrectable (R264, R265). The results' values are free values:
  -- the spec does not fix them (assumption log). Where the spec leaves a point open it rests on log entry 4.
  (∀ (s w : State), w = work s → up w uMEA →
      (∀ k : Nat, (meaRun w k).state = 2 → runCapture (meaRun w k) ≤ (meaRun w k).taken →
        exec (.captureEnd k) s = leaves s (runState k 3 { w with mea := { w.mea with queue := w.mea.queue ++ [k] } })) ∧
      (∀ (k : Nat) (ks : List Nat), w.mea.queue = k :: ks →
        (∀ (a : Nat) (as : List Nat), ueIn w (runWork (meaRun w k)) (workNeed (meaRun w k)) = a :: as →
          exec .runDone s = leaves s (runFail k 7 (reportDramUe 1 6 0 a { w with mea := { w.mea with queue := ks } }))) ∧
        (∀ t : State, ueIn w (runWork (meaRun w k)) (workNeed (meaRun w k)) = [] →
          t = runShow k 4 0 (count (Reg.RUNS1.at k) (modRun k (fun x => { x with caps := [] })
            (((runChans (meaRun w k)).zipIdx).foldl (runResultWrite (meaRun w k))
              { w with mea := { w.mea with queue := ks } }))) →
          exec .runDone s =
            leaves s (if bit (recW (meaRun w k).cfg 14) 0 = true then meaTask ((meaRun w k).cfg.drop 10) t else t)))) ∧
  -- Live measurement takes a frame every half length, searches one pair's delay at a time, and publishes at its
  -- interval (R268, R269, R270). Above 48 kHz the taps of the search's decimator are free values (assumption
  -- log). Where the spec leaves a point open it rests on log entry 4.
  (∀ (s w : State), w = work s → up w uMEA → liveOn w = true →
      (w.mea.lastFrame + liveFft w / 2 ≤ 16 * w.mea.capNext →
        exec .liveFrame s = leaves s ((livePairs w).foldl pairFrame
          { w with mea := { w.mea with lastFrame := 16 * w.mea.capNext / (liveFft w / 2) * (liveFft w / 2) } })) ∧
      (∀ (p : Nat) (u : State), searchPair w = some p → u = modPair p (fun x => { x with searched := some (monoSec w) }) w →
        exec .delaySearch s = leaves s
          (match lagOf w (tabGet ⟨[], []⟩ w.mea.refs (pairOut w p)).smp (tabGet ⟨[], []⟩ w.mea.mics (pairMic w p)).smp with
          | none => count Reg.MEA_NODELAY_CNT.base u
          | some lag => if (pairSt w p).lag.isSome = true ∧ 64 * 256 < (lag - (pairSt w p).lag.getD 0).natAbs then
              raise 0x1E (bytesOf 1 p ++ [0] ++ bytesOf 4 (lowBits 32 ((pairSt w p).lag.getD 0)) ++ bytesOf 4 (lowBits 32 lag))
                (modPair p (fun x => { x with lag := some lag, sxx := [], syy := [], sxy := [], h := [], frames := 0 }) u)
            else modPair p (fun x => { x with lag := some lag }) u)) ∧
      (∀ (every base : Nat) (t : State),
        every = (if actF w Reg.MEA_LIVE_CTRL.base 15 0 = 0 then 1000 else actF w Reg.MEA_LIVE_CTRL.base 15 0) →
        base = addrOf (actW w Reg.MEA_LIVE_BASE_LO.base) (actW w Reg.MEA_LIVE_BASE_HI.base) →
        w.mea.lastPub + every ≤ nowTick w →
        t = raise 0x1F (bytesOf 1 w.mea.copy ++ bytesOf 2 (enabledPairs w).length)
          ((enabledPairs w).foldl (pairPublish base w.mea.copy)
            { w with mea := { w.mea with lastPub := nowTick w, copy := 1 - w.mea.copy } }) →
        exec .livePublish s = leaves s (if actB w Reg.MEA_LIVE_CTRL.base 30 = true
          then meaTask ((List.range 4).map (fun i => actW w (Reg.MEA_LIVE_TASK.at i))) t else t)))

/-- Clock candidates qualify, and the clock selects. -/
def Obligations.ClockCandidatesAndSelection : Prop :=
  -- A candidate's edges start its qualification at a rate that is supported; it is qualified when its time is
  -- over, and lost when its edges stay away (R279, R280, R282). Where the spec leaves a point open it rests on
  -- log entries 20, 73.
  (∀ (s w : State) (c : Nat), w = work s → up w uCLK → c < 8 →
      (∀ (period r : Nat) (e f : Int) (t : State), candType w c = 2 ∨ candType w c = 3 → period ≠ 0 →
        (cand w c).state = 1 ∨ (cand w c).state = 4 →
        (supportedRate w c period = some r →
          t = modCand c (fun y => { y with rate := r, periods := [period], last := monoNs w })
            (candGo c 2 (modCand c (fun y => { y with rate := r, shown := hertz period }) w)) →
          exec (.referenceEdge c period e f) s = leaves s (phaseSeen c (edgePhase t c e) f false t)) ∧
        (supportedRate w c period = none → exec (.referenceEdge c period e f) s = leaves s (candShow c
          (modCand c (fun y => { y with shown := hertz period, last := monoNs w }) w)))) ∧
      (∀ (period q : Nat) (e f : Int), candType w c = 2 ∨ candType w c = 3 → period ≠ 0 →
        (cand w c).state = 2 ∨ (cand w c).state = 3 → q = 1000000000000 / max 1 (cand w c).rate →
        (q < 8 * (max q period - min q period) → exec (.referenceEdge c period e f) s = leaves s (candGlitch c
          (count Reg.CLK_GLITCH_CNT.base (modCand c (fun y => { y with last := monoNs w }) w)))) ∧
        (∀ (ps : List Nat) (t : State), ps = (period :: (cand w c).periods).take 64 →
          t = modCand c (fun y => { y with
            periods := ps, shown := hertz (ps.foldl (· + ·) 0 / ps.length), last := monoNs w }) w →
          8 * (max q period - min q period) ≤ q → ps.length < 64 →
          exec (.referenceEdge c period e f) s = leaves s (phaseSeen c (edgePhase t c e) f false (candShow c t)))) ∧
      (∀ (period : Nat) (e f : Int), firstPps w = some c → candType w c = 4 → exec (.referenceEdge c period e f) s =
        leaves s (ppsOn ((ppsCands (ppsTake w)).foldl (fun u k => edgeSeen k period e f u) (ppsTake w)))) ∧
      (candType w c = 2 ∨ candType w c = 3 ∨ candType w c = 4 →
        (cand w c).last * (cand w c).rate + 3000000000 ≤ monoNs w * (cand w c).rate →
        exec (.candidateLoss c) s = leaves s (candLose c w)) ∧
      ((cand w c).state = 2 → (cand w c).since + candQual w c * 1000000 ≤ monoNs w →
        exec (.qualificationComplete c) s = leaves s (candGo c 3 w)) ∧
      (2 ≤ (cand w c).state → candLose c w = candGo c 1 (candHist c 1 w))) ∧
  -- The clock locks a second after the criterion holds; in holdover it gives way to the FREE candidate when its
  -- time is over; a write to CLK_CTRL selects anew, and a DPLL retires (R285, R286, R287, R291, R295). Where the
  -- spec leaves a point open it rests on log entries 20, 31, 73.
  (∀ (s w : State), w = work s → up w uCLK →
      (∀ t : Nat, w.clk.inSince = some t → (w.clk.state = 1 ∨ w.clk.state = 4) → t + 1000000000 ≤ monoNs w →
        exec .lockAchieved s = leaves s (modClk (fun k => { k with integ := (cand w (w.clk.sel.getD 0)).freq * 2 ^ 32 })
          (clkGo 2 w.clk.sel none false w))) ∧
      (∀ (f h : Nat) (t : State), h = actF w Reg.CLK_CTRL.base 31 16 → h ≠ 0 → w.clk.state = 3 →
        w.clk.holdSince + h * 1000000000 ≤ monoNs w → freeCand w = some f →
        t = modClk (fun k => { k with pullFree := true }) w →
        (w.clk.freq ≠ 0 → exec .holdMaxExpiry s = leaves s t) ∧
        (w.clk.freq = 0 → freeCand t = some f → exec .holdMaxExpiry s = leaves s (clkGo 0 (some f) none false (clkFreq 0 t)))) ∧
      (∀ v : Word,
        exec (.clkCtrlWrite v) s = leaves s (clkSelect (setW Reg.CLK_CTRL.base (v &&& fieldsMask Reg.CLK_CTRL) w))) ∧
      (∀ (c i a : Nat) (v x : Word), c < 8 → i < 4 → a = Reg.CLK_CAND0.at c + 4 * i → x = v &&& candMask i → ∀ t : State,
        t = setW a x w →
        (i = 1 ∨ i = 2 ∨ (i = 0 ∧ actW w a &&& 0x800F00FF = x &&& 0x800F00FF) ∨ (i = 3 ∧ actW w a = x) →
          exec (.candidateWrite c i v) s = leaves s t) ∧
        ((i = 0 ∧ actW w a &&& 0x800F00FF ≠ x &&& 0x800F00FF) ∨ (i = 3 ∧ actW w a ≠ x) →
          exec (.candidateWrite c i v) s = leaves s (candGo c
            (if candUsable t c = false then 0 else if candType t c = 5 then 3 else 1)
            (if w.clk.sel = some c then candHist c 1 t else t)))) ∧
      (∀ cause : Nat, cause < 5 → retirable w 4 0 = true →
        (w.hlt.waiting.any (fun x => x.cls == 4) = false → retireBusy w 4 0 = false →
          exec (.dpllRetire cause) s = leaves s (retireUnit 4 0 cause w)) ∧
        (w.hlt.waiting.any (fun x => x.cls == 4 && x.inst == 0) = false →
          (w.hlt.waiting.any (fun x => x.cls == 4) = true ∨ retireBusy w 4 0 = true) →
          exec (.dpllRetire cause) s =
            leaves s { w with hlt := { w.hlt with waiting := w.hlt.waiting ++ [⟨4, 0, cause⟩] } })))

/-- The PTP instance: messages, time-outs and sends. -/
def Obligations.PtpInstanceActs : Prop :=
  -- PTP messages of the device's own domain act on the instance: Sync gives the offset, Announce the best
  -- master, the delay messages the mean delay (R297, R298, R299). Where the spec leaves a point open it rests on
  -- log entries 26, 28.
  (∀ (s w : State), w = work s → up w uTIM → ptpOn (takeTim w) = true →
      (∀ (hd iv : Nat) (t1 t2 corr pred freq : Int) (t : State), hd % 256 = ptpDomain (takeTim w) → iv = syncNs hd →
        (takeTim w).tim.master ≠ none → 7812500 ≤ iv → iv ≤ 2000000000 →
        t = ptpGo 9 (modTim (fun x => { x with syncDiff := t2 / 16384 * 16384 - t1 - corr }) (takeTim w)) →
        exec (.syncReceive hd t1 t2 corr pred freq) s = leaves s ((ptpCands t).foldl
          (candOffset (t2 / 16384 * 16384 - t1 - corr - (takeTim w).tim.meanDelay - asymmetry (takeTim w)) pred freq iv) t)) ∧
      (∀ p1 cl ac va p2 gm st sd ut iv : Nat, st < 255 → 125000000 ≤ iv → iv ≤ 8000000000 → sd ≠ Config.clockIdentity % 2 ^ 64 →
        exec (.announceReceive (ptpDomain (takeTim w)) p1 cl ac va p2 gm st sd ut iv) s = leaves s (bmca
          (modTim (fun t => { t with masters := (t.masters.filter (fun o => o.sender != sd)) ++
            [⟨p1, cl, ac, va, p2, gm, st, sd, ut, monoNs (takeTim w), iv⟩] }) (takeTim w)))) ∧
      (∀ t1 t2 t3 t4 corr ratio : Int,
        (ptpP2P (takeTim w) = false → (takeTim w).tim.portState = 6 →
          exec (.delayMessageReceive 0 (ptpDomain (takeTim w)) t1 t2 t3 t4 corr ratio) s =
            leaves s (sendPtp (takeTim w).tim.port 9 false [t4 / 16384 * 16384] (takeTim w))) ∧
        (∀ sent : Int, tabFind? 1 (takeTim w).tim.txStamp = some sent →
          ptpP2P (takeTim w) = false → (takeTim w).tim.portState = 8 ∨ (takeTim w).tim.portState = 9 →
          exec (.delayMessageReceive 1 (ptpDomain (takeTim w)) t1 t2 t3 t4 corr ratio) s =
            leaves s (meanDelay (((takeTim w).tim.syncDiff + (t4 - sent - corr)) / 2)
              (modTim (fun t => { t with txStamp := tabErase 1 t.txStamp }) (takeTim w)))) ∧
        (ptpP2P (takeTim w) = true →
          exec (.delayMessageReceive 2 (ptpDomain (takeTim w)) t1 t2 t3 t4 corr ratio) s =
            leaves s (sendPtp (takeTim w).tim.port 3 false [t2 / 16384 * 16384] (takeTim w)) ∧
          (∀ (sent : Int) (x : State), tabFind? 2 (takeTim w).tim.txStamp = some sent →
            x = modTim (fun t => { t with neighRate := ratio, txStamp := tabErase 2 t.txStamp })
              (meanDelay (((t4 / 16384 * 16384 - sent) * ratio / 2 ^ 32 - (t3 - t2) - corr) / 2) (takeTim w)) →
            exec (.delayMessageReceive 3 (ptpDomain (takeTim w)) t1 t2 t3 t4 corr ratio) s =
              leaves s (if ptpProfile (takeTim w) = 2 then setF Reg.TIM_PTP_STAT.base 7 7 1 x else x))))) ∧
  -- PTP and link-time time-outs, and the messages an instance sends of its own accord (R283, R298, R378). Where
  -- the spec leaves a point open it rests on log entry 28.
  (∀ (s w : State), w = work s → up w uTIM →
      (∀ m : Master, ptpOn w = true → w.tim.master = some m → masterHeard w m = false →
        exec .announceTimeout s = leaves s (bmca (ptpLost (count Reg.TIM_ANN_TIMEOUT_CNT.base w)))) ∧
      (∀ c : Nat, ptpOn w = true → c ∈ ptpCands w → 2 ≤ (cand w c).state →
        (cand w c).last + 3 * (cand w c).interval ≤ monoNs w → exec .syncTimeout s = leaves s (ptpLost w)) ∧
      (∀ t : Nat, ptpOn w = true → w.tim.portBack = some t → t + 2000000000 ≤ monoNs w →
        exec .ptpPortReturn s = leaves s (ptpListen (ptpPort w) w)) ∧
      (∀ cfg : Word, cfg = actW w Reg.TIM_PTP_CFG.base → ptpOn w = true →
        (w.tim.portState = 6 →
          (w.tim.sentSync = 0 ∨ w.tim.sentSync + logInterval (fld cfg 19 16) ≤ monoNs w →
            exec (.ptpMessageSend 0) s = leaves s (sendPtp w.tim.port 0 false []
              (modTim (fun t => { t with sentSync := max 1 (monoNs w) }) w))) ∧
          (∀ o : Master, o = ownMaster w → w.tim.sentAnn = 0 ∨ w.tim.sentAnn + logInterval (fld cfg 23 20) ≤ monoNs w →
            exec (.ptpMessageSend 1) s = leaves s (setF Reg.TIM_PTP_STAT.base 31 16 o.utc (sendPtp w.tim.port 11 false
              ([o.prio1, o.cls, o.acc, o.var, o.prio2, o.gm, o.utc].map (fun v => (v : Int)))
              (modTim (fun t => { t with sentAnn := max 1 (monoNs w) }) w))))) ∧
        (ptpP2P w = true → exec (.ptpMessageSend 2) s = leaves s (sendPtp w.tim.port 2 false []
          (modTim (fun t => { t with sentDelay := max 1 (monoNs w) }) w))) ∧
        (ptpP2P w = false → w.tim.portState = 8 ∨ w.tim.portState = 9 →
          exec (.ptpMessageSend 2) s = leaves s (sendPtp w.tim.port 1 (ptpHybrid w) []
            (modTim (fun t => { t with sentDelay := max 1 (monoNs w) }) w)))) ∧
      (∀ (p ofs k sa : Nat) (u : Bool) (f : List Int) (t : Int) (x : State), k ≤ 3 →
        t = (timeFx w + (ofs * 16384 : Nat)) / 16384 * 16384 →
        x = modTim (fun m => { m with txStamp := tabSet k t m.txStamp }) w →
        ptpStart p ofs (some (.ptp p k u sa f)) w =
          if k = 0 then sendPtp p 8 false [t] x else if k = 3 then sendPtp p 10 false [t] x else x) ∧
      (∀ n : Nat, unitPresent w uLNK = true → (linkSt w n).up = true → (linkSt w n).heard + 3 * timeInt w n ≤ monoNs w →
        exec (.timeFrameTimeout n) s = leaves s ((linkCands w n).foldl (fun t c => candLose c t) w)))

/-- A write of the PPS second waits for its edge; arming a trigger takes its record words; a trigger fires in order; an
edge at a capture source is captured by each channel that listens (R301, R302, R303, R304, R305). Where the spec
leaves a point open it rests on log entry 20. -/
def Obligations.TriggersAndCaptures : Prop :=
  ∀ (s w : State), w = work s → up w uTIM →
    (∀ (hi : Bool) (v l u : Word), l = (if hi then regW w Reg.TIM_PPS_SEC_LO.base else v) →
      u = (if hi then v else regW w Reg.TIM_PPS_SEC_HI.base) → exec (.ppsSecWrite hi v) s = leaves s
        (modTim (fun t => { t with ppsWait := some (fld l 31 0 + 2 ^ 32 * fld u 31 0, monoNs w) }) { w with words :=
          { w.words with wr := tabSet (if hi then Reg.TIM_PPS_SEC_HI.base else Reg.TIM_PPS_SEC_LO.base) v w.words.wr } })) ∧
    (∀ (i : Nat) (v : Word), i < 32 →
      (bit v 0 = false → exec (.triggerArm i v) s =
        leaves s (modTrig i (fun _ => trigZero) (setW (Reg.TIM_TRIG3.at i) (v &&& fieldsMask Reg.TIM_TRIG3) w))) ∧
      (bit v 0 = true → (trig w i).armed = true → exec (.triggerArm i v) s =
        leaves s (setW (Reg.TIM_TRIG3.at i) (v &&& fieldsMask Reg.TIM_TRIG3) w)) ∧
      (∀ (t : State) (x : TrigSt), t = setW (Reg.TIM_TRIG3.at i) (v &&& fieldsMask Reg.TIM_TRIG3) w →
        x = ⟨true, fld (regW t (Reg.TIM_TRIG0.at i)) 31 0 + 2 ^ 32 * fld (regW t (Reg.TIM_TRIG1.at i)) 31 0,
          fld (regW t (Reg.TIM_TRIG2.at i)) 31 0, v, (List.range 4).map (fun k => regW t (Reg.TIM_TRIGREC.at i k)),
          0, false, false⟩ → bit v 0 = true → (trig w i).armed = false →
        exec (.triggerArm i v) s = leaves s (trigFire i (trigLate i (modTrig i (fun _ => trigReady x) t)))) ∧
      ((trig w i).armed = true → exec (.triggerFire i) s = leaves s (trigNext i (trigDue i w)))) ∧
    (∀ (src q : Nat) (falling : Bool), src < 22 →
      exec (.captureEdge src falling q) s =
        leaves s (((List.range 16).filter (captures w src falling)).foldl (captureOn falling q) w))

/-- Ethernet frames are checked, stored and sent. -/
def Obligations.FramesReceivedAndSent : Prop :=
  -- A received frame that a check refuses is counted under that check and stored nowhere; one that passes is
  -- stored in its queue with its prefix (R316, R318, R320, R321, R322, R323, R324).
  (∀ (s w : State) (p q : Nat) (bs : List Byte) (code fcs : Bool), w = work s → up w uNET → p < netPorts w →
      netMode w p ≠ 0 → (portSt w p).link = true →
      (∀ low : State, frameCheck w p bs code = .inl 1 →
        (∀ k e n : Nat, frameCheck w p bs false = .inr (k, e, n) →
          low = poolLow (freeCells w - cellsGranted w n (min (bs.length + 4) (maxFrame w p + 1))) w) →
        (∀ k : Nat, frameCheck w p bs false = .inl k → low = w) →
        exec (.frameReceive p bs code fcs q) s =
          leaves s (stick (Reg.NET_HIST.at p) 0 (count (Reg.NET_PCS_ERR_CNT.at p) low))) ∧
      (frameCheck w p bs code = .inl 2 → exec (.frameReceive p bs code fcs q) s = leaves s (count (Reg.NET_RUNT_CNT.at p) w)) ∧
      (frameCheck w p bs code = .inl 3 → exec (.frameReceive p bs code fcs q) s = leaves s (count (Reg.NET_FILTER_CNT.at p) w)) ∧
      (∀ (k e n : Nat), frameCheck w p bs code = .inr (k, e, n) →
        (maxFrame w p < bs.length + 4 → exec (.frameReceive p bs code fcs q) s = leaves s (count (Reg.NET_GIANT_CNT.at p)
          (poolLow (freeCells w - cellsGranted w n (min (bs.length + 4) (maxFrame w p + 1))) w))) ∧
        (bs.length + 4 ≤ maxFrame w p → fcs = true → exec (.frameReceive p bs code fcs q) s = leaves s
          (count (Reg.NET_FCS_CNT.at p) (poolLow (freeCells w - cellsGranted w n (min (bs.length + 4) (maxFrame w p + 1))) w))) ∧
        (∀ pre : List Byte, pre = prefixOf (bs.length + 4) p (1 + ((if (vlanOf bs).1.isSome then 2 else 0) +
            (if beAt bs 0 6 / 2 ^ 40 % 2 = 1 ∧ beAt bs 0 6 ≠ 0xFFFFFFFFFFFF then 4 else 0) +
            (if beAt bs 0 6 = 0xFFFFFFFFFFFF then 8 else 0))) ((vlanOf bs).1.getD (pvid w p)) e w q →
          bs.length + 4 ≤ maxFrame w p → fcs = false →
          exec (.frameReceive p bs code fcs q) s = leaves s (if (storeFrame n pre bs (bs.length + 4) w).1
            then count (Reg.NET_RX_OK_CNT.at p) (storeFrame n pre bs (bs.length + 4) w).2
            else (storeFrame n pre bs (bs.length + 4) w).2)))) ∧
  -- A port whose link goes down says so; frames go out in the order of their classes, and a class with a
  -- negative credit waits until it is zero (R315, R333). Where the spec leaves a point open it rests on log
  -- entry 28.
  (∀ (s w : State) (p : Nat), w = work s → up w uNET → p < netPorts w →
      (∀ (r : Nat) (t : State), (portSt w p).link = true →
        t = modPort p (fun x => { x with link := false, rate := 0, creditA := 0, creditB := 0 })
          (match (portSt w p).sending with
            | some x => count (Reg.NET_TX_DISCARD_CNT.at p) (txRelease p x w)
            | none => w) →
        exec (.linkStateChange p false r) s = leaves s (ptpLink p false (raise 0x28 (bytesOf 1 p ++ bytesOf 1 0)
          (stick (Reg.NET_HIST.at p) 1 (setN (Reg.NET_STATUS.at p) 0 (txDiscard p t)))))) ∧
      (∀ r k : Nat, (portSt w p).link = false → netRate w p r = some k →
        (netRef w = true → exec (.linkStateChange p true r) s = leaves s (igmpPort p (ptpLink p true
          (setN (Reg.NET_STATUS.at p) (k % 8 * 2 + 1)
            (modPort p (fun x => { x with link := true, rate := k, creditA := 0, creditB := 0 }) w))))) ∧
        (netRef w = false → exec (.linkStateChange p true r) s = leaves s w)) ∧
      (∀ n : Nat, (portSt w p).link = true →
        (∀ x : Sending, (portSt w p).sending = some x → exec (.frameTransmit p n) s = leaves s
          (txPick p (txStop w p x) (n / 2 ^ 32) (txEnd p x w))) ∧
        ((portSt w p).sending = none → exec (.frameTransmit p n) s = leaves s
          (txPick p (now10 w + 25 * (n / 2 ^ 32)) (n / 2 ^ 32) (creditIdle p (n % 2 ^ 32 * 100) w)))) ∧
      (∀ (t : State) (t0 ofs : Nat),
        (∀ c q : Nat, nextTx t p = some (c, q) → txPick p t0 ofs t = txStart p c q t0 ofs t) ∧
        (nextTx t p = none → txPick p t0 ofs t = t)) ∧
      (∀ n : Nat, (portSt w p).link = false → exec (.frameTransmit p n) s = leaves s (txDiscard p w)) ∧
      (∀ c d : Nat, (portSt w p).link = true → (portSt w p).sending = none → nextTx w p = none →
        d = ((-(creditOf w p c)).toNat + idleSlope w p c - 1) / max 1 (idleSlope w p c) → c = 1 ∨ c = 2 →
        classWaiting w p c ≠ [] → creditOf w p c < 0 → (∀ k : Nat, k = 1 ∨ k = 2 → k ≠ c → classWaiting w p k = []) →
        exec (.shaperCreditZero p) s = leaves s (txPick p (now10 w) 0 (setCredit p c 0 (creditIdle p d w)))))

/-- Queue operations. -/
def Obligations.QueuesWork : Prop :=
  -- An operation of a queue that may be done acts on it and answers result 0; one that may not answers 4 (R326,
  -- R340).
  (∀ (s w : State) (q : Nat), w = work s → up w uQMG →
      (opAllowed w q = true →
        (∀ t : State, opRead q w = .ok t → exec (.queueRead q) s = leaves s t) ∧
        ((queueSt w q).frames[(queueSt w q).read]? = none → opRead q w = .ok (opResult 1 0 w)) ∧
        exec (.queueMark q) s = leaves s (opResult 0 0 (queueMark q w)) ∧
        exec (.queueRewind q) s = leaves s (opResult 0 0 (queueRewind q w)) ∧
        exec (.queueRelease q) s = leaves s (opResult 0 0 (queueRelease q w)) ∧
        exec (.queueFlush q) s = leaves s (opResult 0 0 (queueFlush q w))) ∧
      (opAllowed w q = false → ∀ c : Instr, c = .queueRead q ∨ c = .queueMark q ∨ c = .queueRewind q ∨
        c = .queueRelease q ∨ c = .queueFlush q → exec c s = leaves s (opResult 4 0 w))) ∧
  -- A frame to send is taken from memory by TXS_GO, and a queue that is enabled or disabled starts empty (R330,
  -- R331, R332).
  (∀ (s w : State) (v : Word), w = work s → up w uQMG →
      (∀ (a n q : Nat), q = fld v 8 0 → n = fld (regW w Reg.QMG_TXS_LEN.base) 13 0 →
        a = fld (regW w Reg.QMG_TXS_ADDR_LO.base) 31 0 + 2 ^ 32 * fld (regW w Reg.QMG_TXS_ADDR_HI.base) 7 0 →
        (∀ (ok : Bool) (bs : List Byte) (t : State), qEn w q = true → qTx w q = true → 60 ≤ n → n ≤ 9596 →
          fabRead 10 0 w a n = (ok, bs, t) →
          exec (.txsGo v) s = leaves s (if ok = false then setN Reg.QMG_TXS_STAT.base (2 * 2 ^ 16) t
            else setN Reg.QMG_TXS_STAT.base ((if (enqueueFrame q bs t).1 then 0 else 1) * 2 ^ 16) (enqueueFrame q bs t).2)) ∧
        (qEn w q = true → qTx w q = true → n < 60 ∨ 9596 < n → exec (.txsGo v) s = .fault .badLength) ∧
        (qEn w q = false ∨ qTx w q = false → exec (.txsGo v) s = leaves s (setN Reg.QMG_TXS_STAT.base (4 * 2 ^ 16) w))) ∧
      (∀ (q a j : Nat) (en : Bool) (r : RegSpec) (t : State), q < 512 → a = Reg.QUEUE0.at q →
        liveSpec w a = some (r, q, j) → r.base = Reg.QUEUE0.base → plainWrite r q a (putFld (regW w a) 31 31 (if en then 1 else 0)) w = .ok t →
        exec (.queueEnChange q en) s = leaves s t) ∧
      (∀ (q : Nat) (old : Word), q < 512 → bit old 31 ≠ actB w (Reg.QUEUE0.at q) 31 →
        liveFx (Reg.QUEUE0.at q) old w = queueSwitch q w) ∧
      (∀ q : Nat, q < 512 → (queueSt (queueSwitch q w) q).frames = []))

/-- Stream packets, recovery, ARP and IGMP. -/
def Obligations.StreamsReceive : Prop :=
  -- A packet of a media queue goes to the first of the queue's receive streams, in ascending order, that it
  -- matches, and one that matches none is counted; RTP and AAF are told apart, and a stream that takes claims
  -- drops AAF (R347, R349, R350). Where the spec leaves a point open it rests on log entries 26, 27.
  (∀ (s w t : State) (q : Nat) (ks : List Nat) (f : FrameRec) (pre bs : List Byte), w = work s → up w uMST →
      rxOfQueue w q = ks → (queueSt w q).frames[(queueSt w q).read]? = some f → consume 1 q w = some (pre, bs, t) →
      (etherType (f.bytes.drop 32) ≠ 0x22F0 →
        (ks = [] → exec (.rtpPacket q) s = leaves s (rxBadAny t)) ∧
        (udpOf bs = none → ∀ (k : Nat) (l : List Nat), ks = k :: l → exec (.rtpPacket q) s = leaves s (rxBadPkt k t)) ∧
        (∀ u : Udp, udpOf bs = some u →
          (∀ (l₁ l₂ : List Nat) (k : Nat) (r : RtpParts), ks = l₁ ++ k :: l₂ →
            (∀ (n : Nat) (r' : RtpParts), n ∈ l₁ → rtpParts (extId (rxW0 false w n)) u.payload = some r' →
              rtpMatch w n u r' = false) →
            rtpParts (extId (rxW0 false w k)) u.payload = some r → rtpMatch w k u r = true →
            exec (.rtpPacket q) s = leaves s (rtpPlace k q (beAt pre 2 1) f.cells r t)) ∧
          (∀ (k : Nat) (l : List Nat), ks = k :: l →
            (∀ (n : Nat) (r : RtpParts), n ∈ ks → rtpParts (extId (rxW0 false w n)) u.payload = some r →
              rtpMatch w n u r = false) →
            exec (.rtpPacket q) s = leaves s (rxBadPkt k t)))) ∧
      (etherType (f.bytes.drop 32) = 0x22F0 → ∀ p : List Byte, p = bs.drop ((vlanOf bs).2 + 2) →
        (ks = [] → exec (.aafPacket q) s = leaves s (rxBadAny t)) ∧
        (∀ (l₁ l₂ : List Nat) (k : Nat), ks = l₁ ++ k :: l₂ → (∀ n : Nat, n ∈ l₁ → aafMatch w n p = false) →
          aafMatch w k p = true →
          exec (.aafPacket q) s = leaves s (if rxClaimEn false w k then t
            else placePkt false k (rxRate w k) (rxPtime w k) (unitSt w uMST).next
              ⟨aafIndex w k (beAt p 12 4), deinterleave (rxChans w k) (rxPtime w k) (rxBytes w k) (p.drop 24), 0, 0, false,
                false, q, f.cells, some (beAt p 12 4)⟩ (legSeen k (beAt pre 2 1) none t))) ∧
        (∀ (k : Nat) (l : List Nat), ks = k :: l → (∀ n : Nat, n ∈ ks → aafMatch w n p = false) →
          exec (.aafPacket q) s = leaves s (rxBadPkt k t)))) ∧
  -- A receive stream that was out of range tries again after a second; claims not heard lapse; a stream that
  -- holds fades to zero once its gap is long enough (R360, R362, R363). Where the spec leaves a point open it
  -- rests on log entry 27.
  (∀ (s w : State) (k : Nat) (x : RxSt), w = work s →
      (up w uMST → rxOf false w k = some x → (∀ t : Nat, x.range = some t → t + 1000000000 ≤ monoNs w →
        exec (.streamRangeRetry k) s = leaves s (rxShow false k 1
          (rxMod false k (fun y => { y with range := none, slips := [], ever := false })
            ((slipMembers w k).foldl (fun u m => rxMod false m (fun y =>
              { y with delta := 0, slipTo := 0, slipPos := 0, leads := [] }) u) w))))) ∧
      (∀ lnk : Bool, up w (if lnk then uLNK else uMST) →
        exec (.claimLapse lnk k) s = leaves s (claimUpdate lnk k
          (rxMod lnk k (fun x => { x with seen := x.seen.filter (fun c => decide (monoNs w < c.2 + 2000000)) }) w)) ∧
        (rxOf lnk w k = some x → rxClaimEn lnk w k = true → x.ramp = none → x.fs / 20 ≤ x.gap.getD 0 →
          exec (.holdRamp lnk k) s = leaves s (rxMod lnk k (fun y => { y with ramp := some 0 }) w)))) ∧
  -- ARP requests for the address of a port are answered and counted; an IGMP query is answered for each group a
  -- stream has joined there (R343). Where the spec leaves a point open it rests on log entry 28.
  (∀ (s w t : State) (q : Nat) (f : FrameRec) (pre bs : List Byte), w = work s → up w uMST →
      (queueSt w q).frames[(queueSt w q).read]? = some f → consume 6 q w = some (pre, bs, t) →
      (∀ (port ip : Nat) (a : List Byte), etherType (f.bytes.drop 32) = 0x0806 → port = beAt pre 2 1 →
        a = bs.drop ((vlanOf bs).2 + 2) → ip = fld (actW w (Reg.MST_PORT_IP.at port)) 31 0 →
        (beAt a 0 2 = 1 → beAt a 2 2 = 0x0800 → beAt a 6 2 = 1 → ip ≠ 0 → beAt a 24 4 = ip →
          exec (.arpRequest q) s = leaves s (sendOwn port (ethHeader (beAt a 8 6) (daEntry w port 0) ((vlanOf bs).1) 0x0806 ++
            bytesBE 2 1 ++ bytesBE 2 0x0800 ++ bytesBE 1 6 ++ bytesBE 1 4 ++ bytesBE 2 2 ++ bytesBE 6 (daEntry w port 0) ++
            bytesBE 4 ip ++ slice a 8 6 ++ slice a 14 4) none (count Reg.MST_ARP_CNT.base t))) ∧
        (ip = 0 ∨ beAt a 24 4 ≠ ip → exec (.arpRequest q) s = leaves s t)) ∧
      (etherType (f.bytes.drop 32) ≠ 0x0806 →
        (queryGroup bs = none → exec (.igmpQuery q) s = leaves s t) ∧
        (∀ port grp : Nat, queryGroup bs = some grp → port = beAt pre 2 1 →
          exec (.igmpQuery q) s = leaves s ((listed t 0x40E00000 64 256).foldl (fun u k =>
            if joined u k port ∧ (grp = 0 ∨ grp = fld (actW u (Reg.MRX2.at k)) 31 0) then
              sendOwn port (igmpReport u port (if fld (actW u (Reg.MRX3.at k)) 31 0 = 0 then 2 else 1)
                (fld (actW u (Reg.MRX2.at k)) 31 0)
                (if fld (actW u (Reg.MRX3.at k)) 31 0 = 0 then [] else [fld (actW u (Reg.MRX3.at k)) 31 0])) none u
            else u) t))))

/-- Links come up, go down and change width. -/
def Obligations.LinksAndTheirWidth : Prop :=
  -- A link that is enabled and whose reference runs comes up at the width both ends can use; it goes down with
  -- its event, its sticky bit and the loss of its clock candidates, and what its queues hold is released; a lane
  -- that loses lock lowers the width, the last one brings the link down; SHED and RESTORE are answered (R370,
  -- R382, R383, R593). Where the spec leaves a point open it rests on log entries 20, 76.
  (∀ (s w : State) (n : Nat), w = work s → up w uLNK → n < linkCount w →
      (∀ rx tx : List Nat, lnkEn w n = true → (linkSt w n).up = false → usableLanes tx [] ≠ 0 →
        ∀ rr : List Nat, rr = (rx.foldl (fun l k => setAdd k l) (linkSt w n).rxRetired).filter (fun k => decide (k < 5)) →
        usableLanes rr [] ≠ 0 →
        (linkRef w n = false → exec (.linkUp n rx tx) s = leaves s w) ∧
        (linkRef w n = true → exec (.linkUp n rx tx) s = leaves s (linkShow n (modLink n (fun x => { x with
          up := true, rxRetired := rr, txRetired := tx, dead := [], txDead := [], rxMove := none, txMove := none,
          change := none, lowRun := 0, sent := 0, load := 0
          rxWidth := widthCap (usableLanes rr []), txWidth := widthCap (usableLanes tx []), timeSent := 0, clockSent := 0
          heard := monoNs w }) w)))) ∧
      ((linkSt w n).up = true →
        (∀ (cut : Bool) (t : State), t = raise 0x2C (bytesOf 1 n ++ bytesOf 1 0) (stick (Reg.LNK_HIST.at n) 0
            (pcsErr n (if cut then 1 else 0) (linkShow n (modLink n (fun x => { x with
              up := false, change := none, rxWidth := 0, txWidth := 0, direct := [], rxMove := none, txMove := none,
              rxRetired := match x.rxMove with | some k => setAdd k x.rxRetired | none => x.rxRetired }) w)))) →
          exec (.linkDown n cut) s = leaves s (linkDiscard n ((linkCands t n).foldl (fun u c => candLose c u) t))) ∧
        (∀ (lane frames : Nat) (t : State), lane < 5 →
          (t = modLink n (fun x => { x with dead := setAdd lane x.dead }) w → laneInMap w n lane = true →
            (usableLanes (linkSt t n).rxRetired (linkSt t n).dead ≠ 0 →
              exec (.laneLockLoss n lane frames) s = leaves s (pcsErr n frames t)) ∧
            (usableLanes (linkSt t n).rxRetired (linkSt t n).dead = 0 →
              exec (.laneLockLoss n lane frames) s = leaves s (linkDown n false (pcsErr n frames t)))) ∧
          (t = modLink n (fun x => { x with txDead := setAdd lane x.txDead }) w →
            (linkSt w n).txRetired.contains lane = false → (linkSt w n).txDead.contains lane = false →
            (lane = 4 → (linkSt w n).txRetired ≠ []) →
            (txCap t n = 0 → exec (.laneLockLoss n (lane + 5) frames) s = leaves s (linkDown n false t)) ∧
            (txCap t n ≠ 0 → (linkSt t n).change = none → txCap t n < (linkSt t n).txWidth →
              exec (.laneLockLoss n (lane + 5) frames) s = leaves s (widthGo n (txCap t n) false t)) ∧
            (txCap t n ≠ 0 → (linkSt t n).change ≠ none ∨ (linkSt t n).txWidth ≤ txCap t n →
              exec (.laneLockLoss n (lane + 5) frames) s = leaves s t))) ∧
        (∀ code arg : Nat, (code = 0x51 ∨ code = 0x52) →
          (arg = 1 ∨ arg = 2 ∨ arg = 4 → exec (.controlBlockReceive n code arg) s =
            leaves s (emit (.ctl n 0x54 code) (linkShow n (modLink n (fun x => { x with rxWidth := arg }) w)))) ∧
          (arg ≠ 1 → arg ≠ 2 → arg ≠ 4 → exec (.controlBlockReceive n code arg) s = leaves s w)) ∧
        (∀ arg : Nat,
          (arg < 4 → (linkSt w n).txRetired = [] → exec (.controlBlockReceive n 0x53 arg) s =
            leaves s (linkShow n (modLink n (fun x => { x with txMove := some arg }) w))) ∧
          (4 ≤ arg ∨ (linkSt w n).txRetired ≠ [] → exec (.controlBlockReceive n 0x53 arg) s = leaves s w)) ∧
        (∀ k : Nat, (linkSt w n).txMove = some k → widthSent w n = none →
          exec (.controlBlockReceive n 0x54 0x53) s = leaves s (moveDone n (modLink n (fun x => { x with
            txMove := none, txRetired := setAdd k x.txRetired, txDead := setDel k x.txDead }) w))) ∧
        (∀ (arg : Nat) (c : WidthChange), widthSent w n = some c →
          (arg = (if c.restore then 0x52 else 0x51) →
            exec (.controlBlockReceive n 0x54 arg) s = leaves s (widthAck n w)) ∧
          (arg ≠ (if c.restore then 0x52 else 0x51) → exec (.controlBlockReceive n 0x54 arg) s = leaves s w)))) ∧
  -- A link sheds half its lanes when its load has been low for its hold, restores them when it rises, or once a
  -- shed in progress is over, and takes a width when the peer acknowledges it; an acknowledgement that stays
  -- away is counted. A weak lane asks for its retirement (R380, R381, R382, R383). Where the spec leaves a point
  -- open it rests on log entry 76.
  (∀ (s w : State) (n : Nat), w = work s → up w uLNK → n < linkCount w →
      ((linkSt w n).up = true → (linkSt w n).change = none →
        (txCap w n < (linkSt w n).txWidth → exec (.shed n) s = leaves s (widthGo n (txCap w n) false w)) ∧
        ((linkSt w n).txWidth ≤ txCap w n → bit (lnkCfg w n) 2 = true → 1 < (linkSt w n).txWidth →
          shedHold w n ≤ (linkSt w n).lowRun →
          exec (.shed n) s = leaves s (widthGo n ((linkSt w n).txWidth / 2) false w))) ∧
      (∀ (k : Nat) (r : Bool) (t : State),
        (laneMoving t n = false → widthGo n k r t = linkShow n (emit (.ctl n (if r then 0x52 else 0x51) k)
          (modLink n (fun x => { x with change := some ⟨k, r, monoNs t, false, false⟩ }) t))) ∧
        (laneMoving t n = true → widthGo n k r t =
          linkShow n (modLink n (fun x => { x with change := some ⟨k, r, 0, false, true⟩ }) t))) ∧
      ((linkSt w n).up = true → loadOver (linkSt w n).txWidth (linkSt w n).load (restorePct w n) = true →
        ((linkSt w n).change = none → (linkSt w n).txWidth < txCap w n →
          exec (.restore n) s = leaves s (widthGo n (txCap w n) true w)) ∧
        (∀ c : WidthChange, (linkSt w n).change = some c → c.restore = false → exec (.restore n) s =
          leaves s (modLink n (fun x => { x with change := some { c with thenRestore := true } }) w))) ∧
      (∀ c : WidthChange, widthSent w n = some c →
        (∀ t : State, t = count (Reg.LNK_WIDTH_CNT.at n)
            (modLink n (fun x => { x with change := none, txWidth := c.width, lowRun := 0 }) w) →
          exec (.widthAck n) s =
            leaves s (if txCap t n < c.width then widthGo n (txCap t n) false t else widthNext n c t)) ∧
        (monoNs w < c.sent + 10000 → exec (.shedTimeout n) s = leaves s w) ∧
        (c.sent + 10000 ≤ monoNs w → exec (.shedTimeout n) s = leaves s (widthNext n c (stick (Reg.LNK_HIST.at n) 4
          (count (Reg.LNK_SHED_FAIL_CNT.at n) (modLink n (fun x => { x with change := none }) w)))))) ∧
      (∀ (c : WidthChange) (t : State),
        (c.thenRestore = true → (linkSt t n).txWidth < txCap t n → widthNext n c t = widthGo n (txCap t n) true t) ∧
        (c.thenRestore = false ∨ txCap t n ≤ (linkSt t n).txWidth → widthNext n c t = linkShow n t)) ∧
      (∀ lane : Nat, (linkSt w n).up = true → laneMoving w n = false → (linkSt w n).change = none → laneInMap w n lane = true →
        ((linkSt w n).rxRetired = [] → laneReplace n lane w =
          (true, linkShow n (emit (.ctl n 0x53 lane) (modLink n (fun y => { y with rxMove := some lane }) w)))) ∧
        ((linkSt w n).rxRetired ≠ [] → laneReplace n lane w = (false, stick (Reg.LNK_HIST.at n) 3 w))) ∧
      (∀ k : Nat, (linkSt w n).rxMove = some k → laneMoveEnd w n = moveDone n (raise 0x2D (bytesOf 1 n ++ bytesOf 1 k)
        (stick (Reg.LNK_HIST.at n) 2 (count (Reg.LNK_SPARE_CNT.at n) (emit (.ctl n 0x54 0x53) (modLink n (fun y => { y with
          rxMove := none, rxRetired := setAdd k y.rxRetired, dead := setDel k y.dead }) w)))))) ∧
      (∀ lane margin : Nat, lane < 5 →
        (weakLane w n margin = true →
          exec (.spareMove n lane margin) s = leaves s (hltRetire 5 (n * 8 + lane) 0 (laneMargin n lane margin w))) ∧
        (weakLane w n margin = false → exec (.spareMove n lane margin) s = leaves s (laneMargin n lane margin w))))

/-- Link frames are checked and sent. -/
def Obligations.LinkFramesPass : Prop :=
  -- A link frame is checked in the order of R373 and counted under the first check it fails; a good one goes to
  -- the queue of its type, or waits where its type has none (R373, R374).
  (∀ (s w : State) (n q : Nat) (bs : List Byte) (code : Bool), w = work s → up w uLNK → n < linkCount w →
      (linkSt w n).up = true →
      (linkCheck w n bs code = 1 → exec (.linkFrameReceive n bs code q) s = leaves s (pcsErr n 1
        (if 2 ≤ linkCheck w n bs false ∧ linkCheck w n bs false ≤ 4 then w
          else linkCells n (lfType bs) (min bs.length 8225) w))) ∧
      (linkCheck w n bs code = 2 → exec (.linkFrameReceive n bs code q) s = leaves s (count (Reg.LNK_RUNT_CNT.at n) w)) ∧
      (linkCheck w n bs code = 3 ∨ linkCheck w n bs code = 4 →
        exec (.linkFrameReceive n bs code q) s = leaves s (count (Reg.LNK_BAD_CNT.at n) w)) ∧
      (linkCheck w n bs code = 5 → exec (.linkFrameReceive n bs code q) s =
        leaves s (count (Reg.LNK_GIANT_CNT.at n) (linkCells n (lfType bs) 8225 w))) ∧
      (linkCheck w n bs code = 6 → exec (.linkFrameReceive n bs code q) s =
        leaves s (count (Reg.LNK_ALIGN_CNT.at n) (linkCells n (lfType bs) bs.length w))) ∧
      (linkCheck w n bs code = 7 → exec (.linkFrameReceive n bs code q) s =
        leaves s (count (Reg.LNK_CRC_CNT.at n) (linkCells n (lfType bs) bs.length w))) ∧
      (linkCheck w n bs code = 0 →
        (linkQueue w n (lfType bs) = none → exec (.linkFrameReceive n bs code q) s = leaves s
          (count (Reg.LNK_RX_OK_CNT.at n) (modLink n (fun x =>
            { x with inbox := x.inbox ++ [(lfType bs, bs, stampNow w + (q * 16384 : Nat))] }) w))) ∧
        (∀ k : Nat, linkQueue w n (lfType bs) = some k →
          (qEn w k = false ∨ qTx w k = true → exec (.linkFrameReceive n bs code q) s = leaves s (noCell k w)) ∧
          (∀ (ok : Bool) (t : State), qEn w k = true → qTx w k = false →
            storeFrame k (prefixOf bs.length (8 + n) 1 0 0xFF w q) (bs.take (bs.length - 4)) bs.length w = (ok, t) →
            exec (.linkFrameReceive n bs code q) s = leaves s (if ok then count (Reg.LNK_RX_OK_CNT.at n) t else t))))) ∧
  -- Time and clock frames go out when they are due; a link's transmitter sends its own frames first, HEARTBEAT
  -- before TIME before CLOCK, then one frame of the highest class that waits; a link that is down discards what
  -- its queues hold (R376, R378, R379).
  (∀ (s w : State) (n : Nat), w = work s → up w uLNK → n < linkCount w →
      ((linkSt w n).up = true → lnkTimeEn w n = true →
        (linkSt w n).timeSent = 0 ∨ (linkSt w n).timeSent + timeInt w n ≤ monoNs w → ∀ (tx rx : Int) (p : List Byte),
        (linkSt w n).echo.getD (0, 0) = (tx, rx) →
        p = List.replicate 16 0 ++ stampBytes tx ++ stampBytes rx ++ bytesOf 1
            ((if (timeSource w).isSome || w.tim.portState == 6 then 1 else 0) + if (linkSt w n).echo.isSome then 2 else 0) ++
          bytesOf 1 (scaleNow w) ++ bytesOf 8 w.tim.gmId ++ bytesOf 1 (fld (regW w Reg.TIM_PTP_STAT.base) 15 8) ++
          List.replicate 5 0 →
        exec (.timeFrameSend n) s =
          leaves s (sendDirect n 7 p (modLink n (fun y => { y with timeSent := max 1 (monoNs w) }) w))) ∧
      ((linkSt w n).up = true → lnkTimeEn w n = true →
        (linkSt w n).clockSent = 0 ∨ (linkSt w n).clockSent + 100000000 ≤ monoNs w ∨
          (linkSt w n).clockState ≠ some w.clk.state →
        exec (.clockFrameSend n) s = leaves s (sendDirect n 8
          (bytesOf 4 (fld (regW w Reg.CLK_STAT.base) 15 0) ++ bytesOf 4 (regW w Reg.CLK_FREQ.base).toNat ++
            bytesOf 4 (regW w Reg.CLK_PHASE.base).toNat ++ List.replicate 20 0)
          (modLink n (fun y => { y with clockSent := max 1 (monoNs w), clockState := some w.clk.state }) w))) ∧
      ((linkSt w n).up = false → exec (.linkFrameTransmit n) s =
        leaves s (snapSend snapSegs ((linkQueues w n).foldl (fun t q =>
          countN (Reg.LNK_TX_DISCARD_CNT.at n) (queueSt t q).frames.length (queueFlush q t)) w))) ∧
      (∀ (b b' : List Byte) (k : Nat) (t : State), k = tabGet 0 (linkSt t n).seqs (lfType b) →
        b' = b.take 20 ++ bytesOf 4 k ++ b.drop 24 →
        linkWire n b t = emit (.link n (b' ++ bytesOf 4 (crc32c b'))) (count (Reg.LNK_TX_OK_CNT.at n) (modLink n (fun y =>
          { y with sent := y.sent + b'.length + 4, seqs := tabSet (lfType b) (k + 1) y.seqs }) t))) ∧
      ((linkSt w n).up = true → widthSent w n ≠ none → exec (.linkFrameTransmit n) s = leaves s (snapSend snapSegs w)) ∧
      ((linkSt w n).up = true → widthSent w n = none →
        ∀ goes : List Byte → State → State, goes = (fun b t => snapSend snapSegs (linkWire n b t)) →
        (∀ b : List Byte, (linkSt w n).direct.find? (fun f => f.1 == 5) = some (5, b) →
          exec (.linkFrameTransmit n) s =
            leaves s (goes b (modLink n (fun y => { y with direct := y.direct.erase (5, b) }) w))) ∧
        ((linkSt w n).direct.find? (fun f => f.1 == 5) = none →
          (∀ b : List Byte, (linkSt w n).direct.find? (fun f => f.1 == 7) = some (7, b) →
            exec (.linkFrameTransmit n) s =
              leaves s (goes (stampTime w b) (modLink n (fun y => { y with direct := y.direct.erase (7, b) }) w))) ∧
          ((linkSt w n).direct.find? (fun f => f.1 == 7) = none →
            (∀ b : List Byte, (linkSt w n).direct.find? (fun f => f.1 == 8) = some (8, b) →
              exec (.linkFrameTransmit n) s =
                leaves s (goes b (modLink n (fun y => { y with direct := y.direct.erase (8, b) }) w))) ∧
            ((linkSt w n).direct.find? (fun f => f.1 == 8) = none →
              ∀ (c q : Nat) (f : FrameRec) (rest : List FrameRec) (body : List Byte), linkNext w n c = some q →
              c = 1 ∨ (linkNext w n 1 = none ∧ (c = 2 ∨ (linkNext w n 2 = none ∧ c = 0))) →
              (queueSt w q).frames = f :: rest → body = f.bytes.drop 32 →
              exec (.linkFrameTransmit n) s = leaves s (goes body
                (modLink n (fun y => { y with served := tabSet c q y.served })
                  (modQueue q (fun y => { y with frames := rest, read := y.read - 1, mark := y.mark - 1 }) w))))))))

/-- Link frames and snapshot segments act. -/
def Obligations.LinkFramesAndSegmentsAct : Prop :=
  -- Frames a link carries act by type: audio blocks are placed in their stream, with their claim where it takes
  -- claims, heartbeats and health reach pairing, time frames give the phase of the link's clock candidate, or a
  -- glitch, clock frames the peer's clock (R375, R376, R378, R551, R555). Where the spec leaves a point open it
  -- rests on log entries 26, 44.
  (∀ (s w t : State) (n q : Nat) (bs : List Byte), w = work s → up w uLNK →
      (∀ (k c chans : Nat) (x : RxSt) (fs : Nat) (smp : List (List Int)), takeLink 1 q w = some (n, bs, c, t) →
        k = n * 32 + lfId bs % 32 → rxOf true t k = some x → x.stopped = false → lfId bs / 32 % 4 ≠ 3 →
        chans = lfId bs / 256 % 64 + 1 → lfPaylen bs = 48 * chans →
        fs = (if lfId bs / 32 % 4 = 0 then 48000 else if lfId bs / 32 % 4 = 1 then 96000 else 192000) →
        smp = (List.range chans).map (fun c => (List.range 16).map (fun j =>
          signed 24 (getLE (lfPayload bs) ((j * chans + c) * 3) 3))) →
        (rxClaimEn true t k = false →
          exec (.audioFrame q) s = leaves s (placePkt true k fs 16 (unitSt w uLNK).next
            ⟨(lfSidx bs : Int), smp, 0, lfTdata bs, Nat.testBit (lfVf bs) 4, Nat.testBit (lfVf bs) 5, q, c, none⟩
            (rxMod true k (fun y => { y with fs := fs }) t))) ∧
        (∀ (ok : Bool) (u : State), rxClaimEn true t k = true → claimSeen true k (lfClaim bs) t = (ok, u) →
          exec (.audioFrame q) s = leaves s (if ok then placePkt true k fs 16 (unitSt w uLNK).next
              ⟨(lfSidx bs : Int), smp, lfClaim bs, lfTdata bs, Nat.testBit (lfVf bs) 4, Nat.testBit (lfVf bs) 5, q, c, none⟩
              (rxMod true k (fun y => { y with fs := fs }) u)
            else u))) ∧
      (∀ c : Nat, unitPresent w uPAR = true → takeLink 4 q w = some (n, bs, c, t) → paired w = true →
        (pairLinks w).contains n = true → 32 ≤ (lfPayload bs).length →
        exec (.healthReceive q) s = leaves s (modPar (fun x =>
          { x with healthAt := some (monoNs w), pCriteria := getLE (lfPayload bs) 20 4 }) t)) ∧
      (n < linkCount w →
        (∀ e : Int, unitPresent w uPAR = true → takeInbox n 5 w = some (bs, e, t) → paired w = true →
          (pairLinks w).contains n = true → 32 ≤ (lfPayload bs).length → w.par.hbLost = false →
          (getLE (lfPayload bs) 1 1 = ownRank w → exec (.heartbeatReceive n) s = .fault .equalRanks) ∧
          (getLE (lfPayload bs) 1 1 ≠ ownRank w →
          getLE (lfPayload bs) 2 1 % 2 = 0 → w.par.role ≠ 1 →
          exec (.heartbeatReceive n) s = leaves s (modPar (fun x => { x with
            hbAt := some (monoNs w), hbLost := false, hbMissed := 0, pRole := getLE (lfPayload bs) 0 1 % 4
            pRank := getLE (lfPayload bs) 1 1, pSnap := getLE (lfPayload bs) 16 4, pYield := false
            leadAt := if getLE (lfPayload bs) 0 1 % 4 = 1 then some (monoNs w) else x.leadAt
            leadSnap := if getLE (lfPayload bs) 0 1 % 4 = 1 then some (getLE (lfPayload bs) 16 4) else x.leadSnap
            barred := x.barred ||
              !(getLE (lfPayload bs) 0 1 % 4 == 2 && decide (getLE (lfPayload bs) 1 1 < ownRank w)) })
            (seeEpoch (getLE (lfPayload bs) 4 3) (hbMisses t))))) ∧
        (∀ (e pr fr : Int) (u : State), takeInbox n 7 w = some (bs, e, t) →
          u = modLink n (fun x => { x with echo := some (stampOf (lfPayload bs) 0, e) }) t →
          (getLE (lfPayload bs) 48 1 % 4 ≠ 3 → exec (.timeFrame n pr fr) s = leaves s u) ∧
          (∀ v : State, getLE (lfPayload bs) 48 1 % 4 = 3 →
            v = linkGmSeen n (getLE (lfPayload bs) 50 8) (modLink n (fun x => { x with heard := monoNs w }) u) →
            (linkCands v n = [] → exec (.timeFrame n pr fr) s = leaves s v) ∧
            (∀ (c : Nat) (d ph : Int), linkCands v n = [c] →
              d = ((e - stampOf (lfPayload bs) 16) - (stampOf (lfPayload bs) 0 - stampOf (lfPayload bs) 32)) / 2 →
              ph = stampOf (lfPayload bs) 0 + d - e + sfld (actW w (Reg.LNK_ASYM.at n)) 31 0 * 256 →
              (655360000 < (-ph - pr).natAbs → (cand v c).fresh = false → (cand v c).state = 2 ∨ (cand v c).state = 3 →
                exec (.timeFrame n pr fr) s = leaves s (candGlitch c v)) ∧
              ((-ph - pr).natAbs ≤ 655360000 ∨ (cand v c).fresh = true → (cand v c).state = 2 ∨ (cand v c).state = 3 →
                exec (.timeFrame n pr fr) s =
                  leaves s (phaseSeen c ph fr (cand v c).fresh (modCand c (fun y => { y with fresh := false }) v))) ∧
              ((cand v c).state = 1 ∨ (cand v c).state = 4 →
                exec (.timeFrame n pr fr) s = leaves s (phaseSeen c ph fr (cand v c).fresh
                  (modCand c (fun y => { y with fresh := false })
                    (candGo c 2 (modCand c (fun y => { y with fresh := false }) v)))))))) ∧
        (∀ e : Int, takeInbox n 8 w = some (bs, e, t) →
          exec (.clockFrame n) s = leaves s (setN (Reg.LNK_PEER_CLK.at n) (getLE (lfPayload bs) 0 4) t)))) ∧
  -- A snapshot segment of the paired device at offset 0 opens the next slot of a FOLLOW; later ones fill it
  -- (R377, R558).
  (∀ (s w t u : State) (n c q : Nat) (bs p : List Byte), w = work s → up w uLNK → unitPresent w uPAR = true →
      takeLink 3 q w = some (n, bs, c, t) → p = lfPayload bs → paired w = true → w.par.role = 2 →
      (pairLinks w).contains n = true → 16 ≤ p.length →
      (getLE p 4 4 = 0 → t.par.filling = none →
        slotTake (nextSlot t) (getLE p 0 4) 0 (getLE p 8 4) ((lfVf bs).testBit 6) (p.drop 16)
          (modPar (fun x => { x with filling := some (nextSlot t) })
            (modSlot (nextSlot t) (fun _ => ⟨false, getLE p 0 4, getLE p 8 4, 0⟩) t)) = .ok u →
        exec (.snapshotSegment q) s = leaves s u) ∧
      (∀ (f : Nat) (v : State), getLE p 4 4 = 0 → t.par.filling = some f →
        v = slotBad f (slotOf t f).seq (slotOf t f).total t →
        slotTake (nextSlot t) (getLE p 0 4) 0 (getLE p 8 4) ((lfVf bs).testBit 6) (p.drop 16)
          (modPar (fun x => { x with filling := some (nextSlot t) })
            (modSlot (nextSlot t) (fun _ => ⟨false, getLE p 0 4, getLE p 8 4, 0⟩) v)) = .ok u →
        exec (.snapshotSegment q) s = leaves s u) ∧
      (∀ f : Nat, getLE p 4 4 ≠ 0 → t.par.filling = some f →
        slotTake f (getLE p 0 4) (getLE p 4 4) (getLE p 8 4) ((lfVf bs).testBit 6) (p.drop 16) t = .ok u →
        exec (.snapshotSegment q) s = leaves s u) ∧
      (getLE p 4 4 ≠ 0 → t.par.filling = none → (slotOf t (nextSlot t)).seq ≠ getLE p 0 4 →
        exec (.snapshotSegment q) s = leaves s (slotBad (nextSlot t) (getLE p 0 4) (getLE p 8 4) t)))

/-- Serial audio ports. -/
def Obligations.SerialPortsFollow : Prop :=
  -- A slave port slips a frame where it runs, stops where its clock is out of range, and comes back where it is
  -- in range again; a lost clock takes its audio out (R395, R396, R397). Where the spec leaves a point open it
  -- rests on log entries 20, 72.
  (∀ (s w : State) (aes : Bool) (p : Nat), w = work s → up w (serUnit aes) → p < serCount aes w → serSlave aes w p = true →
      (∀ ahead : Bool, (serOf aes w p).state = 2 → serRendered w (serOf aes w p).rate = true →
        exec (.portSlip aes p ahead) s = leaves s (stick (serHist aes p) 2 (count (serSlipCnt aes p)
          (serMod aes p (fun y => { y with slip := y.slip + if ahead then 1 else -1 }) w)))) ∧
      (∀ (rate : Nat) (ppm : Int) (t u : State),
        t = setN (serPpm aes p) (lowBits 32 ppm) (setF (serStat aes p) 31 14 rate
          (serMod aes p (fun y => { y with ppm := ppm }) w)) →
        u = setN (serPpm aes p) (lowBits 32 ppm) (serMod aes p (fun y =>
          { y with ppm := ppm, rangeAt := if slipPpm aes t p < ppm.natAbs then monoNs t else y.rangeAt }) t) →
        (slipPpm aes t p < ppm.natAbs → (serOf aes t p).state = 1 ∨ (serOf aes t p).state = 2 →
          serRendered t (serOf aes t p).rate = true → serSlave aes t p = true →
          exec (.portOutOfRange aes p rate ppm) s = leaves s (serClkEvent aes p (stick (serHist aes p) 3
            (serShow aes p 4 (serMod aes p (fun y => { y with flow := .rampOut }) u))))) ∧
        (ppm.natAbs ≤ slipPpm aes t p → exec (.portOutOfRange aes p rate ppm) s = leaves s u)) ∧
      (∀ ppm : Int, (serOf aes w p).state = 4 → ppm.natAbs ≤ slipPpm aes w p →
        (serOf aes w p).rangeAt + 1000000000 ≤ monoNs w →
        exec (.portRangeReturn aes p ppm) s = leaves s (serReturn aes p (setN (serPpm aes p) (lowBits 32 ppm)
          (serMod aes p (fun y => { y with ppm := ppm }) w)))) ∧
      ((serOf aes w p).state = 1 ∨ (serOf aes w p).state = 2 ∨ (serOf aes w p).state = 4 →
        ∀ f : PortFlow, f = (if serRxOn aes w p = true ∧ (serOf aes w p).flow ≠ .mute then .rampOut else .mute) →
        exec (.portClockLoss aes p) s = leaves s (serClkEvent aes p (stick (serHist aes p) 0 (count (serLostCnt aes p)
          (serShow aes p 3 (serMod aes p (fun y => { y with flow := f }) w)))))) ∧
      (∀ rate : Nat, (serOf aes w p).state = 3 → rateKnown rate = true → rateMoved (serOf aes w p).rate rate = false →
        exec (.portClockReturn aes p rate) s = leaves s (serSource aes p (serReturn aes p (setF (serStat aes p) 31 14 rate w))))) ∧
  -- A glitch repeats the last frame and is counted, and the third in a second loses the clock; a new rate is
  -- reported, a port that learns its rate takes it, another loses its clock, and converters fed by it lock anew
  -- (R81, R397). Where the spec leaves a point open it rests on log entry 20.
  (∀ (s w : State) (aes : Bool) (p : Nat), w = work s → up w (serUnit aes) → p < serCount aes w → serSlave aes w p = true →
      ((serOf aes w p).state = 3 → exec (.portGlitch aes p) s = leaves s (count (serGlitchCnt aes p) w)) ∧
      (∀ (recent : List Nat) (t : State), (serOf aes w p).state = 1 ∨ (serOf aes w p).state = 2 ∨ (serOf aes w p).state = 4 →
        recent = monoNs w :: (serOf aes w p).glitches.filter (fun t => decide (monoNs w < t + 1000000000)) →
        t = serMod aes p (fun y => { y with glitches := recent }) w →
        ∀ u : State, u = count (serGlitchCnt aes p) (if serRxOn aes w p = true ∧ (serOf aes w p).state = 2 then
          serKeep aes p 0 (serOf aes w p).newest t else t) →
        exec (.portGlitch aes p) s = leaves s (if 3 ≤ recent.length then serLose aes p u else u)) ∧
      (∀ (rate : Nat) (t u : State), 1 ≤ (serOf aes w p).state → (serOf aes w p).state ≤ 4 →
        rateMoved (serOf aes w p).rate rate = true →
        ((serOf aes w p).state = 3 → rateMoved (fld (regW w (serStat aes p)) 31 14) rate = true) →
        t = raise (if aes then 0x34 else 0x31) (bytesOf 1 p ++ [0] ++ bytesOf 4 rate)
          (stick (serHist aes p) 1 (setF (serStat aes p) 31 14 rate w)) →
        u = (if serCode aes w p = 0 then serMod aes p (fun y => { y with rate := rateNear rate }) t else serLose aes p t) →
        exec (.portRateChange aes p rate) s = leaves s (((chansOfPort aes u p).filter (fun c => (chanSt u c).hasAsrc)).foldl
          (fun v c => relock c v) u))) ∧
  -- A port whose enable is cleared is written as its register says; a port whose START acts passes audio from
  -- that block; new MCLK codes change the frequencies of the pins they name (R391, R398).
  (∀ (s w : State) (aes : Bool) (p : Nat), w = work s → up w (serUnit aes) → p < serCount aes w →
      (∀ (a : Nat) (t : State), a = (if aes then Reg.AES_CFG.at p else Reg.TDM_CFG.at p) →
        writeWord 3 a (putFld (regW w a) 31 31 0) w = .ok t → exec (.portEnClear aes p) s = leaves s t) ∧
      ((serOf aes w p).state ≠ 2 → (serOf aes (openBlock (serUnit aes) w) p).state = 2 →
        exec (.portDataBegin aes p) s = leaves s (openBlock (serUnit aes) w)) ∧
      (aes = false → ∀ (new : Nat) (hz : Nat → Nat → Nat), new = actF w Reg.TDM_MCLK.base 17 0 →
        (∀ v m : Nat, hz v m = mclkHz (v / 8 ^ m % 8)) →
        exec .mclkChange s = leaves s ((List.range 6).foldl (fun t m =>
          if hz new m = hz w.ser.mclk m then t else emit (.mclk m (hz new m)) t)
          { w with ser := { w.ser with mclk := new } }))) ∧
  -- A channel status block whose CRC is wrong is counted and dropped; one that stands and differs is kept, and
  -- said by an event (R400).
  (∀ (s w : State) (p : Nat) (sub : Bool) (bs : List Byte), w = work s → up w uAES → p < serCount true w →
      serRxOn true w p = true → bs.length = 24 →
      ((nth 0 bs 0).toNat % 2 = 1 → (nth 0 bs 23).toNat ≠ 0 → (nth 0 bs 23).toNat ≠ csCrc bs →
        exec (.aesCsBlock p sub bs) s = leaves s (count (Reg.AES_CS_CRC_CNT.at p) w)) ∧
      ((nth 0 bs 0).toNat % 2 = 0 ∨ (nth 0 bs 23).toNat = 0 ∨ (nth 0 bs 23).toNat = csCrc bs →
        ∀ (old : List Byte) (t u : State) (n : Nat),
        old = (List.range 6).flatMap (fun k => bytesOf 4 (fld (regW w (if sub then Reg.AES_CS_RXB.at p k
          else Reg.AES_CS_RXA.at p k)) 31 0)) →
        t = (List.range 6).foldl (fun t k => setN (if sub then Reg.AES_CS_RXB.at p k else Reg.AES_CS_RXA.at p k)
          (getLE bs (4 * k) 4) t) w →
        n = (if fld (regW t (Reg.AES_CS_RXA.at p 0)) 7 0 / 2 % 2 == 1 || fld (regW t (Reg.AES_CS_RXB.at p 0)) 7 0 / 2 % 2 == 1
          then 1 else 0) →
        u = setF (Reg.AES_STAT.at p) 6 6 n (setF (Reg.AES_STAT.at p) 5 5 (if (nth 0 bs 0).toNat % 2 = 1 then 0 else 1)
          (setF (Reg.AES_STAT.at p) 4 4 1 t)) →
        exec (.aesCsBlock p sub bs) s = leaves s (if old = bs ∧ bit (regW w (Reg.AES_STAT.at p)) 4 = true then u
          else raise 0x35 (bytesOf 1 p ++ bytesOf 1 (if sub then 1 else 0)) (stick (Reg.AES_HIST.at p) 5 u))))

/-- Supplies, reset, unit restarts and heat. -/
def Obligations.SuppliesResetUnits : Prop :=
  -- Supplies that become valid begin a start unless reset is held; reset stops the device and its release begins
  -- a start anew, or waits for the supplies (R410, R579). Where the spec leaves a point open it rests on log
  -- entry 10.
  (∀ (s w : State) (img rank : Nat), w = work s →
      (∀ pins : Nat, s.start.supplies = false → ∀ t : State, t = straps img (pins % 4) { w with
          start := { w.start with supplies := true, refs := pins / 4 % 4 }, time := { w.time with mono := 0 }
          sec := { w.sec with executing := none, latched := [], tampered := false } } →
        exec (.suppliesValid img pins) s =
          leaves s (if w.start.resetLow then modStart (fun x => { x with epoch := 0 }) t else startBegin 0 none t)) ∧
      (s.start.resetLow = false → exec .resetAssert s = leaves s
        (modStart (fun x => { x with resetLow := true }) (if s.start.supplies then resetMachine w else w))) ∧
      (s.start.resetLow = true → exec (.resetRelease img rank) s =
        leaves s (if s.start.supplies then startBegin (if w.start.epoch = 0 then 0 else 1) none
            (straps img rank (modStart (fun x => { x with resetLow := false }) w))
          else modStart (fun x => { x with resetLow := false }) w))) ∧
  -- A unit that has hung restarts and is counted; a supply that leaves its range is an event, and one that is
  -- lost takes the machine back to its unpowered state, the fuses kept; heat stops the device until it has
  -- cooled (R578, R584, R590, R600). A supply lost while fuses are being programmed is outside the contract, a
  -- fault by name (R585). Where the spec leaves a point open it rests on log entries 20, 21, 46.
  (∀ (s w : State), w = work s →
      (∀ u ms : Nat, running w = true → 50 ≤ ms → u ≤ 3 → (u = 3 → unitPresent w uMEA = true) → ∀ t : State,
        t = setN Reg.HLT_UNIT_LAST.base u (count Reg.HLT_UNIT_RESTART_CNT.base w) →
        exec (.unitRestart u ms) s =
          leaves s (if u = 0 then restartCmd t else if u = 3 then restartMea t else restartDma (u == 2) t)) ∧
      (∀ m ns : Nat, running w = true → m ≤ 11 → 1000 ≤ ns → w.hlt.supplies.contains m = false →
        exec (.supplyOutOfRange m ns true) s = leaves s (raise 0x9B (bytesOf 1 m) (stick Reg.HLT_STAT.base 4
          (modHlt (fun h => { h with supplies := setAdd m h.supplies }) w)))) ∧
      (∀ us : Nat, s.start.supplies = true → 10 ≤ us →
        (s.sec.executing = none → exec (.supplyLoss us) s = .next (unpowered s)) ∧
        (s.sec.executing.isSome = true → exec (.supplyLoss us) s = .fault .lcCutShort)) ∧
      (∀ (tj : Int) (us : Nat), w.start.supplies = true → 125 * 256 < tj → 1000 ≤ us → w.start.hot = false →
        exec (.overTemperature tj us) s = leaves s (modStart (fun x => { x with hot := true })
          (resetMachine (modHlt (fun h => { h with tj := tj }) w)))) ∧
      (∀ tj : Int, w.start.hot = true → tj < 105 * 256 → w.start.resetLow = false →
        exec (.cooldownStart tj) s = leaves s (startBegin 3 none (modHlt (fun h => { h with tj := tj }) w))))

/-- A start goes from its self-test through the window to the load: a flash or DRAM that will not do ends it, the window
takes the driver's request, each section that is sound loads, and once all have every unit starts at the first block
of the next tick (R411, R414, R416, R417, R421, R423, R426, R427, R428). Where the spec leaves a point open it rests
on log entries 22, 40, 41, 42. -/
def Obligations.StartsGoThroughTheirStages : Prop :=
  ∀ (s w : State), w = work s → powered w = true →
    (∀ (x : BistIn) (t : State), w.start.stage = 2 →
      t = x.bad.foldl bistFail (wearScan (flashShow (modStart (fun y =>
        { y with flashMib := min 256 x.flashMib, slotA := x.slotA, slotB := x.slotB }) (strapsTake x.straps w)))) →
      (x.flashMib < 64 → exec (.bistComplete x) s = .fault .smallFlash) ∧
      (64 ≤ x.flashMib → 4 ≤ x.speed → exec (.bistComplete x) s = leaves s (stageGo 9 (slotShow t))) ∧
      (64 ≤ x.flashMib → x.speed < 4 → exec (.bistComplete x) s = leaves s (imageSelect
        ((rowsDue (dramReady x.speed x.fitted t)).foldl rowRepair (dramReady x.speed x.fitted t))))) ∧
    (∀ req v : Nat, w.start.stage = 3 → v = rd32 w 40 % 2 → req = (if v = 1 then rdN w 8 32 else 2 ^ 64 - 1) →
      exec .startWindowClose s = leaves s (stageGo 4 (modStart (fun x => { x with loading := true }) (acceptForm
        (setF Reg.FEA_STAT.base 1 1 v (setN Reg.FEA_DRIVER_REQ_HI.base (req / 2 ^ 32)
          (setN Reg.FEA_DRIVER_REQ_LO.base (req % 2 ^ 32) w))))))) ∧
    (∀ (x : Section) (t : State), w.start.stage = 4 → w.start.loading = true →
      x = sectionAt (slotImage w w.start.slotSel) w.start.secOfs → w.start.secOfs + 16 + x.len ≤ imgLen w w.start.slotSel →
      (w.start.secNo = 0 → x.typ = 1) → (1 ≤ x.typ → x.typ ≤ 11 → sectionOk w x = true ∧ placeOk w x = true) →
      sectionLoad x w = .ok (0, t) → crc32c x.pay = x.crc → w.start.secNo + 1 ≠ imgSections w w.start.slotSel →
      exec .sectionLoad s = leaves s (modStart (fun y => { y with secNo := y.secNo + 1
                                                                  secOfs := (w.start.secOfs + 16 + x.len + 15) / 16 * 16
                                                                  loading := true }) t)) ∧
    (w.start.stage = 4 → w.start.loading = false → ∀ (b : Nat) (n₀ n₁ n₂ n₃ : State),
      n₀ = timeStart (if actF w Reg.SYS_RENDER_RATE.base 1 0 = 2 ∧ accepted w 1 = false then
        setF Reg.FEA_STAT.base 2 2 1 (stageGo 5 (stageAll (timeStart w))) else stageGo 5 (stageAll (timeStart w))) →
      b = tickStart n₀ (nowTick n₀ + 1) →
      n₁ = [uINC, uRTE, uMOT, uSLV, uCOR].foldl (fun t u => loadCommit b (timeStart w) t u) (logicalStart (unitsStart b n₀)) →
      n₂ = candsStart (mclkChange (bootSet (objsStart (b / tickBlocks n₁) n₁))) →
      n₃ = parStart (wearFlush (setF Reg.FEA_STAT.base 0 0 1 (storeBytes
        (if ptpOn (bootSet (objsStart (b / tickBlocks n₁) n₁)) then ptpEnable n₂ else n₂) 52 [1]))) →
      exec .loadComplete s = leaves s (lnkTxRefresh b (rxRefresh true (txRefresh b (rxRefresh false
        (ringRefresh b (serRefresh true b (serRefresh false b { n₃ with
          mst := { n₃.mst with claims := [(0, n₃.par.claim)] }
          lnk := { n₃.lnk with claims := [(0, n₃.par.claim)] } }))))))))

/-- The test port: BYPASS is one stage, IDCODE shifts out 32 bits least significant first, SAMPLE takes the balls'
levels, EXTEST drives them (R598). Where the spec leaves a point open it rests on log entry 13. -/
def Obligations.TestPortShifts : Prop :=
  ∀ (s w : State) (bs : List Bool), w = work s → s.start.supplies = true →
    (exec (.bypass false bs) s = leaves s (emit (.tdo ((false :: bs).take bs.length))
      { w with tap := { w.tap with ir := .bypass } })) ∧
    (exec (.idcode false bs) s = leaves s (emit (.tdo
      (((List.range 32).map (fun (j : Nat) => (idcodeWord w).testBit j) ++ bs).take bs.length))
      { w with tap := { w.tap with ir := .idcode } })) ∧
    (∀ (balls : List Bool) (u : State), sampleBalls bs.length { w with tap := { w.tap with ir := .sample } } = (balls, u) →
      exec (.samplePreload false bs) s = leaves s (emit (.tdo balls) { u with tap := { u.tap with cells := bs } })) ∧
    (w.start.resetLow = false → exec (.extest false bs) s = leaves s (emit (.tdo ((false :: bs).take bs.length))
      { w with tap := { w.tap with ir := .extest } })) ∧
    (∀ t : State, t = emit (.balls w.tap.cells) { w with tap := { w.tap with ir := .extest } } → w.start.resetLow = true →
      exec (.extest false bs) s = leaves s (emit (.balls bs) (emit (.tdo (sampleBalls bs.length t).1)
        { (sampleBalls bs.length t).2 with tap := { (sampleBalls bs.length t).2.tap with cells := bs } }))) ∧
    (exec (.bypass true bs) s = leaves s (tapReset w))

/-- Druora ALU instructions and their flags (C of a shift by 0 is a free value). -/
def Obligations.AluResults : Prop :=
  -- ALU instructions of two registers: Rd takes the result and SR the flags of the table of R469, and the core
  -- goes on to its next instruction (R469).
  (∀ (s w : State) (n d : Nat) (i x y : Word), w = work s → i = fetchWord w n → x = dReg (coreOf w n) (fld i 18 15) →
      y = dReg (coreOf w n) (fld i 14 11) → d = fld i 22 19 →
      (druReady w n .add → exec (.add n) s = leaves s (druResult n d (aluAdd x y) w)) ∧
      (druReady w n .sub → exec (.sub n) s = leaves s (druResult n d (aluSub x y) w)) ∧
      (druReady w n .adds → exec (.adds n) s = leaves s (druResult n d (aluSat (x.toInt + y.toInt)) w)) ∧
      (druReady w n .subs → exec (.subs n) s = leaves s (druResult n d (aluSat (x.toInt - y.toInt)) w)) ∧
      (druReady w n .and → exec (.and n) s = leaves s (druResult n d (aluNz (x &&& y)) w)) ∧
      (druReady w n .or → exec (.or n) s = leaves s (druResult n d (aluNz (x ||| y)) w)) ∧
      (druReady w n .xor → exec (.xor n) s = leaves s (druResult n d (aluNz (x ^^^ y)) w)) ∧
      (druReady w n .min → exec (.min n) s = leaves s (druResult n d (aluNz (if x.toInt ≤ y.toInt then x else y)) w)) ∧
      (druReady w n .max → exec (.max n) s = leaves s (druResult n d (aluNz (if x.toInt ≤ y.toInt then y else x)) w)) ∧
      (druReady w n .abs → exec (.abs n) s = leaves s (druResult n d (aluSatNz x.toInt.natAbs) w)) ∧
      (druReady w n .neg → exec (.neg n) s = leaves s (druResult n d (aluSatNz (-x.toInt)) w)) ∧
      (druReady w n .mul → exec (.mul n) s = leaves s (druResult n d (aluNz (x * y)) w)) ∧
      (druReady w n .mov → exec (.mov n) s = leaves s (druResult n d (aluNz x) w)) ∧
      (druReady w n .cls → exec (.cls n) s = leaves s (druResult n d (aluCls x) w)) ∧
      (druReady w n .cmp → exec (.cmp n) s = leaves s (coreDone n (modCore n (setFlags (aluSub x y).2) w)))) ∧
  -- ALU instructions with an immediate (R470).
  (∀ (s w : State) (n d k : Nat) (i x : Word), w = work s → i = fetchWord w n → x = dReg (coreOf w n) (fld i 20 17) →
      d = fld i 24 21 → k = fld i 16 0 →
      (druReady w n .addi → exec (.addi n) s = leaves s (druResult n d (aluAdd x (wordOfInt (signed 17 k))) w)) ∧
      (druReady w n .andi → exec (.andi n) s = leaves s (druResult n d (aluNz (x &&& wordOf k)) w)) ∧
      (druReady w n .ori → exec (.ori n) s = leaves s (druResult n d (aluNz (x ||| wordOf k)) w)) ∧
      (druReady w n .xori → exec (.xori n) s = leaves s (druResult n d (aluNz (x ^^^ wordOf k)) w)) ∧
      (druReady w n .cmpi → exec (.cmpi n) s =
        leaves s (coreDone n (modCore n (setFlags (aluSub x (wordOfInt (signed 17 k))).2) w))) ∧
      (druReady w n .movi → exec (.movi n) s = leaves s (coreDone n (modCore n (writeReg d (wordOfInt (signed 17 k))) w))) ∧
      (druReady w n .movhi → exec (.movhi n) s = leaves s (coreDone n (modCore n (writeReg d (wordOf k <<< 15)) w)))) ∧
  -- Shifts: C is the last bit shifted out, and a free value for a shift by 0, where the spec names no such bit
  -- (assumption log) (R469, R470). Where the spec leaves a point open it rests on log entry 4.
  (∀ (s w t : State) (n : Nat) (i : Word) (b : Bool), w = work s → i = fetchWord w n → drawBit w = (b, t) →
      (∀ x y : Word, x = dReg (coreOf w n) (fld i 18 15) → y = dReg (coreOf w n) (fld i 14 11) →
        (druReady w n .shl → exec (.shl n) s = leaves s (druResult n (fld i 22 19) (aluShl b x (y.toNat % 32)) t)) ∧
        (druReady w n .shr → exec (.shr n) s = leaves s (druResult n (fld i 22 19) (aluShr b x (y.toNat % 32)) t)) ∧
        (druReady w n .asr → exec (.asr n) s = leaves s (druResult n (fld i 22 19) (aluAsr b x (y.toNat % 32)) t))) ∧
      (∀ x : Word, x = dReg (coreOf w n) (fld i 20 17) →
        (druReady w n .shli → exec (.shli n) s = leaves s (druResult n (fld i 24 21) (aluShl b x (fld i 16 0 % 32)) t)) ∧
        (druReady w n .shri → exec (.shri n) s = leaves s (druResult n (fld i 24 21) (aluShr b x (fld i 16 0 % 32)) t)) ∧
        (druReady w n .asri → exec (.asri n) s = leaves s (druResult n (fld i 24 21) (aluAsr b x (fld i 16 0 % 32)) t)))) ∧
  -- ADD, SUB and the saturating forms: the result and each flag as R467 and R469 give them.
  (∀ a b : Word,
      (aluAdd a b).1 = a + b ∧ ((aluAdd a b).2.c = some true ↔ 2 ^ 32 ≤ a.toNat + b.toNat) ∧
      ((aluAdd a b).2.v = some true ↔ a.toInt + b.toInt < -2 ^ 31 ∨ 2 ^ 31 ≤ a.toInt + b.toInt) ∧
      (aluSub a b).1 = a - b ∧ ((aluSub a b).2.c = some true ↔ ¬ a.toNat < b.toNat) ∧
      ((aluSub a b).2.v = some true ↔ a.toInt - b.toInt < -2 ^ 31 ∨ 2 ^ 31 ≤ a.toInt - b.toInt) ∧
      ((aluAdd a b).2.z = some true ↔ a + b = 0) ∧ ((aluAdd a b).2.n = some true ↔ (a + b).toInt < 0) ∧
      (aluAdd a b).2.sv = false ∧ (aluNz a).2.c = none ∧ (aluNz a).2.v = none ∧
      (aluSat (a.toInt + b.toInt)).2.c = none ∧
      ((aluSat (a.toInt + b.toInt)).1.toInt = max (-2 ^ 31) (min (2 ^ 31 - 1) (a.toInt + b.toInt))) ∧
      ((aluSat (a.toInt + b.toInt)).2.sv = true ↔ a.toInt + b.toInt < -2 ^ 31 ∨ 2 ^ 31 ≤ a.toInt + b.toInt))

/-- ALU instructions of a core change no byte of memory, no register or table word, no other core, no accumulator and,
of the core's data, address, offset and modulo registers, none but Rd (R469, R470). -/
def Obligations.AluFrame : Prop :=
  ∀ (s w t : State) (n d : Nat) (i : Word) (c : Instr), w = work s → i = fetchWord w n → exec c s = .next t →
    ((c ∈ [.add n, .sub n, .adds n, .subs n, .and n, .or n, .xor n, .shl n, .shr n, .asr n, .min n, .max n, .abs n, .neg n,
        .mul n, .mov n, .cls n, .cmp n] ∧ d = fld i 22 19) ∨
      (c ∈ [.addi n, .andi n, .ori n, .xori n, .shli n, .shri n, .asri n, .cmpi n, .movi n, .movhi n] ∧ d = fld i 24 21)) →
    t.mem = s.mem ∧ t.words = s.words ∧ (∀ k : Nat, k ≠ n → coreOf t k = coreOf s k) ∧
    (coreOf t n).accs = (coreOf s n).accs ∧ (coreOf t n).wbuf = (coreOf s n).wbuf ∧ (coreOf t n).state = (coreOf s n).state ∧
    (∀ r : Nat, r < 36 → r ≠ d → tabGet 0 (coreOf t n).regs r = tabGet 0 (coreOf s n).regs r) ∧
    ((c = .cmp n ∨ c = .cmpi n) → ∀ r : Nat, r < 36 → tabGet 0 (coreOf t n).regs r = tabGet 0 (coreOf s n).regs r)

/-- Druora loads and stores. -/
def Obligations.CoreLoadsAndStores : Prop :=
  -- Loads and stores of a core's own data memory: Rd takes the bytes, sign-extended, and An its update; a store
  -- writes its bytes; beyond the memory loads give zeros and stores do nothing (R464, R471, R472). A word or
  -- halfword access that crosses an aligned 8-byte boundary, whose result R465 leaves undefined, takes a free
  -- value (log entry 4).
  (∀ (s w w₀ : State) (n a rd an size : Nat) (i : Word) (upd : Option Word) (m : DruMn) (free : Bool), w = work s →
      i = fetchWord w n → druReady w n m → rd = fld i 25 22 → an = fld i 21 19 →
      druAddr (coreOf w n) an (fld i 18 17) (fld i 16 0) size = (a, upd) → a < 2 ^ 31 →
      free = (size != 3 && crosses8 a size) → w₀ = (if free then { w with free := w.free + 1 } else w) →
      (∀ (bs : List Byte) (t u : State), localLoad n a size w₀ = (bs, u) →
        t = loadEnd n rd an (if free then Config.freeWord w.free else loadExt size bs) upd u →
        (m = .ld → size = 4 → exec (.ld n) s = leaves s t) ∧ (m = .ldh → size = 2 → exec (.ldh n) s = leaves s t) ∧
        (m = .ldb → size = 1 → exec (.ldb n) s = leaves s t) ∧ (m = .ld24 → size = 3 → exec (.ld24 n) s = leaves s t)) ∧
      (∀ (bs : List Byte) (t : State),
        bs = bytesOf size (if free then Config.freeWord w.free else dReg (coreOf w n) rd).toNat →
        t = coreDone n (updateAn n an upd (localStore n a bs w₀)) →
        (m = .st → size = 4 → exec (.st n) s = leaves s t) ∧ (m = .sth → size = 2 → exec (.sth n) s = leaves s t) ∧
        (m = .stb → size = 1 → exec (.stb n) s = leaves s t) ∧ (m = .st24 → size = 3 → exec (.st24 n) s = leaves s t)) ∧
      (a + size ≤ 0x40000 → (n < 16 → ueIn w (coreWindow n + a) size = [] →
          localLoad n a size w = (readBytes w (coreWindow n + a) size, w)) ∧
        (∀ bs : List Byte, bs.length = size → localStore n a bs w = storeMem 5 n w (coreWindow n + a) bs)) ∧
      (0x40000 ≤ a → localLoad n a size w = (List.replicate size 0, w) ∧ (∀ bs : List Byte, bs ≠ [] → localStore n a bs w = w))) ∧
  -- Loads and stores of shared memory: a load drains the buffer and reads through the fabric, a store waits in
  -- the buffer; a load that meets an uncorrectable DRAM word stops the core (R464, R481, R494).
  (∀ (s w : State) (n a : Nat) (i : Word) (upd : Option Word), w = work s → i = fetchWord w n → 2 ^ 31 ≤ a →
      druAddr (coreOf w n) (fld i 21 19) (fld i 18 17) (fld i 16 0) 4 = (a, upd) → crosses8 a 4 = false →
      (coreOf w n).rep = none →
      (druReady w n .st → (coreOf w n).wbuf.length < 8 → exec (.st n) s = leaves s (coreDone n (updateAn n (fld i 21 19) upd
        (modCore n (fun c => { c with wbuf :=
          c.wbuf ++ [(sharedAddr (coreOf w n) a, bytesOf 4 (dReg (coreOf w n) (fld i 25 22)).toNat)] }) w)))) ∧
      (∀ (t u : State) (ok : Bool) (bs : List Byte), druReady w n .ld → drainCore n w = .ok t →
        fabRead 5 n t (sharedAddr (coreOf w n) a) 4 = (ok, bs, u) →
        (ok = true ∨ sharedAddr (coreOf w n) a < dramBase →
          exec (.ld n) s = leaves s (loadEnd n (fld i 25 22) (fld i 21 19) (loadExt 4 bs) upd u)) ∧
        (ok = false → dramBase ≤ sharedAddr (coreOf w n) a → exec (.ld n) s = leaves s (coreFault n 5 u))))

/-- Druora multiply-accumulates, moves and special instructions. -/
def Obligations.CoreAccumulators : Prop :=
  -- Multiply-accumulate instructions: the accumulators take the products of the registers as they were before
  -- the parallel loads (R473).
  (∀ (s w : State) (n a x y : Nat) (i : Word) (c : CoreSt), w = work s → i = fetchWord w n → c = coreOf w n →
      a = fld i 26 25 → x = fld i 24 22 → y = fld i 21 19 + 8 → bit i 18 = false → bit i 10 = false →
      (druReady w n .mac → exec (.mac n) s = leaves s (coreDone n (modCore n (accPlus a ((dReg c x).toInt * (dReg c y).toInt)) w))) ∧
      (druReady w n .msu → exec (.msu n) s =
        leaves s (coreDone n (modCore n (accPlus a (-((dReg c x).toInt * (dReg c y).toInt))) w))) ∧
      (druReady w n .mpy → exec (.mpy n) s =
        leaves s (coreDone n (modCore n (setAcc a (BitVec.ofInt 72 ((dReg c x).toInt * (dReg c y).toInt))) w))) ∧
      (druReady w n .dmac → exec (.dmac n) s = leaves s (coreDone n (modCore n (fun k =>
        accPlus (flipBit a) ((dReg c (flipBit x)).toInt * (dReg c (flipBit y)).toInt)
          (accPlus a ((dReg c x).toInt * (dReg c y).toInt) k)) w)))) ∧
  -- A parallel load of a multiply-accumulate reads four bytes at the address before its update; one outside the
  -- local memory or across an 8-byte boundary takes a free value (R465, R473).
  (∀ (s w t : State) (n a : Nat) (i : Word) (c : CoreSt) (upd : Option Word), w = work s → i = fetchWord w n →
      c = coreOf w n → druReady w n .mpy → bit i 18 = true → bit i 10 = false →
      t = modCore n (setAcc (fld i 26 25) (BitVec.ofInt 72 ((dReg c (fld i 24 22)).toInt * (dReg c (fld i 21 19 + 8)).toInt))) w →
      druAddr c (fld i 14 13) (fld i 12 11) 0 4 = (a, upd) →
      (∀ (bs : List Byte) (u : State), a < 2 ^ 31 → crosses8 a 4 = false → localLoad n a 4 t = (bs, u) →
        exec (.mpy n) s = leaves s (coreDone n (updateAn n (fld i 14 13) upd
          (modCore n (writeReg (fld i 17 15) (wordOf (ofBytes bs))) u)))) ∧
      (2 ^ 31 ≤ a ∨ crosses8 a 4 = true →
        exec (.mpy n) s = leaves s (coreDone n (updateAn n (fld i 14 13) upd
          (modCore n (writeReg (fld i 17 15) (Config.freeWord t.free)) { t with free := t.free + 1 }))))) ∧
  -- Moves, accumulator operations and the instructions that only change the core's own state (R474, R475).
  (∀ (s w : State) (n : Nat) (i : Word) (c : CoreSt), w = work s → i = fetchWord w n → c = coreOf w n →
      (druReady w n .nop → exec (.nop n) s = leaves s (coreDone n w)) ∧
      (druReady w n .movr → exec (.movr n) s = leaves s (regRow n (fld i 23 18) (readReg w n (fld i 17 12)) w)) ∧
      (druReady w n .setr → exec (.setr n) s = leaves s (regRow n (fld i 23 18) (wordOf (fld i 17 0)) w)) ∧
      (∀ (dst : Nat) (v : Word), (dst ≠ 44 → regRow n dst v w = coreDone n (modCore n (writeReg dst v) w)) ∧
        (dst = 44 → regRow n dst v w = modCore n (writeReg 44 v) (coreDone n w))) ∧
      (druReady w n .rnd → exec (.rnd n) s =
        leaves s (druResult n (fld i 21 18) (accRound (accOf c (fld i 23 22)) (fld i 17 12) (fld i 11 10)) w)) ∧
      (druReady w n .clr → exec (.clr n) s = leaves s (coreDone n (modCore n (setAcc (fld i 23 22) 0) w))) ∧
      (druReady w n .ldacc → exec (.ldacc n) s = leaves s (coreDone n (modCore n (setAcc (fld i 23 22)
        (BitVec.ofInt 72 ((dReg c (fld i 21 18)).toInt * 2 ^ fld i 17 12))) w))) ∧
      (druReady w n .addacc → exec (.addacc n) s =
        leaves s (coreDone n (modCore n (accPlus (fld i 23 22) (accOf c (fld i 21 20)).toInt) w))) ∧
      (druReady w n .evt → exec (.evt n) s =
        leaves s (coreDone n (raise 0x63 (bytesOf 1 n ++ [0] ++ bytesOf 4 (dReg c (fld i 21 18)).toNat) w))) ∧
      (druReady w n .di → exec (.di n) s = leaves s (coreDone n (modCore n (fun x => writeReg 36 (putFld (srReg x) 6 6 0) x) w))) ∧
      (druReady w n .ei → c.handler = false →
        exec (.ei n) s = leaves s (coreDone n (modCore n (fun x => writeReg 36 (putFld (srReg x) 6 6 1) x) w))) ∧
      (druReady w n .ei → c.handler = true → exec (.ei n) s = .fault .coreContract))

/-- Druora branches, repeats, loops and control. -/
def Obligations.CoreSequence : Prop :=
  -- Branches take effect after two more instructions; CALL keeps the return address; a condition that fails
  -- falls through (R476, R477).
  (∀ (s w : State) (n t : Nat) (i : Word) (c : CoreSt), w = work s → i = fetchWord w n → c = coreOf w n → c.loops = [] →
      t < 16384 →
      (druReady w n .br → condHolds (srReg c) (fld i 24 21) = true → (c.pc : Int) + sfld i 20 0 = t →
        exec (.br n) s = leaves s (coreDone n (modCore n (fun _ => { c with branch := some ⟨3, t, false⟩ }) w))) ∧
      (druReady w n .br → condHolds (srReg c) (fld i 24 21) = false →
        exec (.br n) s = leaves s (coreDone n (modCore n (fun x =>
          { x with branch := some ⟨3, (c.pc + 3) % 16384, false⟩ }) w))) ∧
      (druReady w n .call → (c.pc : Int) + sfld i 20 0 = t →
        exec (.call n) s = leaves s (coreDone n (modCore n (fun _ =>
          writeReg 40 (wordOf (c.pc + 3)) { c with branch := some ⟨3, t, false⟩ }) w))) ∧
      (druReady w n .ret → (tabGet 0 c.regs 40).toNat = t →
        exec (.ret n) s = leaves s (coreDone n (modCore n (fun _ => { c with branch := some ⟨3, t, false⟩ }) w))) ∧
      (druReady w n .rti → (tabGet 0 c.regs 41).toNat = t →
        exec (.rti n) s = leaves s (coreDone n (modCore n (fun _ => { c with branch := some ⟨3, t, true⟩ }) w))) ∧
      (druReady w n .jmp → fld (dReg c (fld i 24 21)) 13 0 = t →
        exec (.jmp n) s = leaves s (coreDone n (modCore n (fun _ => { c with branch := some ⟨3, t, false⟩ }) w)))) ∧
  -- REP repeats the next instruction, LOOP the instructions up to its end; a count of 0 skips them; a third
  -- active loop is outside the contract, and a length of 0 names no body (the model's choice, log entry 62)
  -- (R478, R585).
  (∀ (s w : State) (n k : Nat) (i : Word) (c : CoreSt), w = work s → i = fetchWord w n → c = coreOf w n →
      (druReady w n .rep → k = (if bit i 24 then (dReg c (fld i 11 8)).toNat % 2 ^ 16 else fld i 23 8) →
        exec (.rep n) s = leaves s (modCore n (fun x => if k = 0 then coreNext x else { x with rep := some k }) (coreDone n w))) ∧
      (druReady w n .loop → k = (if bit i 24 then (dReg c (fld i 15 12)).toNat % 2 ^ 16 else fld i 23 12) →
        (fld i 11 0 = 0 → exec (.loop n) s = leaves s (coreDone n w)) ∧
        (fld i 11 0 ≠ 0 → k = 0 → exec (.loop n) s = leaves s (modCore n (fun x =>
          coreNext { x with pc := (c.pc + fld i 11 0) % 16384 }) (coreDone n w))) ∧
        (fld i 11 0 ≠ 0 → k ≠ 0 → c.loops.length < 2 → exec (.loop n) s = leaves s (modCore n (fun x =>
          { writeReg (38 + c.loops.length) (wordOf k) x with
            loops := ⟨c.pc + 1, c.pc + fld i 11 0, c.loops.length == 1⟩ :: x.loops }) (coreDone n w))) ∧
        (fld i 11 0 ≠ 0 → k ≠ 0 → 2 ≤ c.loops.length → exec (.loop n) s = .fault .coreContract))) ∧
  -- DRAIN empties the write buffer, SIGNAL offers a descriptor and stalls while it is refused, WAIT sleeps where
  -- nothing is pending, HALT ends a task and BLKEND a stream core's run; either of the wrong kind is a fault of
  -- the core, as is an illegal instruction (R479, R482, R483, R488, R490, R493). Where the spec leaves a point
  -- open it rests on log entry 77.
  (∀ (s w t : State) (n : Nat) (i : Word), w = work s → i = fetchWord w n →
      (druReady w n .drain → drainCore n w = .ok t → exec (.drain n) s = leaves s (coreDone n t)) ∧
      (∀ q : Nat, druReady w n .signal → drainCore n w = .ok t → q = 4 * fld i 23 22 →
        (offer (descOfWords 1 (dReg (coreOf t n) q) (dReg (coreOf t n) (q + 1)) (dReg (coreOf t n) (q + 2))
          (dReg (coreOf t n) (q + 3))) t).1 ≠ .refused →
        exec (.signal n) s = leaves s (coreDone n (modCore n (fun x => { x with signal := false })
          (offer (descOfWords 1 (dReg (coreOf t n) q) (dReg (coreOf t n) (q + 1))
            (dReg (coreOf t n) (q + 2)) (dReg (coreOf t n) (q + 3))) t).2))) ∧
      (∀ (q : Nat) (u : State), druReady w n .signal → drainCore n w = .ok t → q = 4 * fld i 23 22 →
        offer (descOfWords 1 (dReg (coreOf t n) q) (dReg (coreOf t n) (q + 1)) (dReg (coreOf t n) (q + 2))
          (dReg (coreOf t n) (q + 3))) t = (.refused, u) →
        exec (.signal n) s = leaves s (modCore n (fun x => { x with signal := true }) u)) ∧
      (druReady w n .halt → coreStream w n = false → drainCore n w = .ok t →
        exec (.halt n) s = leaves s (taskEnd n (coreDone n t))) ∧
      (druReady w n .halt → coreStream w n = true → exec (.halt n) s = leaves s (coreFault n 2 w)) ∧
      (druReady w n .blkend → coreStream w n = true → exec (.blkend n) s = leaves s (streamRunEnd n (coreDone n w))) ∧
      (druReady w n .blkend → coreStream w n = false → exec (.blkend n) s = leaves s (coreFault n 2 w)) ∧
      (druReady w n .wait → exec (.wait n) s = leaves s (if sourcePending (coreOf (coreDone n w) n) then coreDone n w
        else coreState n 3 (coreDone n w))) ∧
      (coreRuns w n = true → druDecode i = none → exec (.illegalInstruction n) s = leaves s (coreFault n 1 w)))

/-- Druora interrupts, starts and runs. -/
def Obligations.CoresInterruptStartRun : Prop :=
  -- An interrupt that is pending and enabled saves the PC and SR, clears IE and goes to its handler; the timer's
  -- expiry and a doorbell make their source pending and wake a waiting core (R466, R483).
  (∀ (s w : State) (n : Nat) (c : CoreSt), w = work s → up w uDRU → c = coreOf w n → corePresent w n = true →
      (∀ src : Nat, (src = 0 ∧ c.doorbell = true ∧ bit (srReg c) 8 = true) ∨ (src = 1 ∧ c.timer = true ∧ bit (srReg c) 9 = true) →
        (c.state = 2 ∨ c.state = 3) → bit (srReg c) 6 = true → c.branch = none → c.rep = none →
        exec (.interruptTake n src) s = leaves s (coreState n 2 (modCore n (fun x =>
          { writeReg 36 (putFld (srReg c) 6 6 0) (writeReg 42 (srReg c) (writeReg 41 (wordOf c.pc) x)) with
            pc := ((tabGet 0 x.regs 43).toNat + 4 * src) % 16384, handler := true, signal := false
            doorbell := x.doorbell && src != 0, timer := x.timer && src != 1 }) w))) ∧
      (c.state ≠ 0 → (tabGet 0 c.regs 44).toNat ≠ 0 →
        exec (.timerExpiry n) s = leaves s (coreWake n (modCore n (fun c => { writeReg 44 0 c with timer := true }) w))) ∧
      (∀ v : Word, exec (.doorbell v) s = leaves s ((List.range 16).foldl (fun t k =>
        if bit v k ∧ corePresent t k then coreWake k (modCore k (fun c => { c with doorbell := true }) t) else t) w))) ∧
  -- Starting, stopping and resetting a core, and the loads and starts of its programs, follow R486, R487 and
  -- R497.
  (∀ (s w : State) (n : Nat) (c : CoreSt), w = work s → up w uDRU → c = coreOf w n → corePresent w n = true →
      (c.state = 0 ∨ c.state = 5 →
        (coreStream w n = true → exec (.coreStart n) s =
          leaves s (coreLoad n (actF w (Reg.CORE0.at n) 15 0) (modCore n (fun x => { x with stopping := false }) w))) ∧
        (coreStream w n = false → exec (.coreStart n) s =
          leaves s (coreState n 1 (modCore n (fun x => { x with stopping := false }) w)))) ∧
      (c.state = 5 → exec (.coreStop n) s = leaves s w) ∧
      (c.state = 2 → exec (.coreStop n) s = leaves s (modCore n (fun x => { x with stopping := true }) w)) ∧
      ((c.state = 1 ∧ c.runBlock = none) ∨ (c.state = 4 ∧ coreStream w n = true) →
        exec (.coreStop n) s = leaves s (coreState n 0 w)) ∧
      (∀ t : State, t = modCore n (fun x => { x with wbuf := [], stopping := true, runBlock := none }) w →
        (coreStream w n = true ∨ coreJob w n = none → exec (.coreReset n) s = leaves s (coreRest n t)) ∧
        (coreStream w n = false → coreJob w n ≠ none → exec (.coreReset n) s = leaves s (taskEnd n t))) ∧
      (∀ (p : ProgEntry) (t u v : State) (full : Bool) (code data : List Byte), c.state = 4 → c.loaded = false →
        readEntry n c.entry w = (some p, t) → full = (resident w n != c.entry) →
        (full = true → loadMem 9 n t p.code (4 * p.words) = (true, code, u)) → (full = false → code = [] ∧ u = t) →
        loadMem 9 n u p.data p.dbytes = (true, data, v) →
        ∀ z : State, z = writeMem (writeMem v (coreWindow n + 0x40000) code) (coreWindow n + p.ddst) data →
        exec (.programLoadDone n) s = leaves s (coreReady n (setF (Reg.CORE6.at n) 15 0 c.entry
          (if full then count Reg.DRU_LOAD_CNT.base z else z)))) ∧
      (∀ t : State, c.state = 4 → c.loaded = false → readEntry n c.entry w = (none, t) →
        exec (.programLoadDone n) s = leaves s (coreFault n 4 t)) ∧
      (∀ j : Job, coreStream w n = false → c.state = 4 → c.loaded = true → coreJob w n = some j →
        exec (.taskStart n) s = leaves s (coreState n 2 (modCore n (fun x =>
          { writeReg 16 (wordOf (2 ^ 31 + j.desc.arg % 2 ^ 31)) (writeReg 37 (wordOf (j.desc.arg / 2 ^ 31)) x) with
            pc := x.start, cycles := 0, began := monoNs w }) w)))) ∧
  -- A stream core runs on the newest block that is in; a run that is overtaken, a task past its time and a
  -- retirement are acted on; a spare takes the memories of a core that leaves, and its number between two runs
  -- or tasks (R488, R490, R491, R495). Where the spec leaves a point open it rests on log entries 20, 77.
  (∀ (s w : State) (n : Nat) (c : CoreSt), w = work s → up w uDRU → c = coreOf w n →
      (∀ b : Nat, (streamCores w).contains n = true → c.state = 1 → c.runBlock = none →
        (c.inputs.reverse.find? (fun p => decide (c.nextRun ≤ p.1))).map (·.1) = some b →
        (buffersBad w n = false → exec (.streamRunStart n) s = leaves s (coreState n 2 (modCore n (fun x =>
          { writeReg 15 (wordOf (extBlk w b)) (writeReg 17 (wordOf (outSlot w n b)) (writeReg 16 (wordOf (inSlot w n b)) x)) with
            pc := x.start, runBlock := some b, nextRun := b + 1, overrun := false, cycles := 0
            firstRun := some (x.firstRun.getD b) }) w))) ∧
        (buffersBad w n = true → exec (.streamRunStart n) s = .fault .streamBuffer)) ∧
      ((streamCores w).contains n = true → exec (.runOverrun n) s = leaves s (runDue (unitSt w uRTE).next w n)) ∧
      (∀ m : Nat, m = fld (actW w Reg.DRU_TASK_MAX.base) 31 0 → corePresent w n = true → coreStream w n = false →
        (c.state = 2 ∨ c.state = 3) → m ≠ 0 → c.began + 1000 * m ≤ monoNs w →
        exec (.taskWatchdog n) s = leaves s (coreFault n 3 w)) ∧
      (∀ cause : Nat, cause < 5 → retirable w 3 n = true → w.hlt.waiting.any (fun x => x.cls == 3) = false →
        retireBusy w 3 n = false → exec (.coreRetire n cause) s = leaves s (retireUnit 3 n cause w)) ∧
      (∀ (q : Nat) (bad : List Nat) (t u v : State), w.dru.leaving = some n → w.dru.spare = some q → w.dru.copied = false →
        (coreStream w n = false → coreJob w n = none) →
        bad = w.ue.filter (fun a => decide (coreWindow n ≤ a) && decide (a < coreWindow n + 0x50000)) →
        t = copyRange (coreWindow n) (coreWindow 16) 0x50000 (bad.foldl (fun t a => reportUe 1 5 n a t) w) →
        u = bad.foldl (fun t a => storeBytes t (a - coreWindow n + coreWindow 16) (List.replicate 8 0)) t →
        v = { u with dru := { u.dru with copied := true } } →
        ((coreStream w n = false ∨ c.runBlock = none) → exec .spareCoreCopyEnd s = leaves s (spareTake n v)) ∧
        (coreStream w n = true → c.runBlock ≠ none → exec .spareCoreCopyEnd s = leaves s v)))

/-- Banks, scrubs and DRAM. -/
def Obligations.MemoriesAndDram : Prop :=
  -- A bank that has filled is on; a write to the power register moves each bank; a scrub pass is counted, and
  -- what it finds is corrected or reported (R502, R503, R504, R505).
  (∀ (s w : State), w = work s →
      (∀ b : Nat, powered w = true → bankState w 5 b = .filling → exec (.bankPowerOn b) s = leaves s (setBank b .on w)) ∧
      (∀ v : Word, powered w = true → exec (.scratchPwrWrite v) s = leaves s (((List.range 13).map (· + 2)).foldl (bankPower v)
        (setW Reg.MEM_SCRATCH_PWR.base (v &&& 0x3FFFFFF0) w))) ∧
      (∀ (finds : List ScrubFind) (t : State), up w uMEM → t = finds.foldl (scrubWord w.memst.weak) w →
        exec (.sramScrubPass finds) s = leaves s { t with memst := { t.memst with scrubs := t.memst.scrubs + 1 } })) ∧
  -- DRAM: panic of a port, refresh, drift tracking, self-refresh, rows activated beyond the limit, whose
  -- neighbours get refresh management, and patrol scrubs (R522, R523, R524, R525, R527). Where the spec leaves a
  -- point open it rests on log entries 45, 47, 75.
  (∀ (s w : State), w = work s →
      (∀ p amount level : Nat, up w uDRC → p < 3 → level = portLevel w p amount →
        (inPanic w p = false → level < panicOn w → exec (.panicEnter p amount) s =
          leaves s (count (Reg.DRC_PANIC_CNT.at p) (setPanic p true (fillSet p level w)))) ∧
        (inPanic w p = true → panicOff w ≤ level →
          exec (.panicExit p amount) s = leaves s (setPanic p false (fillSet p level w)))) ∧
      (∀ ch b : Nat, powered w = true → w.drc.trained = true → ch < 4 →
        (w.drc.selfRefresh = false → exec (.dramRefresh ch b) s =
          leaves s { w with drc := { w.drc with refreshes := tabMod 0 (ch * 256 + b) (· + 1) w.drc.refreshes } }) ∧
        (inPanic w 0 = false → inPanic w 1 = false → inPanic w 2 = false → exec (.driftTrack ch) s =
          leaves s { w with drc := { w.drc with drift := tabMod 0 ch (· + 1) w.drc.drift } })) ∧
      (∀ us : Nat, powered w = true → w.drc.selfRefresh = false → w.drc.trained = true →
        bit (actW w Reg.DRC_CFG.base) 0 = true → srIdle w ≤ us → portsIdle w = true → requestsWait w = false →
        exec (.selfRefreshEnter us) s =
          leaves s (count Reg.DRC_SR_CNT.base { w with drc := { w.drc with selfRefresh := true } })) ∧
      (powered w = true → exec .selfRefreshExit s = leaves s { w with drc := { w.drc with selfRefresh := false } }) ∧
      (∀ (acts req inst ch row b : Nat) (old new : List (Nat × Nat × Nat)) (t : State), up w uDRC → b < 256 →
        old = rowActs w ((row * 256 + b) * 4 + ch) → new = actsAdd req inst acts old →
        t = { w with drc := { w.drc with
          actWindow := monoNs w / 32000000,
          acts := tabSet ((row * 256 + b) * 4 + ch) new (if w.drc.actWindow = monoNs w / 32000000 then w.drc.acts else []) } } →
        (actsSum new ≤ rhMax w ∨ rhMax w < actsSum old → exec (.rowHammer acts req inst ch (row * 256 + b)) s = leaves s t) ∧
        (∀ (r k : Nat) (held : List Throttle) (m : Tab Nat), actsSum old ≤ rhMax w → rhMax w < actsSum new →
          actsTop new = (r, k) → held = w.drc.throttled.filter (fun (x : Throttle) => decide (monoNs w < x.until_)) →
          m = (if row = 0 then w.drc.managed else tabMod 0 (((row - 1) * 256 + b) * 4 + ch) (· + 1) w.drc.managed) →
          exec (.rowHammer acts req inst ch (row * 256 + b)) s = leaves s (raise 0x73
            (bytesOf 1 r ++ bytesOf 1 k ++ bytesOf 1 ch ++ bytesOf 1 b)
            (stick Reg.DRC_STAT.base 2 (count Reg.DRC_RH_CNT.base { t with drc := { t.drc with
              managed := tabMod 0 (((row + 1) * 256 + b) * 4 + ch) (· + 1) m,
              throttled := if r ≤ 2 then held else
                held ++ [⟨r, k, ch, b, fld (actW w Reg.DRC_RH.base) 15 0, (monoNs w / 32000000 + 1) * 32000000⟩] } }))))) ∧
      (∀ (lo hi : Nat) (fixed bad : List Nat) (t u : State), up w uDRC → patrolRange w = (lo, hi) →
        (hi ≤ lo → exec (.patrolScrubPass fixed bad) s = leaves s w) ∧
        (lo < hi → t = (fixed.filter (fun a => decide (lo ≤ a) && decide (a < hi))).foldl (fun t a => reportDramCe 12 0 a t)
            (selfRefreshExit w) →
          u = { t with ue := (bad.filter (fun a => decide (lo ≤ a) && decide (a < hi))).foldl (fun l a => setAdd (word8 a) l) t.ue } →
          exec (.patrolScrubPass fixed bad) s = leaves s ((ueIn u lo (hi - lo)).foldl (fun v a => reportDramUe 1 12 0 a v) u))))

/-- Tamper wipes the keys, in reset too; the life cycle is armed, executed within its time or disarmed, and its fuses
then hold the new stage; an arming that is not used expires (R515, R516, R517). Where the spec leaves a point open
it rests on log entries 32, 46. -/
def Obligations.LifeCycleAdvances : Prop :=
  ∀ (s w t : State), w = work s →
    (∀ ns : Nat, w.start.supplies = true → t = { secWipe w with sec := { (secWipe w).sec with tampered := true } } →
      (ns < 100 * min 100 (fld (actW w Reg.SEC_TAMPER.base) 6 0) → exec (.tamper ns) s = leaves s w) ∧
      (100 * min 100 (fld (actW w Reg.SEC_TAMPER.base) 6 0) ≤ ns →
        (powered w = true → exec (.tamper ns) s = leaves s (raise 0x74 [] (stick Reg.SEC_STAT.base 0 t))) ∧
        (powered w = false → exec (.tamper ns) s = leaves s t))) ∧
    (∀ v : Word, powered w = true → w.sec.executing = none →
      (w.sec.armed = none → fld v 15 8 = 0xA5 → w.fuse.life < fld v 1 0 → exec (.lcArm v) s =
        leaves s { w with sec := { w.sec with armed := some (fld v 1 0, monoNs w) } }) ∧
      (∀ k at_ : Nat, w.sec.armed = some (k, at_) → monoNs w ≤ at_ + 1000000 →
        (fld v 15 8 = 0xA5 → w.fuse.life < fld v 1 0 → exec (.lcArm v) s = leaves s (lcDisarm w)) ∧
        (fld v 1 0 = k → fld v 15 8 = 0x5A → exec (.lcExecute v) s = leaves s (lcExecute k w)) ∧
        (fld v 1 0 ≠ k ∨ fld v 15 8 ≠ 0x5A → exec (.lcExecute v) s = leaves s (lcDisarm w)))) ∧
    (∀ k at_ : Nat, powered w = true → w.sec.armed = some (k, at_) → at_ + 1000000 < monoNs w →
      exec .lcArmExpiry s = leaves s (lcDisarm w)) ∧
    (∀ k at_ : Nat, powered w = true → w.sec.executing = some (k, at_) → at_ + 5000000 ≤ monoNs w →
      t = { w with
        fuse := { w.fuse with life := k, keys := if k = 2 then w.sec.latched else w.fuse.keys }
        sec := { w.sec with executing := none, latched := [] } } →
      ∀ u : State, u = raise 0x75 (bytesOf 1 w.fuse.life ++ bytesOf 1 k)
        (stick Reg.SEC_STAT.base 1 (setN Reg.SEC_LC.base k (storeBytes t 7 (bytesOf 1 k)))) →
      exec .lcFuseDone s = .next { settle s u with fuse := u.fuse })

/-- DMA channels and descriptors. -/
def Obligations.DmaRuns : Prop :=
  -- A channel that is not running takes a first descriptor; a stop ends it; a channel that PAR owns refuses
  -- both; requests of a line are credits; an idle engine takes its next channel (R535, R536, R541, R544, R545).
  -- Where the spec leaves a point open it rests on log entry 34.
  (∀ (s w : State) (b : Bool) (c : Nat), w = work s → up w uDMA → c < dmaCount b →
      (dmaOwned w b c = true → (∀ v : Word, exec (.dmaGo b c v) s = leaves s (count Reg.DMA_DENY_CNT.base w)) ∧
        exec (.dmaStop b c) s = leaves s (count Reg.DMA_DENY_CNT.base w)) ∧
      (dmaOwned w b c = false →
        (∀ (v : Word) (a : Nat), dmaRuns (dmaChan w b c) = false →
          a = fld (regW (setN (dmaBase b c + 4) (fld v 7 0) w) (dmaBase b c)) 31 5 * 32 + 2 ^ 32 * fld v 7 0 →
          exec (.dmaGo b c v) s = leaves s (modChanD b c (fun _ => { dmaChanZero with state := 1, first := a, cur := a })
            (setN (dmaBase b c + 4) (fld v 7 0) w))) ∧
        (∀ v : Word, dmaRuns (dmaChan w b c) = true → exec (.dmaGo b c v) s = leaves s (count Reg.DMA_DENY_CNT.base w)) ∧
        ((dmaChan w b c).state = 1 ∨ dmaRuns (dmaChan w b c) = true → exec (.dmaStop b c) s = leaves s (dmaEnd b c 5 0 w))) ∧
      (∀ (l : Nat) (v : Word), 1 ≤ l → l ≤ 15 → exec (.dmaReqAdd l v) s = leaves s
        (creditSet l (min (credits w l + fld v 15 0) 65535)
          (countN Reg.DMA_DENY_CNT.base (credits w l + fld v 15 0 - 65535) w))) ∧
      (∀ k : Nat, (dmaEng w b).run = none →
        (dmaNext w b true = some k → exec (.channelTake b) s = leaves s
          (modEng b (fun e => { e with run := some k, lastPriv := k }) (modChanD b k (fun x => { x with state := 2 }) w))) ∧
        (dmaNext w b true = none → dmaNext w b false = some k → exec (.channelTake b) s = leaves s
          (modEng b (fun e => { e with run := some k, lastOrd := k }) (modChanD b k (fun x => { x with state := 2 }) w))))) ∧
  -- The channel that runs fetches its descriptor, moves bursts while it has credits, and ends the descriptor:
  -- its CRC is stored, its event raised, and the channel goes on to the next or is done (R540, R541, R543,
  -- R544).
  (∀ (s w : State) (b : Bool) (c : Nat) (x : DmaChan), w = work s → up w uDMA → (dmaEng w b).run = some c → x = dmaChan w b c →
      (∀ (bs : List Byte) (t : State), x.fetched = false → descPlace w x.cur = true →
        fabRead (dmaReq b) c w x.cur 32 = (true, bs, t) → descCode b c bs = 0 →
        (descOverlaps (dmaDesc bs) = false →
          exec (.descriptorFetch b) s = leaves s (dmaPace b (modChanD b c (fun y => { y with
            desc := bs, fetched := true, done := 0, hold := []
            crc := if (dmaDesc bs).crcEn ∧ !(dmaDesc bs).crcCont then 0xFFFFFFFF else y.crc }) t))) ∧
        (descOverlaps (dmaDesc bs) = true → exec (.descriptorFetch b) s = .fault .chainOverlap)) ∧
      (x.fetched = false → descPlace w x.cur = false → exec (.descriptorFetch b) s = leaves s (dmaError b c 1 w)) ∧
      (∀ t : State, burstLeft x = true → ((dmaDesc x.desc).req = 0 ∨ credits w (dmaDesc x.desc).req ≠ 0) →
        burstMove b c w = .ok t → exec (.dmaBurst b) s = leaves s t) ∧
      (burstLeft x = true → (dmaDesc x.desc).req ≠ 0 → credits w (dmaDesc x.desc).req = 0 →
        exec (.dmaBurst b) s = leaves s w) ∧
      (∀ t u : State, x.fetched = true → burstLeft x = false →
        ((dmaDesc x.desc).crcEn = true → fabWrite 3 (dmaReq b) c w (x.cur + 28) (bytesOf 4 (x.crc ^^^ 0xFFFFFFFF)) = .ok t) →
        ((dmaDesc x.desc).crcEn = false → t = w) →
        u = (if (dmaDesc x.desc).notify then raise 0x80 (bytesOf 1 (dmaByte b c) ++ [0] ++ bytesOf 4 (x.cur / 32)) t else t) →
        exec (.descriptorComplete b) s = leaves s (if (dmaDesc x.desc).last then count Reg.DMA_DONE_CNT.base (dmaEnd b c 4 0 u)
          else modChanD b c (fun y => { y with cur := (dmaDesc x.desc).next * 32, fetched := false, done := 0 }) u)))

/-- Pairing: heartbeats, roles and snapshots. -/
def Obligations.PairingWorks : Prop :=
  -- Heartbeats and health go out on every pair link when they are due; a heartbeat that stays away, a yield edge
  -- or an election that comes due begins a cut-in (R552, R554, R555, R556, R563). Where the spec leaves a point
  -- open it rests on log entries 28, 33.
  (∀ (s w : State), w = work s → up w uPAR →
      (paired w = true → w.par.hbSent + 250000 ≤ monoNs w → exec .heartbeatSend s =
        leaves s ((pairLinks w).foldl (fun t n => sendDirect n 5 (heartbeatBytes w) t)
          (modPar (fun p => { p with hbSent := monoNs w }) (hbMisses w)))) ∧
      (∀ t : Nat, w.par.hbAt = some t → paired w = true → w.par.hbLost = false → t + 1000000 ≤ monoNs w →
        exec .heartbeatLoss s = leaves s (cutinBegin 1 (raise 0x94 [0] (stick Reg.PAR_HIST.base 3
          (modPar (fun p => { p with hbLost := true }) (hbMisses w)))))) ∧
      (paired w = true → w.par.healthSent + 100000000 ≤ monoNs w → exec .healthSend s = leaves s
          ((pairLinks w).foldl (fun t n => (sendQueued n (linkRspQueue w n) 4 0 0
            (healthBytes w) t).2)
            (modPar (fun p => { p with healthSent := monoNs w }) w))) ∧
      (∀ ns : Nat, 100 ≤ ns → exec (.yieldEdge ns) s = leaves s (cutinBegin 0 w)) ∧
      (w.par.started + electNs w ≤ monoNs w → w.par.leadAt = none → w.par.barred = false →
        exec .election s = leaves s (cutinBegin 2 w))) ∧
  -- A cut-in restores the newest snapshot, names its tick, and renders from its first block on; a LEAD takes
  -- snapshots at their interval, hands its role to a fit partner, and restarts after it abdicated (R557, R562,
  -- R563, R564, R567). Where the spec leaves a point open it rests on log entries 23, 33, 41.
  (∀ (s w : State), w = work s → up w uPAR →
      (∀ (c : CutIn) (t u v : State), w.par.cutin = some c → c.tick = none →
        t = { w with mot := { w.mot with queue := [], sched := [] } } →
        (newestSlot w = none → u = restoreHome (restoreTick w) t) →
        (∀ k : Nat, newestSlot w = some k → restoreSlot (restoreTick w) k t = .ok u) →
        v = solveAll (restoreTick w) { u with slv := { u.slv with built := false, prev := [] } } →
        exec .restoreComplete s = leaves s (inject (mkTag tEPOCH 0xFF 0xFF (2 + 256 * w.start.epoch) (restoreTick w))
          (modPar (fun p => { p with cutin := some { c with tick := some (restoreTick w) } })
            (inject (mkTag tCOMMIT uLAN 0xFF 0 (restoreTick w)) v)))) ∧
      (∀ (c : CutIn) (k b claim : Nat) (t u : State), w.par.cutin = some c → c.tick = some k → k ≤ nowTick w →
        b = tickStart w k → claim = w.start.epoch * 256 + ownRank w →
        t = [uSLV, uLAN, uRED, uCOR, uMEA, uDRU].foldl (fun t u => modUnit u (fun x => { x with next := max x.next b }) t) w →
        u = { t with
          lan := { t.lan with
            bulk := [], objs := t.lan.objs.map (fun q => (q.1, { q.2 with head := (16 * b : Nat), zeroBelow := (16 * b : Nat), subs := [] })) },
          mea := { t.mea with capNext := b } } →
        exec .renderBegin s = leaves s (roleGo 1 claim (modPar (fun p => { p with
          cutin := none, claim := claim, audioFrom := some b, audioTo := none, renderFrom := some b, renderTo := none
          snapTick := k }) u))) ∧
      (∀ t : State, t = modPar (fun p => { p with snapTick := nowTick w }) w → w.par.role = 1 → w.par.hbAt ≠ none →
        w.par.hbLost = false → w.par.snapTick + snapMs w ≤ nowTick w →
        (snapBusy w = true → exec .snapshotTake s =
          leaves s (parSnapEvent 0 (w.par.snapSeq + 1) (count Reg.PAR_SNAP_SKIP_CNT.base t))) ∧
        (snapBusy w = false → exec .snapshotTake s = leaves s (inject (mkTag tSNAP uSYS 0xFF
          (0x20000 + fld (actW w Reg.PAR_SNAP_NUM.base) 15 0) (nowTick w + 2)) t))) ∧
      (∀ a : Abdication, w.par.abd = some a → w.par.role = 3 → restartEn w = true → a.began + 100000000 ≤ monoNs w →
        exec .abdicationRestart s = leaves s (startBegin 3 none w)) ∧
      (w.par.role = 1 → partnerFit w = true → exec .handover s = leaves s (abdicate 1 w.par.met w)) ∧
      (w.par.role = 1 → partnerFit w = false → exec .handover s = leaves s (stick Reg.PAR_HIST.base 4 w)))

/-- Margins step with the slack an island reports, and an island that stays short has its unit retired; a FOLLOW tests
its units in turn (R568, R569, R570). Where the spec leaves a point open it rests on log entries 20, 35. -/
def Obligations.WearIsWatched : Prop :=
  ∀ (s w : State), w = work s → up w uHLT →
    (∀ (i slack : Nat) (t : State), i < 160 → t = slackReport i slack w →
      (slack < slackLow w → (island t i).step < islandFloor w i → (island t i).lastStep = none →
        exec (.marginStepDown i slack) s = leaves s (stepTo i ((island t i).step + 1) t)) ∧
      (∀ k : Nat, (island t i).highSince = some k → k + upSeconds w * 1000000000 ≤ monoNs w → 0 < (island t i).step →
        islandFloor w i ≠ 0 → exec (.marginStepUp i slack) s = leaves s (stepTo i ((island t i).step - 1) t)) ∧
      (∀ k cls p : Nat, (island t i).lowSince = some k → k + retireMs w * 1000000 ≤ monoNs w → islandUnit i = some (cls, p) →
        exec (.islandRetire i slack) s = leaves s (hltRetire cls p 0 t))) ∧
    (∀ v : Word, exec (.retireWrite v) s = leaves s (hltRetire (fld v 15 8) (fld v 7 0) 4 w)) ∧
    (∀ b per : Nat, per = fld (actW w Reg.HLT_SELFTEST.base) 15 0 → per ≠ 0 → inFollow w = true → w.hlt.testing = none →
      w.hlt.testLast + per * 1000000000 ≤ monoNs w →
      ((List.range 80).map (fun (k : Nat) => (w.hlt.nextUnit + k) % 80)).find? (testable w) = some b →
      exec .followSelftest s = leaves s (modHlt (fun h => { h with
        testing := some b, testAt := monoNs w, testLast := monoNs w, nextUnit := (b + 1) % 80 }) w)) ∧
    (∀ b core : Nat, w.hlt.testing = some b → w.hlt.testAt + 2000000000 ≤ monoNs w →
      exec (.followSelftestEnd true core) s = leaves s (testResult b true (modHlt (fun h => { h with testing := none }) w)) ∧
      exec (.followSelftestEnd false core) s = leaves s (hltRetire (healthUnit b).1 (healthUnit b).2 3
        (testResult b false (modHlt (fun h => { h with testing := none }) w))))

/-- R13 and R44: the block index is the sample index over 16 and the tick index is it over the samples per tick; a tick
begins on a block boundary, is 1 ms long and holds 3, 6 or 12 whole blocks. -/
def Obligations.BlockAndTickIndexes : Prop :=
  ∀ s : State, nowBlock s = s.time.idx / 16 ∧
    (rateHz s = 48000 ∧ tickLen s = 48 ∧ tickBlocks s = 3 ∨ rateHz s = 96000 ∧ tickLen s = 96 ∧ tickBlocks s = 6 ∨
      rateHz s = 192000 ∧ tickLen s = 192 ∧ tickBlocks s = 12) ∧
    nowTick s = s.time.idx / tickLen s ∧ tickLen s * 1000 = rateHz s ∧ tickLen s = 16 * tickBlocks s ∧
    (s.time.idx % tickLen s = 0 → s.time.idx % 16 = 0) ∧
    (∀ b : Nat, tickOfBlock s b * tickBlocks s ≤ b ∧ b ≤ tickOfBlock s b * tickBlocks s + (tickBlocks s - 1)) ∧
    tickOfBlock s (nowBlock s) = nowTick s ∧
    (∀ x : Nat, extBlk s (x / 16) = extSmp s x / 16 ∧ extTick s (x / tickLen s) = extSmp s x / tickLen s ∧
      (extSmp s x % tickLen s = 0 → extSmp s x % 16 = 0)) ∧
    (∀ k j : Nat, j < tickBlocks s → 0 ≤ ((k * tickLen s : Nat) : Int) + ofsAt s (k * tickLen s) →
      extBlk s (tickStart s k + j) = extTick s k * tickBlocks s + j)

/-- R317: the largest frame is NET_MAX_FRAME held within 64 and 9,600, and 1,522 at reset; a frame above what the
register holds as it arrives is counted and not kept. -/
def Obligations.MaximumFrameLength : Prop :=
  ∀ (s w : State) (p m : Nat), w = work s → m = fld (regW w (Reg.NET_MAX_FRAME.at p)) 13 0 →
    (m < 64 → maxFrame w p = 64) ∧ (9600 < m → maxFrame w p = 9600) ∧ (64 ≤ m → m ≤ 9600 → maxFrame w p = m) ∧
    (p < 8 → maxFrame State.reset p = 1522) ∧
    (∀ (bs : List Byte) (fcs : Bool) (ofs low : Nat) (e : Nat × Nat × Nat), running w = true → unitPresent w uNET = true →
      p < netPorts w → netMode w p ≠ 0 → (portSt w p).link = true → frameCheck w p bs false = .inr e →
      maxFrame w p < bs.length + 4 → low = freeCells w - cellsGranted w e.2.2 (maxFrame w p + 1) →
      exec (.frameReceive p bs false fcs ofs) s = leaves s (count (Reg.NET_GIANT_CNT.at p) (poolLow low w)))

/-- R479: an illegal instruction is not executed, whichever row is tried on it, and the core enters fault code 1. -/
def Obligations.IllegalInstructionsFault : Prop :=
  ∀ (s w : State) (n : Nat), w = work s → coreRuns w n = true → druDecode (fetchWord w n) = none →
    exec (.illegalInstruction n) s = leaves s (coreFault n 1 w) ∧
    (∀ m ∈ ([.add n, .sub n, .adds n, .subs n, .and n, .or n, .xor n, .shl n, .shr n, .asr n, .min n, .max n, .abs n, .neg n,
        .mul n, .cmp n, .mov n, .cls n, .addi n, .andi n, .ori n, .xori n, .shli n, .shri n, .asri n, .cmpi n, .movi n, .movhi n,
        .ld n, .ldh n, .ldb n, .ld24 n, .st n, .sth n, .stb n, .st24 n, .mac n, .msu n, .mpy n, .dmac n, .nop n, .movr n,
        .setr n, .rnd n, .clr n, .ldacc n, .addacc n, .drain n, .signal n, .halt n, .blkend n, .wait n, .ei n, .di n, .evt n,
        .br n, .call n, .ret n, .rti n, .jmp n, .rep n, .loop n] : List Instr), exec m s = leaves s w)

/-- R475: RND narrows an accumulator into Dd, rounding half up, and SAT decides the result and the range of V and SV. -/
def Obligations.RndNarrowsAccumulators : Prop :=
  ∀ (s w : State) (n k sat : Nat) (i : Word) (acc : BitVec 72) (v : Int) (q : Word × FlagSet), w = work s →
    i = fetchWord w n → acc = accOf (coreOf w n) (fld i 23 22) → k = fld i 17 12 → sat = fld i 11 10 →
    v = (if k = 0 then acc.toInt else (acc.toInt + 2 ^ (k - 1)) / 2 ^ k) → q = accRound acc k sat →
    (druReady w n .rnd → exec (.rnd n) s = leaves s (druResult n (fld i 21 18) q w)) ∧
    (sat = 0 → q.1 = BitVec.ofInt 32 v ∧ (q.2.v = some true ↔ v < -2 ^ 31 ∨ 2 ^ 31 ≤ v)) ∧
    (sat = 1 → q.1.toInt = max (-2 ^ 31) (min (2 ^ 31 - 1) v) ∧ (q.2.v = some true ↔ v < -2 ^ 31 ∨ 2 ^ 31 ≤ v)) ∧
    (sat = 2 → q.1.toInt = max (-2 ^ 23) (min (2 ^ 23 - 1) v) ∧ (q.2.v = some true ↔ v < -2 ^ 23 ∨ 2 ^ 23 ≤ v)) ∧
    (sat = 3 → q.1.toInt = max (-2 ^ 15) (min (2 ^ 15 - 1) v) ∧ (q.2.v = some true ↔ v < -2 ^ 15 ∨ 2 ^ 15 ≤ v)) ∧
    (q.2.v = some q.2.sv) ∧ q.2.n = some (decide (q.1.toInt < 0)) ∧ q.2.z = some (decide (q.1 = 0)) ∧ q.2.c = none ∧
    q.2.av = false

/-- R472: MOD gives the address and the update of An; a modulo update wraps within its base where the rule gives it a
result, and has none where the rule leaves it undefined (the core then takes a free value). -/
def Obligations.AddressModes : Prop :=
  ∀ (c : CoreSt) (an imm size p k : Nat) (a o : Word) (m : Nat) (t : Int), imm < 2 ^ 17 → a = aReg c an → o = oReg c an →
    m = (mReg c an).toNat → p = 2 ^ k → m ≤ p → (∀ j : Nat, m ≤ 2 ^ j → p ≤ 2 ^ j) → t = (a.toNat % p : Nat) + o.toInt →
    druAddr c an 0 imm size = ((a + BitVec.signExtend 32 (BitVec.ofNat 17 imm)).toNat, some a) ∧
    druAddr c an 1 imm size = (a.toNat, some (a + BitVec.ofNat 32 size)) ∧
    druAddr c an 2 imm size = (a.toNat, some (a + o)) ∧
    (m = 0 → druAddr c an 3 imm size = druAddr c an 2 imm size) ∧
    (0 < m → m ≤ 2 ^ 18 → o.toInt.natAbs ≤ m → a.toNat % p < m →
      druAddr c an 3 imm size = (a.toNat, some (BitVec.ofInt 32 (a.toNat / p * p +
        (if (m : Int) ≤ t then t - m else if t < 0 then t + m else t))))) ∧
    (0 < m → (2 ^ 18 < m ∨ m < o.toInt.natAbs ∨ m ≤ a.toNat % p) → druAddr c an 3 imm size = (a.toNat, none))
end

