-- ==== Sys2Proof/Laws/Bits.lean ====
section
/-! SUPPORT. Fields of a word: a field set reads back, and every bit outside it stays. -/

namespace Sys2Proof.Laws

open Sys2Proof Sys2Proof.Machine

theorem fldMask_bit (hi lo j : Nat) : (fldMask hi lo).getLsbD j = (decide (j < 32) && decide (lo ≤ j ∧ j ≤ hi)) := by
  unfold fldMask
  rw [BitVec.getLsbD_ofNat, Nat.testBit_shiftLeft, Nat.testBit_two_pow_sub_one]
  have e : decide (lo ≤ j ∧ j ≤ hi) = (decide (lo ≤ j) && decide (j - lo < hi + 1 - lo)) := by
    rw [← Bool.decide_and]; exact decide_eq_decide.2 (by omega)
  rw [e]

/-- A bit of a word with a field replaced: of the field its new value, outside it the old one. -/
theorem bit_putFld (w : Word) (hi lo v j : Nat) (h : hi < 32) :
    bit (putFld w hi lo v) j = if lo ≤ j ∧ j ≤ hi then v.testBit (j - lo) else bit w j := by
  unfold bit putFld
  rw [BitVec.getLsbD_or, BitVec.getLsbD_and, BitVec.getLsbD_and, BitVec.getLsbD_not, fldMask_bit, BitVec.getLsbD_ofNat,
    Nat.testBit_shiftLeft]
  by_cases h1 : lo ≤ j ∧ j ≤ hi
  · have h2 : j < 32 := by omega
    simp [h1, h2]
  · rw [if_neg h1]
    by_cases h2 : j < 32
    · simp [h1, h2]
    · have : w.getLsbD j = false := BitVec.getLsbD_of_ge _ _ (by omega)
      simp [this, h2]

/-- A field replaced reads back as the low bits of what was put there. -/
theorem fld_putFld (w : Word) (hi lo v : Nat) (h : hi < 32) : fld (putFld w hi lo v) hi lo = v % 2 ^ (hi + 1 - lo) := by
  apply Nat.eq_of_testBit_eq
  intro i
  unfold fld
  rw [Nat.testBit_mod_two_pow, Nat.testBit_mod_two_pow, Nat.testBit_shiftRight]
  have hb := bit_putFld w hi lo v (lo + i) h
  unfold bit at hb
  rw [← BitVec.testBit_toNat] at hb
  by_cases hi' : i < hi + 1 - lo
  · rw [hb, if_pos (by omega)]; simp
  · simp [hi']

/-- A field replaced elsewhere reads as before. -/
theorem fld_putFld_other (w : Word) (hi lo v hi' lo' : Nat) (h : hi < 32) (hd : hi' < lo ∨ hi < lo') :
    fld (putFld w hi lo v) hi' lo' = fld w hi' lo' := by
  apply Nat.eq_of_testBit_eq
  intro i
  unfold fld
  rw [Nat.testBit_mod_two_pow, Nat.testBit_mod_two_pow, Nat.testBit_shiftRight, Nat.testBit_shiftRight]
  by_cases hi' : i < hi' + 1 - lo'
  · have hb := bit_putFld w hi lo v (lo' + i) h
    rw [if_neg (by omega)] at hb
    unfold bit at hb
    rw [← BitVec.testBit_toNat, ← BitVec.testBit_toNat] at hb
    rw [hb]
  · simp [hi']

theorem bit_eq_fld (w : Word) (i : Nat) : bit w i = decide (fld w i i = 1) := by
  unfold bit fld
  rw [← BitVec.testBit_toNat, Nat.testBit_eq_decide_div_mod_eq, Nat.shiftRight_eq_div_pow]
  simp

end Sys2Proof.Laws
end

