-- ==== Sys2Proof/Laws/Tab.lean ====
section
/-! SUPPORT. What the sparse tables do: a key set reads back, every other key reads as before, and the keys stay in
rising order. -/

namespace Sys2Proof.Laws

open Sys2Proof.Machine

variable {α : Type}

theorem tabFind_tabSet (k : Nat) (v : α) (t : Tab α) (j : Nat) :
    tabFind? j (tabSet k v t) = if j = k then some v else tabFind? j t := by
  induction t with
  | nil => simp [tabSet, tabFind?, eq_comm]
  | cons c t ih =>
    obtain ⟨k', w⟩ := c
    simp only [tabSet]
    split
    · simp only [tabFind?]; split <;> rename_i h <;> simp_all [eq_comm]
    · split
      · rename_i h1 h2; subst h2; simp only [tabFind?]; split <;> rename_i h <;> simp_all [eq_comm]
      · simp only [tabFind?, ih]; split <;> rename_i h
        · have : j ≠ k := by omega
          simp [this]
        · rfl

theorem tabGet_tabSet (d : α) (k : Nat) (v : α) (t : Tab α) (j : Nat) :
    tabGet d (tabSet k v t) j = if j = k then v else tabGet d t j := by
  unfold tabGet; rw [tabFind_tabSet]; split <;> rfl

theorem tabGet_tabMod (d : α) (k : Nat) (f : α → α) (t : Tab α) (j : Nat) :
    tabGet d (tabMod d k f t) j = if j = k then f (tabGet d t k) else tabGet d t j := tabGet_tabSet ..

theorem tabFind_tabErase (k : Nat) (t : Tab α) (j : Nat) :
    tabFind? j (tabErase k t) = if j = k then none else tabFind? j t := by
  induction t with
  | nil => simp [tabErase, tabFind?]
  | cons c t ih =>
    obtain ⟨k', w⟩ := c
    unfold tabErase at ih ⊢
    by_cases h : k' = k
    · subst h; simp only [List.filter_cons, bne_self_eq_false, Bool.false_eq_true, if_false, ih, tabFind?]
      split <;> rename_i h
      · rfl
      · rw [if_neg (Ne.symm h)]
    · simp only [List.filter_cons, bne_iff_ne, ne_eq, h, not_false_eq_true, if_true, tabFind?, ih]
      split <;> rename_i h'
      · have : j ≠ k := by omega
        simp [this]
      · rfl

/-- Every key listed stands above `lo`, and the keys rise. -/
theorem tabSorted_iff (lo : Nat) (t : Tab α) :
    tabSorted (some lo) t = true ↔ (∀ p ∈ t, lo < p.1) ∧ tabSorted none t = true := by
  induction t generalizing lo with
  | nil => simp [tabSorted]
  | cons c t ih =>
    obtain ⟨k, w⟩ := c
    simp only [tabSorted, Bool.and_eq_true, decide_eq_true_eq, List.mem_cons, forall_eq_or_imp]
    constructor
    · rintro ⟨h1, h2⟩
      exact ⟨⟨h1, fun p hp => lt_trans h1 (((ih k).1 h2).1 p hp)⟩, h2⟩
    · rintro ⟨⟨h1, -⟩, h2⟩; exact ⟨h1, h2⟩

theorem tabSorted_cons (k : Nat) (v : α) (t : Tab α) :
    tabSorted none ((k, v) :: t) = true ↔ (∀ p ∈ t, k < p.1) ∧ tabSorted none t = true := by
  show tabSorted (some k) t = true ↔ _
  exact tabSorted_iff k t

theorem mem_tabSet {k : Nat} {v : α} {t : Tab α} {p : Nat × α} (h : p ∈ tabSet k v t) : p = (k, v) ∨ p ∈ t := by
  induction t with
  | nil => simp [tabSet] at h; exact .inl h
  | cons c t ih =>
    obtain ⟨k', w⟩ := c
    simp only [tabSet] at h
    split at h
    · rcases List.mem_cons.1 h with h | h
      · exact .inl h
      · exact .inr h
    · split at h
      · rcases List.mem_cons.1 h with h | h
        · exact .inl h
        · exact .inr (List.mem_cons_of_mem _ h)
      · rcases List.mem_cons.1 h with h | h
        · exact .inr (h ▸ List.mem_cons_self ..)
        · rcases ih h with h | h
          · exact .inl h
          · exact .inr (List.mem_cons_of_mem _ h)

theorem tabSorted_tabSet (k : Nat) (v : α) (t : Tab α) (h : tabSorted none t = true) : tabSorted none (tabSet k v t) = true := by
  induction t with
  | nil => rfl
  | cons c t ih =>
    obtain ⟨k', w⟩ := c
    have h' := (tabSorted_cons k' w t).1 h
    simp only [tabSet]
    split
    · refine (tabSorted_cons ..).2 ⟨?_, h⟩
      intro p hp
      rcases List.mem_cons.1 hp with e | hp
      · subst e; assumption
      · have := h'.1 p hp; omega
    · split
      · rename_i e; subst e; exact (tabSorted_cons ..).2 h'
      · refine (tabSorted_cons ..).2 ⟨?_, ih h'.2⟩
        intro p hp
        rcases mem_tabSet hp with e | hp
        · subst e; dsimp only; omega
        · exact h'.1 p hp

theorem tabSorted_filter (f : Nat × α → Bool) (t : Tab α) (h : tabSorted none t = true) :
    tabSorted none (t.filter f) = true := by
  induction t with
  | nil => rfl
  | cons c t ih =>
    obtain ⟨k, w⟩ := c
    have h' := (tabSorted_cons k w t).1 h
    simp only [List.filter_cons]
    split
    · exact (tabSorted_cons ..).2 ⟨fun p hp => h'.1 p (List.mem_of_mem_filter hp), ih h'.2⟩
    · exact ih h'.2

theorem tabFind_none {t : Tab α} {k : Nat} (h : ∀ p ∈ t, k < p.1) : tabFind? k t = none := by
  induction t with
  | nil => rfl
  | cons c t ih =>
    obtain ⟨k', w⟩ := c
    have := h _ (List.mem_cons_self ..)
    simp only [tabFind?]
    rw [if_neg (by dsimp only at this; omega)]
    exact ih (fun p hp => h p (List.mem_cons_of_mem _ hp))

/-- Two tables in rising order that list the same values are one. -/
theorem tab_ext {t u : Tab α} (ht : tabSorted none t = true) (hu : tabSorted none u = true)
    (h : ∀ k, tabFind? k t = tabFind? k u) : t = u := by
  induction t generalizing u with
  | nil =>
    cases u with
    | nil => rfl
    | cons c u => have := h c.1; simp [tabFind?] at this
  | cons c t ih =>
    obtain ⟨k, v⟩ := c
    have ht' := (tabSorted_cons ..).1 ht
    cases u with
    | nil => have := h k; simp [tabFind?] at this
    | cons c u =>
      obtain ⟨k', v'⟩ := c
      have hu' := (tabSorted_cons ..).1 hu
      have hk : k = k' := by
        by_contra hne
        rcases Nat.lt_or_gt_of_ne hne with hl | hl
        · have := h k
          rw [tabFind_none (t := (k', v') :: u) (k := k) (by
            intro p hp; rcases List.mem_cons.1 hp with e | hp
            · subst e; exact hl
            · exact lt_trans hl (hu'.1 p hp))] at this
          simp [tabFind?] at this
        · have := h k'
          rw [tabFind_none (t := (k, v) :: t) (k := k') (by
            intro p hp; rcases List.mem_cons.1 hp with e | hp
            · subst e; exact hl
            · exact lt_trans hl (ht'.1 p hp))] at this
          simp [tabFind?] at this
      subst hk
      have hv : v = v' := by have := h k; simpa [tabFind?] using this
      subst hv
      rw [ih ht'.2 hu'.2]
      intro j
      have := h j
      simp only [tabFind?] at this
      by_cases hj : k = j
      · subst hj; rw [tabFind_none ht'.1, tabFind_none hu'.1]
      · simpa [hj] using this

end Sys2Proof.Laws
end

