-- ==== Sys2Proof/Laws/Mem.lean ====
section
/-! SUPPORT. The byte memories: a byte written reads back, the others read as before, every operation keeps the
canonical form, and what a step stored is what memory holds after it. -/

namespace Sys2Proof.Laws

open Sys2Proof Sys2Proof.Machine

/-! ### The canonical form -/

theorem wf_iff (m : List Host.Cell) :
    Memory.wf m = true ↔ tabSorted none m = true ∧ ∀ c ∈ m, unlisted c.1 ≠ some c.2 := by
  simp [Memory.wf]

theorem wf_nil : Memory.wf [] = true := rfl

theorem memRead_memWrite (m : List Host.Cell) (a : Nat) (v : Byte) (b : Nat) :
    memRead (memWrite m a v) b = if b = a then some v else memRead m b := by
  unfold memWrite
  by_cases hb : b = a
  · subst hb
    rw [if_pos rfl]
    by_cases h : unlisted b = some v
    · rw [if_pos h]; unfold memRead; rw [tabFind_tabErase, if_pos rfl]; exact h
    · rw [if_neg h]; unfold memRead; rw [tabFind_tabSet, if_pos rfl]
  · rw [if_neg hb]
    by_cases h : unlisted a = some v
    · rw [if_pos h]; unfold memRead; rw [tabFind_tabErase, if_neg hb]
    · rw [if_neg h]; unfold memRead; rw [tabFind_tabSet, if_neg hb]

theorem wf_memWrite (m : List Host.Cell) (a : Nat) (v : Byte) (h : Memory.wf m = true) : Memory.wf (memWrite m a v) = true := by
  obtain ⟨hs, hc⟩ := (wf_iff m).1 h
  refine (wf_iff _).2 ?_
  unfold memWrite
  split <;> rename_i hu
  · exact ⟨tabSorted_filter _ _ hs, fun c hm => hc c (List.mem_of_mem_filter hm)⟩
  · refine ⟨tabSorted_tabSet _ _ _ hs, fun c hm => ?_⟩
    rcases mem_tabSet hm with e | hm
    · subst e; exact hu
    · exact hc c hm

theorem wf_memWriteAll (m l : List Host.Cell) (h : Memory.wf m = true) : Memory.wf (memWriteAll m l) = true := by
  induction l with
  | nil => exact h
  | cons c l ih => exact wf_memWrite _ _ _ ih

theorem memRead_memWriteAll (m l : List Host.Cell) (b : Nat) :
    memRead (memWriteAll m l) b = match tabFind? b l with
      | some v => some v
      | none => memRead m b := by
  induction l with
  | nil => rfl
  | cons c l ih =>
    obtain ⟨a, v⟩ := c
    simp only [memWriteAll, memRead_memWrite, tabFind?]
    by_cases h : b = a
    · subst h; simp
    · rw [if_neg h, if_neg (Ne.symm h), ih]

theorem find_of_memRead {m : List Host.Cell} (h : Memory.wf m = true) (k : Nat) :
    tabFind? k m = if memRead m k = unlisted k then none else memRead m k := by
  have hc := ((wf_iff m).1 h).2
  have key : ∀ (l : List Host.Cell) (v : Byte), tabFind? k l = some v → (k, v) ∈ l := by
    intro l
    induction l with
    | nil => intro v hv; simp [tabFind?] at hv
    | cons c l ih =>
      obtain ⟨j, w⟩ := c
      intro v hv; simp only [tabFind?] at hv
      split at hv
      · rename_i e; subst e; cases hv; exact List.mem_cons_self ..
      · exact List.mem_cons_of_mem _ (ih v hv)
  cases hf : tabFind? k m with
  | none => simp [memRead, hf]
  | some v =>
    have hm := hc _ (key m v hf)
    simp only [memRead, hf]
    rw [if_neg (Ne.symm hm)]

/-- Two memories in canonical form that read alike are one. -/
theorem mem_ext {m m' : List Host.Cell} (h : Memory.wf m = true) (h' : Memory.wf m' = true)
    (hr : ∀ b, memRead m b = memRead m' b) : m = m' :=
  tab_ext ((wf_iff m).1 h).1 ((wf_iff m').1 h').1 (fun k => by rw [find_of_memRead h, find_of_memRead h', hr])

/-! ### What a step stores -/

theorem readByte_storeByte (s : State) (a : Nat) (v : Byte) (b : Nat) :
    readByte (storeByte s a v) b = if b = a then v else readByte s b := by
  simp only [readByte, storeByte, tabFind?]
  by_cases h : b = a
  · subst h; simp
  · rw [if_neg h, if_neg (Ne.symm h)]

theorem readByte_storeBytes (s : State) (a : Nat) (bs : List Byte) (b : Nat) :
    readByte (storeBytes s a bs) b = if a ≤ b ∧ b < a + bs.length then bs.getD (b - a) 0 else readByte s b := by
  induction bs generalizing s a with
  | nil => rw [if_neg (by simp)]; rfl
  | cons v bs ih =>
    simp only [storeBytes, ih, readByte_storeByte, List.length_cons]
    by_cases h1 : a + 1 ≤ b ∧ b < a + 1 + bs.length
    · rw [if_pos h1, if_pos (by omega)]
      have : b - a = (b - (a + 1)) + 1 := by omega
      rw [this, List.getD_cons_succ]
    · rw [if_neg h1]
      by_cases h2 : b = a
      · subst h2; rw [if_pos rfl, if_pos (by omega)]; simp
      · rw [if_neg h2, if_neg (by omega)]

theorem post_storeBytes (s : State) (a : Nat) (bs : List Byte) (b : Nat) :
    tabFind? b (storeBytes s a bs).post = if a ≤ b ∧ b < a + bs.length then some (bs.getD (b - a) 0) else tabFind? b s.post := by
  induction bs generalizing s a with
  | nil => rw [if_neg (by simp)]; rfl
  | cons v bs ih =>
    simp only [storeBytes, ih, List.length_cons, storeByte, tabFind?]
    by_cases h1 : a + 1 ≤ b ∧ b < a + 1 + bs.length
    · rw [if_pos h1, if_pos (by omega)]
      have : b - a = (b - (a + 1)) + 1 := by omega
      rw [this, List.getD_cons_succ]
    · rw [if_neg h1]
      by_cases h2 : b = a
      · subst h2; rw [if_pos rfl, if_pos (by omega)]; simp
      · rw [if_neg (Ne.symm h2), if_neg (by omega)]

/-- A store changes nothing but what waits to be stored. -/
theorem storeBytes_eq (s : State) (a : Nat) (bs : List Byte) : storeBytes s a bs = { s with post := (storeBytes s a bs).post } := by
  induction bs generalizing s a with
  | nil => rfl
  | cons v bs ih => simp only [storeBytes]; rw [ih]; rfl

theorem readBytes_storeBytes_same (s : State) (a : Nat) (bs : List Byte) : readBytes (storeBytes s a bs) a bs.length = bs := by
  apply List.ext_getElem
  · simp [readBytes]
  · intro i h1 h2
    simp only [readBytes, List.getElem_map, List.getElem_range, readByte_storeBytes]
    rw [if_pos ⟨by omega, by omega⟩]
    simp [List.getD_eq_getElem?_getD, h2]

theorem readBytes_storeBytes_other (s : State) (a : Nat) (bs : List Byte) (b n : Nat) (h : b + n ≤ a ∨ a + bs.length ≤ b) :
    readBytes (storeBytes s a bs) b n = readBytes s b n := by
  unfold readBytes
  apply List.map_congr_left
  intro k hk
  have := List.mem_range.1 hk
  rw [readByte_storeBytes, if_neg (by omega)]

theorem bytesOf_length (n v : Nat) : (bytesOf n v).length = n := by simp [bytesOf]

theorem ofBytes_bytesOf (n v : Nat) : ofBytes (bytesOf n v) = v % 256 ^ n := by
  have gen : ∀ (n k : Nat), ofBytes ((List.range n).map (fun j => byteOf v (j + k))) = v / 256 ^ k % 256 ^ n := by
    intro n
    induction n with
    | zero => intro k; simp [ofBytes, Nat.mod_one]
    | succ n ih =>
      intro k
      rw [List.range_succ_eq_map]
      simp only [List.map_cons, List.map_map, ofBytes]
      have : ((fun j => byteOf v (j + k)) ∘ Nat.succ) = fun j => byteOf v (j + (k + 1)) := by
        funext j; show byteOf v (j + 1 + k) = _; congr 1; omega
      rw [this, ih]
      have hb : (byteOf v (0 + k)).toNat = v / 256 ^ k % 256 := by
        simp [byteOf, Nat.shiftRight_eq_div_pow, pow_mul]
      rw [hb, pow_succ, ← Nat.div_div_eq_div_mul, Nat.pow_succ', Nat.mod_mul]
  have := gen n 0
  simpa [bytesOf] using this

theorem rd32_wr32_same (s : State) (a v : Nat) : rd32 (wr32 s a v) a = v % 2 ^ 32 := by
  have := readBytes_storeBytes_same s a (bytesOf 4 v)
  rw [bytesOf_length] at this
  unfold rd32 wr32
  rw [this, ofBytes_bytesOf]; norm_num

theorem rd32_wr32_other (s : State) (a v b : Nat) (h : b + 4 ≤ a ∨ a + 4 ≤ b) : rd32 (wr32 s a v) b = rd32 s b := by
  unfold rd32 wr32
  rw [readBytes_storeBytes_other _ _ _ _ _ (by rw [bytesOf_length]; exact h)]

/-! ### The end of a step -/

/-- What memory holds after a step is what the step stored, else what it held. -/
theorem memRead_settle (s t : State) (b : Nat) :
    memRead (settle s t).mem b = match tabFind? b t.post with
      | some v => some v
      | none => memRead s.mem b := memRead_memWriteAll ..

@[simp] theorem settle_pending (s t : State) : (settle s t).pending = s.pending := rfl
@[simp] theorem settle_fuse (s t : State) : (settle s t).fuse = s.fuse := rfl
@[simp] theorem settle_post (s t : State) : (settle s t).post = [] := rfl
@[simp] theorem settle_time (s t : State) : (settle s t).time = t.time := rfl
@[simp] theorem settle_words (s t : State) : (settle s t).words = t.words := rfl
@[simp] theorem settle_dru (s t : State) : (settle s t).dru = t.dru := rfl
@[simp] theorem settle_sys (s t : State) : (settle s t).sys = t.sys := rfl

theorem settle_sound (s t : State) (h : Sound s) : Sound (settle s t) := ⟨wf_memWriteAll _ _ h.1, rfl⟩

/-- A step that stored nothing leaves memory as it was. -/
theorem settle_mem (s t : State) (h : t.post = []) : (settle s t).mem = s.mem := by unfold settle; rw [h]; rfl

theorem run_next {f : State → State} {s t : State} (h : run f s = .next t) : t = settle s (f (work s)) := by
  unfold run at h; cases h; rfl

theorem runE_next {f : State → Except Fault State} {s t : State} (h : runE f s = .next t) :
    ∃ u, f (work s) = .ok u ∧ t = settle s u := by
  unfold runE at h
  split at h
  · cases h; exact ⟨_, by assumption, rfl⟩
  · cases h

theorem runFuse_next {f : State → State} {s t : State} (h : runFuse f s = .next t) :
    t = { settle s (f (work s)) with fuse := (f (work s)).fuse } := by
  unfold runFuse at h; cases h; rfl

/-- A step that always answers a next state answers the one its function leaves. -/
theorem run_leaves {f : State → State} {s w t : State} (hw : w = work s) (h : f w = t) : run f s = leaves s t := by
  subst hw; subst h; rfl

theorem runE_leaves {f : State → Except Fault State} {s w t : State} (hw : w = work s) (h : f w = .ok t) :
    runE f s = leaves s t := by
  subst hw; unfold runE; unfold work at h; rw [h]; rfl

theorem runE_fault {f : State → Except Fault State} {s w : State} {e : Fault} (hw : w = work s) (h : f w = .error e) :
    runE f s = .fault e := by
  subst hw; unfold runE; unfold work at h; rw [h]

theorem leaves_next {s t u : State} (h : leaves s t = .next u) : u = settle s t := by unfold leaves at h; cases h; rfl

end Sys2Proof.Laws
end

