-- ==== Sys2Proof/Laws/State.lean ====
section
/-! SUPPORT. What each named update of the state leaves alone: one lemma per update and field. -/

namespace Sys2Proof.Laws

open Sys2Proof Sys2Proof.Machine

@[simp] theorem emit_pending (o : Out) (s : State) : (emit o s).pending = s.pending := rfl
@[simp] theorem emit_mem (o : Out) (s : State) : (emit o s).mem = s.mem := rfl
@[simp] theorem emit_post (o : Out) (s : State) : (emit o s).post = s.post := rfl
@[simp] theorem emit_ue (o : Out) (s : State) : (emit o s).ue = s.ue := rfl
@[simp] theorem emit_fuse (o : Out) (s : State) : (emit o s).fuse = s.fuse := rfl
@[simp] theorem emit_free (o : Out) (s : State) : (emit o s).free = s.free := rfl
@[simp] theorem emit_words (o : Out) (s : State) : (emit o s).words = s.words := rfl
@[simp] theorem emit_time (o : Out) (s : State) : (emit o s).time = s.time := rfl
@[simp] theorem emit_units (o : Out) (s : State) : (emit o s).units = s.units := rfl
@[simp] theorem emit_heldTags (o : Out) (s : State) : (emit o s).heldTags = s.heldTags := rfl
@[simp] theorem emit_sys (o : Out) (s : State) : (emit o s).sys = s.sys := rfl
@[simp] theorem emit_start (o : Out) (s : State) : (emit o s).start = s.start := rfl
@[simp] theorem emit_memst (o : Out) (s : State) : (emit o s).memst = s.memst := rfl
@[simp] theorem emit_drc (o : Out) (s : State) : (emit o s).drc = s.drc := rfl
@[simp] theorem emit_sec (o : Out) (s : State) : (emit o s).sec = s.sec := rfl
@[simp] theorem emit_audio (o : Out) (s : State) : (emit o s).audio = s.audio := rfl
@[simp] theorem emit_inc (o : Out) (s : State) : (emit o s).inc = s.inc := rfl
@[simp] theorem emit_rte (o : Out) (s : State) : (emit o s).rte = s.rte := rfl
@[simp] theorem emit_mot (o : Out) (s : State) : (emit o s).mot = s.mot := rfl
@[simp] theorem emit_slv (o : Out) (s : State) : (emit o s).slv = s.slv := rfl
@[simp] theorem emit_dsx (o : Out) (s : State) : (emit o s).dsx = s.dsx := rfl
@[simp] theorem emit_lan (o : Out) (s : State) : (emit o s).lan = s.lan := rfl
@[simp] theorem emit_red (o : Out) (s : State) : (emit o s).red = s.red := rfl
@[simp] theorem emit_cor (o : Out) (s : State) : (emit o s).cor = s.cor := rfl
@[simp] theorem emit_mea (o : Out) (s : State) : (emit o s).mea = s.mea := rfl
@[simp] theorem emit_clk (o : Out) (s : State) : (emit o s).clk = s.clk := rfl
@[simp] theorem emit_tim (o : Out) (s : State) : (emit o s).tim = s.tim := rfl
@[simp] theorem emit_net (o : Out) (s : State) : (emit o s).net = s.net := rfl
@[simp] theorem emit_mst (o : Out) (s : State) : (emit o s).mst = s.mst := rfl
@[simp] theorem emit_lnk (o : Out) (s : State) : (emit o s).lnk = s.lnk := rfl
@[simp] theorem emit_ser (o : Out) (s : State) : (emit o s).ser = s.ser := rfl
@[simp] theorem emit_par (o : Out) (s : State) : (emit o s).par = s.par := rfl
@[simp] theorem emit_hlt (o : Out) (s : State) : (emit o s).hlt = s.hlt := rfl
@[simp] theorem emit_dma (o : Out) (s : State) : (emit o s).dma = s.dma := rfl
@[simp] theorem emit_dru (o : Out) (s : State) : (emit o s).dru = s.dru := rfl
@[simp] theorem emit_tap (o : Out) (s : State) : (emit o s).tap = s.tap := rfl

@[simp] theorem storeByte_pending (s : State) (a : Nat) (b : Byte) : (storeByte s a b).pending = s.pending := rfl
@[simp] theorem storeByte_mem (s : State) (a : Nat) (b : Byte) : (storeByte s a b).mem = s.mem := rfl
@[simp] theorem storeByte_ue (s : State) (a : Nat) (b : Byte) : (storeByte s a b).ue = s.ue := rfl
@[simp] theorem storeByte_fuse (s : State) (a : Nat) (b : Byte) : (storeByte s a b).fuse = s.fuse := rfl
@[simp] theorem storeByte_free (s : State) (a : Nat) (b : Byte) : (storeByte s a b).free = s.free := rfl
@[simp] theorem storeByte_out (s : State) (a : Nat) (b : Byte) : (storeByte s a b).out = s.out := rfl
@[simp] theorem storeByte_words (s : State) (a : Nat) (b : Byte) : (storeByte s a b).words = s.words := rfl
@[simp] theorem storeByte_time (s : State) (a : Nat) (b : Byte) : (storeByte s a b).time = s.time := rfl
@[simp] theorem storeByte_units (s : State) (a : Nat) (b : Byte) : (storeByte s a b).units = s.units := rfl
@[simp] theorem storeByte_heldTags (s : State) (a : Nat) (b : Byte) : (storeByte s a b).heldTags = s.heldTags := rfl
@[simp] theorem storeByte_sys (s : State) (a : Nat) (b : Byte) : (storeByte s a b).sys = s.sys := rfl
@[simp] theorem storeByte_start (s : State) (a : Nat) (b : Byte) : (storeByte s a b).start = s.start := rfl
@[simp] theorem storeByte_memst (s : State) (a : Nat) (b : Byte) : (storeByte s a b).memst = s.memst := rfl
@[simp] theorem storeByte_drc (s : State) (a : Nat) (b : Byte) : (storeByte s a b).drc = s.drc := rfl
@[simp] theorem storeByte_sec (s : State) (a : Nat) (b : Byte) : (storeByte s a b).sec = s.sec := rfl
@[simp] theorem storeByte_audio (s : State) (a : Nat) (b : Byte) : (storeByte s a b).audio = s.audio := rfl
@[simp] theorem storeByte_inc (s : State) (a : Nat) (b : Byte) : (storeByte s a b).inc = s.inc := rfl
@[simp] theorem storeByte_rte (s : State) (a : Nat) (b : Byte) : (storeByte s a b).rte = s.rte := rfl
@[simp] theorem storeByte_mot (s : State) (a : Nat) (b : Byte) : (storeByte s a b).mot = s.mot := rfl
@[simp] theorem storeByte_slv (s : State) (a : Nat) (b : Byte) : (storeByte s a b).slv = s.slv := rfl
@[simp] theorem storeByte_dsx (s : State) (a : Nat) (b : Byte) : (storeByte s a b).dsx = s.dsx := rfl
@[simp] theorem storeByte_lan (s : State) (a : Nat) (b : Byte) : (storeByte s a b).lan = s.lan := rfl
@[simp] theorem storeByte_red (s : State) (a : Nat) (b : Byte) : (storeByte s a b).red = s.red := rfl
@[simp] theorem storeByte_cor (s : State) (a : Nat) (b : Byte) : (storeByte s a b).cor = s.cor := rfl
@[simp] theorem storeByte_mea (s : State) (a : Nat) (b : Byte) : (storeByte s a b).mea = s.mea := rfl
@[simp] theorem storeByte_clk (s : State) (a : Nat) (b : Byte) : (storeByte s a b).clk = s.clk := rfl
@[simp] theorem storeByte_tim (s : State) (a : Nat) (b : Byte) : (storeByte s a b).tim = s.tim := rfl
@[simp] theorem storeByte_net (s : State) (a : Nat) (b : Byte) : (storeByte s a b).net = s.net := rfl
@[simp] theorem storeByte_mst (s : State) (a : Nat) (b : Byte) : (storeByte s a b).mst = s.mst := rfl
@[simp] theorem storeByte_lnk (s : State) (a : Nat) (b : Byte) : (storeByte s a b).lnk = s.lnk := rfl
@[simp] theorem storeByte_ser (s : State) (a : Nat) (b : Byte) : (storeByte s a b).ser = s.ser := rfl
@[simp] theorem storeByte_par (s : State) (a : Nat) (b : Byte) : (storeByte s a b).par = s.par := rfl
@[simp] theorem storeByte_hlt (s : State) (a : Nat) (b : Byte) : (storeByte s a b).hlt = s.hlt := rfl
@[simp] theorem storeByte_dma (s : State) (a : Nat) (b : Byte) : (storeByte s a b).dma = s.dma := rfl
@[simp] theorem storeByte_dru (s : State) (a : Nat) (b : Byte) : (storeByte s a b).dru = s.dru := rfl
@[simp] theorem storeByte_tap (s : State) (a : Nat) (b : Byte) : (storeByte s a b).tap = s.tap := rfl

@[simp] theorem setW_pending (a : Nat) (v : Word) (s : State) : (setW a v s).pending = s.pending := rfl
@[simp] theorem setW_mem (a : Nat) (v : Word) (s : State) : (setW a v s).mem = s.mem := rfl
@[simp] theorem setW_post (a : Nat) (v : Word) (s : State) : (setW a v s).post = s.post := rfl
@[simp] theorem setW_ue (a : Nat) (v : Word) (s : State) : (setW a v s).ue = s.ue := rfl
@[simp] theorem setW_fuse (a : Nat) (v : Word) (s : State) : (setW a v s).fuse = s.fuse := rfl
@[simp] theorem setW_free (a : Nat) (v : Word) (s : State) : (setW a v s).free = s.free := rfl
@[simp] theorem setW_out (a : Nat) (v : Word) (s : State) : (setW a v s).out = s.out := rfl
@[simp] theorem setW_time (a : Nat) (v : Word) (s : State) : (setW a v s).time = s.time := rfl
@[simp] theorem setW_units (a : Nat) (v : Word) (s : State) : (setW a v s).units = s.units := rfl
@[simp] theorem setW_heldTags (a : Nat) (v : Word) (s : State) : (setW a v s).heldTags = s.heldTags := rfl
@[simp] theorem setW_sys (a : Nat) (v : Word) (s : State) : (setW a v s).sys = s.sys := rfl
@[simp] theorem setW_start (a : Nat) (v : Word) (s : State) : (setW a v s).start = s.start := rfl
@[simp] theorem setW_memst (a : Nat) (v : Word) (s : State) : (setW a v s).memst = s.memst := rfl
@[simp] theorem setW_drc (a : Nat) (v : Word) (s : State) : (setW a v s).drc = s.drc := rfl
@[simp] theorem setW_sec (a : Nat) (v : Word) (s : State) : (setW a v s).sec = s.sec := rfl
@[simp] theorem setW_audio (a : Nat) (v : Word) (s : State) : (setW a v s).audio = s.audio := rfl
@[simp] theorem setW_inc (a : Nat) (v : Word) (s : State) : (setW a v s).inc = s.inc := rfl
@[simp] theorem setW_rte (a : Nat) (v : Word) (s : State) : (setW a v s).rte = s.rte := rfl
@[simp] theorem setW_mot (a : Nat) (v : Word) (s : State) : (setW a v s).mot = s.mot := rfl
@[simp] theorem setW_slv (a : Nat) (v : Word) (s : State) : (setW a v s).slv = s.slv := rfl
@[simp] theorem setW_dsx (a : Nat) (v : Word) (s : State) : (setW a v s).dsx = s.dsx := rfl
@[simp] theorem setW_lan (a : Nat) (v : Word) (s : State) : (setW a v s).lan = s.lan := rfl
@[simp] theorem setW_red (a : Nat) (v : Word) (s : State) : (setW a v s).red = s.red := rfl
@[simp] theorem setW_cor (a : Nat) (v : Word) (s : State) : (setW a v s).cor = s.cor := rfl
@[simp] theorem setW_mea (a : Nat) (v : Word) (s : State) : (setW a v s).mea = s.mea := rfl
@[simp] theorem setW_clk (a : Nat) (v : Word) (s : State) : (setW a v s).clk = s.clk := rfl
@[simp] theorem setW_tim (a : Nat) (v : Word) (s : State) : (setW a v s).tim = s.tim := rfl
@[simp] theorem setW_net (a : Nat) (v : Word) (s : State) : (setW a v s).net = s.net := rfl
@[simp] theorem setW_mst (a : Nat) (v : Word) (s : State) : (setW a v s).mst = s.mst := rfl
@[simp] theorem setW_lnk (a : Nat) (v : Word) (s : State) : (setW a v s).lnk = s.lnk := rfl
@[simp] theorem setW_ser (a : Nat) (v : Word) (s : State) : (setW a v s).ser = s.ser := rfl
@[simp] theorem setW_par (a : Nat) (v : Word) (s : State) : (setW a v s).par = s.par := rfl
@[simp] theorem setW_hlt (a : Nat) (v : Word) (s : State) : (setW a v s).hlt = s.hlt := rfl
@[simp] theorem setW_dma (a : Nat) (v : Word) (s : State) : (setW a v s).dma = s.dma := rfl
@[simp] theorem setW_dru (a : Nat) (v : Word) (s : State) : (setW a v s).dru = s.dru := rfl
@[simp] theorem setW_tap (a : Nat) (v : Word) (s : State) : (setW a v s).tap = s.tap := rfl

@[simp] theorem setF_pending (a hi lo v : Nat) (s : State) : (setF a hi lo v s).pending = s.pending := rfl
@[simp] theorem setF_mem (a hi lo v : Nat) (s : State) : (setF a hi lo v s).mem = s.mem := rfl
@[simp] theorem setF_post (a hi lo v : Nat) (s : State) : (setF a hi lo v s).post = s.post := rfl
@[simp] theorem setF_ue (a hi lo v : Nat) (s : State) : (setF a hi lo v s).ue = s.ue := rfl
@[simp] theorem setF_fuse (a hi lo v : Nat) (s : State) : (setF a hi lo v s).fuse = s.fuse := rfl
@[simp] theorem setF_free (a hi lo v : Nat) (s : State) : (setF a hi lo v s).free = s.free := rfl
@[simp] theorem setF_out (a hi lo v : Nat) (s : State) : (setF a hi lo v s).out = s.out := rfl
@[simp] theorem setF_time (a hi lo v : Nat) (s : State) : (setF a hi lo v s).time = s.time := rfl
@[simp] theorem setF_units (a hi lo v : Nat) (s : State) : (setF a hi lo v s).units = s.units := rfl
@[simp] theorem setF_heldTags (a hi lo v : Nat) (s : State) : (setF a hi lo v s).heldTags = s.heldTags := rfl
@[simp] theorem setF_sys (a hi lo v : Nat) (s : State) : (setF a hi lo v s).sys = s.sys := rfl
@[simp] theorem setF_start (a hi lo v : Nat) (s : State) : (setF a hi lo v s).start = s.start := rfl
@[simp] theorem setF_memst (a hi lo v : Nat) (s : State) : (setF a hi lo v s).memst = s.memst := rfl
@[simp] theorem setF_drc (a hi lo v : Nat) (s : State) : (setF a hi lo v s).drc = s.drc := rfl
@[simp] theorem setF_sec (a hi lo v : Nat) (s : State) : (setF a hi lo v s).sec = s.sec := rfl
@[simp] theorem setF_audio (a hi lo v : Nat) (s : State) : (setF a hi lo v s).audio = s.audio := rfl
@[simp] theorem setF_inc (a hi lo v : Nat) (s : State) : (setF a hi lo v s).inc = s.inc := rfl
@[simp] theorem setF_rte (a hi lo v : Nat) (s : State) : (setF a hi lo v s).rte = s.rte := rfl
@[simp] theorem setF_mot (a hi lo v : Nat) (s : State) : (setF a hi lo v s).mot = s.mot := rfl
@[simp] theorem setF_slv (a hi lo v : Nat) (s : State) : (setF a hi lo v s).slv = s.slv := rfl
@[simp] theorem setF_dsx (a hi lo v : Nat) (s : State) : (setF a hi lo v s).dsx = s.dsx := rfl
@[simp] theorem setF_lan (a hi lo v : Nat) (s : State) : (setF a hi lo v s).lan = s.lan := rfl
@[simp] theorem setF_red (a hi lo v : Nat) (s : State) : (setF a hi lo v s).red = s.red := rfl
@[simp] theorem setF_cor (a hi lo v : Nat) (s : State) : (setF a hi lo v s).cor = s.cor := rfl
@[simp] theorem setF_mea (a hi lo v : Nat) (s : State) : (setF a hi lo v s).mea = s.mea := rfl
@[simp] theorem setF_clk (a hi lo v : Nat) (s : State) : (setF a hi lo v s).clk = s.clk := rfl
@[simp] theorem setF_tim (a hi lo v : Nat) (s : State) : (setF a hi lo v s).tim = s.tim := rfl
@[simp] theorem setF_net (a hi lo v : Nat) (s : State) : (setF a hi lo v s).net = s.net := rfl
@[simp] theorem setF_mst (a hi lo v : Nat) (s : State) : (setF a hi lo v s).mst = s.mst := rfl
@[simp] theorem setF_lnk (a hi lo v : Nat) (s : State) : (setF a hi lo v s).lnk = s.lnk := rfl
@[simp] theorem setF_ser (a hi lo v : Nat) (s : State) : (setF a hi lo v s).ser = s.ser := rfl
@[simp] theorem setF_par (a hi lo v : Nat) (s : State) : (setF a hi lo v s).par = s.par := rfl
@[simp] theorem setF_hlt (a hi lo v : Nat) (s : State) : (setF a hi lo v s).hlt = s.hlt := rfl
@[simp] theorem setF_dma (a hi lo v : Nat) (s : State) : (setF a hi lo v s).dma = s.dma := rfl
@[simp] theorem setF_dru (a hi lo v : Nat) (s : State) : (setF a hi lo v s).dru = s.dru := rfl
@[simp] theorem setF_tap (a hi lo v : Nat) (s : State) : (setF a hi lo v s).tap = s.tap := rfl

@[simp] theorem setN_pending (a v : Nat) (s : State) : (setN a v s).pending = s.pending := rfl
@[simp] theorem setN_mem (a v : Nat) (s : State) : (setN a v s).mem = s.mem := rfl
@[simp] theorem setN_post (a v : Nat) (s : State) : (setN a v s).post = s.post := rfl
@[simp] theorem setN_ue (a v : Nat) (s : State) : (setN a v s).ue = s.ue := rfl
@[simp] theorem setN_fuse (a v : Nat) (s : State) : (setN a v s).fuse = s.fuse := rfl
@[simp] theorem setN_free (a v : Nat) (s : State) : (setN a v s).free = s.free := rfl
@[simp] theorem setN_out (a v : Nat) (s : State) : (setN a v s).out = s.out := rfl
@[simp] theorem setN_time (a v : Nat) (s : State) : (setN a v s).time = s.time := rfl
@[simp] theorem setN_units (a v : Nat) (s : State) : (setN a v s).units = s.units := rfl
@[simp] theorem setN_heldTags (a v : Nat) (s : State) : (setN a v s).heldTags = s.heldTags := rfl
@[simp] theorem setN_sys (a v : Nat) (s : State) : (setN a v s).sys = s.sys := rfl
@[simp] theorem setN_start (a v : Nat) (s : State) : (setN a v s).start = s.start := rfl
@[simp] theorem setN_memst (a v : Nat) (s : State) : (setN a v s).memst = s.memst := rfl
@[simp] theorem setN_drc (a v : Nat) (s : State) : (setN a v s).drc = s.drc := rfl
@[simp] theorem setN_sec (a v : Nat) (s : State) : (setN a v s).sec = s.sec := rfl
@[simp] theorem setN_audio (a v : Nat) (s : State) : (setN a v s).audio = s.audio := rfl
@[simp] theorem setN_inc (a v : Nat) (s : State) : (setN a v s).inc = s.inc := rfl
@[simp] theorem setN_rte (a v : Nat) (s : State) : (setN a v s).rte = s.rte := rfl
@[simp] theorem setN_mot (a v : Nat) (s : State) : (setN a v s).mot = s.mot := rfl
@[simp] theorem setN_slv (a v : Nat) (s : State) : (setN a v s).slv = s.slv := rfl
@[simp] theorem setN_dsx (a v : Nat) (s : State) : (setN a v s).dsx = s.dsx := rfl
@[simp] theorem setN_lan (a v : Nat) (s : State) : (setN a v s).lan = s.lan := rfl
@[simp] theorem setN_red (a v : Nat) (s : State) : (setN a v s).red = s.red := rfl
@[simp] theorem setN_cor (a v : Nat) (s : State) : (setN a v s).cor = s.cor := rfl
@[simp] theorem setN_mea (a v : Nat) (s : State) : (setN a v s).mea = s.mea := rfl
@[simp] theorem setN_clk (a v : Nat) (s : State) : (setN a v s).clk = s.clk := rfl
@[simp] theorem setN_tim (a v : Nat) (s : State) : (setN a v s).tim = s.tim := rfl
@[simp] theorem setN_net (a v : Nat) (s : State) : (setN a v s).net = s.net := rfl
@[simp] theorem setN_mst (a v : Nat) (s : State) : (setN a v s).mst = s.mst := rfl
@[simp] theorem setN_lnk (a v : Nat) (s : State) : (setN a v s).lnk = s.lnk := rfl
@[simp] theorem setN_ser (a v : Nat) (s : State) : (setN a v s).ser = s.ser := rfl
@[simp] theorem setN_par (a v : Nat) (s : State) : (setN a v s).par = s.par := rfl
@[simp] theorem setN_hlt (a v : Nat) (s : State) : (setN a v s).hlt = s.hlt := rfl
@[simp] theorem setN_dma (a v : Nat) (s : State) : (setN a v s).dma = s.dma := rfl
@[simp] theorem setN_dru (a v : Nat) (s : State) : (setN a v s).dru = s.dru := rfl
@[simp] theorem setN_tap (a v : Nat) (s : State) : (setN a v s).tap = s.tap := rfl

@[simp] theorem modSys_pending (f : SysSt → SysSt) (s : State) : (modSys f s).pending = s.pending := rfl
@[simp] theorem modSys_mem (f : SysSt → SysSt) (s : State) : (modSys f s).mem = s.mem := rfl
@[simp] theorem modSys_post (f : SysSt → SysSt) (s : State) : (modSys f s).post = s.post := rfl
@[simp] theorem modSys_ue (f : SysSt → SysSt) (s : State) : (modSys f s).ue = s.ue := rfl
@[simp] theorem modSys_fuse (f : SysSt → SysSt) (s : State) : (modSys f s).fuse = s.fuse := rfl
@[simp] theorem modSys_free (f : SysSt → SysSt) (s : State) : (modSys f s).free = s.free := rfl
@[simp] theorem modSys_out (f : SysSt → SysSt) (s : State) : (modSys f s).out = s.out := rfl
@[simp] theorem modSys_words (f : SysSt → SysSt) (s : State) : (modSys f s).words = s.words := rfl
@[simp] theorem modSys_time (f : SysSt → SysSt) (s : State) : (modSys f s).time = s.time := rfl
@[simp] theorem modSys_units (f : SysSt → SysSt) (s : State) : (modSys f s).units = s.units := rfl
@[simp] theorem modSys_heldTags (f : SysSt → SysSt) (s : State) : (modSys f s).heldTags = s.heldTags := rfl
@[simp] theorem modSys_start (f : SysSt → SysSt) (s : State) : (modSys f s).start = s.start := rfl
@[simp] theorem modSys_memst (f : SysSt → SysSt) (s : State) : (modSys f s).memst = s.memst := rfl
@[simp] theorem modSys_drc (f : SysSt → SysSt) (s : State) : (modSys f s).drc = s.drc := rfl
@[simp] theorem modSys_sec (f : SysSt → SysSt) (s : State) : (modSys f s).sec = s.sec := rfl
@[simp] theorem modSys_audio (f : SysSt → SysSt) (s : State) : (modSys f s).audio = s.audio := rfl
@[simp] theorem modSys_inc (f : SysSt → SysSt) (s : State) : (modSys f s).inc = s.inc := rfl
@[simp] theorem modSys_rte (f : SysSt → SysSt) (s : State) : (modSys f s).rte = s.rte := rfl
@[simp] theorem modSys_mot (f : SysSt → SysSt) (s : State) : (modSys f s).mot = s.mot := rfl
@[simp] theorem modSys_slv (f : SysSt → SysSt) (s : State) : (modSys f s).slv = s.slv := rfl
@[simp] theorem modSys_dsx (f : SysSt → SysSt) (s : State) : (modSys f s).dsx = s.dsx := rfl
@[simp] theorem modSys_lan (f : SysSt → SysSt) (s : State) : (modSys f s).lan = s.lan := rfl
@[simp] theorem modSys_red (f : SysSt → SysSt) (s : State) : (modSys f s).red = s.red := rfl
@[simp] theorem modSys_cor (f : SysSt → SysSt) (s : State) : (modSys f s).cor = s.cor := rfl
@[simp] theorem modSys_mea (f : SysSt → SysSt) (s : State) : (modSys f s).mea = s.mea := rfl
@[simp] theorem modSys_clk (f : SysSt → SysSt) (s : State) : (modSys f s).clk = s.clk := rfl
@[simp] theorem modSys_tim (f : SysSt → SysSt) (s : State) : (modSys f s).tim = s.tim := rfl
@[simp] theorem modSys_net (f : SysSt → SysSt) (s : State) : (modSys f s).net = s.net := rfl
@[simp] theorem modSys_mst (f : SysSt → SysSt) (s : State) : (modSys f s).mst = s.mst := rfl
@[simp] theorem modSys_lnk (f : SysSt → SysSt) (s : State) : (modSys f s).lnk = s.lnk := rfl
@[simp] theorem modSys_ser (f : SysSt → SysSt) (s : State) : (modSys f s).ser = s.ser := rfl
@[simp] theorem modSys_par (f : SysSt → SysSt) (s : State) : (modSys f s).par = s.par := rfl
@[simp] theorem modSys_hlt (f : SysSt → SysSt) (s : State) : (modSys f s).hlt = s.hlt := rfl
@[simp] theorem modSys_dma (f : SysSt → SysSt) (s : State) : (modSys f s).dma = s.dma := rfl
@[simp] theorem modSys_dru (f : SysSt → SysSt) (s : State) : (modSys f s).dru = s.dru := rfl
@[simp] theorem modSys_tap (f : SysSt → SysSt) (s : State) : (modSys f s).tap = s.tap := rfl

@[simp] theorem modSource_pending (src : Nat) (f : SourceSt → SourceSt) (s : State) : (modSource src f s).pending = s.pending := rfl
@[simp] theorem modSource_mem (src : Nat) (f : SourceSt → SourceSt) (s : State) : (modSource src f s).mem = s.mem := rfl
@[simp] theorem modSource_post (src : Nat) (f : SourceSt → SourceSt) (s : State) : (modSource src f s).post = s.post := rfl
@[simp] theorem modSource_ue (src : Nat) (f : SourceSt → SourceSt) (s : State) : (modSource src f s).ue = s.ue := rfl
@[simp] theorem modSource_fuse (src : Nat) (f : SourceSt → SourceSt) (s : State) : (modSource src f s).fuse = s.fuse := rfl
@[simp] theorem modSource_free (src : Nat) (f : SourceSt → SourceSt) (s : State) : (modSource src f s).free = s.free := rfl
@[simp] theorem modSource_out (src : Nat) (f : SourceSt → SourceSt) (s : State) : (modSource src f s).out = s.out := rfl
@[simp] theorem modSource_words (src : Nat) (f : SourceSt → SourceSt) (s : State) : (modSource src f s).words = s.words := rfl
@[simp] theorem modSource_time (src : Nat) (f : SourceSt → SourceSt) (s : State) : (modSource src f s).time = s.time := rfl
@[simp] theorem modSource_units (src : Nat) (f : SourceSt → SourceSt) (s : State) : (modSource src f s).units = s.units := rfl
@[simp] theorem modSource_heldTags (src : Nat) (f : SourceSt → SourceSt) (s : State) : (modSource src f s).heldTags = s.heldTags := rfl
@[simp] theorem modSource_start (src : Nat) (f : SourceSt → SourceSt) (s : State) : (modSource src f s).start = s.start := rfl
@[simp] theorem modSource_memst (src : Nat) (f : SourceSt → SourceSt) (s : State) : (modSource src f s).memst = s.memst := rfl
@[simp] theorem modSource_drc (src : Nat) (f : SourceSt → SourceSt) (s : State) : (modSource src f s).drc = s.drc := rfl
@[simp] theorem modSource_sec (src : Nat) (f : SourceSt → SourceSt) (s : State) : (modSource src f s).sec = s.sec := rfl
@[simp] theorem modSource_audio (src : Nat) (f : SourceSt → SourceSt) (s : State) : (modSource src f s).audio = s.audio := rfl
@[simp] theorem modSource_inc (src : Nat) (f : SourceSt → SourceSt) (s : State) : (modSource src f s).inc = s.inc := rfl
@[simp] theorem modSource_rte (src : Nat) (f : SourceSt → SourceSt) (s : State) : (modSource src f s).rte = s.rte := rfl
@[simp] theorem modSource_mot (src : Nat) (f : SourceSt → SourceSt) (s : State) : (modSource src f s).mot = s.mot := rfl
@[simp] theorem modSource_slv (src : Nat) (f : SourceSt → SourceSt) (s : State) : (modSource src f s).slv = s.slv := rfl
@[simp] theorem modSource_dsx (src : Nat) (f : SourceSt → SourceSt) (s : State) : (modSource src f s).dsx = s.dsx := rfl
@[simp] theorem modSource_lan (src : Nat) (f : SourceSt → SourceSt) (s : State) : (modSource src f s).lan = s.lan := rfl
@[simp] theorem modSource_red (src : Nat) (f : SourceSt → SourceSt) (s : State) : (modSource src f s).red = s.red := rfl
@[simp] theorem modSource_cor (src : Nat) (f : SourceSt → SourceSt) (s : State) : (modSource src f s).cor = s.cor := rfl
@[simp] theorem modSource_mea (src : Nat) (f : SourceSt → SourceSt) (s : State) : (modSource src f s).mea = s.mea := rfl
@[simp] theorem modSource_clk (src : Nat) (f : SourceSt → SourceSt) (s : State) : (modSource src f s).clk = s.clk := rfl
@[simp] theorem modSource_tim (src : Nat) (f : SourceSt → SourceSt) (s : State) : (modSource src f s).tim = s.tim := rfl
@[simp] theorem modSource_net (src : Nat) (f : SourceSt → SourceSt) (s : State) : (modSource src f s).net = s.net := rfl
@[simp] theorem modSource_mst (src : Nat) (f : SourceSt → SourceSt) (s : State) : (modSource src f s).mst = s.mst := rfl
@[simp] theorem modSource_lnk (src : Nat) (f : SourceSt → SourceSt) (s : State) : (modSource src f s).lnk = s.lnk := rfl
@[simp] theorem modSource_ser (src : Nat) (f : SourceSt → SourceSt) (s : State) : (modSource src f s).ser = s.ser := rfl
@[simp] theorem modSource_par (src : Nat) (f : SourceSt → SourceSt) (s : State) : (modSource src f s).par = s.par := rfl
@[simp] theorem modSource_hlt (src : Nat) (f : SourceSt → SourceSt) (s : State) : (modSource src f s).hlt = s.hlt := rfl
@[simp] theorem modSource_dma (src : Nat) (f : SourceSt → SourceSt) (s : State) : (modSource src f s).dma = s.dma := rfl
@[simp] theorem modSource_dru (src : Nat) (f : SourceSt → SourceSt) (s : State) : (modSource src f s).dru = s.dru := rfl
@[simp] theorem modSource_tap (src : Nat) (f : SourceSt → SourceSt) (s : State) : (modSource src f s).tap = s.tap := rfl

@[simp] theorem modUnit_pending (u : Nat) (f : UnitSt → UnitSt) (s : State) : (modUnit u f s).pending = s.pending := rfl
@[simp] theorem modUnit_mem (u : Nat) (f : UnitSt → UnitSt) (s : State) : (modUnit u f s).mem = s.mem := rfl
@[simp] theorem modUnit_post (u : Nat) (f : UnitSt → UnitSt) (s : State) : (modUnit u f s).post = s.post := rfl
@[simp] theorem modUnit_ue (u : Nat) (f : UnitSt → UnitSt) (s : State) : (modUnit u f s).ue = s.ue := rfl
@[simp] theorem modUnit_fuse (u : Nat) (f : UnitSt → UnitSt) (s : State) : (modUnit u f s).fuse = s.fuse := rfl
@[simp] theorem modUnit_free (u : Nat) (f : UnitSt → UnitSt) (s : State) : (modUnit u f s).free = s.free := rfl
@[simp] theorem modUnit_out (u : Nat) (f : UnitSt → UnitSt) (s : State) : (modUnit u f s).out = s.out := rfl
@[simp] theorem modUnit_words (u : Nat) (f : UnitSt → UnitSt) (s : State) : (modUnit u f s).words = s.words := rfl
@[simp] theorem modUnit_time (u : Nat) (f : UnitSt → UnitSt) (s : State) : (modUnit u f s).time = s.time := rfl
@[simp] theorem modUnit_heldTags (u : Nat) (f : UnitSt → UnitSt) (s : State) : (modUnit u f s).heldTags = s.heldTags := rfl
@[simp] theorem modUnit_sys (u : Nat) (f : UnitSt → UnitSt) (s : State) : (modUnit u f s).sys = s.sys := rfl
@[simp] theorem modUnit_start (u : Nat) (f : UnitSt → UnitSt) (s : State) : (modUnit u f s).start = s.start := rfl
@[simp] theorem modUnit_memst (u : Nat) (f : UnitSt → UnitSt) (s : State) : (modUnit u f s).memst = s.memst := rfl
@[simp] theorem modUnit_drc (u : Nat) (f : UnitSt → UnitSt) (s : State) : (modUnit u f s).drc = s.drc := rfl
@[simp] theorem modUnit_sec (u : Nat) (f : UnitSt → UnitSt) (s : State) : (modUnit u f s).sec = s.sec := rfl
@[simp] theorem modUnit_audio (u : Nat) (f : UnitSt → UnitSt) (s : State) : (modUnit u f s).audio = s.audio := rfl
@[simp] theorem modUnit_inc (u : Nat) (f : UnitSt → UnitSt) (s : State) : (modUnit u f s).inc = s.inc := rfl
@[simp] theorem modUnit_rte (u : Nat) (f : UnitSt → UnitSt) (s : State) : (modUnit u f s).rte = s.rte := rfl
@[simp] theorem modUnit_mot (u : Nat) (f : UnitSt → UnitSt) (s : State) : (modUnit u f s).mot = s.mot := rfl
@[simp] theorem modUnit_slv (u : Nat) (f : UnitSt → UnitSt) (s : State) : (modUnit u f s).slv = s.slv := rfl
@[simp] theorem modUnit_dsx (u : Nat) (f : UnitSt → UnitSt) (s : State) : (modUnit u f s).dsx = s.dsx := rfl
@[simp] theorem modUnit_lan (u : Nat) (f : UnitSt → UnitSt) (s : State) : (modUnit u f s).lan = s.lan := rfl
@[simp] theorem modUnit_red (u : Nat) (f : UnitSt → UnitSt) (s : State) : (modUnit u f s).red = s.red := rfl
@[simp] theorem modUnit_cor (u : Nat) (f : UnitSt → UnitSt) (s : State) : (modUnit u f s).cor = s.cor := rfl
@[simp] theorem modUnit_mea (u : Nat) (f : UnitSt → UnitSt) (s : State) : (modUnit u f s).mea = s.mea := rfl
@[simp] theorem modUnit_clk (u : Nat) (f : UnitSt → UnitSt) (s : State) : (modUnit u f s).clk = s.clk := rfl
@[simp] theorem modUnit_tim (u : Nat) (f : UnitSt → UnitSt) (s : State) : (modUnit u f s).tim = s.tim := rfl
@[simp] theorem modUnit_net (u : Nat) (f : UnitSt → UnitSt) (s : State) : (modUnit u f s).net = s.net := rfl
@[simp] theorem modUnit_mst (u : Nat) (f : UnitSt → UnitSt) (s : State) : (modUnit u f s).mst = s.mst := rfl
@[simp] theorem modUnit_lnk (u : Nat) (f : UnitSt → UnitSt) (s : State) : (modUnit u f s).lnk = s.lnk := rfl
@[simp] theorem modUnit_ser (u : Nat) (f : UnitSt → UnitSt) (s : State) : (modUnit u f s).ser = s.ser := rfl
@[simp] theorem modUnit_par (u : Nat) (f : UnitSt → UnitSt) (s : State) : (modUnit u f s).par = s.par := rfl
@[simp] theorem modUnit_hlt (u : Nat) (f : UnitSt → UnitSt) (s : State) : (modUnit u f s).hlt = s.hlt := rfl
@[simp] theorem modUnit_dma (u : Nat) (f : UnitSt → UnitSt) (s : State) : (modUnit u f s).dma = s.dma := rfl
@[simp] theorem modUnit_dru (u : Nat) (f : UnitSt → UnitSt) (s : State) : (modUnit u f s).dru = s.dru := rfl
@[simp] theorem modUnit_tap (u : Nat) (f : UnitSt → UnitSt) (s : State) : (modUnit u f s).tap = s.tap := rfl

@[simp] theorem modChan_pending (c : Nat) (f : ChanSt → ChanSt) (s : State) : (modChan c f s).pending = s.pending := rfl
@[simp] theorem modChan_mem (c : Nat) (f : ChanSt → ChanSt) (s : State) : (modChan c f s).mem = s.mem := rfl
@[simp] theorem modChan_post (c : Nat) (f : ChanSt → ChanSt) (s : State) : (modChan c f s).post = s.post := rfl
@[simp] theorem modChan_ue (c : Nat) (f : ChanSt → ChanSt) (s : State) : (modChan c f s).ue = s.ue := rfl
@[simp] theorem modChan_fuse (c : Nat) (f : ChanSt → ChanSt) (s : State) : (modChan c f s).fuse = s.fuse := rfl
@[simp] theorem modChan_free (c : Nat) (f : ChanSt → ChanSt) (s : State) : (modChan c f s).free = s.free := rfl
@[simp] theorem modChan_out (c : Nat) (f : ChanSt → ChanSt) (s : State) : (modChan c f s).out = s.out := rfl
@[simp] theorem modChan_words (c : Nat) (f : ChanSt → ChanSt) (s : State) : (modChan c f s).words = s.words := rfl
@[simp] theorem modChan_time (c : Nat) (f : ChanSt → ChanSt) (s : State) : (modChan c f s).time = s.time := rfl
@[simp] theorem modChan_units (c : Nat) (f : ChanSt → ChanSt) (s : State) : (modChan c f s).units = s.units := rfl
@[simp] theorem modChan_heldTags (c : Nat) (f : ChanSt → ChanSt) (s : State) : (modChan c f s).heldTags = s.heldTags := rfl
@[simp] theorem modChan_sys (c : Nat) (f : ChanSt → ChanSt) (s : State) : (modChan c f s).sys = s.sys := rfl
@[simp] theorem modChan_start (c : Nat) (f : ChanSt → ChanSt) (s : State) : (modChan c f s).start = s.start := rfl
@[simp] theorem modChan_memst (c : Nat) (f : ChanSt → ChanSt) (s : State) : (modChan c f s).memst = s.memst := rfl
@[simp] theorem modChan_drc (c : Nat) (f : ChanSt → ChanSt) (s : State) : (modChan c f s).drc = s.drc := rfl
@[simp] theorem modChan_sec (c : Nat) (f : ChanSt → ChanSt) (s : State) : (modChan c f s).sec = s.sec := rfl
@[simp] theorem modChan_audio (c : Nat) (f : ChanSt → ChanSt) (s : State) : (modChan c f s).audio = s.audio := rfl
@[simp] theorem modChan_rte (c : Nat) (f : ChanSt → ChanSt) (s : State) : (modChan c f s).rte = s.rte := rfl
@[simp] theorem modChan_mot (c : Nat) (f : ChanSt → ChanSt) (s : State) : (modChan c f s).mot = s.mot := rfl
@[simp] theorem modChan_slv (c : Nat) (f : ChanSt → ChanSt) (s : State) : (modChan c f s).slv = s.slv := rfl
@[simp] theorem modChan_dsx (c : Nat) (f : ChanSt → ChanSt) (s : State) : (modChan c f s).dsx = s.dsx := rfl
@[simp] theorem modChan_lan (c : Nat) (f : ChanSt → ChanSt) (s : State) : (modChan c f s).lan = s.lan := rfl
@[simp] theorem modChan_red (c : Nat) (f : ChanSt → ChanSt) (s : State) : (modChan c f s).red = s.red := rfl
@[simp] theorem modChan_cor (c : Nat) (f : ChanSt → ChanSt) (s : State) : (modChan c f s).cor = s.cor := rfl
@[simp] theorem modChan_mea (c : Nat) (f : ChanSt → ChanSt) (s : State) : (modChan c f s).mea = s.mea := rfl
@[simp] theorem modChan_clk (c : Nat) (f : ChanSt → ChanSt) (s : State) : (modChan c f s).clk = s.clk := rfl
@[simp] theorem modChan_tim (c : Nat) (f : ChanSt → ChanSt) (s : State) : (modChan c f s).tim = s.tim := rfl
@[simp] theorem modChan_net (c : Nat) (f : ChanSt → ChanSt) (s : State) : (modChan c f s).net = s.net := rfl
@[simp] theorem modChan_mst (c : Nat) (f : ChanSt → ChanSt) (s : State) : (modChan c f s).mst = s.mst := rfl
@[simp] theorem modChan_lnk (c : Nat) (f : ChanSt → ChanSt) (s : State) : (modChan c f s).lnk = s.lnk := rfl
@[simp] theorem modChan_ser (c : Nat) (f : ChanSt → ChanSt) (s : State) : (modChan c f s).ser = s.ser := rfl
@[simp] theorem modChan_par (c : Nat) (f : ChanSt → ChanSt) (s : State) : (modChan c f s).par = s.par := rfl
@[simp] theorem modChan_hlt (c : Nat) (f : ChanSt → ChanSt) (s : State) : (modChan c f s).hlt = s.hlt := rfl
@[simp] theorem modChan_dma (c : Nat) (f : ChanSt → ChanSt) (s : State) : (modChan c f s).dma = s.dma := rfl
@[simp] theorem modChan_dru (c : Nat) (f : ChanSt → ChanSt) (s : State) : (modChan c f s).dru = s.dru := rfl
@[simp] theorem modChan_tap (c : Nat) (f : ChanSt → ChanSt) (s : State) : (modChan c f s).tap = s.tap := rfl

@[simp] theorem modObj_pending (n : Nat) (f : ObjSt → ObjSt) (s : State) : (modObj n f s).pending = s.pending := rfl
@[simp] theorem modObj_mem (n : Nat) (f : ObjSt → ObjSt) (s : State) : (modObj n f s).mem = s.mem := rfl
@[simp] theorem modObj_post (n : Nat) (f : ObjSt → ObjSt) (s : State) : (modObj n f s).post = s.post := rfl
@[simp] theorem modObj_ue (n : Nat) (f : ObjSt → ObjSt) (s : State) : (modObj n f s).ue = s.ue := rfl
@[simp] theorem modObj_fuse (n : Nat) (f : ObjSt → ObjSt) (s : State) : (modObj n f s).fuse = s.fuse := rfl
@[simp] theorem modObj_free (n : Nat) (f : ObjSt → ObjSt) (s : State) : (modObj n f s).free = s.free := rfl
@[simp] theorem modObj_out (n : Nat) (f : ObjSt → ObjSt) (s : State) : (modObj n f s).out = s.out := rfl
@[simp] theorem modObj_words (n : Nat) (f : ObjSt → ObjSt) (s : State) : (modObj n f s).words = s.words := rfl
@[simp] theorem modObj_time (n : Nat) (f : ObjSt → ObjSt) (s : State) : (modObj n f s).time = s.time := rfl
@[simp] theorem modObj_units (n : Nat) (f : ObjSt → ObjSt) (s : State) : (modObj n f s).units = s.units := rfl
@[simp] theorem modObj_heldTags (n : Nat) (f : ObjSt → ObjSt) (s : State) : (modObj n f s).heldTags = s.heldTags := rfl
@[simp] theorem modObj_sys (n : Nat) (f : ObjSt → ObjSt) (s : State) : (modObj n f s).sys = s.sys := rfl
@[simp] theorem modObj_start (n : Nat) (f : ObjSt → ObjSt) (s : State) : (modObj n f s).start = s.start := rfl
@[simp] theorem modObj_memst (n : Nat) (f : ObjSt → ObjSt) (s : State) : (modObj n f s).memst = s.memst := rfl
@[simp] theorem modObj_drc (n : Nat) (f : ObjSt → ObjSt) (s : State) : (modObj n f s).drc = s.drc := rfl
@[simp] theorem modObj_sec (n : Nat) (f : ObjSt → ObjSt) (s : State) : (modObj n f s).sec = s.sec := rfl
@[simp] theorem modObj_audio (n : Nat) (f : ObjSt → ObjSt) (s : State) : (modObj n f s).audio = s.audio := rfl
@[simp] theorem modObj_inc (n : Nat) (f : ObjSt → ObjSt) (s : State) : (modObj n f s).inc = s.inc := rfl
@[simp] theorem modObj_rte (n : Nat) (f : ObjSt → ObjSt) (s : State) : (modObj n f s).rte = s.rte := rfl
@[simp] theorem modObj_slv (n : Nat) (f : ObjSt → ObjSt) (s : State) : (modObj n f s).slv = s.slv := rfl
@[simp] theorem modObj_dsx (n : Nat) (f : ObjSt → ObjSt) (s : State) : (modObj n f s).dsx = s.dsx := rfl
@[simp] theorem modObj_lan (n : Nat) (f : ObjSt → ObjSt) (s : State) : (modObj n f s).lan = s.lan := rfl
@[simp] theorem modObj_red (n : Nat) (f : ObjSt → ObjSt) (s : State) : (modObj n f s).red = s.red := rfl
@[simp] theorem modObj_cor (n : Nat) (f : ObjSt → ObjSt) (s : State) : (modObj n f s).cor = s.cor := rfl
@[simp] theorem modObj_mea (n : Nat) (f : ObjSt → ObjSt) (s : State) : (modObj n f s).mea = s.mea := rfl
@[simp] theorem modObj_clk (n : Nat) (f : ObjSt → ObjSt) (s : State) : (modObj n f s).clk = s.clk := rfl
@[simp] theorem modObj_tim (n : Nat) (f : ObjSt → ObjSt) (s : State) : (modObj n f s).tim = s.tim := rfl
@[simp] theorem modObj_net (n : Nat) (f : ObjSt → ObjSt) (s : State) : (modObj n f s).net = s.net := rfl
@[simp] theorem modObj_mst (n : Nat) (f : ObjSt → ObjSt) (s : State) : (modObj n f s).mst = s.mst := rfl
@[simp] theorem modObj_lnk (n : Nat) (f : ObjSt → ObjSt) (s : State) : (modObj n f s).lnk = s.lnk := rfl
@[simp] theorem modObj_ser (n : Nat) (f : ObjSt → ObjSt) (s : State) : (modObj n f s).ser = s.ser := rfl
@[simp] theorem modObj_par (n : Nat) (f : ObjSt → ObjSt) (s : State) : (modObj n f s).par = s.par := rfl
@[simp] theorem modObj_hlt (n : Nat) (f : ObjSt → ObjSt) (s : State) : (modObj n f s).hlt = s.hlt := rfl
@[simp] theorem modObj_dma (n : Nat) (f : ObjSt → ObjSt) (s : State) : (modObj n f s).dma = s.dma := rfl
@[simp] theorem modObj_dru (n : Nat) (f : ObjSt → ObjSt) (s : State) : (modObj n f s).dru = s.dru := rfl
@[simp] theorem modObj_tap (n : Nat) (f : ObjSt → ObjSt) (s : State) : (modObj n f s).tap = s.tap := rfl

@[simp] theorem setJob_pending (j : Job) (s : State) : (setJob j s).pending = s.pending := rfl
@[simp] theorem setJob_mem (j : Job) (s : State) : (setJob j s).mem = s.mem := rfl
@[simp] theorem setJob_post (j : Job) (s : State) : (setJob j s).post = s.post := rfl
@[simp] theorem setJob_ue (j : Job) (s : State) : (setJob j s).ue = s.ue := rfl
@[simp] theorem setJob_fuse (j : Job) (s : State) : (setJob j s).fuse = s.fuse := rfl
@[simp] theorem setJob_free (j : Job) (s : State) : (setJob j s).free = s.free := rfl
@[simp] theorem setJob_out (j : Job) (s : State) : (setJob j s).out = s.out := rfl
@[simp] theorem setJob_words (j : Job) (s : State) : (setJob j s).words = s.words := rfl
@[simp] theorem setJob_time (j : Job) (s : State) : (setJob j s).time = s.time := rfl
@[simp] theorem setJob_units (j : Job) (s : State) : (setJob j s).units = s.units := rfl
@[simp] theorem setJob_heldTags (j : Job) (s : State) : (setJob j s).heldTags = s.heldTags := rfl
@[simp] theorem setJob_sys (j : Job) (s : State) : (setJob j s).sys = s.sys := rfl
@[simp] theorem setJob_start (j : Job) (s : State) : (setJob j s).start = s.start := rfl
@[simp] theorem setJob_memst (j : Job) (s : State) : (setJob j s).memst = s.memst := rfl
@[simp] theorem setJob_drc (j : Job) (s : State) : (setJob j s).drc = s.drc := rfl
@[simp] theorem setJob_sec (j : Job) (s : State) : (setJob j s).sec = s.sec := rfl
@[simp] theorem setJob_audio (j : Job) (s : State) : (setJob j s).audio = s.audio := rfl
@[simp] theorem setJob_inc (j : Job) (s : State) : (setJob j s).inc = s.inc := rfl
@[simp] theorem setJob_rte (j : Job) (s : State) : (setJob j s).rte = s.rte := rfl
@[simp] theorem setJob_mot (j : Job) (s : State) : (setJob j s).mot = s.mot := rfl
@[simp] theorem setJob_slv (j : Job) (s : State) : (setJob j s).slv = s.slv := rfl
@[simp] theorem setJob_lan (j : Job) (s : State) : (setJob j s).lan = s.lan := rfl
@[simp] theorem setJob_red (j : Job) (s : State) : (setJob j s).red = s.red := rfl
@[simp] theorem setJob_cor (j : Job) (s : State) : (setJob j s).cor = s.cor := rfl
@[simp] theorem setJob_mea (j : Job) (s : State) : (setJob j s).mea = s.mea := rfl
@[simp] theorem setJob_clk (j : Job) (s : State) : (setJob j s).clk = s.clk := rfl
@[simp] theorem setJob_tim (j : Job) (s : State) : (setJob j s).tim = s.tim := rfl
@[simp] theorem setJob_net (j : Job) (s : State) : (setJob j s).net = s.net := rfl
@[simp] theorem setJob_mst (j : Job) (s : State) : (setJob j s).mst = s.mst := rfl
@[simp] theorem setJob_lnk (j : Job) (s : State) : (setJob j s).lnk = s.lnk := rfl
@[simp] theorem setJob_ser (j : Job) (s : State) : (setJob j s).ser = s.ser := rfl
@[simp] theorem setJob_par (j : Job) (s : State) : (setJob j s).par = s.par := rfl
@[simp] theorem setJob_hlt (j : Job) (s : State) : (setJob j s).hlt = s.hlt := rfl
@[simp] theorem setJob_dma (j : Job) (s : State) : (setJob j s).dma = s.dma := rfl
@[simp] theorem setJob_dru (j : Job) (s : State) : (setJob j s).dru = s.dru := rfl
@[simp] theorem setJob_tap (j : Job) (s : State) : (setJob j s).tap = s.tap := rfl

@[simp] theorem modLane_pending (p : Nat) (f : LaneSt → LaneSt) (s : State) : (modLane p f s).pending = s.pending := rfl
@[simp] theorem modLane_mem (p : Nat) (f : LaneSt → LaneSt) (s : State) : (modLane p f s).mem = s.mem := rfl
@[simp] theorem modLane_post (p : Nat) (f : LaneSt → LaneSt) (s : State) : (modLane p f s).post = s.post := rfl
@[simp] theorem modLane_ue (p : Nat) (f : LaneSt → LaneSt) (s : State) : (modLane p f s).ue = s.ue := rfl
@[simp] theorem modLane_fuse (p : Nat) (f : LaneSt → LaneSt) (s : State) : (modLane p f s).fuse = s.fuse := rfl
@[simp] theorem modLane_free (p : Nat) (f : LaneSt → LaneSt) (s : State) : (modLane p f s).free = s.free := rfl
@[simp] theorem modLane_out (p : Nat) (f : LaneSt → LaneSt) (s : State) : (modLane p f s).out = s.out := rfl
@[simp] theorem modLane_words (p : Nat) (f : LaneSt → LaneSt) (s : State) : (modLane p f s).words = s.words := rfl
@[simp] theorem modLane_time (p : Nat) (f : LaneSt → LaneSt) (s : State) : (modLane p f s).time = s.time := rfl
@[simp] theorem modLane_units (p : Nat) (f : LaneSt → LaneSt) (s : State) : (modLane p f s).units = s.units := rfl
@[simp] theorem modLane_heldTags (p : Nat) (f : LaneSt → LaneSt) (s : State) : (modLane p f s).heldTags = s.heldTags := rfl
@[simp] theorem modLane_sys (p : Nat) (f : LaneSt → LaneSt) (s : State) : (modLane p f s).sys = s.sys := rfl
@[simp] theorem modLane_start (p : Nat) (f : LaneSt → LaneSt) (s : State) : (modLane p f s).start = s.start := rfl
@[simp] theorem modLane_memst (p : Nat) (f : LaneSt → LaneSt) (s : State) : (modLane p f s).memst = s.memst := rfl
@[simp] theorem modLane_drc (p : Nat) (f : LaneSt → LaneSt) (s : State) : (modLane p f s).drc = s.drc := rfl
@[simp] theorem modLane_sec (p : Nat) (f : LaneSt → LaneSt) (s : State) : (modLane p f s).sec = s.sec := rfl
@[simp] theorem modLane_audio (p : Nat) (f : LaneSt → LaneSt) (s : State) : (modLane p f s).audio = s.audio := rfl
@[simp] theorem modLane_inc (p : Nat) (f : LaneSt → LaneSt) (s : State) : (modLane p f s).inc = s.inc := rfl
@[simp] theorem modLane_rte (p : Nat) (f : LaneSt → LaneSt) (s : State) : (modLane p f s).rte = s.rte := rfl
@[simp] theorem modLane_mot (p : Nat) (f : LaneSt → LaneSt) (s : State) : (modLane p f s).mot = s.mot := rfl
@[simp] theorem modLane_slv (p : Nat) (f : LaneSt → LaneSt) (s : State) : (modLane p f s).slv = s.slv := rfl
@[simp] theorem modLane_dsx (p : Nat) (f : LaneSt → LaneSt) (s : State) : (modLane p f s).dsx = s.dsx := rfl
@[simp] theorem modLane_red (p : Nat) (f : LaneSt → LaneSt) (s : State) : (modLane p f s).red = s.red := rfl
@[simp] theorem modLane_cor (p : Nat) (f : LaneSt → LaneSt) (s : State) : (modLane p f s).cor = s.cor := rfl
@[simp] theorem modLane_mea (p : Nat) (f : LaneSt → LaneSt) (s : State) : (modLane p f s).mea = s.mea := rfl
@[simp] theorem modLane_clk (p : Nat) (f : LaneSt → LaneSt) (s : State) : (modLane p f s).clk = s.clk := rfl
@[simp] theorem modLane_tim (p : Nat) (f : LaneSt → LaneSt) (s : State) : (modLane p f s).tim = s.tim := rfl
@[simp] theorem modLane_net (p : Nat) (f : LaneSt → LaneSt) (s : State) : (modLane p f s).net = s.net := rfl
@[simp] theorem modLane_mst (p : Nat) (f : LaneSt → LaneSt) (s : State) : (modLane p f s).mst = s.mst := rfl
@[simp] theorem modLane_lnk (p : Nat) (f : LaneSt → LaneSt) (s : State) : (modLane p f s).lnk = s.lnk := rfl
@[simp] theorem modLane_ser (p : Nat) (f : LaneSt → LaneSt) (s : State) : (modLane p f s).ser = s.ser := rfl
@[simp] theorem modLane_par (p : Nat) (f : LaneSt → LaneSt) (s : State) : (modLane p f s).par = s.par := rfl
@[simp] theorem modLane_hlt (p : Nat) (f : LaneSt → LaneSt) (s : State) : (modLane p f s).hlt = s.hlt := rfl
@[simp] theorem modLane_dma (p : Nat) (f : LaneSt → LaneSt) (s : State) : (modLane p f s).dma = s.dma := rfl
@[simp] theorem modLane_dru (p : Nat) (f : LaneSt → LaneSt) (s : State) : (modLane p f s).dru = s.dru := rfl
@[simp] theorem modLane_tap (p : Nat) (f : LaneSt → LaneSt) (s : State) : (modLane p f s).tap = s.tap := rfl

@[simp] theorem modLaneObj_pending (n : Nat) (f : LaneObj → LaneObj) (s : State) : (modLaneObj n f s).pending = s.pending := rfl
@[simp] theorem modLaneObj_mem (n : Nat) (f : LaneObj → LaneObj) (s : State) : (modLaneObj n f s).mem = s.mem := rfl
@[simp] theorem modLaneObj_post (n : Nat) (f : LaneObj → LaneObj) (s : State) : (modLaneObj n f s).post = s.post := rfl
@[simp] theorem modLaneObj_ue (n : Nat) (f : LaneObj → LaneObj) (s : State) : (modLaneObj n f s).ue = s.ue := rfl
@[simp] theorem modLaneObj_fuse (n : Nat) (f : LaneObj → LaneObj) (s : State) : (modLaneObj n f s).fuse = s.fuse := rfl
@[simp] theorem modLaneObj_free (n : Nat) (f : LaneObj → LaneObj) (s : State) : (modLaneObj n f s).free = s.free := rfl
@[simp] theorem modLaneObj_out (n : Nat) (f : LaneObj → LaneObj) (s : State) : (modLaneObj n f s).out = s.out := rfl
@[simp] theorem modLaneObj_words (n : Nat) (f : LaneObj → LaneObj) (s : State) : (modLaneObj n f s).words = s.words := rfl
@[simp] theorem modLaneObj_time (n : Nat) (f : LaneObj → LaneObj) (s : State) : (modLaneObj n f s).time = s.time := rfl
@[simp] theorem modLaneObj_units (n : Nat) (f : LaneObj → LaneObj) (s : State) : (modLaneObj n f s).units = s.units := rfl
@[simp] theorem modLaneObj_heldTags (n : Nat) (f : LaneObj → LaneObj) (s : State) : (modLaneObj n f s).heldTags = s.heldTags := rfl
@[simp] theorem modLaneObj_sys (n : Nat) (f : LaneObj → LaneObj) (s : State) : (modLaneObj n f s).sys = s.sys := rfl
@[simp] theorem modLaneObj_start (n : Nat) (f : LaneObj → LaneObj) (s : State) : (modLaneObj n f s).start = s.start := rfl
@[simp] theorem modLaneObj_memst (n : Nat) (f : LaneObj → LaneObj) (s : State) : (modLaneObj n f s).memst = s.memst := rfl
@[simp] theorem modLaneObj_drc (n : Nat) (f : LaneObj → LaneObj) (s : State) : (modLaneObj n f s).drc = s.drc := rfl
@[simp] theorem modLaneObj_sec (n : Nat) (f : LaneObj → LaneObj) (s : State) : (modLaneObj n f s).sec = s.sec := rfl
@[simp] theorem modLaneObj_audio (n : Nat) (f : LaneObj → LaneObj) (s : State) : (modLaneObj n f s).audio = s.audio := rfl
@[simp] theorem modLaneObj_inc (n : Nat) (f : LaneObj → LaneObj) (s : State) : (modLaneObj n f s).inc = s.inc := rfl
@[simp] theorem modLaneObj_rte (n : Nat) (f : LaneObj → LaneObj) (s : State) : (modLaneObj n f s).rte = s.rte := rfl
@[simp] theorem modLaneObj_mot (n : Nat) (f : LaneObj → LaneObj) (s : State) : (modLaneObj n f s).mot = s.mot := rfl
@[simp] theorem modLaneObj_slv (n : Nat) (f : LaneObj → LaneObj) (s : State) : (modLaneObj n f s).slv = s.slv := rfl
@[simp] theorem modLaneObj_dsx (n : Nat) (f : LaneObj → LaneObj) (s : State) : (modLaneObj n f s).dsx = s.dsx := rfl
@[simp] theorem modLaneObj_red (n : Nat) (f : LaneObj → LaneObj) (s : State) : (modLaneObj n f s).red = s.red := rfl
@[simp] theorem modLaneObj_cor (n : Nat) (f : LaneObj → LaneObj) (s : State) : (modLaneObj n f s).cor = s.cor := rfl
@[simp] theorem modLaneObj_mea (n : Nat) (f : LaneObj → LaneObj) (s : State) : (modLaneObj n f s).mea = s.mea := rfl
@[simp] theorem modLaneObj_clk (n : Nat) (f : LaneObj → LaneObj) (s : State) : (modLaneObj n f s).clk = s.clk := rfl
@[simp] theorem modLaneObj_tim (n : Nat) (f : LaneObj → LaneObj) (s : State) : (modLaneObj n f s).tim = s.tim := rfl
@[simp] theorem modLaneObj_net (n : Nat) (f : LaneObj → LaneObj) (s : State) : (modLaneObj n f s).net = s.net := rfl
@[simp] theorem modLaneObj_mst (n : Nat) (f : LaneObj → LaneObj) (s : State) : (modLaneObj n f s).mst = s.mst := rfl
@[simp] theorem modLaneObj_lnk (n : Nat) (f : LaneObj → LaneObj) (s : State) : (modLaneObj n f s).lnk = s.lnk := rfl
@[simp] theorem modLaneObj_ser (n : Nat) (f : LaneObj → LaneObj) (s : State) : (modLaneObj n f s).ser = s.ser := rfl
@[simp] theorem modLaneObj_par (n : Nat) (f : LaneObj → LaneObj) (s : State) : (modLaneObj n f s).par = s.par := rfl
@[simp] theorem modLaneObj_hlt (n : Nat) (f : LaneObj → LaneObj) (s : State) : (modLaneObj n f s).hlt = s.hlt := rfl
@[simp] theorem modLaneObj_dma (n : Nat) (f : LaneObj → LaneObj) (s : State) : (modLaneObj n f s).dma = s.dma := rfl
@[simp] theorem modLaneObj_dru (n : Nat) (f : LaneObj → LaneObj) (s : State) : (modLaneObj n f s).dru = s.dru := rfl
@[simp] theorem modLaneObj_tap (n : Nat) (f : LaneObj → LaneObj) (s : State) : (modLaneObj n f s).tap = s.tap := rfl

@[simp] theorem modOut_pending (o : Nat) (f : CorOut → CorOut) (s : State) : (modOut o f s).pending = s.pending := rfl
@[simp] theorem modOut_mem (o : Nat) (f : CorOut → CorOut) (s : State) : (modOut o f s).mem = s.mem := rfl
@[simp] theorem modOut_post (o : Nat) (f : CorOut → CorOut) (s : State) : (modOut o f s).post = s.post := rfl
@[simp] theorem modOut_ue (o : Nat) (f : CorOut → CorOut) (s : State) : (modOut o f s).ue = s.ue := rfl
@[simp] theorem modOut_fuse (o : Nat) (f : CorOut → CorOut) (s : State) : (modOut o f s).fuse = s.fuse := rfl
@[simp] theorem modOut_free (o : Nat) (f : CorOut → CorOut) (s : State) : (modOut o f s).free = s.free := rfl
@[simp] theorem modOut_out (o : Nat) (f : CorOut → CorOut) (s : State) : (modOut o f s).out = s.out := rfl
@[simp] theorem modOut_words (o : Nat) (f : CorOut → CorOut) (s : State) : (modOut o f s).words = s.words := rfl
@[simp] theorem modOut_time (o : Nat) (f : CorOut → CorOut) (s : State) : (modOut o f s).time = s.time := rfl
@[simp] theorem modOut_units (o : Nat) (f : CorOut → CorOut) (s : State) : (modOut o f s).units = s.units := rfl
@[simp] theorem modOut_heldTags (o : Nat) (f : CorOut → CorOut) (s : State) : (modOut o f s).heldTags = s.heldTags := rfl
@[simp] theorem modOut_sys (o : Nat) (f : CorOut → CorOut) (s : State) : (modOut o f s).sys = s.sys := rfl
@[simp] theorem modOut_start (o : Nat) (f : CorOut → CorOut) (s : State) : (modOut o f s).start = s.start := rfl
@[simp] theorem modOut_memst (o : Nat) (f : CorOut → CorOut) (s : State) : (modOut o f s).memst = s.memst := rfl
@[simp] theorem modOut_drc (o : Nat) (f : CorOut → CorOut) (s : State) : (modOut o f s).drc = s.drc := rfl
@[simp] theorem modOut_sec (o : Nat) (f : CorOut → CorOut) (s : State) : (modOut o f s).sec = s.sec := rfl
@[simp] theorem modOut_audio (o : Nat) (f : CorOut → CorOut) (s : State) : (modOut o f s).audio = s.audio := rfl
@[simp] theorem modOut_inc (o : Nat) (f : CorOut → CorOut) (s : State) : (modOut o f s).inc = s.inc := rfl
@[simp] theorem modOut_rte (o : Nat) (f : CorOut → CorOut) (s : State) : (modOut o f s).rte = s.rte := rfl
@[simp] theorem modOut_mot (o : Nat) (f : CorOut → CorOut) (s : State) : (modOut o f s).mot = s.mot := rfl
@[simp] theorem modOut_slv (o : Nat) (f : CorOut → CorOut) (s : State) : (modOut o f s).slv = s.slv := rfl
@[simp] theorem modOut_dsx (o : Nat) (f : CorOut → CorOut) (s : State) : (modOut o f s).dsx = s.dsx := rfl
@[simp] theorem modOut_lan (o : Nat) (f : CorOut → CorOut) (s : State) : (modOut o f s).lan = s.lan := rfl
@[simp] theorem modOut_red (o : Nat) (f : CorOut → CorOut) (s : State) : (modOut o f s).red = s.red := rfl
@[simp] theorem modOut_mea (o : Nat) (f : CorOut → CorOut) (s : State) : (modOut o f s).mea = s.mea := rfl
@[simp] theorem modOut_clk (o : Nat) (f : CorOut → CorOut) (s : State) : (modOut o f s).clk = s.clk := rfl
@[simp] theorem modOut_tim (o : Nat) (f : CorOut → CorOut) (s : State) : (modOut o f s).tim = s.tim := rfl
@[simp] theorem modOut_net (o : Nat) (f : CorOut → CorOut) (s : State) : (modOut o f s).net = s.net := rfl
@[simp] theorem modOut_mst (o : Nat) (f : CorOut → CorOut) (s : State) : (modOut o f s).mst = s.mst := rfl
@[simp] theorem modOut_lnk (o : Nat) (f : CorOut → CorOut) (s : State) : (modOut o f s).lnk = s.lnk := rfl
@[simp] theorem modOut_ser (o : Nat) (f : CorOut → CorOut) (s : State) : (modOut o f s).ser = s.ser := rfl
@[simp] theorem modOut_par (o : Nat) (f : CorOut → CorOut) (s : State) : (modOut o f s).par = s.par := rfl
@[simp] theorem modOut_hlt (o : Nat) (f : CorOut → CorOut) (s : State) : (modOut o f s).hlt = s.hlt := rfl
@[simp] theorem modOut_dma (o : Nat) (f : CorOut → CorOut) (s : State) : (modOut o f s).dma = s.dma := rfl
@[simp] theorem modOut_dru (o : Nat) (f : CorOut → CorOut) (s : State) : (modOut o f s).dru = s.dru := rfl
@[simp] theorem modOut_tap (o : Nat) (f : CorOut → CorOut) (s : State) : (modOut o f s).tap = s.tap := rfl

@[simp] theorem modRun_pending (k : Nat) (f : MeaRun → MeaRun) (s : State) : (modRun k f s).pending = s.pending := rfl
@[simp] theorem modRun_mem (k : Nat) (f : MeaRun → MeaRun) (s : State) : (modRun k f s).mem = s.mem := rfl
@[simp] theorem modRun_post (k : Nat) (f : MeaRun → MeaRun) (s : State) : (modRun k f s).post = s.post := rfl
@[simp] theorem modRun_ue (k : Nat) (f : MeaRun → MeaRun) (s : State) : (modRun k f s).ue = s.ue := rfl
@[simp] theorem modRun_fuse (k : Nat) (f : MeaRun → MeaRun) (s : State) : (modRun k f s).fuse = s.fuse := rfl
@[simp] theorem modRun_free (k : Nat) (f : MeaRun → MeaRun) (s : State) : (modRun k f s).free = s.free := rfl
@[simp] theorem modRun_out (k : Nat) (f : MeaRun → MeaRun) (s : State) : (modRun k f s).out = s.out := rfl
@[simp] theorem modRun_words (k : Nat) (f : MeaRun → MeaRun) (s : State) : (modRun k f s).words = s.words := rfl
@[simp] theorem modRun_time (k : Nat) (f : MeaRun → MeaRun) (s : State) : (modRun k f s).time = s.time := rfl
@[simp] theorem modRun_units (k : Nat) (f : MeaRun → MeaRun) (s : State) : (modRun k f s).units = s.units := rfl
@[simp] theorem modRun_heldTags (k : Nat) (f : MeaRun → MeaRun) (s : State) : (modRun k f s).heldTags = s.heldTags := rfl
@[simp] theorem modRun_sys (k : Nat) (f : MeaRun → MeaRun) (s : State) : (modRun k f s).sys = s.sys := rfl
@[simp] theorem modRun_start (k : Nat) (f : MeaRun → MeaRun) (s : State) : (modRun k f s).start = s.start := rfl
@[simp] theorem modRun_memst (k : Nat) (f : MeaRun → MeaRun) (s : State) : (modRun k f s).memst = s.memst := rfl
@[simp] theorem modRun_drc (k : Nat) (f : MeaRun → MeaRun) (s : State) : (modRun k f s).drc = s.drc := rfl
@[simp] theorem modRun_sec (k : Nat) (f : MeaRun → MeaRun) (s : State) : (modRun k f s).sec = s.sec := rfl
@[simp] theorem modRun_audio (k : Nat) (f : MeaRun → MeaRun) (s : State) : (modRun k f s).audio = s.audio := rfl
@[simp] theorem modRun_inc (k : Nat) (f : MeaRun → MeaRun) (s : State) : (modRun k f s).inc = s.inc := rfl
@[simp] theorem modRun_rte (k : Nat) (f : MeaRun → MeaRun) (s : State) : (modRun k f s).rte = s.rte := rfl
@[simp] theorem modRun_mot (k : Nat) (f : MeaRun → MeaRun) (s : State) : (modRun k f s).mot = s.mot := rfl
@[simp] theorem modRun_slv (k : Nat) (f : MeaRun → MeaRun) (s : State) : (modRun k f s).slv = s.slv := rfl
@[simp] theorem modRun_dsx (k : Nat) (f : MeaRun → MeaRun) (s : State) : (modRun k f s).dsx = s.dsx := rfl
@[simp] theorem modRun_lan (k : Nat) (f : MeaRun → MeaRun) (s : State) : (modRun k f s).lan = s.lan := rfl
@[simp] theorem modRun_red (k : Nat) (f : MeaRun → MeaRun) (s : State) : (modRun k f s).red = s.red := rfl
@[simp] theorem modRun_cor (k : Nat) (f : MeaRun → MeaRun) (s : State) : (modRun k f s).cor = s.cor := rfl
@[simp] theorem modRun_clk (k : Nat) (f : MeaRun → MeaRun) (s : State) : (modRun k f s).clk = s.clk := rfl
@[simp] theorem modRun_tim (k : Nat) (f : MeaRun → MeaRun) (s : State) : (modRun k f s).tim = s.tim := rfl
@[simp] theorem modRun_net (k : Nat) (f : MeaRun → MeaRun) (s : State) : (modRun k f s).net = s.net := rfl
@[simp] theorem modRun_mst (k : Nat) (f : MeaRun → MeaRun) (s : State) : (modRun k f s).mst = s.mst := rfl
@[simp] theorem modRun_lnk (k : Nat) (f : MeaRun → MeaRun) (s : State) : (modRun k f s).lnk = s.lnk := rfl
@[simp] theorem modRun_ser (k : Nat) (f : MeaRun → MeaRun) (s : State) : (modRun k f s).ser = s.ser := rfl
@[simp] theorem modRun_par (k : Nat) (f : MeaRun → MeaRun) (s : State) : (modRun k f s).par = s.par := rfl
@[simp] theorem modRun_hlt (k : Nat) (f : MeaRun → MeaRun) (s : State) : (modRun k f s).hlt = s.hlt := rfl
@[simp] theorem modRun_dma (k : Nat) (f : MeaRun → MeaRun) (s : State) : (modRun k f s).dma = s.dma := rfl
@[simp] theorem modRun_dru (k : Nat) (f : MeaRun → MeaRun) (s : State) : (modRun k f s).dru = s.dru := rfl
@[simp] theorem modRun_tap (k : Nat) (f : MeaRun → MeaRun) (s : State) : (modRun k f s).tap = s.tap := rfl

@[simp] theorem modPair_pending (p : Nat) (f : PairSt → PairSt) (s : State) : (modPair p f s).pending = s.pending := rfl
@[simp] theorem modPair_mem (p : Nat) (f : PairSt → PairSt) (s : State) : (modPair p f s).mem = s.mem := rfl
@[simp] theorem modPair_post (p : Nat) (f : PairSt → PairSt) (s : State) : (modPair p f s).post = s.post := rfl
@[simp] theorem modPair_ue (p : Nat) (f : PairSt → PairSt) (s : State) : (modPair p f s).ue = s.ue := rfl
@[simp] theorem modPair_fuse (p : Nat) (f : PairSt → PairSt) (s : State) : (modPair p f s).fuse = s.fuse := rfl
@[simp] theorem modPair_free (p : Nat) (f : PairSt → PairSt) (s : State) : (modPair p f s).free = s.free := rfl
@[simp] theorem modPair_out (p : Nat) (f : PairSt → PairSt) (s : State) : (modPair p f s).out = s.out := rfl
@[simp] theorem modPair_words (p : Nat) (f : PairSt → PairSt) (s : State) : (modPair p f s).words = s.words := rfl
@[simp] theorem modPair_time (p : Nat) (f : PairSt → PairSt) (s : State) : (modPair p f s).time = s.time := rfl
@[simp] theorem modPair_units (p : Nat) (f : PairSt → PairSt) (s : State) : (modPair p f s).units = s.units := rfl
@[simp] theorem modPair_heldTags (p : Nat) (f : PairSt → PairSt) (s : State) : (modPair p f s).heldTags = s.heldTags := rfl
@[simp] theorem modPair_sys (p : Nat) (f : PairSt → PairSt) (s : State) : (modPair p f s).sys = s.sys := rfl
@[simp] theorem modPair_start (p : Nat) (f : PairSt → PairSt) (s : State) : (modPair p f s).start = s.start := rfl
@[simp] theorem modPair_memst (p : Nat) (f : PairSt → PairSt) (s : State) : (modPair p f s).memst = s.memst := rfl
@[simp] theorem modPair_drc (p : Nat) (f : PairSt → PairSt) (s : State) : (modPair p f s).drc = s.drc := rfl
@[simp] theorem modPair_sec (p : Nat) (f : PairSt → PairSt) (s : State) : (modPair p f s).sec = s.sec := rfl
@[simp] theorem modPair_audio (p : Nat) (f : PairSt → PairSt) (s : State) : (modPair p f s).audio = s.audio := rfl
@[simp] theorem modPair_inc (p : Nat) (f : PairSt → PairSt) (s : State) : (modPair p f s).inc = s.inc := rfl
@[simp] theorem modPair_rte (p : Nat) (f : PairSt → PairSt) (s : State) : (modPair p f s).rte = s.rte := rfl
@[simp] theorem modPair_mot (p : Nat) (f : PairSt → PairSt) (s : State) : (modPair p f s).mot = s.mot := rfl
@[simp] theorem modPair_slv (p : Nat) (f : PairSt → PairSt) (s : State) : (modPair p f s).slv = s.slv := rfl
@[simp] theorem modPair_dsx (p : Nat) (f : PairSt → PairSt) (s : State) : (modPair p f s).dsx = s.dsx := rfl
@[simp] theorem modPair_lan (p : Nat) (f : PairSt → PairSt) (s : State) : (modPair p f s).lan = s.lan := rfl
@[simp] theorem modPair_red (p : Nat) (f : PairSt → PairSt) (s : State) : (modPair p f s).red = s.red := rfl
@[simp] theorem modPair_cor (p : Nat) (f : PairSt → PairSt) (s : State) : (modPair p f s).cor = s.cor := rfl
@[simp] theorem modPair_clk (p : Nat) (f : PairSt → PairSt) (s : State) : (modPair p f s).clk = s.clk := rfl
@[simp] theorem modPair_tim (p : Nat) (f : PairSt → PairSt) (s : State) : (modPair p f s).tim = s.tim := rfl
@[simp] theorem modPair_net (p : Nat) (f : PairSt → PairSt) (s : State) : (modPair p f s).net = s.net := rfl
@[simp] theorem modPair_mst (p : Nat) (f : PairSt → PairSt) (s : State) : (modPair p f s).mst = s.mst := rfl
@[simp] theorem modPair_lnk (p : Nat) (f : PairSt → PairSt) (s : State) : (modPair p f s).lnk = s.lnk := rfl
@[simp] theorem modPair_ser (p : Nat) (f : PairSt → PairSt) (s : State) : (modPair p f s).ser = s.ser := rfl
@[simp] theorem modPair_par (p : Nat) (f : PairSt → PairSt) (s : State) : (modPair p f s).par = s.par := rfl
@[simp] theorem modPair_hlt (p : Nat) (f : PairSt → PairSt) (s : State) : (modPair p f s).hlt = s.hlt := rfl
@[simp] theorem modPair_dma (p : Nat) (f : PairSt → PairSt) (s : State) : (modPair p f s).dma = s.dma := rfl
@[simp] theorem modPair_dru (p : Nat) (f : PairSt → PairSt) (s : State) : (modPair p f s).dru = s.dru := rfl
@[simp] theorem modPair_tap (p : Nat) (f : PairSt → PairSt) (s : State) : (modPair p f s).tap = s.tap := rfl

@[simp] theorem modClk_pending (f : ClkSt → ClkSt) (s : State) : (modClk f s).pending = s.pending := rfl
@[simp] theorem modClk_mem (f : ClkSt → ClkSt) (s : State) : (modClk f s).mem = s.mem := rfl
@[simp] theorem modClk_post (f : ClkSt → ClkSt) (s : State) : (modClk f s).post = s.post := rfl
@[simp] theorem modClk_ue (f : ClkSt → ClkSt) (s : State) : (modClk f s).ue = s.ue := rfl
@[simp] theorem modClk_fuse (f : ClkSt → ClkSt) (s : State) : (modClk f s).fuse = s.fuse := rfl
@[simp] theorem modClk_free (f : ClkSt → ClkSt) (s : State) : (modClk f s).free = s.free := rfl
@[simp] theorem modClk_out (f : ClkSt → ClkSt) (s : State) : (modClk f s).out = s.out := rfl
@[simp] theorem modClk_words (f : ClkSt → ClkSt) (s : State) : (modClk f s).words = s.words := rfl
@[simp] theorem modClk_time (f : ClkSt → ClkSt) (s : State) : (modClk f s).time = s.time := rfl
@[simp] theorem modClk_units (f : ClkSt → ClkSt) (s : State) : (modClk f s).units = s.units := rfl
@[simp] theorem modClk_heldTags (f : ClkSt → ClkSt) (s : State) : (modClk f s).heldTags = s.heldTags := rfl
@[simp] theorem modClk_sys (f : ClkSt → ClkSt) (s : State) : (modClk f s).sys = s.sys := rfl
@[simp] theorem modClk_start (f : ClkSt → ClkSt) (s : State) : (modClk f s).start = s.start := rfl
@[simp] theorem modClk_memst (f : ClkSt → ClkSt) (s : State) : (modClk f s).memst = s.memst := rfl
@[simp] theorem modClk_drc (f : ClkSt → ClkSt) (s : State) : (modClk f s).drc = s.drc := rfl
@[simp] theorem modClk_sec (f : ClkSt → ClkSt) (s : State) : (modClk f s).sec = s.sec := rfl
@[simp] theorem modClk_audio (f : ClkSt → ClkSt) (s : State) : (modClk f s).audio = s.audio := rfl
@[simp] theorem modClk_inc (f : ClkSt → ClkSt) (s : State) : (modClk f s).inc = s.inc := rfl
@[simp] theorem modClk_rte (f : ClkSt → ClkSt) (s : State) : (modClk f s).rte = s.rte := rfl
@[simp] theorem modClk_mot (f : ClkSt → ClkSt) (s : State) : (modClk f s).mot = s.mot := rfl
@[simp] theorem modClk_slv (f : ClkSt → ClkSt) (s : State) : (modClk f s).slv = s.slv := rfl
@[simp] theorem modClk_dsx (f : ClkSt → ClkSt) (s : State) : (modClk f s).dsx = s.dsx := rfl
@[simp] theorem modClk_lan (f : ClkSt → ClkSt) (s : State) : (modClk f s).lan = s.lan := rfl
@[simp] theorem modClk_red (f : ClkSt → ClkSt) (s : State) : (modClk f s).red = s.red := rfl
@[simp] theorem modClk_cor (f : ClkSt → ClkSt) (s : State) : (modClk f s).cor = s.cor := rfl
@[simp] theorem modClk_mea (f : ClkSt → ClkSt) (s : State) : (modClk f s).mea = s.mea := rfl
@[simp] theorem modClk_tim (f : ClkSt → ClkSt) (s : State) : (modClk f s).tim = s.tim := rfl
@[simp] theorem modClk_net (f : ClkSt → ClkSt) (s : State) : (modClk f s).net = s.net := rfl
@[simp] theorem modClk_mst (f : ClkSt → ClkSt) (s : State) : (modClk f s).mst = s.mst := rfl
@[simp] theorem modClk_lnk (f : ClkSt → ClkSt) (s : State) : (modClk f s).lnk = s.lnk := rfl
@[simp] theorem modClk_ser (f : ClkSt → ClkSt) (s : State) : (modClk f s).ser = s.ser := rfl
@[simp] theorem modClk_par (f : ClkSt → ClkSt) (s : State) : (modClk f s).par = s.par := rfl
@[simp] theorem modClk_hlt (f : ClkSt → ClkSt) (s : State) : (modClk f s).hlt = s.hlt := rfl
@[simp] theorem modClk_dma (f : ClkSt → ClkSt) (s : State) : (modClk f s).dma = s.dma := rfl
@[simp] theorem modClk_dru (f : ClkSt → ClkSt) (s : State) : (modClk f s).dru = s.dru := rfl
@[simp] theorem modClk_tap (f : ClkSt → ClkSt) (s : State) : (modClk f s).tap = s.tap := rfl

@[simp] theorem modCand_pending (c : Nat) (f : CandSt → CandSt) (s : State) : (modCand c f s).pending = s.pending := rfl
@[simp] theorem modCand_mem (c : Nat) (f : CandSt → CandSt) (s : State) : (modCand c f s).mem = s.mem := rfl
@[simp] theorem modCand_post (c : Nat) (f : CandSt → CandSt) (s : State) : (modCand c f s).post = s.post := rfl
@[simp] theorem modCand_ue (c : Nat) (f : CandSt → CandSt) (s : State) : (modCand c f s).ue = s.ue := rfl
@[simp] theorem modCand_fuse (c : Nat) (f : CandSt → CandSt) (s : State) : (modCand c f s).fuse = s.fuse := rfl
@[simp] theorem modCand_free (c : Nat) (f : CandSt → CandSt) (s : State) : (modCand c f s).free = s.free := rfl
@[simp] theorem modCand_out (c : Nat) (f : CandSt → CandSt) (s : State) : (modCand c f s).out = s.out := rfl
@[simp] theorem modCand_words (c : Nat) (f : CandSt → CandSt) (s : State) : (modCand c f s).words = s.words := rfl
@[simp] theorem modCand_time (c : Nat) (f : CandSt → CandSt) (s : State) : (modCand c f s).time = s.time := rfl
@[simp] theorem modCand_units (c : Nat) (f : CandSt → CandSt) (s : State) : (modCand c f s).units = s.units := rfl
@[simp] theorem modCand_heldTags (c : Nat) (f : CandSt → CandSt) (s : State) : (modCand c f s).heldTags = s.heldTags := rfl
@[simp] theorem modCand_sys (c : Nat) (f : CandSt → CandSt) (s : State) : (modCand c f s).sys = s.sys := rfl
@[simp] theorem modCand_start (c : Nat) (f : CandSt → CandSt) (s : State) : (modCand c f s).start = s.start := rfl
@[simp] theorem modCand_memst (c : Nat) (f : CandSt → CandSt) (s : State) : (modCand c f s).memst = s.memst := rfl
@[simp] theorem modCand_drc (c : Nat) (f : CandSt → CandSt) (s : State) : (modCand c f s).drc = s.drc := rfl
@[simp] theorem modCand_sec (c : Nat) (f : CandSt → CandSt) (s : State) : (modCand c f s).sec = s.sec := rfl
@[simp] theorem modCand_audio (c : Nat) (f : CandSt → CandSt) (s : State) : (modCand c f s).audio = s.audio := rfl
@[simp] theorem modCand_inc (c : Nat) (f : CandSt → CandSt) (s : State) : (modCand c f s).inc = s.inc := rfl
@[simp] theorem modCand_rte (c : Nat) (f : CandSt → CandSt) (s : State) : (modCand c f s).rte = s.rte := rfl
@[simp] theorem modCand_mot (c : Nat) (f : CandSt → CandSt) (s : State) : (modCand c f s).mot = s.mot := rfl
@[simp] theorem modCand_slv (c : Nat) (f : CandSt → CandSt) (s : State) : (modCand c f s).slv = s.slv := rfl
@[simp] theorem modCand_dsx (c : Nat) (f : CandSt → CandSt) (s : State) : (modCand c f s).dsx = s.dsx := rfl
@[simp] theorem modCand_lan (c : Nat) (f : CandSt → CandSt) (s : State) : (modCand c f s).lan = s.lan := rfl
@[simp] theorem modCand_red (c : Nat) (f : CandSt → CandSt) (s : State) : (modCand c f s).red = s.red := rfl
@[simp] theorem modCand_cor (c : Nat) (f : CandSt → CandSt) (s : State) : (modCand c f s).cor = s.cor := rfl
@[simp] theorem modCand_mea (c : Nat) (f : CandSt → CandSt) (s : State) : (modCand c f s).mea = s.mea := rfl
@[simp] theorem modCand_tim (c : Nat) (f : CandSt → CandSt) (s : State) : (modCand c f s).tim = s.tim := rfl
@[simp] theorem modCand_net (c : Nat) (f : CandSt → CandSt) (s : State) : (modCand c f s).net = s.net := rfl
@[simp] theorem modCand_mst (c : Nat) (f : CandSt → CandSt) (s : State) : (modCand c f s).mst = s.mst := rfl
@[simp] theorem modCand_lnk (c : Nat) (f : CandSt → CandSt) (s : State) : (modCand c f s).lnk = s.lnk := rfl
@[simp] theorem modCand_ser (c : Nat) (f : CandSt → CandSt) (s : State) : (modCand c f s).ser = s.ser := rfl
@[simp] theorem modCand_par (c : Nat) (f : CandSt → CandSt) (s : State) : (modCand c f s).par = s.par := rfl
@[simp] theorem modCand_hlt (c : Nat) (f : CandSt → CandSt) (s : State) : (modCand c f s).hlt = s.hlt := rfl
@[simp] theorem modCand_dma (c : Nat) (f : CandSt → CandSt) (s : State) : (modCand c f s).dma = s.dma := rfl
@[simp] theorem modCand_dru (c : Nat) (f : CandSt → CandSt) (s : State) : (modCand c f s).dru = s.dru := rfl
@[simp] theorem modCand_tap (c : Nat) (f : CandSt → CandSt) (s : State) : (modCand c f s).tap = s.tap := rfl

@[simp] theorem modTim_pending (f : TimSt → TimSt) (s : State) : (modTim f s).pending = s.pending := rfl
@[simp] theorem modTim_mem (f : TimSt → TimSt) (s : State) : (modTim f s).mem = s.mem := rfl
@[simp] theorem modTim_post (f : TimSt → TimSt) (s : State) : (modTim f s).post = s.post := rfl
@[simp] theorem modTim_ue (f : TimSt → TimSt) (s : State) : (modTim f s).ue = s.ue := rfl
@[simp] theorem modTim_fuse (f : TimSt → TimSt) (s : State) : (modTim f s).fuse = s.fuse := rfl
@[simp] theorem modTim_free (f : TimSt → TimSt) (s : State) : (modTim f s).free = s.free := rfl
@[simp] theorem modTim_out (f : TimSt → TimSt) (s : State) : (modTim f s).out = s.out := rfl
@[simp] theorem modTim_words (f : TimSt → TimSt) (s : State) : (modTim f s).words = s.words := rfl
@[simp] theorem modTim_time (f : TimSt → TimSt) (s : State) : (modTim f s).time = s.time := rfl
@[simp] theorem modTim_units (f : TimSt → TimSt) (s : State) : (modTim f s).units = s.units := rfl
@[simp] theorem modTim_heldTags (f : TimSt → TimSt) (s : State) : (modTim f s).heldTags = s.heldTags := rfl
@[simp] theorem modTim_sys (f : TimSt → TimSt) (s : State) : (modTim f s).sys = s.sys := rfl
@[simp] theorem modTim_start (f : TimSt → TimSt) (s : State) : (modTim f s).start = s.start := rfl
@[simp] theorem modTim_memst (f : TimSt → TimSt) (s : State) : (modTim f s).memst = s.memst := rfl
@[simp] theorem modTim_drc (f : TimSt → TimSt) (s : State) : (modTim f s).drc = s.drc := rfl
@[simp] theorem modTim_sec (f : TimSt → TimSt) (s : State) : (modTim f s).sec = s.sec := rfl
@[simp] theorem modTim_audio (f : TimSt → TimSt) (s : State) : (modTim f s).audio = s.audio := rfl
@[simp] theorem modTim_inc (f : TimSt → TimSt) (s : State) : (modTim f s).inc = s.inc := rfl
@[simp] theorem modTim_rte (f : TimSt → TimSt) (s : State) : (modTim f s).rte = s.rte := rfl
@[simp] theorem modTim_mot (f : TimSt → TimSt) (s : State) : (modTim f s).mot = s.mot := rfl
@[simp] theorem modTim_slv (f : TimSt → TimSt) (s : State) : (modTim f s).slv = s.slv := rfl
@[simp] theorem modTim_dsx (f : TimSt → TimSt) (s : State) : (modTim f s).dsx = s.dsx := rfl
@[simp] theorem modTim_lan (f : TimSt → TimSt) (s : State) : (modTim f s).lan = s.lan := rfl
@[simp] theorem modTim_red (f : TimSt → TimSt) (s : State) : (modTim f s).red = s.red := rfl
@[simp] theorem modTim_cor (f : TimSt → TimSt) (s : State) : (modTim f s).cor = s.cor := rfl
@[simp] theorem modTim_mea (f : TimSt → TimSt) (s : State) : (modTim f s).mea = s.mea := rfl
@[simp] theorem modTim_clk (f : TimSt → TimSt) (s : State) : (modTim f s).clk = s.clk := rfl
@[simp] theorem modTim_net (f : TimSt → TimSt) (s : State) : (modTim f s).net = s.net := rfl
@[simp] theorem modTim_mst (f : TimSt → TimSt) (s : State) : (modTim f s).mst = s.mst := rfl
@[simp] theorem modTim_lnk (f : TimSt → TimSt) (s : State) : (modTim f s).lnk = s.lnk := rfl
@[simp] theorem modTim_ser (f : TimSt → TimSt) (s : State) : (modTim f s).ser = s.ser := rfl
@[simp] theorem modTim_par (f : TimSt → TimSt) (s : State) : (modTim f s).par = s.par := rfl
@[simp] theorem modTim_hlt (f : TimSt → TimSt) (s : State) : (modTim f s).hlt = s.hlt := rfl
@[simp] theorem modTim_dma (f : TimSt → TimSt) (s : State) : (modTim f s).dma = s.dma := rfl
@[simp] theorem modTim_dru (f : TimSt → TimSt) (s : State) : (modTim f s).dru = s.dru := rfl
@[simp] theorem modTim_tap (f : TimSt → TimSt) (s : State) : (modTim f s).tap = s.tap := rfl

@[simp] theorem modTrig_pending (i : Nat) (f : TrigSt → TrigSt) (s : State) : (modTrig i f s).pending = s.pending := rfl
@[simp] theorem modTrig_mem (i : Nat) (f : TrigSt → TrigSt) (s : State) : (modTrig i f s).mem = s.mem := rfl
@[simp] theorem modTrig_post (i : Nat) (f : TrigSt → TrigSt) (s : State) : (modTrig i f s).post = s.post := rfl
@[simp] theorem modTrig_ue (i : Nat) (f : TrigSt → TrigSt) (s : State) : (modTrig i f s).ue = s.ue := rfl
@[simp] theorem modTrig_fuse (i : Nat) (f : TrigSt → TrigSt) (s : State) : (modTrig i f s).fuse = s.fuse := rfl
@[simp] theorem modTrig_free (i : Nat) (f : TrigSt → TrigSt) (s : State) : (modTrig i f s).free = s.free := rfl
@[simp] theorem modTrig_out (i : Nat) (f : TrigSt → TrigSt) (s : State) : (modTrig i f s).out = s.out := rfl
@[simp] theorem modTrig_words (i : Nat) (f : TrigSt → TrigSt) (s : State) : (modTrig i f s).words = s.words := rfl
@[simp] theorem modTrig_time (i : Nat) (f : TrigSt → TrigSt) (s : State) : (modTrig i f s).time = s.time := rfl
@[simp] theorem modTrig_units (i : Nat) (f : TrigSt → TrigSt) (s : State) : (modTrig i f s).units = s.units := rfl
@[simp] theorem modTrig_heldTags (i : Nat) (f : TrigSt → TrigSt) (s : State) : (modTrig i f s).heldTags = s.heldTags := rfl
@[simp] theorem modTrig_sys (i : Nat) (f : TrigSt → TrigSt) (s : State) : (modTrig i f s).sys = s.sys := rfl
@[simp] theorem modTrig_start (i : Nat) (f : TrigSt → TrigSt) (s : State) : (modTrig i f s).start = s.start := rfl
@[simp] theorem modTrig_memst (i : Nat) (f : TrigSt → TrigSt) (s : State) : (modTrig i f s).memst = s.memst := rfl
@[simp] theorem modTrig_drc (i : Nat) (f : TrigSt → TrigSt) (s : State) : (modTrig i f s).drc = s.drc := rfl
@[simp] theorem modTrig_sec (i : Nat) (f : TrigSt → TrigSt) (s : State) : (modTrig i f s).sec = s.sec := rfl
@[simp] theorem modTrig_audio (i : Nat) (f : TrigSt → TrigSt) (s : State) : (modTrig i f s).audio = s.audio := rfl
@[simp] theorem modTrig_inc (i : Nat) (f : TrigSt → TrigSt) (s : State) : (modTrig i f s).inc = s.inc := rfl
@[simp] theorem modTrig_rte (i : Nat) (f : TrigSt → TrigSt) (s : State) : (modTrig i f s).rte = s.rte := rfl
@[simp] theorem modTrig_mot (i : Nat) (f : TrigSt → TrigSt) (s : State) : (modTrig i f s).mot = s.mot := rfl
@[simp] theorem modTrig_slv (i : Nat) (f : TrigSt → TrigSt) (s : State) : (modTrig i f s).slv = s.slv := rfl
@[simp] theorem modTrig_dsx (i : Nat) (f : TrigSt → TrigSt) (s : State) : (modTrig i f s).dsx = s.dsx := rfl
@[simp] theorem modTrig_lan (i : Nat) (f : TrigSt → TrigSt) (s : State) : (modTrig i f s).lan = s.lan := rfl
@[simp] theorem modTrig_red (i : Nat) (f : TrigSt → TrigSt) (s : State) : (modTrig i f s).red = s.red := rfl
@[simp] theorem modTrig_cor (i : Nat) (f : TrigSt → TrigSt) (s : State) : (modTrig i f s).cor = s.cor := rfl
@[simp] theorem modTrig_mea (i : Nat) (f : TrigSt → TrigSt) (s : State) : (modTrig i f s).mea = s.mea := rfl
@[simp] theorem modTrig_clk (i : Nat) (f : TrigSt → TrigSt) (s : State) : (modTrig i f s).clk = s.clk := rfl
@[simp] theorem modTrig_net (i : Nat) (f : TrigSt → TrigSt) (s : State) : (modTrig i f s).net = s.net := rfl
@[simp] theorem modTrig_mst (i : Nat) (f : TrigSt → TrigSt) (s : State) : (modTrig i f s).mst = s.mst := rfl
@[simp] theorem modTrig_lnk (i : Nat) (f : TrigSt → TrigSt) (s : State) : (modTrig i f s).lnk = s.lnk := rfl
@[simp] theorem modTrig_ser (i : Nat) (f : TrigSt → TrigSt) (s : State) : (modTrig i f s).ser = s.ser := rfl
@[simp] theorem modTrig_par (i : Nat) (f : TrigSt → TrigSt) (s : State) : (modTrig i f s).par = s.par := rfl
@[simp] theorem modTrig_hlt (i : Nat) (f : TrigSt → TrigSt) (s : State) : (modTrig i f s).hlt = s.hlt := rfl
@[simp] theorem modTrig_dma (i : Nat) (f : TrigSt → TrigSt) (s : State) : (modTrig i f s).dma = s.dma := rfl
@[simp] theorem modTrig_dru (i : Nat) (f : TrigSt → TrigSt) (s : State) : (modTrig i f s).dru = s.dru := rfl
@[simp] theorem modTrig_tap (i : Nat) (f : TrigSt → TrigSt) (s : State) : (modTrig i f s).tap = s.tap := rfl

@[simp] theorem modPort_pending (p : Nat) (f : PortSt → PortSt) (s : State) : (modPort p f s).pending = s.pending := rfl
@[simp] theorem modPort_mem (p : Nat) (f : PortSt → PortSt) (s : State) : (modPort p f s).mem = s.mem := rfl
@[simp] theorem modPort_post (p : Nat) (f : PortSt → PortSt) (s : State) : (modPort p f s).post = s.post := rfl
@[simp] theorem modPort_ue (p : Nat) (f : PortSt → PortSt) (s : State) : (modPort p f s).ue = s.ue := rfl
@[simp] theorem modPort_fuse (p : Nat) (f : PortSt → PortSt) (s : State) : (modPort p f s).fuse = s.fuse := rfl
@[simp] theorem modPort_free (p : Nat) (f : PortSt → PortSt) (s : State) : (modPort p f s).free = s.free := rfl
@[simp] theorem modPort_out (p : Nat) (f : PortSt → PortSt) (s : State) : (modPort p f s).out = s.out := rfl
@[simp] theorem modPort_words (p : Nat) (f : PortSt → PortSt) (s : State) : (modPort p f s).words = s.words := rfl
@[simp] theorem modPort_time (p : Nat) (f : PortSt → PortSt) (s : State) : (modPort p f s).time = s.time := rfl
@[simp] theorem modPort_units (p : Nat) (f : PortSt → PortSt) (s : State) : (modPort p f s).units = s.units := rfl
@[simp] theorem modPort_heldTags (p : Nat) (f : PortSt → PortSt) (s : State) : (modPort p f s).heldTags = s.heldTags := rfl
@[simp] theorem modPort_sys (p : Nat) (f : PortSt → PortSt) (s : State) : (modPort p f s).sys = s.sys := rfl
@[simp] theorem modPort_start (p : Nat) (f : PortSt → PortSt) (s : State) : (modPort p f s).start = s.start := rfl
@[simp] theorem modPort_memst (p : Nat) (f : PortSt → PortSt) (s : State) : (modPort p f s).memst = s.memst := rfl
@[simp] theorem modPort_drc (p : Nat) (f : PortSt → PortSt) (s : State) : (modPort p f s).drc = s.drc := rfl
@[simp] theorem modPort_sec (p : Nat) (f : PortSt → PortSt) (s : State) : (modPort p f s).sec = s.sec := rfl
@[simp] theorem modPort_audio (p : Nat) (f : PortSt → PortSt) (s : State) : (modPort p f s).audio = s.audio := rfl
@[simp] theorem modPort_inc (p : Nat) (f : PortSt → PortSt) (s : State) : (modPort p f s).inc = s.inc := rfl
@[simp] theorem modPort_rte (p : Nat) (f : PortSt → PortSt) (s : State) : (modPort p f s).rte = s.rte := rfl
@[simp] theorem modPort_mot (p : Nat) (f : PortSt → PortSt) (s : State) : (modPort p f s).mot = s.mot := rfl
@[simp] theorem modPort_slv (p : Nat) (f : PortSt → PortSt) (s : State) : (modPort p f s).slv = s.slv := rfl
@[simp] theorem modPort_dsx (p : Nat) (f : PortSt → PortSt) (s : State) : (modPort p f s).dsx = s.dsx := rfl
@[simp] theorem modPort_lan (p : Nat) (f : PortSt → PortSt) (s : State) : (modPort p f s).lan = s.lan := rfl
@[simp] theorem modPort_red (p : Nat) (f : PortSt → PortSt) (s : State) : (modPort p f s).red = s.red := rfl
@[simp] theorem modPort_cor (p : Nat) (f : PortSt → PortSt) (s : State) : (modPort p f s).cor = s.cor := rfl
@[simp] theorem modPort_mea (p : Nat) (f : PortSt → PortSt) (s : State) : (modPort p f s).mea = s.mea := rfl
@[simp] theorem modPort_clk (p : Nat) (f : PortSt → PortSt) (s : State) : (modPort p f s).clk = s.clk := rfl
@[simp] theorem modPort_tim (p : Nat) (f : PortSt → PortSt) (s : State) : (modPort p f s).tim = s.tim := rfl
@[simp] theorem modPort_mst (p : Nat) (f : PortSt → PortSt) (s : State) : (modPort p f s).mst = s.mst := rfl
@[simp] theorem modPort_lnk (p : Nat) (f : PortSt → PortSt) (s : State) : (modPort p f s).lnk = s.lnk := rfl
@[simp] theorem modPort_ser (p : Nat) (f : PortSt → PortSt) (s : State) : (modPort p f s).ser = s.ser := rfl
@[simp] theorem modPort_par (p : Nat) (f : PortSt → PortSt) (s : State) : (modPort p f s).par = s.par := rfl
@[simp] theorem modPort_hlt (p : Nat) (f : PortSt → PortSt) (s : State) : (modPort p f s).hlt = s.hlt := rfl
@[simp] theorem modPort_dma (p : Nat) (f : PortSt → PortSt) (s : State) : (modPort p f s).dma = s.dma := rfl
@[simp] theorem modPort_dru (p : Nat) (f : PortSt → PortSt) (s : State) : (modPort p f s).dru = s.dru := rfl
@[simp] theorem modPort_tap (p : Nat) (f : PortSt → PortSt) (s : State) : (modPort p f s).tap = s.tap := rfl

@[simp] theorem modQueue_pending (q : Nat) (f : QueueSt → QueueSt) (s : State) : (modQueue q f s).pending = s.pending := rfl
@[simp] theorem modQueue_mem (q : Nat) (f : QueueSt → QueueSt) (s : State) : (modQueue q f s).mem = s.mem := rfl
@[simp] theorem modQueue_post (q : Nat) (f : QueueSt → QueueSt) (s : State) : (modQueue q f s).post = s.post := rfl
@[simp] theorem modQueue_ue (q : Nat) (f : QueueSt → QueueSt) (s : State) : (modQueue q f s).ue = s.ue := rfl
@[simp] theorem modQueue_fuse (q : Nat) (f : QueueSt → QueueSt) (s : State) : (modQueue q f s).fuse = s.fuse := rfl
@[simp] theorem modQueue_free (q : Nat) (f : QueueSt → QueueSt) (s : State) : (modQueue q f s).free = s.free := rfl
@[simp] theorem modQueue_out (q : Nat) (f : QueueSt → QueueSt) (s : State) : (modQueue q f s).out = s.out := rfl
@[simp] theorem modQueue_words (q : Nat) (f : QueueSt → QueueSt) (s : State) : (modQueue q f s).words = s.words := rfl
@[simp] theorem modQueue_time (q : Nat) (f : QueueSt → QueueSt) (s : State) : (modQueue q f s).time = s.time := rfl
@[simp] theorem modQueue_units (q : Nat) (f : QueueSt → QueueSt) (s : State) : (modQueue q f s).units = s.units := rfl
@[simp] theorem modQueue_heldTags (q : Nat) (f : QueueSt → QueueSt) (s : State) : (modQueue q f s).heldTags = s.heldTags := rfl
@[simp] theorem modQueue_sys (q : Nat) (f : QueueSt → QueueSt) (s : State) : (modQueue q f s).sys = s.sys := rfl
@[simp] theorem modQueue_start (q : Nat) (f : QueueSt → QueueSt) (s : State) : (modQueue q f s).start = s.start := rfl
@[simp] theorem modQueue_memst (q : Nat) (f : QueueSt → QueueSt) (s : State) : (modQueue q f s).memst = s.memst := rfl
@[simp] theorem modQueue_drc (q : Nat) (f : QueueSt → QueueSt) (s : State) : (modQueue q f s).drc = s.drc := rfl
@[simp] theorem modQueue_sec (q : Nat) (f : QueueSt → QueueSt) (s : State) : (modQueue q f s).sec = s.sec := rfl
@[simp] theorem modQueue_audio (q : Nat) (f : QueueSt → QueueSt) (s : State) : (modQueue q f s).audio = s.audio := rfl
@[simp] theorem modQueue_inc (q : Nat) (f : QueueSt → QueueSt) (s : State) : (modQueue q f s).inc = s.inc := rfl
@[simp] theorem modQueue_rte (q : Nat) (f : QueueSt → QueueSt) (s : State) : (modQueue q f s).rte = s.rte := rfl
@[simp] theorem modQueue_mot (q : Nat) (f : QueueSt → QueueSt) (s : State) : (modQueue q f s).mot = s.mot := rfl
@[simp] theorem modQueue_slv (q : Nat) (f : QueueSt → QueueSt) (s : State) : (modQueue q f s).slv = s.slv := rfl
@[simp] theorem modQueue_dsx (q : Nat) (f : QueueSt → QueueSt) (s : State) : (modQueue q f s).dsx = s.dsx := rfl
@[simp] theorem modQueue_lan (q : Nat) (f : QueueSt → QueueSt) (s : State) : (modQueue q f s).lan = s.lan := rfl
@[simp] theorem modQueue_red (q : Nat) (f : QueueSt → QueueSt) (s : State) : (modQueue q f s).red = s.red := rfl
@[simp] theorem modQueue_cor (q : Nat) (f : QueueSt → QueueSt) (s : State) : (modQueue q f s).cor = s.cor := rfl
@[simp] theorem modQueue_mea (q : Nat) (f : QueueSt → QueueSt) (s : State) : (modQueue q f s).mea = s.mea := rfl
@[simp] theorem modQueue_clk (q : Nat) (f : QueueSt → QueueSt) (s : State) : (modQueue q f s).clk = s.clk := rfl
@[simp] theorem modQueue_tim (q : Nat) (f : QueueSt → QueueSt) (s : State) : (modQueue q f s).tim = s.tim := rfl
@[simp] theorem modQueue_mst (q : Nat) (f : QueueSt → QueueSt) (s : State) : (modQueue q f s).mst = s.mst := rfl
@[simp] theorem modQueue_lnk (q : Nat) (f : QueueSt → QueueSt) (s : State) : (modQueue q f s).lnk = s.lnk := rfl
@[simp] theorem modQueue_ser (q : Nat) (f : QueueSt → QueueSt) (s : State) : (modQueue q f s).ser = s.ser := rfl
@[simp] theorem modQueue_par (q : Nat) (f : QueueSt → QueueSt) (s : State) : (modQueue q f s).par = s.par := rfl
@[simp] theorem modQueue_hlt (q : Nat) (f : QueueSt → QueueSt) (s : State) : (modQueue q f s).hlt = s.hlt := rfl
@[simp] theorem modQueue_dma (q : Nat) (f : QueueSt → QueueSt) (s : State) : (modQueue q f s).dma = s.dma := rfl
@[simp] theorem modQueue_dru (q : Nat) (f : QueueSt → QueueSt) (s : State) : (modQueue q f s).dru = s.dru := rfl
@[simp] theorem modQueue_tap (q : Nat) (f : QueueSt → QueueSt) (s : State) : (modQueue q f s).tap = s.tap := rfl

@[simp] theorem setCredit_pending (p c : Nat) (v : Int) (s : State) : (setCredit p c v s).pending = s.pending := rfl
@[simp] theorem setCredit_mem (p c : Nat) (v : Int) (s : State) : (setCredit p c v s).mem = s.mem := rfl
@[simp] theorem setCredit_post (p c : Nat) (v : Int) (s : State) : (setCredit p c v s).post = s.post := rfl
@[simp] theorem setCredit_ue (p c : Nat) (v : Int) (s : State) : (setCredit p c v s).ue = s.ue := rfl
@[simp] theorem setCredit_fuse (p c : Nat) (v : Int) (s : State) : (setCredit p c v s).fuse = s.fuse := rfl
@[simp] theorem setCredit_free (p c : Nat) (v : Int) (s : State) : (setCredit p c v s).free = s.free := rfl
@[simp] theorem setCredit_out (p c : Nat) (v : Int) (s : State) : (setCredit p c v s).out = s.out := rfl
@[simp] theorem setCredit_words (p c : Nat) (v : Int) (s : State) : (setCredit p c v s).words = s.words := rfl
@[simp] theorem setCredit_time (p c : Nat) (v : Int) (s : State) : (setCredit p c v s).time = s.time := rfl
@[simp] theorem setCredit_units (p c : Nat) (v : Int) (s : State) : (setCredit p c v s).units = s.units := rfl
@[simp] theorem setCredit_heldTags (p c : Nat) (v : Int) (s : State) : (setCredit p c v s).heldTags = s.heldTags := rfl
@[simp] theorem setCredit_sys (p c : Nat) (v : Int) (s : State) : (setCredit p c v s).sys = s.sys := rfl
@[simp] theorem setCredit_start (p c : Nat) (v : Int) (s : State) : (setCredit p c v s).start = s.start := rfl
@[simp] theorem setCredit_memst (p c : Nat) (v : Int) (s : State) : (setCredit p c v s).memst = s.memst := rfl
@[simp] theorem setCredit_drc (p c : Nat) (v : Int) (s : State) : (setCredit p c v s).drc = s.drc := rfl
@[simp] theorem setCredit_sec (p c : Nat) (v : Int) (s : State) : (setCredit p c v s).sec = s.sec := rfl
@[simp] theorem setCredit_audio (p c : Nat) (v : Int) (s : State) : (setCredit p c v s).audio = s.audio := rfl
@[simp] theorem setCredit_inc (p c : Nat) (v : Int) (s : State) : (setCredit p c v s).inc = s.inc := rfl
@[simp] theorem setCredit_rte (p c : Nat) (v : Int) (s : State) : (setCredit p c v s).rte = s.rte := rfl
@[simp] theorem setCredit_mot (p c : Nat) (v : Int) (s : State) : (setCredit p c v s).mot = s.mot := rfl
@[simp] theorem setCredit_slv (p c : Nat) (v : Int) (s : State) : (setCredit p c v s).slv = s.slv := rfl
@[simp] theorem setCredit_dsx (p c : Nat) (v : Int) (s : State) : (setCredit p c v s).dsx = s.dsx := rfl
@[simp] theorem setCredit_lan (p c : Nat) (v : Int) (s : State) : (setCredit p c v s).lan = s.lan := rfl
@[simp] theorem setCredit_red (p c : Nat) (v : Int) (s : State) : (setCredit p c v s).red = s.red := rfl
@[simp] theorem setCredit_cor (p c : Nat) (v : Int) (s : State) : (setCredit p c v s).cor = s.cor := rfl
@[simp] theorem setCredit_mea (p c : Nat) (v : Int) (s : State) : (setCredit p c v s).mea = s.mea := rfl
@[simp] theorem setCredit_clk (p c : Nat) (v : Int) (s : State) : (setCredit p c v s).clk = s.clk := rfl
@[simp] theorem setCredit_tim (p c : Nat) (v : Int) (s : State) : (setCredit p c v s).tim = s.tim := rfl
@[simp] theorem setCredit_mst (p c : Nat) (v : Int) (s : State) : (setCredit p c v s).mst = s.mst := rfl
@[simp] theorem setCredit_lnk (p c : Nat) (v : Int) (s : State) : (setCredit p c v s).lnk = s.lnk := rfl
@[simp] theorem setCredit_ser (p c : Nat) (v : Int) (s : State) : (setCredit p c v s).ser = s.ser := rfl
@[simp] theorem setCredit_par (p c : Nat) (v : Int) (s : State) : (setCredit p c v s).par = s.par := rfl
@[simp] theorem setCredit_hlt (p c : Nat) (v : Int) (s : State) : (setCredit p c v s).hlt = s.hlt := rfl
@[simp] theorem setCredit_dma (p c : Nat) (v : Int) (s : State) : (setCredit p c v s).dma = s.dma := rfl
@[simp] theorem setCredit_dru (p c : Nat) (v : Int) (s : State) : (setCredit p c v s).dru = s.dru := rfl
@[simp] theorem setCredit_tap (p c : Nat) (v : Int) (s : State) : (setCredit p c v s).tap = s.tap := rfl

@[simp] theorem modLink_pending (n : Nat) (f : LinkSt → LinkSt) (s : State) : (modLink n f s).pending = s.pending := rfl
@[simp] theorem modLink_mem (n : Nat) (f : LinkSt → LinkSt) (s : State) : (modLink n f s).mem = s.mem := rfl
@[simp] theorem modLink_post (n : Nat) (f : LinkSt → LinkSt) (s : State) : (modLink n f s).post = s.post := rfl
@[simp] theorem modLink_ue (n : Nat) (f : LinkSt → LinkSt) (s : State) : (modLink n f s).ue = s.ue := rfl
@[simp] theorem modLink_fuse (n : Nat) (f : LinkSt → LinkSt) (s : State) : (modLink n f s).fuse = s.fuse := rfl
@[simp] theorem modLink_free (n : Nat) (f : LinkSt → LinkSt) (s : State) : (modLink n f s).free = s.free := rfl
@[simp] theorem modLink_out (n : Nat) (f : LinkSt → LinkSt) (s : State) : (modLink n f s).out = s.out := rfl
@[simp] theorem modLink_words (n : Nat) (f : LinkSt → LinkSt) (s : State) : (modLink n f s).words = s.words := rfl
@[simp] theorem modLink_time (n : Nat) (f : LinkSt → LinkSt) (s : State) : (modLink n f s).time = s.time := rfl
@[simp] theorem modLink_units (n : Nat) (f : LinkSt → LinkSt) (s : State) : (modLink n f s).units = s.units := rfl
@[simp] theorem modLink_heldTags (n : Nat) (f : LinkSt → LinkSt) (s : State) : (modLink n f s).heldTags = s.heldTags := rfl
@[simp] theorem modLink_sys (n : Nat) (f : LinkSt → LinkSt) (s : State) : (modLink n f s).sys = s.sys := rfl
@[simp] theorem modLink_start (n : Nat) (f : LinkSt → LinkSt) (s : State) : (modLink n f s).start = s.start := rfl
@[simp] theorem modLink_memst (n : Nat) (f : LinkSt → LinkSt) (s : State) : (modLink n f s).memst = s.memst := rfl
@[simp] theorem modLink_drc (n : Nat) (f : LinkSt → LinkSt) (s : State) : (modLink n f s).drc = s.drc := rfl
@[simp] theorem modLink_sec (n : Nat) (f : LinkSt → LinkSt) (s : State) : (modLink n f s).sec = s.sec := rfl
@[simp] theorem modLink_audio (n : Nat) (f : LinkSt → LinkSt) (s : State) : (modLink n f s).audio = s.audio := rfl
@[simp] theorem modLink_inc (n : Nat) (f : LinkSt → LinkSt) (s : State) : (modLink n f s).inc = s.inc := rfl
@[simp] theorem modLink_rte (n : Nat) (f : LinkSt → LinkSt) (s : State) : (modLink n f s).rte = s.rte := rfl
@[simp] theorem modLink_mot (n : Nat) (f : LinkSt → LinkSt) (s : State) : (modLink n f s).mot = s.mot := rfl
@[simp] theorem modLink_slv (n : Nat) (f : LinkSt → LinkSt) (s : State) : (modLink n f s).slv = s.slv := rfl
@[simp] theorem modLink_dsx (n : Nat) (f : LinkSt → LinkSt) (s : State) : (modLink n f s).dsx = s.dsx := rfl
@[simp] theorem modLink_lan (n : Nat) (f : LinkSt → LinkSt) (s : State) : (modLink n f s).lan = s.lan := rfl
@[simp] theorem modLink_red (n : Nat) (f : LinkSt → LinkSt) (s : State) : (modLink n f s).red = s.red := rfl
@[simp] theorem modLink_cor (n : Nat) (f : LinkSt → LinkSt) (s : State) : (modLink n f s).cor = s.cor := rfl
@[simp] theorem modLink_mea (n : Nat) (f : LinkSt → LinkSt) (s : State) : (modLink n f s).mea = s.mea := rfl
@[simp] theorem modLink_clk (n : Nat) (f : LinkSt → LinkSt) (s : State) : (modLink n f s).clk = s.clk := rfl
@[simp] theorem modLink_tim (n : Nat) (f : LinkSt → LinkSt) (s : State) : (modLink n f s).tim = s.tim := rfl
@[simp] theorem modLink_net (n : Nat) (f : LinkSt → LinkSt) (s : State) : (modLink n f s).net = s.net := rfl
@[simp] theorem modLink_mst (n : Nat) (f : LinkSt → LinkSt) (s : State) : (modLink n f s).mst = s.mst := rfl
@[simp] theorem modLink_ser (n : Nat) (f : LinkSt → LinkSt) (s : State) : (modLink n f s).ser = s.ser := rfl
@[simp] theorem modLink_par (n : Nat) (f : LinkSt → LinkSt) (s : State) : (modLink n f s).par = s.par := rfl
@[simp] theorem modLink_hlt (n : Nat) (f : LinkSt → LinkSt) (s : State) : (modLink n f s).hlt = s.hlt := rfl
@[simp] theorem modLink_dma (n : Nat) (f : LinkSt → LinkSt) (s : State) : (modLink n f s).dma = s.dma := rfl
@[simp] theorem modLink_dru (n : Nat) (f : LinkSt → LinkSt) (s : State) : (modLink n f s).dru = s.dru := rfl
@[simp] theorem modLink_tap (n : Nat) (f : LinkSt → LinkSt) (s : State) : (modLink n f s).tap = s.tap := rfl

@[simp] theorem modCore_pending (n : Nat) (f : CoreSt → CoreSt) (s : State) : (modCore n f s).pending = s.pending := rfl
@[simp] theorem modCore_mem (n : Nat) (f : CoreSt → CoreSt) (s : State) : (modCore n f s).mem = s.mem := rfl
@[simp] theorem modCore_post (n : Nat) (f : CoreSt → CoreSt) (s : State) : (modCore n f s).post = s.post := rfl
@[simp] theorem modCore_ue (n : Nat) (f : CoreSt → CoreSt) (s : State) : (modCore n f s).ue = s.ue := rfl
@[simp] theorem modCore_fuse (n : Nat) (f : CoreSt → CoreSt) (s : State) : (modCore n f s).fuse = s.fuse := rfl
@[simp] theorem modCore_free (n : Nat) (f : CoreSt → CoreSt) (s : State) : (modCore n f s).free = s.free := rfl
@[simp] theorem modCore_out (n : Nat) (f : CoreSt → CoreSt) (s : State) : (modCore n f s).out = s.out := rfl
@[simp] theorem modCore_words (n : Nat) (f : CoreSt → CoreSt) (s : State) : (modCore n f s).words = s.words := rfl
@[simp] theorem modCore_time (n : Nat) (f : CoreSt → CoreSt) (s : State) : (modCore n f s).time = s.time := rfl
@[simp] theorem modCore_units (n : Nat) (f : CoreSt → CoreSt) (s : State) : (modCore n f s).units = s.units := rfl
@[simp] theorem modCore_heldTags (n : Nat) (f : CoreSt → CoreSt) (s : State) : (modCore n f s).heldTags = s.heldTags := rfl
@[simp] theorem modCore_sys (n : Nat) (f : CoreSt → CoreSt) (s : State) : (modCore n f s).sys = s.sys := rfl
@[simp] theorem modCore_start (n : Nat) (f : CoreSt → CoreSt) (s : State) : (modCore n f s).start = s.start := rfl
@[simp] theorem modCore_memst (n : Nat) (f : CoreSt → CoreSt) (s : State) : (modCore n f s).memst = s.memst := rfl
@[simp] theorem modCore_drc (n : Nat) (f : CoreSt → CoreSt) (s : State) : (modCore n f s).drc = s.drc := rfl
@[simp] theorem modCore_sec (n : Nat) (f : CoreSt → CoreSt) (s : State) : (modCore n f s).sec = s.sec := rfl
@[simp] theorem modCore_audio (n : Nat) (f : CoreSt → CoreSt) (s : State) : (modCore n f s).audio = s.audio := rfl
@[simp] theorem modCore_inc (n : Nat) (f : CoreSt → CoreSt) (s : State) : (modCore n f s).inc = s.inc := rfl
@[simp] theorem modCore_rte (n : Nat) (f : CoreSt → CoreSt) (s : State) : (modCore n f s).rte = s.rte := rfl
@[simp] theorem modCore_mot (n : Nat) (f : CoreSt → CoreSt) (s : State) : (modCore n f s).mot = s.mot := rfl
@[simp] theorem modCore_slv (n : Nat) (f : CoreSt → CoreSt) (s : State) : (modCore n f s).slv = s.slv := rfl
@[simp] theorem modCore_dsx (n : Nat) (f : CoreSt → CoreSt) (s : State) : (modCore n f s).dsx = s.dsx := rfl
@[simp] theorem modCore_lan (n : Nat) (f : CoreSt → CoreSt) (s : State) : (modCore n f s).lan = s.lan := rfl
@[simp] theorem modCore_red (n : Nat) (f : CoreSt → CoreSt) (s : State) : (modCore n f s).red = s.red := rfl
@[simp] theorem modCore_cor (n : Nat) (f : CoreSt → CoreSt) (s : State) : (modCore n f s).cor = s.cor := rfl
@[simp] theorem modCore_mea (n : Nat) (f : CoreSt → CoreSt) (s : State) : (modCore n f s).mea = s.mea := rfl
@[simp] theorem modCore_clk (n : Nat) (f : CoreSt → CoreSt) (s : State) : (modCore n f s).clk = s.clk := rfl
@[simp] theorem modCore_tim (n : Nat) (f : CoreSt → CoreSt) (s : State) : (modCore n f s).tim = s.tim := rfl
@[simp] theorem modCore_net (n : Nat) (f : CoreSt → CoreSt) (s : State) : (modCore n f s).net = s.net := rfl
@[simp] theorem modCore_mst (n : Nat) (f : CoreSt → CoreSt) (s : State) : (modCore n f s).mst = s.mst := rfl
@[simp] theorem modCore_lnk (n : Nat) (f : CoreSt → CoreSt) (s : State) : (modCore n f s).lnk = s.lnk := rfl
@[simp] theorem modCore_ser (n : Nat) (f : CoreSt → CoreSt) (s : State) : (modCore n f s).ser = s.ser := rfl
@[simp] theorem modCore_par (n : Nat) (f : CoreSt → CoreSt) (s : State) : (modCore n f s).par = s.par := rfl
@[simp] theorem modCore_hlt (n : Nat) (f : CoreSt → CoreSt) (s : State) : (modCore n f s).hlt = s.hlt := rfl
@[simp] theorem modCore_dma (n : Nat) (f : CoreSt → CoreSt) (s : State) : (modCore n f s).dma = s.dma := rfl
@[simp] theorem modCore_tap (n : Nat) (f : CoreSt → CoreSt) (s : State) : (modCore n f s).tap = s.tap := rfl

@[simp] theorem modEng_pending (b : Bool) (f : DmaEngine → DmaEngine) (s : State) : (modEng b f s).pending = s.pending := rfl
@[simp] theorem modEng_mem (b : Bool) (f : DmaEngine → DmaEngine) (s : State) : (modEng b f s).mem = s.mem := rfl
@[simp] theorem modEng_post (b : Bool) (f : DmaEngine → DmaEngine) (s : State) : (modEng b f s).post = s.post := rfl
@[simp] theorem modEng_ue (b : Bool) (f : DmaEngine → DmaEngine) (s : State) : (modEng b f s).ue = s.ue := rfl
@[simp] theorem modEng_fuse (b : Bool) (f : DmaEngine → DmaEngine) (s : State) : (modEng b f s).fuse = s.fuse := rfl
@[simp] theorem modEng_free (b : Bool) (f : DmaEngine → DmaEngine) (s : State) : (modEng b f s).free = s.free := rfl
@[simp] theorem modEng_out (b : Bool) (f : DmaEngine → DmaEngine) (s : State) : (modEng b f s).out = s.out := rfl
@[simp] theorem modEng_words (b : Bool) (f : DmaEngine → DmaEngine) (s : State) : (modEng b f s).words = s.words := rfl
@[simp] theorem modEng_time (b : Bool) (f : DmaEngine → DmaEngine) (s : State) : (modEng b f s).time = s.time := rfl
@[simp] theorem modEng_units (b : Bool) (f : DmaEngine → DmaEngine) (s : State) : (modEng b f s).units = s.units := rfl
@[simp] theorem modEng_heldTags (b : Bool) (f : DmaEngine → DmaEngine) (s : State) : (modEng b f s).heldTags = s.heldTags := rfl
@[simp] theorem modEng_sys (b : Bool) (f : DmaEngine → DmaEngine) (s : State) : (modEng b f s).sys = s.sys := rfl
@[simp] theorem modEng_start (b : Bool) (f : DmaEngine → DmaEngine) (s : State) : (modEng b f s).start = s.start := rfl
@[simp] theorem modEng_memst (b : Bool) (f : DmaEngine → DmaEngine) (s : State) : (modEng b f s).memst = s.memst := rfl
@[simp] theorem modEng_drc (b : Bool) (f : DmaEngine → DmaEngine) (s : State) : (modEng b f s).drc = s.drc := rfl
@[simp] theorem modEng_sec (b : Bool) (f : DmaEngine → DmaEngine) (s : State) : (modEng b f s).sec = s.sec := rfl
@[simp] theorem modEng_audio (b : Bool) (f : DmaEngine → DmaEngine) (s : State) : (modEng b f s).audio = s.audio := rfl
@[simp] theorem modEng_inc (b : Bool) (f : DmaEngine → DmaEngine) (s : State) : (modEng b f s).inc = s.inc := rfl
@[simp] theorem modEng_rte (b : Bool) (f : DmaEngine → DmaEngine) (s : State) : (modEng b f s).rte = s.rte := rfl
@[simp] theorem modEng_mot (b : Bool) (f : DmaEngine → DmaEngine) (s : State) : (modEng b f s).mot = s.mot := rfl
@[simp] theorem modEng_slv (b : Bool) (f : DmaEngine → DmaEngine) (s : State) : (modEng b f s).slv = s.slv := rfl
@[simp] theorem modEng_dsx (b : Bool) (f : DmaEngine → DmaEngine) (s : State) : (modEng b f s).dsx = s.dsx := rfl
@[simp] theorem modEng_lan (b : Bool) (f : DmaEngine → DmaEngine) (s : State) : (modEng b f s).lan = s.lan := rfl
@[simp] theorem modEng_red (b : Bool) (f : DmaEngine → DmaEngine) (s : State) : (modEng b f s).red = s.red := rfl
@[simp] theorem modEng_cor (b : Bool) (f : DmaEngine → DmaEngine) (s : State) : (modEng b f s).cor = s.cor := rfl
@[simp] theorem modEng_mea (b : Bool) (f : DmaEngine → DmaEngine) (s : State) : (modEng b f s).mea = s.mea := rfl
@[simp] theorem modEng_clk (b : Bool) (f : DmaEngine → DmaEngine) (s : State) : (modEng b f s).clk = s.clk := rfl
@[simp] theorem modEng_tim (b : Bool) (f : DmaEngine → DmaEngine) (s : State) : (modEng b f s).tim = s.tim := rfl
@[simp] theorem modEng_net (b : Bool) (f : DmaEngine → DmaEngine) (s : State) : (modEng b f s).net = s.net := rfl
@[simp] theorem modEng_mst (b : Bool) (f : DmaEngine → DmaEngine) (s : State) : (modEng b f s).mst = s.mst := rfl
@[simp] theorem modEng_lnk (b : Bool) (f : DmaEngine → DmaEngine) (s : State) : (modEng b f s).lnk = s.lnk := rfl
@[simp] theorem modEng_ser (b : Bool) (f : DmaEngine → DmaEngine) (s : State) : (modEng b f s).ser = s.ser := rfl
@[simp] theorem modEng_par (b : Bool) (f : DmaEngine → DmaEngine) (s : State) : (modEng b f s).par = s.par := rfl
@[simp] theorem modEng_hlt (b : Bool) (f : DmaEngine → DmaEngine) (s : State) : (modEng b f s).hlt = s.hlt := rfl
@[simp] theorem modEng_dru (b : Bool) (f : DmaEngine → DmaEngine) (s : State) : (modEng b f s).dru = s.dru := rfl
@[simp] theorem modEng_tap (b : Bool) (f : DmaEngine → DmaEngine) (s : State) : (modEng b f s).tap = s.tap := rfl

@[simp] theorem modIsland_pending (i : Nat) (f : IslandSt → IslandSt) (s : State) : (modIsland i f s).pending = s.pending := rfl
@[simp] theorem modIsland_mem (i : Nat) (f : IslandSt → IslandSt) (s : State) : (modIsland i f s).mem = s.mem := rfl
@[simp] theorem modIsland_post (i : Nat) (f : IslandSt → IslandSt) (s : State) : (modIsland i f s).post = s.post := rfl
@[simp] theorem modIsland_ue (i : Nat) (f : IslandSt → IslandSt) (s : State) : (modIsland i f s).ue = s.ue := rfl
@[simp] theorem modIsland_fuse (i : Nat) (f : IslandSt → IslandSt) (s : State) : (modIsland i f s).fuse = s.fuse := rfl
@[simp] theorem modIsland_free (i : Nat) (f : IslandSt → IslandSt) (s : State) : (modIsland i f s).free = s.free := rfl
@[simp] theorem modIsland_out (i : Nat) (f : IslandSt → IslandSt) (s : State) : (modIsland i f s).out = s.out := rfl
@[simp] theorem modIsland_words (i : Nat) (f : IslandSt → IslandSt) (s : State) : (modIsland i f s).words = s.words := rfl
@[simp] theorem modIsland_time (i : Nat) (f : IslandSt → IslandSt) (s : State) : (modIsland i f s).time = s.time := rfl
@[simp] theorem modIsland_units (i : Nat) (f : IslandSt → IslandSt) (s : State) : (modIsland i f s).units = s.units := rfl
@[simp] theorem modIsland_heldTags (i : Nat) (f : IslandSt → IslandSt) (s : State) : (modIsland i f s).heldTags = s.heldTags := rfl
@[simp] theorem modIsland_sys (i : Nat) (f : IslandSt → IslandSt) (s : State) : (modIsland i f s).sys = s.sys := rfl
@[simp] theorem modIsland_start (i : Nat) (f : IslandSt → IslandSt) (s : State) : (modIsland i f s).start = s.start := rfl
@[simp] theorem modIsland_memst (i : Nat) (f : IslandSt → IslandSt) (s : State) : (modIsland i f s).memst = s.memst := rfl
@[simp] theorem modIsland_drc (i : Nat) (f : IslandSt → IslandSt) (s : State) : (modIsland i f s).drc = s.drc := rfl
@[simp] theorem modIsland_sec (i : Nat) (f : IslandSt → IslandSt) (s : State) : (modIsland i f s).sec = s.sec := rfl
@[simp] theorem modIsland_audio (i : Nat) (f : IslandSt → IslandSt) (s : State) : (modIsland i f s).audio = s.audio := rfl
@[simp] theorem modIsland_inc (i : Nat) (f : IslandSt → IslandSt) (s : State) : (modIsland i f s).inc = s.inc := rfl
@[simp] theorem modIsland_rte (i : Nat) (f : IslandSt → IslandSt) (s : State) : (modIsland i f s).rte = s.rte := rfl
@[simp] theorem modIsland_mot (i : Nat) (f : IslandSt → IslandSt) (s : State) : (modIsland i f s).mot = s.mot := rfl
@[simp] theorem modIsland_slv (i : Nat) (f : IslandSt → IslandSt) (s : State) : (modIsland i f s).slv = s.slv := rfl
@[simp] theorem modIsland_dsx (i : Nat) (f : IslandSt → IslandSt) (s : State) : (modIsland i f s).dsx = s.dsx := rfl
@[simp] theorem modIsland_lan (i : Nat) (f : IslandSt → IslandSt) (s : State) : (modIsland i f s).lan = s.lan := rfl
@[simp] theorem modIsland_red (i : Nat) (f : IslandSt → IslandSt) (s : State) : (modIsland i f s).red = s.red := rfl
@[simp] theorem modIsland_cor (i : Nat) (f : IslandSt → IslandSt) (s : State) : (modIsland i f s).cor = s.cor := rfl
@[simp] theorem modIsland_mea (i : Nat) (f : IslandSt → IslandSt) (s : State) : (modIsland i f s).mea = s.mea := rfl
@[simp] theorem modIsland_clk (i : Nat) (f : IslandSt → IslandSt) (s : State) : (modIsland i f s).clk = s.clk := rfl
@[simp] theorem modIsland_tim (i : Nat) (f : IslandSt → IslandSt) (s : State) : (modIsland i f s).tim = s.tim := rfl
@[simp] theorem modIsland_net (i : Nat) (f : IslandSt → IslandSt) (s : State) : (modIsland i f s).net = s.net := rfl
@[simp] theorem modIsland_mst (i : Nat) (f : IslandSt → IslandSt) (s : State) : (modIsland i f s).mst = s.mst := rfl
@[simp] theorem modIsland_lnk (i : Nat) (f : IslandSt → IslandSt) (s : State) : (modIsland i f s).lnk = s.lnk := rfl
@[simp] theorem modIsland_ser (i : Nat) (f : IslandSt → IslandSt) (s : State) : (modIsland i f s).ser = s.ser := rfl
@[simp] theorem modIsland_par (i : Nat) (f : IslandSt → IslandSt) (s : State) : (modIsland i f s).par = s.par := rfl
@[simp] theorem modIsland_dma (i : Nat) (f : IslandSt → IslandSt) (s : State) : (modIsland i f s).dma = s.dma := rfl
@[simp] theorem modIsland_dru (i : Nat) (f : IslandSt → IslandSt) (s : State) : (modIsland i f s).dru = s.dru := rfl
@[simp] theorem modIsland_tap (i : Nat) (f : IslandSt → IslandSt) (s : State) : (modIsland i f s).tap = s.tap := rfl

@[simp] theorem modHlt_pending (f : HltSt → HltSt) (s : State) : (modHlt f s).pending = s.pending := rfl
@[simp] theorem modHlt_mem (f : HltSt → HltSt) (s : State) : (modHlt f s).mem = s.mem := rfl
@[simp] theorem modHlt_post (f : HltSt → HltSt) (s : State) : (modHlt f s).post = s.post := rfl
@[simp] theorem modHlt_ue (f : HltSt → HltSt) (s : State) : (modHlt f s).ue = s.ue := rfl
@[simp] theorem modHlt_fuse (f : HltSt → HltSt) (s : State) : (modHlt f s).fuse = s.fuse := rfl
@[simp] theorem modHlt_free (f : HltSt → HltSt) (s : State) : (modHlt f s).free = s.free := rfl
@[simp] theorem modHlt_out (f : HltSt → HltSt) (s : State) : (modHlt f s).out = s.out := rfl
@[simp] theorem modHlt_words (f : HltSt → HltSt) (s : State) : (modHlt f s).words = s.words := rfl
@[simp] theorem modHlt_time (f : HltSt → HltSt) (s : State) : (modHlt f s).time = s.time := rfl
@[simp] theorem modHlt_units (f : HltSt → HltSt) (s : State) : (modHlt f s).units = s.units := rfl
@[simp] theorem modHlt_heldTags (f : HltSt → HltSt) (s : State) : (modHlt f s).heldTags = s.heldTags := rfl
@[simp] theorem modHlt_sys (f : HltSt → HltSt) (s : State) : (modHlt f s).sys = s.sys := rfl
@[simp] theorem modHlt_start (f : HltSt → HltSt) (s : State) : (modHlt f s).start = s.start := rfl
@[simp] theorem modHlt_memst (f : HltSt → HltSt) (s : State) : (modHlt f s).memst = s.memst := rfl
@[simp] theorem modHlt_drc (f : HltSt → HltSt) (s : State) : (modHlt f s).drc = s.drc := rfl
@[simp] theorem modHlt_sec (f : HltSt → HltSt) (s : State) : (modHlt f s).sec = s.sec := rfl
@[simp] theorem modHlt_audio (f : HltSt → HltSt) (s : State) : (modHlt f s).audio = s.audio := rfl
@[simp] theorem modHlt_inc (f : HltSt → HltSt) (s : State) : (modHlt f s).inc = s.inc := rfl
@[simp] theorem modHlt_rte (f : HltSt → HltSt) (s : State) : (modHlt f s).rte = s.rte := rfl
@[simp] theorem modHlt_mot (f : HltSt → HltSt) (s : State) : (modHlt f s).mot = s.mot := rfl
@[simp] theorem modHlt_slv (f : HltSt → HltSt) (s : State) : (modHlt f s).slv = s.slv := rfl
@[simp] theorem modHlt_dsx (f : HltSt → HltSt) (s : State) : (modHlt f s).dsx = s.dsx := rfl
@[simp] theorem modHlt_lan (f : HltSt → HltSt) (s : State) : (modHlt f s).lan = s.lan := rfl
@[simp] theorem modHlt_red (f : HltSt → HltSt) (s : State) : (modHlt f s).red = s.red := rfl
@[simp] theorem modHlt_cor (f : HltSt → HltSt) (s : State) : (modHlt f s).cor = s.cor := rfl
@[simp] theorem modHlt_mea (f : HltSt → HltSt) (s : State) : (modHlt f s).mea = s.mea := rfl
@[simp] theorem modHlt_clk (f : HltSt → HltSt) (s : State) : (modHlt f s).clk = s.clk := rfl
@[simp] theorem modHlt_tim (f : HltSt → HltSt) (s : State) : (modHlt f s).tim = s.tim := rfl
@[simp] theorem modHlt_net (f : HltSt → HltSt) (s : State) : (modHlt f s).net = s.net := rfl
@[simp] theorem modHlt_mst (f : HltSt → HltSt) (s : State) : (modHlt f s).mst = s.mst := rfl
@[simp] theorem modHlt_lnk (f : HltSt → HltSt) (s : State) : (modHlt f s).lnk = s.lnk := rfl
@[simp] theorem modHlt_ser (f : HltSt → HltSt) (s : State) : (modHlt f s).ser = s.ser := rfl
@[simp] theorem modHlt_par (f : HltSt → HltSt) (s : State) : (modHlt f s).par = s.par := rfl
@[simp] theorem modHlt_dma (f : HltSt → HltSt) (s : State) : (modHlt f s).dma = s.dma := rfl
@[simp] theorem modHlt_dru (f : HltSt → HltSt) (s : State) : (modHlt f s).dru = s.dru := rfl
@[simp] theorem modHlt_tap (f : HltSt → HltSt) (s : State) : (modHlt f s).tap = s.tap := rfl

@[simp] theorem modPar_pending (f : ParSt → ParSt) (s : State) : (modPar f s).pending = s.pending := rfl
@[simp] theorem modPar_mem (f : ParSt → ParSt) (s : State) : (modPar f s).mem = s.mem := rfl
@[simp] theorem modPar_post (f : ParSt → ParSt) (s : State) : (modPar f s).post = s.post := rfl
@[simp] theorem modPar_ue (f : ParSt → ParSt) (s : State) : (modPar f s).ue = s.ue := rfl
@[simp] theorem modPar_fuse (f : ParSt → ParSt) (s : State) : (modPar f s).fuse = s.fuse := rfl
@[simp] theorem modPar_free (f : ParSt → ParSt) (s : State) : (modPar f s).free = s.free := rfl
@[simp] theorem modPar_out (f : ParSt → ParSt) (s : State) : (modPar f s).out = s.out := rfl
@[simp] theorem modPar_words (f : ParSt → ParSt) (s : State) : (modPar f s).words = s.words := rfl
@[simp] theorem modPar_time (f : ParSt → ParSt) (s : State) : (modPar f s).time = s.time := rfl
@[simp] theorem modPar_units (f : ParSt → ParSt) (s : State) : (modPar f s).units = s.units := rfl
@[simp] theorem modPar_heldTags (f : ParSt → ParSt) (s : State) : (modPar f s).heldTags = s.heldTags := rfl
@[simp] theorem modPar_sys (f : ParSt → ParSt) (s : State) : (modPar f s).sys = s.sys := rfl
@[simp] theorem modPar_start (f : ParSt → ParSt) (s : State) : (modPar f s).start = s.start := rfl
@[simp] theorem modPar_memst (f : ParSt → ParSt) (s : State) : (modPar f s).memst = s.memst := rfl
@[simp] theorem modPar_drc (f : ParSt → ParSt) (s : State) : (modPar f s).drc = s.drc := rfl
@[simp] theorem modPar_sec (f : ParSt → ParSt) (s : State) : (modPar f s).sec = s.sec := rfl
@[simp] theorem modPar_audio (f : ParSt → ParSt) (s : State) : (modPar f s).audio = s.audio := rfl
@[simp] theorem modPar_inc (f : ParSt → ParSt) (s : State) : (modPar f s).inc = s.inc := rfl
@[simp] theorem modPar_rte (f : ParSt → ParSt) (s : State) : (modPar f s).rte = s.rte := rfl
@[simp] theorem modPar_mot (f : ParSt → ParSt) (s : State) : (modPar f s).mot = s.mot := rfl
@[simp] theorem modPar_slv (f : ParSt → ParSt) (s : State) : (modPar f s).slv = s.slv := rfl
@[simp] theorem modPar_dsx (f : ParSt → ParSt) (s : State) : (modPar f s).dsx = s.dsx := rfl
@[simp] theorem modPar_lan (f : ParSt → ParSt) (s : State) : (modPar f s).lan = s.lan := rfl
@[simp] theorem modPar_red (f : ParSt → ParSt) (s : State) : (modPar f s).red = s.red := rfl
@[simp] theorem modPar_cor (f : ParSt → ParSt) (s : State) : (modPar f s).cor = s.cor := rfl
@[simp] theorem modPar_mea (f : ParSt → ParSt) (s : State) : (modPar f s).mea = s.mea := rfl
@[simp] theorem modPar_clk (f : ParSt → ParSt) (s : State) : (modPar f s).clk = s.clk := rfl
@[simp] theorem modPar_tim (f : ParSt → ParSt) (s : State) : (modPar f s).tim = s.tim := rfl
@[simp] theorem modPar_net (f : ParSt → ParSt) (s : State) : (modPar f s).net = s.net := rfl
@[simp] theorem modPar_mst (f : ParSt → ParSt) (s : State) : (modPar f s).mst = s.mst := rfl
@[simp] theorem modPar_lnk (f : ParSt → ParSt) (s : State) : (modPar f s).lnk = s.lnk := rfl
@[simp] theorem modPar_ser (f : ParSt → ParSt) (s : State) : (modPar f s).ser = s.ser := rfl
@[simp] theorem modPar_hlt (f : ParSt → ParSt) (s : State) : (modPar f s).hlt = s.hlt := rfl
@[simp] theorem modPar_dma (f : ParSt → ParSt) (s : State) : (modPar f s).dma = s.dma := rfl
@[simp] theorem modPar_dru (f : ParSt → ParSt) (s : State) : (modPar f s).dru = s.dru := rfl
@[simp] theorem modPar_tap (f : ParSt → ParSt) (s : State) : (modPar f s).tap = s.tap := rfl

@[simp] theorem modSlot_pending (k : Nat) (f : SlotSt → SlotSt) (s : State) : (modSlot k f s).pending = s.pending := rfl
@[simp] theorem modSlot_mem (k : Nat) (f : SlotSt → SlotSt) (s : State) : (modSlot k f s).mem = s.mem := rfl
@[simp] theorem modSlot_post (k : Nat) (f : SlotSt → SlotSt) (s : State) : (modSlot k f s).post = s.post := rfl
@[simp] theorem modSlot_ue (k : Nat) (f : SlotSt → SlotSt) (s : State) : (modSlot k f s).ue = s.ue := rfl
@[simp] theorem modSlot_fuse (k : Nat) (f : SlotSt → SlotSt) (s : State) : (modSlot k f s).fuse = s.fuse := rfl
@[simp] theorem modSlot_free (k : Nat) (f : SlotSt → SlotSt) (s : State) : (modSlot k f s).free = s.free := rfl
@[simp] theorem modSlot_out (k : Nat) (f : SlotSt → SlotSt) (s : State) : (modSlot k f s).out = s.out := rfl
@[simp] theorem modSlot_words (k : Nat) (f : SlotSt → SlotSt) (s : State) : (modSlot k f s).words = s.words := rfl
@[simp] theorem modSlot_time (k : Nat) (f : SlotSt → SlotSt) (s : State) : (modSlot k f s).time = s.time := rfl
@[simp] theorem modSlot_units (k : Nat) (f : SlotSt → SlotSt) (s : State) : (modSlot k f s).units = s.units := rfl
@[simp] theorem modSlot_heldTags (k : Nat) (f : SlotSt → SlotSt) (s : State) : (modSlot k f s).heldTags = s.heldTags := rfl
@[simp] theorem modSlot_sys (k : Nat) (f : SlotSt → SlotSt) (s : State) : (modSlot k f s).sys = s.sys := rfl
@[simp] theorem modSlot_start (k : Nat) (f : SlotSt → SlotSt) (s : State) : (modSlot k f s).start = s.start := rfl
@[simp] theorem modSlot_memst (k : Nat) (f : SlotSt → SlotSt) (s : State) : (modSlot k f s).memst = s.memst := rfl
@[simp] theorem modSlot_drc (k : Nat) (f : SlotSt → SlotSt) (s : State) : (modSlot k f s).drc = s.drc := rfl
@[simp] theorem modSlot_sec (k : Nat) (f : SlotSt → SlotSt) (s : State) : (modSlot k f s).sec = s.sec := rfl
@[simp] theorem modSlot_audio (k : Nat) (f : SlotSt → SlotSt) (s : State) : (modSlot k f s).audio = s.audio := rfl
@[simp] theorem modSlot_inc (k : Nat) (f : SlotSt → SlotSt) (s : State) : (modSlot k f s).inc = s.inc := rfl
@[simp] theorem modSlot_rte (k : Nat) (f : SlotSt → SlotSt) (s : State) : (modSlot k f s).rte = s.rte := rfl
@[simp] theorem modSlot_mot (k : Nat) (f : SlotSt → SlotSt) (s : State) : (modSlot k f s).mot = s.mot := rfl
@[simp] theorem modSlot_slv (k : Nat) (f : SlotSt → SlotSt) (s : State) : (modSlot k f s).slv = s.slv := rfl
@[simp] theorem modSlot_dsx (k : Nat) (f : SlotSt → SlotSt) (s : State) : (modSlot k f s).dsx = s.dsx := rfl
@[simp] theorem modSlot_lan (k : Nat) (f : SlotSt → SlotSt) (s : State) : (modSlot k f s).lan = s.lan := rfl
@[simp] theorem modSlot_red (k : Nat) (f : SlotSt → SlotSt) (s : State) : (modSlot k f s).red = s.red := rfl
@[simp] theorem modSlot_cor (k : Nat) (f : SlotSt → SlotSt) (s : State) : (modSlot k f s).cor = s.cor := rfl
@[simp] theorem modSlot_mea (k : Nat) (f : SlotSt → SlotSt) (s : State) : (modSlot k f s).mea = s.mea := rfl
@[simp] theorem modSlot_clk (k : Nat) (f : SlotSt → SlotSt) (s : State) : (modSlot k f s).clk = s.clk := rfl
@[simp] theorem modSlot_tim (k : Nat) (f : SlotSt → SlotSt) (s : State) : (modSlot k f s).tim = s.tim := rfl
@[simp] theorem modSlot_net (k : Nat) (f : SlotSt → SlotSt) (s : State) : (modSlot k f s).net = s.net := rfl
@[simp] theorem modSlot_mst (k : Nat) (f : SlotSt → SlotSt) (s : State) : (modSlot k f s).mst = s.mst := rfl
@[simp] theorem modSlot_lnk (k : Nat) (f : SlotSt → SlotSt) (s : State) : (modSlot k f s).lnk = s.lnk := rfl
@[simp] theorem modSlot_ser (k : Nat) (f : SlotSt → SlotSt) (s : State) : (modSlot k f s).ser = s.ser := rfl
@[simp] theorem modSlot_hlt (k : Nat) (f : SlotSt → SlotSt) (s : State) : (modSlot k f s).hlt = s.hlt := rfl
@[simp] theorem modSlot_dma (k : Nat) (f : SlotSt → SlotSt) (s : State) : (modSlot k f s).dma = s.dma := rfl
@[simp] theorem modSlot_dru (k : Nat) (f : SlotSt → SlotSt) (s : State) : (modSlot k f s).dru = s.dru := rfl
@[simp] theorem modSlot_tap (k : Nat) (f : SlotSt → SlotSt) (s : State) : (modSlot k f s).tap = s.tap := rfl

@[simp] theorem modStart_pending (f : StartSt → StartSt) (s : State) : (modStart f s).pending = s.pending := rfl
@[simp] theorem modStart_mem (f : StartSt → StartSt) (s : State) : (modStart f s).mem = s.mem := rfl
@[simp] theorem modStart_post (f : StartSt → StartSt) (s : State) : (modStart f s).post = s.post := rfl
@[simp] theorem modStart_ue (f : StartSt → StartSt) (s : State) : (modStart f s).ue = s.ue := rfl
@[simp] theorem modStart_fuse (f : StartSt → StartSt) (s : State) : (modStart f s).fuse = s.fuse := rfl
@[simp] theorem modStart_free (f : StartSt → StartSt) (s : State) : (modStart f s).free = s.free := rfl
@[simp] theorem modStart_out (f : StartSt → StartSt) (s : State) : (modStart f s).out = s.out := rfl
@[simp] theorem modStart_words (f : StartSt → StartSt) (s : State) : (modStart f s).words = s.words := rfl
@[simp] theorem modStart_time (f : StartSt → StartSt) (s : State) : (modStart f s).time = s.time := rfl
@[simp] theorem modStart_units (f : StartSt → StartSt) (s : State) : (modStart f s).units = s.units := rfl
@[simp] theorem modStart_heldTags (f : StartSt → StartSt) (s : State) : (modStart f s).heldTags = s.heldTags := rfl
@[simp] theorem modStart_sys (f : StartSt → StartSt) (s : State) : (modStart f s).sys = s.sys := rfl
@[simp] theorem modStart_memst (f : StartSt → StartSt) (s : State) : (modStart f s).memst = s.memst := rfl
@[simp] theorem modStart_drc (f : StartSt → StartSt) (s : State) : (modStart f s).drc = s.drc := rfl
@[simp] theorem modStart_sec (f : StartSt → StartSt) (s : State) : (modStart f s).sec = s.sec := rfl
@[simp] theorem modStart_audio (f : StartSt → StartSt) (s : State) : (modStart f s).audio = s.audio := rfl
@[simp] theorem modStart_inc (f : StartSt → StartSt) (s : State) : (modStart f s).inc = s.inc := rfl
@[simp] theorem modStart_rte (f : StartSt → StartSt) (s : State) : (modStart f s).rte = s.rte := rfl
@[simp] theorem modStart_mot (f : StartSt → StartSt) (s : State) : (modStart f s).mot = s.mot := rfl
@[simp] theorem modStart_slv (f : StartSt → StartSt) (s : State) : (modStart f s).slv = s.slv := rfl
@[simp] theorem modStart_dsx (f : StartSt → StartSt) (s : State) : (modStart f s).dsx = s.dsx := rfl
@[simp] theorem modStart_lan (f : StartSt → StartSt) (s : State) : (modStart f s).lan = s.lan := rfl
@[simp] theorem modStart_red (f : StartSt → StartSt) (s : State) : (modStart f s).red = s.red := rfl
@[simp] theorem modStart_cor (f : StartSt → StartSt) (s : State) : (modStart f s).cor = s.cor := rfl
@[simp] theorem modStart_mea (f : StartSt → StartSt) (s : State) : (modStart f s).mea = s.mea := rfl
@[simp] theorem modStart_clk (f : StartSt → StartSt) (s : State) : (modStart f s).clk = s.clk := rfl
@[simp] theorem modStart_tim (f : StartSt → StartSt) (s : State) : (modStart f s).tim = s.tim := rfl
@[simp] theorem modStart_net (f : StartSt → StartSt) (s : State) : (modStart f s).net = s.net := rfl
@[simp] theorem modStart_mst (f : StartSt → StartSt) (s : State) : (modStart f s).mst = s.mst := rfl
@[simp] theorem modStart_lnk (f : StartSt → StartSt) (s : State) : (modStart f s).lnk = s.lnk := rfl
@[simp] theorem modStart_ser (f : StartSt → StartSt) (s : State) : (modStart f s).ser = s.ser := rfl
@[simp] theorem modStart_par (f : StartSt → StartSt) (s : State) : (modStart f s).par = s.par := rfl
@[simp] theorem modStart_hlt (f : StartSt → StartSt) (s : State) : (modStart f s).hlt = s.hlt := rfl
@[simp] theorem modStart_dma (f : StartSt → StartSt) (s : State) : (modStart f s).dma = s.dma := rfl
@[simp] theorem modStart_dru (f : StartSt → StartSt) (s : State) : (modStart f s).dru = s.dru := rfl
@[simp] theorem modStart_tap (f : StartSt → StartSt) (s : State) : (modStart f s).tap = s.tap := rfl

@[simp] theorem setBank_pending (b : Nat) (x : BankState) (s : State) : (setBank b x s).pending = s.pending := rfl
@[simp] theorem setBank_mem (b : Nat) (x : BankState) (s : State) : (setBank b x s).mem = s.mem := rfl
@[simp] theorem setBank_post (b : Nat) (x : BankState) (s : State) : (setBank b x s).post = s.post := rfl
@[simp] theorem setBank_ue (b : Nat) (x : BankState) (s : State) : (setBank b x s).ue = s.ue := rfl
@[simp] theorem setBank_fuse (b : Nat) (x : BankState) (s : State) : (setBank b x s).fuse = s.fuse := rfl
@[simp] theorem setBank_free (b : Nat) (x : BankState) (s : State) : (setBank b x s).free = s.free := rfl
@[simp] theorem setBank_out (b : Nat) (x : BankState) (s : State) : (setBank b x s).out = s.out := rfl
@[simp] theorem setBank_words (b : Nat) (x : BankState) (s : State) : (setBank b x s).words = s.words := rfl
@[simp] theorem setBank_time (b : Nat) (x : BankState) (s : State) : (setBank b x s).time = s.time := rfl
@[simp] theorem setBank_units (b : Nat) (x : BankState) (s : State) : (setBank b x s).units = s.units := rfl
@[simp] theorem setBank_heldTags (b : Nat) (x : BankState) (s : State) : (setBank b x s).heldTags = s.heldTags := rfl
@[simp] theorem setBank_sys (b : Nat) (x : BankState) (s : State) : (setBank b x s).sys = s.sys := rfl
@[simp] theorem setBank_start (b : Nat) (x : BankState) (s : State) : (setBank b x s).start = s.start := rfl
@[simp] theorem setBank_drc (b : Nat) (x : BankState) (s : State) : (setBank b x s).drc = s.drc := rfl
@[simp] theorem setBank_sec (b : Nat) (x : BankState) (s : State) : (setBank b x s).sec = s.sec := rfl
@[simp] theorem setBank_audio (b : Nat) (x : BankState) (s : State) : (setBank b x s).audio = s.audio := rfl
@[simp] theorem setBank_inc (b : Nat) (x : BankState) (s : State) : (setBank b x s).inc = s.inc := rfl
@[simp] theorem setBank_rte (b : Nat) (x : BankState) (s : State) : (setBank b x s).rte = s.rte := rfl
@[simp] theorem setBank_mot (b : Nat) (x : BankState) (s : State) : (setBank b x s).mot = s.mot := rfl
@[simp] theorem setBank_slv (b : Nat) (x : BankState) (s : State) : (setBank b x s).slv = s.slv := rfl
@[simp] theorem setBank_dsx (b : Nat) (x : BankState) (s : State) : (setBank b x s).dsx = s.dsx := rfl
@[simp] theorem setBank_lan (b : Nat) (x : BankState) (s : State) : (setBank b x s).lan = s.lan := rfl
@[simp] theorem setBank_red (b : Nat) (x : BankState) (s : State) : (setBank b x s).red = s.red := rfl
@[simp] theorem setBank_cor (b : Nat) (x : BankState) (s : State) : (setBank b x s).cor = s.cor := rfl
@[simp] theorem setBank_mea (b : Nat) (x : BankState) (s : State) : (setBank b x s).mea = s.mea := rfl
@[simp] theorem setBank_clk (b : Nat) (x : BankState) (s : State) : (setBank b x s).clk = s.clk := rfl
@[simp] theorem setBank_tim (b : Nat) (x : BankState) (s : State) : (setBank b x s).tim = s.tim := rfl
@[simp] theorem setBank_net (b : Nat) (x : BankState) (s : State) : (setBank b x s).net = s.net := rfl
@[simp] theorem setBank_mst (b : Nat) (x : BankState) (s : State) : (setBank b x s).mst = s.mst := rfl
@[simp] theorem setBank_lnk (b : Nat) (x : BankState) (s : State) : (setBank b x s).lnk = s.lnk := rfl
@[simp] theorem setBank_ser (b : Nat) (x : BankState) (s : State) : (setBank b x s).ser = s.ser := rfl
@[simp] theorem setBank_par (b : Nat) (x : BankState) (s : State) : (setBank b x s).par = s.par := rfl
@[simp] theorem setBank_hlt (b : Nat) (x : BankState) (s : State) : (setBank b x s).hlt = s.hlt := rfl
@[simp] theorem setBank_dma (b : Nat) (x : BankState) (s : State) : (setBank b x s).dma = s.dma := rfl
@[simp] theorem setBank_dru (b : Nat) (x : BankState) (s : State) : (setBank b x s).dru = s.dru := rfl
@[simp] theorem setBank_tap (b : Nat) (x : BankState) (s : State) : (setBank b x s).tap = s.tap := rfl

end Sys2Proof.Laws
end

