-- ==== Sys2Proof/Laws/Ops.lean ====
section
/-! SUPPORT. The shared operations: words that the device sets, sticky bits, counters and events, each with all it can
do. -/

namespace Sys2Proof.Laws

open Sys2Proof Sys2Proof.Machine

/-! ### Words -/

theorem regW_setW_same (a : Nat) (v : Word) (s : State) : regW (setW a v s) a = v := by
  simp [regW, setW, tabFind_tabSet]

theorem actW_setW_same (a : Nat) (v : Word) (s : State) : actW (setW a v s) a = v := by
  simp [actW, setW, tabFind_tabSet]

/-- The rate follows the words of `SYS_RENDER_RATE` and of the accepted set alone (R424). -/
theorem rateCode_setW (a : Nat) (v : Word) (s : State) (h1 : a ≠ 0x10000100) (h2 : a ≠ 0x10010118) :
    rateCode (setW a v s) = rateCode s := by
  simp [rateCode, accepted, actOr, setW, tabGet_tabSet, Ne.symm h1, Ne.symm h2]

theorem resetWord_setW (a : Nat) (v : Word) (s : State) (b : Nat) (h1 : a ≠ 0x10000100) (h2 : a ≠ 0x10010118) :
    resetWord (setW a v s) b = resetWord s b := by
  simp only [resetWord, objsPerLane, rateCode_setW a v s h1 h2]

theorem regW_setW_other (a : Nat) (v : Word) (s : State) (b : Nat) (h : b ≠ a) (h1 : a ≠ 0x10000100) (h2 : a ≠ 0x10010118) :
    regW (setW a v s) b = regW s b := by
  unfold regW
  rw [resetWord_setW a v s b h1 h2]
  simp [setW, tabFind_tabSet, h]

theorem actW_setW_other (a : Nat) (v : Word) (s : State) (b : Nat) (h : b ≠ a) (h1 : a ≠ 0x10000100) (h2 : a ≠ 0x10010118) :
    actW (setW a v s) b = actW s b := by
  unfold actW
  rw [resetWord_setW a v s b h1 h2]
  simp [setW, tabFind_tabSet, h]

/-- A field that the device sets reads back. -/
theorem fld_setF (a hi lo v : Nat) (s : State) (h : hi < 32) : fld (regW (setF a hi lo v s) a) hi lo = v % 2 ^ (hi + 1 - lo) := by
  unfold setF; rw [regW_setW_same, fld_putFld _ _ _ _ h]

theorem bit_setF (a hi lo v : Nat) (s : State) (j : Nat) (h : hi < 32) :
    bit (regW (setF a hi lo v s) a) j = if lo ≤ j ∧ j ≤ hi then v.testBit (j - lo) else bit (regW s a) j := by
  unfold setF; rw [regW_setW_same, bit_putFld _ _ _ _ _ h]

/-- A sticky bit that the device sets (R22). -/
theorem bit_stick (a i j : Nat) (s : State) (h : i < 32) :
    bit (regW (stick a i s) a) j = if j = i then true else bit (regW s a) j := by
  unfold stick; rw [bit_setF _ _ _ _ _ _ h]
  by_cases e : j = i
  · subst e; simp
  · rw [if_neg (by omega), if_neg e]

/-- A counter that the device raises stops at all ones (R23). -/
theorem fld_countF (a hi lo n : Nat) (s : State) (h : hi < 32) :
    fld (regW (countF a hi lo n s) a) hi lo = min (fld (regW s a) hi lo + n) (2 ^ (hi + 1 - lo) - 1) := by
  unfold countF; rw [fld_setF _ _ _ _ _ h]
  apply Nat.mod_eq_of_lt
  have : 0 < 2 ^ (hi + 1 - lo) := Nat.two_pow_pos _
  omega

theorem bit_countF (a hi lo n : Nat) (s : State) (j : Nat) (h : hi < 32) (hj : j < lo ∨ hi < j) :
    bit (regW (countF a hi lo n s) a) j = bit (regW s a) j := by
  unfold countF; rw [bit_setF _ _ _ _ _ _ h, if_neg (by omega)]

/-! ### Events (R452) -/

/-- A store changes nothing but what waits to be stored. -/
theorem wr32_ex (s : State) (a v : Nat) : ∃ p, wr32 s a v = { s with post := p } := ⟨_, storeBytes_eq ..⟩

theorem storeEach_ex (f : List Byte × Nat → Nat) (l : List (List Byte × Nat)) (s : State) :
    ∃ p, l.foldl (fun t p => storeBytes t (f p) p.1) s = { s with post := p } := by
  induction l generalizing s with
  | nil => exact ⟨_, rfl⟩
  | cons c l ih =>
    obtain ⟨p, hp⟩ := ih (storeBytes s (f c) c.1)
    refine ⟨p, ?_⟩
    simp only [List.foldl_cons]
    rw [hp, storeBytes_eq s]

/-- An event written changes what waits to be stored and what waits to be forwarded. -/
theorem writeEvent_ex (s : State) (recs : List (List Byte)) :
    ∃ p y, writeEvent s recs = { s with post := p, sys := y } := by
  unfold writeEvent
  dsimp only
  obtain ⟨p, hp⟩ := storeEach_ex (fun p => evtRing + ((rd32 s (ctlBlock + 0x10) + p.2) % 2048) * 16) recs.zipIdx s
  rw [hp]
  obtain ⟨q, hq⟩ := wr32_ex { s with post := p } (ctlBlock + 0x10) ((rd32 s (ctlBlock + 0x10) + recs.length) % 2 ^ 32)
  rw [hq]
  dsimp only
  obtain ⟨r, hr⟩ := wr32_ex { s with post := q } (ctlBlock + 0x20) (rd32 { s with post := q } (ctlBlock + 0x20) + 1)
  rw [hr]
  split <;> split <;> exact ⟨_, _, rfl⟩

/-- An event dropped changes what waits to be stored, and words of SYS. -/
theorem dropEvent_ex (s : State) : ∃ p w, dropEvent s = { s with post := p, words := w } := by
  unfold dropEvent
  obtain ⟨p, hp⟩ := wr32_ex s (ctlBlock + 0x18) (rd32 s (ctlBlock + 0x18) + 1)
  rw [hp]
  exact ⟨_, _, rfl⟩

theorem rateCode_dropEvent (s : State) : rateCode (dropEvent s) = rateCode s := by
  unfold dropEvent stick count countN countF setF
  rw [rateCode_setW _ _ _ (by decide) (by decide), rateCode_setW _ _ _ (by decide) (by decide)]
  obtain ⟨p, hp⟩ := wr32_ex s (ctlBlock + 0x18) (rd32 s (ctlBlock + 0x18) + 1)
  rw [hp]
  rfl

/-- An event raised changes what waits to be stored and to be forwarded, and words of SYS; not the rate. -/
theorem raise_ex (code : Nat) (data : List Byte) (s : State) :
    (∃ p w y, raise code data s = { s with post := p, words := w, sys := y }) ∧
    rateCode (raise code data s) = rateCode s := by
  unfold raise
  split
  · dsimp only
    split
    · obtain ⟨p, y, h⟩ := writeEvent_ex s (eventRecords s code data)
      rw [h]; exact ⟨⟨p, _, y, rfl⟩, rfl⟩
    · obtain ⟨p, w, h⟩ := dropEvent_ex s
      exact ⟨⟨p, w, _, h⟩, rateCode_dropEvent s⟩
  · exact ⟨⟨_, _, _, rfl⟩, rfl⟩

theorem raise_time (code : Nat) (data : List Byte) (s : State) : (raise code data s).time = s.time := by
  obtain ⟨⟨p, w, y, h⟩, -⟩ := raise_ex code data s; rw [h]

theorem raise_start (code : Nat) (data : List Byte) (s : State) : (raise code data s).start = s.start := by
  obtain ⟨⟨p, w, y, h⟩, -⟩ := raise_ex code data s; rw [h]

theorem raise_mem (code : Nat) (data : List Byte) (s : State) : (raise code data s).mem = s.mem := by
  obtain ⟨⟨p, w, y, h⟩, -⟩ := raise_ex code data s; rw [h]

theorem raise_dru (code : Nat) (data : List Byte) (s : State) : (raise code data s).dru = s.dru := by
  obtain ⟨⟨p, w, y, h⟩, -⟩ := raise_ex code data s; rw [h]

theorem raise_units (code : Nat) (data : List Byte) (s : State) : (raise code data s).units = s.units := by
  obtain ⟨⟨p, w, y, h⟩, -⟩ := raise_ex code data s; rw [h]

theorem raise_rate (code : Nat) (data : List Byte) (s : State) : rateCode (raise code data s) = rateCode s := (raise_ex code data s).2

end Sys2Proof.Laws
end

