-- ==== Sys2Proof/Laws/Cmd.lean ====
section
/-! SUPPORT. Commands: what a read and a write of a word of plain memory do, and that an answer to the host or to a
remote frame stores nothing. -/

namespace Sys2Proof.Laws

open Sys2Proof Sys2Proof.Machine

theorem parts8_word (a : Nat) (h : a % 4 = 0) : parts8 a 4 = [(a, 4)] := by
  have hw : (word8 (a + 4 - 1) - word8 a) / 8 + 1 = 1 := by unfold word8; omega
  have h1 : max a (word8 a + 8 * 0) = a := by unfold word8; omega
  have h2 : min (a + 4) (word8 a + 8 * 0 + 8) - a = 4 := by unfold word8; omega
  unfold parts8
  rw [if_neg (by omega), hw]
  simp only [List.range_one, List.map_cons, List.map_nil, h1, h2]

theorem wordOf_rd32 (s : State) (a : Nat) : (wordOf (rd32 s a)).toNat = rd32 s a := by
  have : rd32 s a < 2 ^ 32 := by
    simp [rd32, readBytes, List.range_succ, ofBytes]
    omega
  unfold wordOf; rw [BitVec.toNat_ofNat, Nat.mod_eq_of_lt this]

theorem dramWake_cases (a : Nat) (s : State) : dramWake a s = s ∨ dramWake a s = selfRefreshExit s := by
  unfold dramWake; split
  · exact .inr rfl
  · exact .inl rfl

theorem dramWake_post (a : Nat) (s : State) : (dramWake a s).post = s.post := by unfold dramWake; split <;> rfl
theorem ueIn_dramWake (a : Nat) (s : State) (b n : Nat) : ueIn (dramWake a s) b n = ueIn s b n := by unfold dramWake; split <;> rfl
theorem rd32_dramWake (a : Nat) (s : State) (b : Nat) : rd32 (dramWake a s) b = rd32 s b := by unfold dramWake; split <;> rfl
theorem readBytes_dramWake (a : Nat) (s : State) (b n : Nat) : readBytes (dramWake a s) b n = readBytes s b n := by
  unfold dramWake; split <;> rfl

theorem dram_place {s : State} {a : Nat} (h : dramBase ≤ a) :
    fabPlace s a = if a < dramTop s then .mem else .nothing true := by
  unfold fabPlace
  rw [if_neg (by unfold dramBase at h; unfold secBase; omega), if_neg (by unfold dramBase at h; omega),
    if_neg (by unfold dramBase at h; unfold druBase; omega), if_pos h]

theorem dram_status {s : State} {a : Nat} (h : dramBase ≤ a) : readStatus s a = if a < dramTop s then 0 else 1 := by
  have : assigned s a = decide (a < dramTop s) := by
    unfold assigned
    rw [if_neg (by unfold dramBase at h; omega), if_neg (by unfold dramBase at h; unfold druBase; omega), if_pos h]
  unfold readStatus
  rw [this, if_neg (c := secBase ≤ a ∧ a < 0x100000) (by unfold dramBase at h; omega)]
  by_cases hd : a < dramTop s <;> simp [hd]

theorem chainFrom_exit (s : State) (k : Nat) (seen : List Nat) (a : Nat) :
    chainFrom (selfRefreshExit s) k seen a = chainFrom s k seen a := by
  induction k generalizing seen a with
  | zero => rfl
  | succ k ih => unfold chainFrom; simp only [ih]; rfl

theorem chainDescs_exit (s : State) : chainDescs (selfRefreshExit s) = chainDescs s := by
  unfold chainDescs; simp only [chainFrom_exit]; rfl

theorem watched_dramWake (a : Nat) (s : State) (b n : Nat) : watched (dramWake a s) b n = watched s b n := by
  unfold dramWake; split
  · unfold watched chainHit; rw [chainDescs_exit]; rfl
  · rfl

/-- A write that meets nothing watched is stopped by nothing. -/
theorem writeStop_unwatched {s : State} {a : Nat} {bs : List Byte} (h : watched s a bs.length = false) :
    writeStop s a bs = none := by
  simp only [watched, Bool.or_eq_false_iff] at h
  simp [writeStop, h.1.1.1, h.1.1.2, h.1.2, h.2]

/-- Where nothing guards memory, only the code of a running core is watched. -/
theorem watched_unguarded {s : State} (h : unguarded s = true) (a n : Nat) : watched s a n = codeRuns s a := by
  simp only [unguarded, Bool.and_eq_true, List.all_eq_true, Bool.not_eq_true', List.mem_append] at h
  obtain ⟨⟨hc, hr⟩, hf⟩ := h
  have h1 : playHit s a n = false := by
    simp only [playHit, List.any_eq_false]
    intro q hq; simp [hr q hq]
  have h2 : chainDescs s = [] := by
    simp only [chainDescs, List.flatMap_eq_nil_iff, List.mem_append]
    intro q hq; simp [hc q hq]
  have h3 : filterHit s a n = false := by
    simp only [filterHit, Bool.and_eq_false_iff, List.any_eq_false]
    right; intro t ht; simp [hf t ht]
  simp [watched, h1, chainHit, h2, h3]

/-- A store into memory leaves what guards memory as it is. -/
theorem unguarded_storeBytes (s : State) (a : Nat) (bs : List Byte) : unguarded (storeBytes s a bs) = unguarded s := by
  induction bs generalizing s a with
  | nil => rfl
  | cons b bs ih => rw [storeBytes, ih]; rfl

theorem dramTop_exit (s : State) : dramTop (selfRefreshExit s) = dramTop s := rfl

/-- An access that wakes DRAM leaves memory as plain as it was. -/
theorem plainMemory_dramWake {s : State} {a : Nat} (h : plainMemory s a) : plainMemory (dramWake a s) a := by
  by_cases hd : dramBase ≤ a
  · obtain ⟨hr, hm, hc, hu⟩ := h
    unfold dramWake; rw [if_pos hd]
    rw [dram_status hd] at hr
    rw [dram_place hd] at hm
    refine ⟨?_, ?_, ?_, hu⟩
    · rw [dram_status hd, dramTop_exit]; exact hr
    · rw [dram_place hd, dramTop_exit]; exact hm
    · have hw := watched_dramWake a s a 4; unfold dramWake at hw; rw [if_pos hd] at hw; rw [hw]; exact hc
  · unfold dramWake; rw [if_neg hd]; exact h

/-- A word of plain memory read over the fabric. -/
theorem fabReadWord_mem (s : State) (a : Nat) (h4 : a % 4 = 0) (h : plainMemory s a) :
    fabReadWord 10 0 s a = (true, wordOf (rd32 s a), dramWake a s) := by
  obtain ⟨-, hm, -, hu⟩ := h
  simp [fabReadWord, fabRead, parts8_word a h4, readParts, readPart, hm, loadMem, hu, rd32]

theorem cmdRead_mem (s : State) (a : Nat) (h4 : a % 4 = 0) (h : plainMemory s a) :
    cmdRead s a = (0, wordOf (rd32 s a), dramWake a s) := by
  have hr := h.1
  simp [cmdRead, hr, fabReadWord_mem s a h4 h]

/-- A word of plain memory written over the fabric. -/
theorem fabWriteWord_mem (s : State) (a : Nat) (v : Word) (h4 : a % 4 = 0) (h : plainMemory s a) :
    fabWriteWord 3 10 0 s a v = .ok (writeMem (dramWake a s) a (bytesOf 4 v.toNat)) := by
  obtain ⟨-, hm, hc, hu⟩ := h
  have hl : (bytesOf 4 v.toNat).length = 4 := bytesOf_length ..
  have hs : slice (bytesOf 4 v.toNat) 0 4 = bytesOf 4 v.toNat := by simp [slice, bytesOf, List.range_succ]
  have hw : writeStop s a (bytesOf 4 v.toNat) = none := writeStop_unwatched (by rw [hl]; exact hc)
  simp [fabWriteWord, fabWrite, hl, parts8_word a h4, writeParts, writePart, hm, storePart, hw, storeMem, hu,
    hs]

theorem cmdWrite_mem (src : Nat) (s : State) (a : Nat) (v : Word) (h4 : a % 4 = 0) (h : plainMemory s a) :
    cmdWrite src a v s = .ok (0, writeMem (dramWake a s) a (bytesOf 4 v.toNat)) := by
  have hr := h.1
  simp [cmdWrite, hr, fabWriteWord_mem s a v h4 h]

/-- Plain memory is no register that the dispatcher could hold up. -/
theorem dsxWaits_mem {s : State} {a : Nat} (h : plainMemory s a) : dsxWaits s a = false := by
  have hm := h.2.1
  unfold dsxWaits
  by_cases ha : a = Reg.DSX_SUBMIT_W.at 3
  · subst ha
    exfalso
    have hb : unitOf (Reg.DSX_SUBMIT_W.at 3) = some uDSX := by decide
    unfold fabPlace at hm
    rw [if_neg (by decide), if_neg (by decide), if_neg (by decide), if_neg (by decide), hb] at hm
    dsimp only at hm
    split at hm
    · cases hm
    · split at hm
      · cases hm
      · split at hm <;> cases hm
  · simp [ha]

/-! ### Frames that the device sends of its own -/

/-- Queues cleared change queues, ports and the words that count them. -/
theorem flushes_ex (f : Nat → State → State) (hf : ∀ q t, ∃ w n, f q t = { t with words := w, net := n }) (l : List Nat) (s : State) :
    ∃ w n, l.foldl (fun t q => f q t) s = { s with words := w, net := n } := by
  induction l generalizing s with
  | nil => exact ⟨s.words, s.net, rfl⟩
  | cons q l ih =>
    obtain ⟨w, n, h⟩ := hf q s
    obtain ⟨w', n', h'⟩ := ih (f q s)
    exact ⟨w', n', by rw [List.foldl_cons, h', h]⟩

theorem storeMsg_own (q : Nat) (pre bytes : List Byte) (len : Nat) (msg : Option Out) (s : State) (hq : 512 ≤ q) :
    ∃ w n, (storeMsg q pre bytes len msg s).2 = { s with words := w, net := n } := by
  unfold storeMsg; dsimp only
  split
  · unfold noCell when; split <;> exact ⟨_, _, rfl⟩
  · have h : ∀ t : State, qLevelEn t q = false := fun t => by simp [qLevelEn]; omega
    unfold linkFrame; dsimp only
    rw [h, Bool.false_and, Bool.false_and]
    exact ⟨_, _, rfl⟩

/-- A frame of the device's own goes into its queue, or is let go: queues, ports and their words alone change (R331, R334). -/
theorem sendOwn_ex (p : Nat) (bytes : List Byte) (msg : Option Out) (s : State) :
    ∃ w n, sendOwn p bytes msg s = { s with words := w, net := n } := by
  unfold sendOwn; split
  · exact ⟨s.words, s.net, rfl⟩
  · unfold enqueueMsg; split
    · exact ⟨s.words, s.net, rfl⟩
    · dsimp only
      generalize (if qPort s (512 + p) < 8 then _ else _ : Nat × Nat) = ft
      obtain ⟨c, hc⟩ : ∃ n, classSince (512 + p) s = { s with net := n } := by
        unfold classSince when; dsimp only; split
        · exact ⟨_, rfl⟩
        · exact ⟨s.net, rfl⟩
      obtain ⟨w, n, h⟩ := storeMsg_own (512 + p)
        (prefixOf ((bytes ++ List.replicate (60 - bytes.length) 0).length + 4) (qPort s (512 + p)) ft.1 ft.2 0xFF s 0)
        (bytes ++ List.replicate (60 - bytes.length) 0) ((bytes ++ List.replicate (60 - bytes.length) 0).length + 4) msg
        (classSince (512 + p) s) (by omega)
      rw [h, hc]; unfold when; split
      · obtain ⟨w', n', h'⟩ := flushes_ex (fun q t =>
            countN (Reg.NET_TX_DISCARD_CNT.at (qPort s (512 + p))) (queueSt t q).frames.length (queueFlush q t))
          (fun q t => ⟨_, _, rfl⟩) (txWaiting { s with words := w, net := n } (qPort s (512 + p))) { s with words := w, net := n }
        exact ⟨w', n', h'⟩
      · exact ⟨w, n, rfl⟩

theorem remoteSend_post (port ip udp kind key part last : Nat) (recs : List (List Byte)) (s : State) :
    (remoteSend port ip udp kind key part last recs s).post = s.post := by
  unfold remoteSend
  obtain ⟨w, n, h⟩ := sendOwn_ex port (List.replicate 42 0 ++ remotePayload s kind key part last recs)
    (some (.udp port ip udp (remotePayload s kind key part last recs))) s
  dsimp only; rw [h]; rfl

/-! ### Answers -/

theorem answerFrame_post (src : Nat) (c : ReplyCtx) (n : Nat) (s : State) (f : List (List Byte) × Nat) (h : src ≤ 16) :
    (answerFrame src c n s f).post = s.post := by
  unfold answerFrame; dsimp only; rw [if_pos h, remoteSend_post]

theorem sendAnswer_post (src : Nat) (c : ReplyCtx) (s : State) (h : src ≤ 16) : (sendAnswer src c s).post = s.post := by
  unfold sendAnswer; dsimp only
  generalize (recFrames _ _ _).zipIdx = l
  generalize (recFrames _ _ _).length = n
  induction l generalizing s with
  | nil => rfl
  | cons x l ih => simp only [List.foldl_cons]; rw [ih, answerFrame_post _ _ _ _ _ h]

theorem respond_post (src : Nat) (q : Bool) (r : RspRec) (s : State) (h : src ≤ 16) : (respond src q r s).post = s.post := by
  unfold respond
  split
  · dsimp only
    split
    · show (sendAnswer _ _ s).post = _; exact sendAnswer_post _ _ _ h
    · rfl
  · split <;> rfl

theorem dropMarked_post (src n : Nat) (s : State) (h : src ≤ 16) : (dropMarked src n s).post = s.post := by
  induction n generalizing s with
  | zero => rfl
  | succ n ih =>
    simp only [dropMarked]
    split
    · split
      · rfl
      · rw [ih, respond_post _ _ _ _ h]; rfl
    · rfl

/-- A command of the host or of a remote frame ends without a store of its own. -/
theorem finish_post (src : Nat) (q : Bool) (r : RspRec) (s : State) (h : src ≤ 16) : (finish src q r s).post = s.post := by
  unfold finish; dsimp only
  rw [dropMarked_post _ _ _ h, respond_post _ _ _ _ h]; rfl

theorem finishOne_post (src op tag : Nat) (q : Bool) (st d : Nat) (s : State) (h : src ≤ 16) :
    (finishOne src op tag q st d s).post = s.post := finish_post _ _ _ _ h

end Sys2Proof.Laws
end

