-- ==== Sys2Proof/Laws/Dru.lean ====
section
/-! SUPPORT. Druora cores: which registers a write reaches, and what going on to the next instruction leaves alone. -/

namespace Sys2Proof.Laws

open Sys2Proof Sys2Proof.Machine

theorem coreOf_modCore (n : Nat) (f : CoreSt → CoreSt) (s : State) (k : Nat) :
    coreOf (modCore n f s) k = if k = n then f (coreOf s n) else coreOf s k := tabGet_tabMod ..

/-- What an instruction leaves alone in a core besides its pc, its counters and its loop registers: the numbered
registers below SR but for one, the accumulators, the write buffer and its state. -/
structure CoreKept (d : Nat) (c c' : CoreSt) : Prop where
  regs : ∀ r, r < 36 → r ≠ d → tabGet 0 c'.regs r = tabGet 0 c.regs r
  accs : c'.accs = c.accs
  wbuf : c'.wbuf = c.wbuf
  state : c'.state = c.state

theorem CoreKept.refl (d : Nat) (c : CoreSt) : CoreKept d c c := ⟨fun _ _ _ => rfl, rfl, rfl, rfl⟩

theorem CoreKept.trans {d : Nat} {a b c : CoreSt} (h : CoreKept d a b) (h' : CoreKept d b c) : CoreKept d a c :=
  ⟨fun r h1 h2 => (h'.regs r h1 h2).trans (h.regs r h1 h2), h'.accs.trans h.accs, h'.wbuf.trans h.wbuf, h'.state.trans h.state⟩

theorem CoreKept.base {d : Nat} {c c₀ x : CoreSt} (h : CoreKept d c₀ x) (hr : c₀.regs = c.regs) (ha : c₀.accs = c.accs)
    (hb : c₀.wbuf = c.wbuf) (hs : c₀.state = c.state) : CoreKept d c x :=
  ⟨fun r h1 h2 => (h.regs r h1 h2).trans (by rw [hr]), h.accs.trans ha, h.wbuf.trans hb, h.state.trans hs⟩

/-- A write of a register below the accumulators' parts reaches that register alone. -/
theorem writeReg_kept (d e : Nat) (v : Word) (c : CoreSt) (h : e < 45) (hd : e = d ∨ 36 ≤ e) : CoreKept d c (writeReg e v c) := by
  unfold writeReg
  rw [if_neg (by omega), if_neg (by omega)]
  refine ⟨fun r h1 h2 => ?_, rfl, rfl, rfl⟩
  show tabGet 0 (tabSet e _ c.regs) r = _
  rw [tabGet_tabSet, if_neg (by omega)]

theorem setFlags_kept (d : Nat) (f : FlagSet) (c : CoreSt) : CoreKept d c (setFlags f c) := by
  unfold setFlags; exact writeReg_kept d 36 _ c (by omega) (.inr (by omega))

theorem loopReg_bounds (l : LoopSt) : 36 ≤ loopReg l ∧ loopReg l < 45 := by unfold loopReg; split <;> omega

theorem loopNext_kept (d pc : Nat) (ls : List LoopSt) (c : CoreSt) : CoreKept d c (loopNext pc ls c) := by
  induction ls generalizing c with
  | nil => exact ⟨fun _ _ _ => rfl, rfl, rfl, rfl⟩
  | cons l ls ih =>
    have hk := writeReg_kept d (loopReg l) (wordOf ((tabGet 0 c.regs (loopReg l)).toNat - 1)) c (loopReg_bounds l).2
      (.inr (loopReg_bounds l).1)
    simp only [loopNext]
    split
    · exact ⟨fun _ _ _ => rfl, rfl, rfl, rfl⟩
    · split
      · exact hk.trans (ih _)
      · exact hk.trans ⟨fun _ _ _ => rfl, rfl, rfl, rfl⟩

theorem coreNext_kept (d : Nat) (c : CoreSt) : CoreKept d c (coreNext c) := by
  unfold coreNext
  split
  · exact ⟨fun _ _ _ => rfl, rfl, rfl, rfl⟩
  · dsimp only
    split
    · exact ⟨fun _ _ _ => rfl, rfl, rfl, rfl⟩
    · split
      · refine CoreKept.trans (CoreKept.base (writeReg_kept d 36 _ _ (by omega) (.inr (by omega))) ?_ ?_ ?_ ?_)
          ⟨fun _ _ _ => rfl, rfl, rfl, rfl⟩ <;> rfl
      · exact ⟨fun _ _ _ => rfl, rfl, rfl, rfl⟩
    · refine CoreKept.base (loopNext_kept ..) ?_ ?_ ?_ ?_ <;> rfl

theorem timerTick_words (n : Nat) (s : State) : (timerTick n s).words = s.words ∧ (timerTick n s).post = s.post := by
  unfold timerTick; dsimp only; split <;> exact ⟨rfl, rfl⟩

theorem coreOf_timerTick (d n : Nat) (s : State) (k : Nat) :
    (k ≠ n → coreOf (timerTick n s) k = coreOf s k) ∧ CoreKept d (coreOf s n) (coreOf (timerTick n s) n) := by
  unfold timerTick; dsimp only
  split
  · exact ⟨fun _ => rfl, CoreKept.refl ..⟩
  · refine ⟨fun h => by rw [coreOf_modCore, if_neg h], ?_⟩
    rw [coreOf_modCore, if_pos rfl]
    exact (writeReg_kept d 44 _ _ (by omega) (.inr (by omega))).trans ⟨fun _ _ _ => rfl, rfl, rfl, rfl⟩

/-- Going on to the next instruction stores nothing, changes no word and no other core. -/
theorem coreDone_words (n : Nat) (s : State) : (coreDone n s).words = s.words ∧ (coreDone n s).post = s.post :=
  timerTick_words n s

theorem coreDone_kept (d n : Nat) (s : State) (k : Nat) :
    (k ≠ n → coreOf (coreDone n s) k = coreOf s k) ∧ CoreKept d (coreOf s n) (coreOf (coreDone n s) n) := by
  unfold coreDone
  refine ⟨fun h => by rw [coreOf_modCore, if_neg h]; exact (coreOf_timerTick d n s k).1 h, ?_⟩
  rw [coreOf_modCore, if_pos rfl]
  exact (coreOf_timerTick d n s n).2.trans ((coreNext_kept d _).trans ⟨fun _ _ _ => rfl, rfl, rfl, rfl⟩)

end Sys2Proof.Laws
end

