-- ==== Sys2Proof/Laws/Rows.lean ====
section
/-! SUPPORT. The shapes that the rows share: what each answers where its condition holds, and that nothing changes where
it fails. -/

namespace Sys2Proof.Laws

open Sys2Proof Sys2Proof.Machine

@[simp] theorem when_true (f : State → State) (s : State) : when true f s = f s := rfl
@[simp] theorem when_false (f : State → State) (s : State) : when false f s = s := rfl

/-- A row of a unit that is up acts. -/
theorem whenUp_up {u : Nat} {s : State} (h : up s u) (f : State → State) : whenUp u f s = f s := by
  simp [whenUp, when, h.1, h.2]

/-- A row of a unit that is not up does nothing. -/
theorem whenUp_down {u : Nat} {s : State} (h : ¬ up s u) (f : State → State) : whenUp u f s = s := by
  unfold up at h
  unfold whenUp when
  rw [if_neg]
  simpa using h

/-- A row that needs its supplies acts where the part is powered. -/
theorem whenOn_on {s : State} (h : powered s = true) (f : State → State) : whenOn f s = f s := by
  simp [whenOn, when, h]

/-- A row of a link that exists acts. -/
theorem onLink_up {n : Nat} {s : State} (h : up s uLNK) (hn : n < linkCount s) (f : State → State) : onLink n f s = f s := by
  simp [onLink, whenUp_up h, when, hn]

/-- A row of a serial port that exists acts. -/
theorem onPort_up {aes : Bool} {p : Nat} {s : State} (h : up s (serUnit aes)) (hn : p < serCount aes s) (f : State → State) :
    onPort aes p f s = f s := by
  simp [onPort, whenUp_up h, when, hn]

/-- The row of a tag acts on the first due tag of its unit. -/
theorem tagRow_due {u : Nat} {q : PendTag → Bool} {s : State} {p : PendTag} (hr : running s = true)
    (hd : dueFirst s u = some p) (hq : q p = true) : tagRow u q s = tagAct u p (openBlock u s) := by
  unfold dueFirst at hd
  simp [tagRow, hr, hd, hq]

theorem openRow_due {u : Nat} {q : PendTag → Bool} {s : State} {p : PendTag} (hr : running s = true)
    (hd : dueFirst s u = some p) (hq : q p = true) : openRow u q s = tagAct u p (openBlock u s) := by
  unfold dueFirst at hd
  simp [openRow, hr, hd, hq]

/-- An instruction that stands at a running core's PC, within the contract, is executed. -/
theorem druStep_ready {n : Nat} {m : DruMn} {f : Word → State → Except Fault State} {s : State} (h : druReady s n m) :
    druStep n m f s = f (fetchWord s n) s := by
  obtain ⟨h1, h2, h3⟩ := h
  simp [druStep, h1, h2, h3]

theorem druPlain_ready {n : Nat} {m : DruMn} {f : Word → State → State} {s : State} (h : druReady s n m) :
    druPlain n m f s = .ok (coreDone n (f (fetchWord s n) s)) := by
  unfold druPlain; rw [druStep_ready h]

/-- A row whose instruction does not stand at the core's PC does nothing. -/
theorem druStep_other {n : Nat} {m : DruMn} {f : Word → State → Except Fault State} {s : State}
    (h : coreRuns s n = false ∨ druDecode (fetchWord s n) ≠ some m) : druStep n m f s = .ok s := by
  unfold druStep; dsimp only; rw [if_pos]
  rcases h with h | h
  · simp [h]
  · simp [h]

/-- A change of a core that agrees on the core's present state is that change. -/
theorem modCore_congr {n : Nat} {f g : CoreSt → CoreSt} {s : State} (h : f (coreOf s n) = g (coreOf s n)) :
    modCore n f s = modCore n g s := by
  have : tabMod coreZero n f s.dru.cores = tabMod coreZero n g s.dru.cores := by
    show tabSet n (f (coreOf s n)) s.dru.cores = tabSet n (g (coreOf s n)) s.dru.cores
    rw [h]
  unfold modCore; rw [this]

end Sys2Proof.Laws
end

