-- ==== Sys2Proof/Tests/Slice0.lean ====
section
/-! SUPPORT. The model's own tests. A `witness_` theorem shows, for each clause of the obligation it names, a state and
operands that meet the clause's hypotheses together; a `test_` theorem checks one step, or what a term is, against the
spec's own words. -/

namespace Sys2Proof.Tests

set_option Elab.async false

open Sys2Proof Sys2Proof.Machine

/-- The device running with every feature accepted. -/
def live : State :=
  { State.reset with
    start := { State.reset.start with supplies := true, stage := 6, refs := 3 }
    words := { State.reset.words with wr := [(0x10010118, 0xFFFFFFFF)], act := [(0x10010118, 0xFFFFFFFF)] } }

/-- A state with words set. -/
def withWords (l : List (Nat × Word)) (s : State) : State := l.foldl (fun t p => setW p.1 p.2 t) s

/-- An optional value that is there, by a default. -/
theorem some_getD {α : Type} (o : Option α) (d : α) (h : o.isSome = true) : o = some (o.getD d) := by
  cases o <;> simp_all

/-- The result of an outcome, or a default. -/
def okOr {ε α : Type} (d : α) : Except ε α → α
  | .ok a => a
  | .error _ => d

theorem ok_okOr {ε α : Type} (d : α) (x : Except ε α) (h : x.isOk = true) : x = .ok (okOr d x) := by
  cases x <;> simp_all [okOr, Except.isOk, Except.toBool]

theorem no_error {ε α : Type} (x : Except ε α) (h : x.isOk = true) : ∀ f : ε, x ≠ .error f := by
  cases x <;> simp_all [Except.isOk, Except.toBool]

theorem only0 {P : Nat → Prop} (h : P 0) : ∀ n : Nat, n ∈ [0] → P n := fun n hn => by rw [List.mem_singleton.mp hn]; exact h

theorem none_matches {α : Type} (f : Nat → Option α) (g : Nat → α → Bool)
    (h : (match f 0 with | some r => g 0 r | none => false) = false) :
    ∀ (n : Nat) (r : α), n ∈ [0] → f n = some r → g n r = false := by
  intro n r hn hr
  rw [List.mem_singleton.mp hn] at hr ⊢
  rwa [hr] at h

theorem noSome {α : Type} {o : Option α} {P : α → Prop} (h : o.isNone = true) : ∀ k : α, o = some k → P k := by
  intro k hk; rw [hk] at h; cases h

theorem pairFst {α : Type} (p : Bool × α) (h : p.1 = true) : p = (true, p.2) := by
  cases p; simp_all

theorem up_of {s : State} {u : Nat} (h : (running s && unitPresent s u) = true) : up s u := by
  simpa [up] using h

theorem plain_of {s : State} {a : Nat}
    (h : (readStatus s a == 0 && decide (fabPlace s a = .mem) && !watched s a 4 && (ueIn s a 4).isEmpty) = true) :
    plainMemory s a := by
  simpa [plainMemory, and_assoc] using h

theorem plains_of (s : State) (a n : Nat)
    (h : (List.range n).all (fun k => readStatus s (a + 4 * k) == 0 && decide (fabPlace s (a + 4 * k) = .mem) &&
      !watched s (a + 4 * k) 4 && (ueIn s (a + 4 * k) 4).isEmpty) = true) :
    ∀ k : Nat, k < n → plainMemory s (a + 4 * k) :=
  fun k hk => plain_of (List.all_eq_true.mp h k (List.mem_range.mpr hk))

theorem ready_of {s : State} {n : Nat} {m : DruMn}
    (h : (coreRuns s n && decide (druDecode (fetchWord s n) = some m) && !outsideContract (coreOf s n) m) = true) :
    druReady s n m := by
  simpa [druReady, and_assoc] using h

theorem sound_of {s : State} (h : (Memory.wf s.mem && s.post.isEmpty) = true) : Sound s := by
  simpa [Sound] using h

/-- A tag. -/
def tag (t u p : Nat) : TagRec := ⟨t, false, false, 0, u, 0, BitVec.ofNat 32 p, 0, false⟩

/-- A tag that waits at a unit. -/
def pend (u : Nat) (g : TagRec) (s : State) : State := modUnit u (fun x => { x with pend := [⟨g, 0, []⟩] }) s

/-- A unit at a block. -/
def atBlock (u b : Nat) (s : State) : State := modUnit u (fun x => { x with next := b }) s

/-- The device at a sample. -/
def atIdx (i : Nat) (s : State) : State := { s with time := { s.time with idx := i } }

/-- A queue with a configuration word and a frame behind the queue's own 32 bytes, which name the port. -/
def inQueue (q port : Nat) (cfg : Word) (bs : List Byte) (s : State) : State :=
  modQueue q (fun x => { x with frames := [⟨[0, 0, BitVec.ofNat 8 port] ++ List.replicate 29 0 ++ bs, 1, none, []⟩] })
    (setW (Reg.QUEUE0.at q) cfg s)

/-- An Ethernet frame with an IPv4 UDP datagram. -/
def udpFrame (dport : Nat) (payload : List Byte) : List Byte :=
  List.replicate 12 0 ++ [8, 0, 0x45] ++ List.replicate 8 0 ++ [17] ++ List.replicate 12 0 ++ bytesOf 1 (dport / 256) ++
    bytesOf 1 dport ++ [0, BitVec.ofNat 8 (8 + payload.length), 0, 0] ++ payload

/-- A link frame of a type, 32-byte units and ID, without its check, with a payload. -/
def lframe (typ units id : Nat) (payload : List Byte) : List Byte :=
  let x := [BitVec.ofNat 8 typ, 1] ++ bytesOf 2 units ++ bytesOf 2 payload.length ++ bytesOf 2 id ++ List.replicate 24 0 ++ payload
  x ++ List.replicate (32 * units - 4 - x.length) 0

/-- A link frame with its check. -/
def checked (x : List Byte) : List Byte := x ++ bytesOf 4 (crc32c x)

/-- An Ethernet port's link is up, and the port takes broadcast frames; queue 3 takes them. -/
def netUp (cfg : Word) : State :=
  modPort 7 (fun x => { x with link := true, rate := 1 })
    (withWords [(Reg.NET_MODE.at 7, 3), (Reg.NET_FILTER.at 7, 0x10000), (Reg.STEER0.at 255, 0xC0800000),
      (Reg.STEER1.at 255, 0x10000), (Reg.STEER3.at 255, 3), (Reg.QUEUE0.at 3, cfg), (Reg.QUEUE1.at 3, 0x8000)] live)

/-- A link in a state, with its configuration. -/
def linkIn (n : Nat) (cfg : Word) (f : LinkSt → LinkSt) : State := modLink n f (withWords [(Reg.LNK_CFG.at n, cfg)] live)

/-- Queue 3 has a frame for link 7, in class 1. -/
def linkSends : State :=
  modQueue 3 (fun x => { x with frames := [⟨[1], 1, none, []⟩] })
    (modLink 7 (fun x => { x with up := true }) (withWords [(Reg.LNK_CFG.at 7, 1), (Reg.QUEUE0.at 3, 0xD0F00000)] live))

/-- Link 7 is up with a TIME frame received; candidate 0 follows its clock. -/
def linkTime (src : Byte) (x : CandSt) : State :=
  let s := linkIn 7 9 (fun z => { z with up := true, inbox := [(7, lframe 7 3 0 (List.replicate 48 0 ++ [src] ++ List.replicate 15 0), 5)] })
  { withWords [(Reg.CLK_CAND0.at 0, 0x80010007)] s with
    tim := { s.tim with linkGm := [(7, 0)] }
    clk := { s.clk with cands := [(0, x)] } }

/-- The partner is there, over link 0. -/
def pairUp (f : ParSt → ParSt) : State :=
  modPar f (modLink 0 (fun x => { x with up := true, txWidth := 4 }) (withWords [(Reg.PAR_CFG.base, 0x8078)] live))

theorem lframe_length (typ u id : Nat) : (lframe typ u id []).length = 32 + (32 * u - 36) := by
  have h (n k : Nat) : (bytesOf n k).length = n := by simp [bytesOf]
  simp only [lframe, List.length_append, List.length_replicate, List.length_cons, List.length_nil, h]
  omega

theorem linkCheck_long (s : State) (n : Nat) (bs : List Byte)
    (h : (decide (lfVf bs % 16 = 1) && decide (lfType bs = 5) && decide (lfPaylen bs + 36 ≤ 32 * lfUnits bs)) = true)
    (hl : 8224 < bs.length) : linkCheck s n bs false = 5 := by
  simp only [Bool.and_eq_true, decide_eq_true_eq] at h
  obtain ⟨⟨h1, h2⟩, h3⟩ := h
  have a : ¬ bs.length < 64 := by omega
  have b : ¬ (32 * lfUnits bs < lfPaylen bs + 36) := by omega
  simp [linkCheck, h1, h2, a, b, hl, linkTakes]

/-- A table of one snapshot and one cue at 0x1000: the snapshot copies one word at 0x4000 to 0x3000. -/
def snapTable : List Host.Cell :=
  [⟨0x1000, 0x1⟩, ⟨0x1002, 0x1⟩, ⟨0x1004, 0x1⟩, ⟨0x1011, 0x30⟩, ⟨0x1015, 0x1⟩, ⟨0x1018, 0x20⟩, ⟨0x1020, 0xFF⟩, ⟨0x1021, 0xFF⟩, ⟨0x2001, 0x40⟩, ⟨0x2005, 0x1⟩]

/-- The device with a time step due: its source is a candidate half a second off. -/
def stepping : State :=
  { withWords [(Reg.CLK_CAND0.at 0, 3)] live with
    tim := { live.tim with stepDue := true }
    clk := { live.clk with cands := [(0, { cand live 0 with state := 3, phase := 500000000 * 65536 })] } }

/-- A job descriptor of a kind, from a source. -/
def job (kind src : Nat) : Desc := ⟨0, false, 0, kind, src, 0, 0xFF, false, 0, none⟩

/-- A solver result for a tick. -/
def res (obj tick : Nat) : SolveRes := ⟨obj, tick, [], 0, 0, false, true, false, 0, [], 0⟩

/-- A filter swap in a phase. -/
def swap (phase : BatchPhase) (rest : List (List Nat)) : SwapRec := ⟨0, 0, 16, 0, 0, 0, [0], rest, phase, 0, [], [], true⟩

/-- The device with jobs waiting. -/
def jobs (l : List Job) : State := { live with dsx := { live.dsx with jobs := l } }

/-- Lane 0 in a state. -/
def lane0 (x : LaneSt) : State := modLane 0 (fun _ => x) live

/-- Object 0 enabled, and silent for longer than its loss time. -/
def lost0 : State :=
  { modObj 0 (fun x => { x with en := true }) (withWords [(Reg.OBJ7.at 0, 1), (Reg.OBJ4.at 0, 0x40000000)] live) with
    mot := { (modObj 0 (fun x => { x with en := true }) live).mot with nextTick := 1 } }

/-- A command record as a source delivers it. -/
def cmd (op tag addr count data : Nat) : CmdRec := ⟨op, 0, tag, addr, count, data, []⟩

/-- The device with a record waiting from a source. -/
def takes (src : Nat) (r : CmdRec) : State :=
  { live with sys := { live.sys with sources := [(src, ⟨[r], [], []⟩)] } }

/-- A source's datagram has an answer to come. -/
def withReply (src : Nat) (s : State) : State :=
  { s with sys := { s.sys with sources := tabSet src { sourceOf s src with reply := [⟨1, [], 5, 6, 0⟩] } s.sys.sources } }

/-- Both latches of the host pins hold halves of the highest word. -/
def hostHalf (s : State) : State :=
  { s with sys := { s.sys with wrLatch := some (0xFFFE, 5, 3), rdLatch := some (0xFFFF, 8) } }

/-- A full event ring. -/
def fullRing : State :=
  { withWords [(Reg.SYS_EVT_EN.at 0, 0xFFFFFFFF)] live with mem := [⟨0x18111, 8⟩] }



/-- A run of state `x`, with a sweep's configuration. -/
def runIn (x : Nat) (m : MeaSt → MeaSt) : State :=
  { live with mea := m { live.mea with runs := [(0, { runZero with state := x, taken := 512, gen := [1] })] } }

/-- Live measurement on, pair 0 enabled. -/
def liveOn0 (m : MeaSt → MeaSt) : State :=
  let s := withWords [(Reg.MEA_LIVE_CTRL.base, 0x80000000), (Reg.PAIR0.at 0, 0x80000000)] live
  { s with mea := m s.mea }

/-- The device at a monotonic instant in ns. -/
def atNs (n : Nat) (s : State) : State := { s with time := { s.time with mono := n * 196608 } }

/-- Candidate 0 of a type and state. -/
def cand0 (typ : Nat) (x : CandSt) : State :=
  { withWords [(Reg.CLK_CAND0.at 0, 0x80000000 + BitVec.ofNat 32 (65536 * typ))] live with clk := { live.clk with cands := [(0, x)] } }

/-- The DPLL has held over for as long as it may, at a frequency; candidate 0 runs free. -/
def holdOver (f : Int) : State :=
  let s := cand0 5 { candZero with state := 3 }
  atNs 1000000000 (withWords [(Reg.CLK_CTRL.base, 0x10000)] { s with clk := { s.clk with state := 3, freq := f } })

/-- The PTP instance enabled. -/
def ptp (ctrl : Word) (f : TimSt → TimSt) : State := modTim f (withWords [(Reg.TIM_CTRL.base, ctrl)] live)



/-- Lane 0 gated, with an object that is enabled and not silent. -/
def gated0 : State :=
  { lane0 { laneNone with gated := true } with
    lan := { (lane0 { laneNone with gated := true }).lan with objs := [(0, { laneObjZero with lane := some 0, w4 := 0x40000000 })] } }

/-- Lane 0 active, lane 1 a spare, sit-outs on. -/
def sitting (l : List SitOut) : State :=
  let s := atIdx 1920000000 (withWords [(Reg.LAN_ROTATE.base, 3)] live)
  { s with lan := { s.lan with lanes := [(0, { laneNone with state := .active }), (1, { laneNone with state := .spare })], sits := l } }



/-- Queue 3 has a frame to send on port 7, its class at a credit. -/
def sends (cfg : Word) (credit : Int) : State :=
  modPort 7 (fun x => { x with creditA := credit }) (inQueue 3 7 cfg [1, 2] (withWords [(Reg.NET_IDLE_A.at 7, 1000)] (netUp cfg)))



/-- An RTP packet of one 16-bit channel, `n` bytes of samples. -/
def rtpPacket (n : Nat) : List Byte := [0x80] ++ List.replicate (11 + n) 0

/-- An AVTP frame of one 16-bit channel of 6 samples. -/
def aafFrame : List Byte :=
  List.replicate 12 0 ++ [0x22, 0xF0] ++ [2, 0x81] ++ List.replicate 14 0 ++ [4, 0x50, 1, 16, 0, 12] ++ List.replicate 98 0

/-- Queue 3 serves receive stream 0 and has a frame. -/
def streaming (cfg : Word) (bs : List Byte) : State :=
  let s := inQueue 3 7 0x80700001 bs (withWords [(Reg.MRX0.at 0, cfg), (Reg.MRX1.at 0, 3)] live)
  { s with mst := { s.mst with rx := [(0, rxZero)] } }

/-- An ARP request for 1.2.3.4. -/
def arpFrame : List Byte :=
  List.replicate 12 0 ++ [8, 6] ++ [0, 1, 8, 0, 6, 4, 0, 1] ++ List.replicate 16 0 ++ [1, 2, 3, 4] ++ List.replicate 18 0

/-- An IGMP query. -/
def igmpFrame : List Byte :=
  List.replicate 12 0 ++ [8, 0, 0x45] ++ List.replicate 8 0 ++ [2] ++ List.replicate 10 0 ++ [0x11] ++ List.replicate 31 0

/-- A serial port in a state. -/
def serial (aes : Bool) (cfg : Word) (x : SerPort) : State :=
  serMod aes 3 (fun _ => x) (withWords [(if aes then Reg.AES_CFG.at 3 else Reg.TDM_CFG.at 3, cfg)] live)



/-- Bytes of memory replaced. -/
def put (a : Nat) (bs : List Byte) (s : State) : State :=
  { s with mem := (bs.zipIdx).foldl (fun m p => memWrite m (a + p.2) p.1) s.mem }

/-- Core 15 in a state, on physical core 15, with an instruction at its PC. -/
def core (i : Word) (c : CoreSt) : State :=
  put (coreWindow 15 + 0x40000 + 4 * c.pc) (bytesOf 4 i.toNat)
    { live with dru := { live.dru with phys := [(15, 15)], cores := [(15, c)] } }

/-- A state after a step, or the running device. -/
def afterNext : Host.Outcome State Fault Refusal → State
  | .next t => t
  | _ => live

def isNext : Host.Outcome State Fault Refusal → Bool
  | .next _ => true
  | _ => false

theorem next_afterNext (x : Host.Outcome State Fault Refusal) (h : isNext x = true) : x = .next (afterNext x) := by
  cases x <;> simp_all [isNext, afterNext]

/-- An image of one section, the manifest, after 32 bytes of head. -/
def loadable : List Byte :=
  List.replicate 16 0 ++ bytesOf 4 64 ++ [3] ++ List.replicate 11 0 ++ [1] ++ List.replicate 7 0 ++ [16, 0, 0, 0] ++
    bytesOf 4 (crc32c (List.replicate 16 0)) ++ List.replicate 16 0

/-- Core 15 loads entry 0 of a program table at 0x2000. -/
def loadableCore : State :=
  put 0x1000000000 (List.replicate 8 0) (put 0x2000 ([1, 0, 1, 0] ++ List.replicate 12 0 ++ [0, 0, 0, 0, 0x10, 1, 0, 4] ++ List.replicate 24 0)
    (withWords [(Reg.DRU_PROG_BASE_LO.base, 0x2000), (Reg.CORE6.at 15, 1)] (core 0 { coreZero with state := 4 })))

/-- Core 15, a stream core, leaves for the spare. -/
def leavingCore : State :=
  { core 0 { coreZero with state := 1 } with dru := { (core 0 { coreZero with state := 1 }).dru with spare := some 16, leaving := some 15 } }



/-- DRAM trained. -/
def dramOn : State := { withWords [(Reg.DRC_CFG.base, 0x640001)] live with drc := { live.drc with trained := true } }

/-- A DMA channel of engine A, and the one that runs. -/
def dmaIn (run : Option Nat) (c : Nat) (x : DmaChan) : State :=
  { live with dma := { live.dma with a := { live.dma.a with chans := [(c, x)], run := run } } }

/-- A descriptor that moves one word. -/
def oneWord : List Byte := [0, 0x20, 0, 0, 0, 0, 0, 0, 0, 0x30, 0, 0, 0, 0, 0, 0, 4] ++ List.replicate 15 0

/-- The state after the free cells' least count followed the cells that frame `bs` on port `p` takes. -/
def lowAfter (w : State) (p : Nat) (bs : List Byte) : State :=
  match frameCheck w p bs false with
  | .inl _ => w
  | .inr (_, _, n) => poolLow (freeCells w - cellsGranted w n (min (bs.length + 4) (maxFrame w p + 1))) w

theorem offTrue {b : Bool} {P : Prop} (hb : b = true) : b = false → P := by
  intro h
  rw [hb] at h
  cases h

theorem pairSome {α β : Type} (x : Option α × β) (d : α) (h : x.1.isSome = true) :
    x = (some (x.1.getD d), x.2) := by
  obtain ⟨a, b⟩ := x
  cases a with
  | none => cases h
  | some a => rfl

theorem tripleFst {α β : Type} (p : Bool × α × β) (h : p.1 = true) : p = (true, p.2.1, p.2.2) := by
  cases p
  simp_all

theorem pairNone {α β : Type} (x : Option α × β) (h : x.1.isNone = true) : x = (none, x.2) := by
  obtain ⟨a, b⟩ := x
  cases a with
  | none => rfl
  | some a => cases h

theorem modFour : ∀ j : Nat, 3 ≤ 2 ^ j → 4 ≤ 2 ^ j := by
  intro j h
  rcases j with _ | _ | j
  · simp at h
  · simp at h
  · rw [Nat.pow_succ, Nat.pow_succ]
    have := Nat.one_le_two_pow (n := j)
    omega

/-! States of the witnesses, each named after the obligation and the clause it serves first. -/

def stepTakesFrontCommand_0 : State := { live with pending := [.commandTake, .timeRead] }

def eventsAreRecorded_1 : State := withWords [(Reg.SYS_EVT_EN.at 0, 0xFFFFFFFF)] live

def burstsMoveWords_1 : State := takes 1 { cmd 5 7 0 2 0 with words := [3, 4] }

def commandsRefusedAndFaults_5 : State :=
  { takes 0 (cmd 2 7 0x1018 0 9) with dma := (dmaIn (some 15) 15 { dmaChanZero with state := 2, first := 0x1000 }).dma }

def tagCommandsInsert_0 : State := takes 0 { cmd 6 7 0 0 0x1D000000 with addr := 2 ^ 40 - 1 }

def featureRequestAndRestart_0 : State := { takes 0 (cmd 10 7 0 1 6) with start := { live.start with stage := 3 } }

def hostPinsAccess_1 : State := { live with start := { live.start with stage := 2 } }

def ringsAndRemoteFrames_3 : State :=
  { live with sys := { live.sys with sources := [(0, ⟨[], [⟨1, 0, 7, 0, 0, []⟩], []⟩)] } }

def ringsAndRemoteFrames_4 : State := withWords [(Reg.SYS_CTRL.base, 0x12340001)] (inQueue 511 7 0x80700005 (udpFrame
  0x1234 [1]) live)

def ringsAndRemoteFrames_5 : State := inQueue 5 9 0x80900005 (lframe 6 3 0 ([1] ++ List.replicate 31 0)) (withWords
  [(Reg.LNK_RXQ1.at 1, 0x50000)] live)

def ringsAndRemoteFrames_6 : State := withWords [(Reg.SYS_CTRL.base, 2)]
  { live with sys := { live.sys with fwd := [[1]] } }

def registersStoreAndLatch_4 : State := { live with tim := { live.tim with caps := [(15, ⟨[[1, 2]], none⟩)] } }

def tagsEnterTheStream_0 : State := withWords [(Reg.SYS_TAG_W0.base, 0x00FF0008)] live

def tagsEnterTheStream_1 : State := { live with heldTags := [⟨uLAN, tag 1 0 0, none⟩] }

def tagsEnterTheStream_5 : State := modUnit uMEA (fun z => { z with transit := [tag tSTART uMEA 1] }) live

def tagsEnterTheStream_6 : State := modUnit uSYS (fun z => { z with transit := [tag tCUE uSYS 1] }) live

def tagsEnterTheStream_7 : State := modUnit uMST (fun z => { z with transit := [tag tEPOCH uMST 2] }) live

def cueAndSnapTagsAct_0 : State := pend uSYS (tag tCUE uSYS 5) (withWords [(Reg.SYS_SNAP_BASE_LO.base, 0x1000)]
  { live with mem := snapTable })

def cueAndSnapTagsAct_1 : State := pend uSYS (tag tCUE uSYS 0) (withWords [(Reg.SYS_SNAP_BASE_LO.base, 0x1000)]
  { live with mem := snapTable })

def cueAndSnapTagsAct_2 : State := pend uSYS (tag tSNAP uSYS 0) (withWords [(Reg.SYS_SNAP_BASE_LO.base, 0x1000)]
  { live with mem := snapTable })

def cueAndSnapTagsAct_3 : State := pend uSYS (tag tSNAP uSYS 0x10000) (withWords [(Reg.SYS_SNAP_BASE_LO.base, 0x1000)]
  { live with mem := snapTable })

def blocksAndTicksAdvance_0 : State := atBlock uMST 1 (atBlock uLNK 1 (atBlock uTDM 1 (atBlock uAES 1 live)))

def blocksAndTicksAdvance_1 : State := { live with rte := { live.rte with outNext := 1 } }

def releaseDeadlineTimeStep_0 : State := { atBlock uLAN 1 live with par := { live.par with renderFrom := some 0 } }

def releaseDeadlineTimeStep_3 : State := { live with tim := { live.tim with stepDue := true } }

def releaseDeadlineTimeStep_5 : State := { live with time := { live.time with steps := [(0, 5)], stepWaits := true } }

def releaseDeadlineTimeStep_6 : State := { live with time := { live.time with steps := [(1, 5)], stepWaits := true } }

def releaseDeadlineTimeStep_8 : State := { live with time := { live.time with steps := [(0, 5)] } }

def inputsLockAndRest_0 : State := modChan 0 (fun y => { y with hasAsrc := true }) live

def inputsLockAndRest_1 : State := modChan 0 (fun y => { y with hasAsrc := true, lock := .outOfRange }) live

def inputsLockAndRest_4 : State := modChan 0 (fun y => { y with hasAsrc := true, lock := .unsettled 0 }) live

def inputsLockAndRest_5 : State := withWords [(Reg.INCH3.at 0, 1)] (modChan 0 (fun y => { y with quiet := 96 }) live)

def inputsLockAndRest_6 : State := withWords [(Reg.COUT5.at 0, 1)] (modOut 0 (fun y => { y with quiet := 96 }) live)

def motionIsIngested_0 : State := inQueue 511 7 0x80700003 (udpFrame 9000 [1]) live

def motionIsIngested_2 : State := inQueue 0 0 0x80000004 (udpFrame 9000 [1]) live

def motionIsIngested_3 : State := inQueue 5 9 0x80900004 (lframe 2 2 0 [1]) (withWords [(Reg.LNK_RXQ0.at 1, 0x50000)]
  live)

def motionAndDescriptors_3 : State := { live with dsx := { live.dsx with held := [(3, [job 1 3])] } }

def motionAndDescriptors_4 : State :=
  { live with mot := { live.mot with objs := [(0, { objZero with slot := some (job 0 0) })] } }

def motionAndDescriptors_5 : State := { live with dsx := { live.dsx with held := [(1, [job 1 1])] } }

def jobsResultsAndCutoff_1 : State :=
  { jobs [⟨0, job 1 1, .waiting, none⟩] with dru := { live.dru with phys := [(0, 0)], cores := [(0, { coreZero with state := 1 })] } }

def jobsResultsAndCutoff_3 : State := { live with slv := { live.slv with results := [res 7 4], cutoff := some 4 } }

def jobsResultsAndCutoff_4 : State :=
  { live with slv := { live.slv with results := [res 7 3], cutoff := some 4, shadow := [(7, res 7 4)] } }

def jobsResultsAndCutoff_5 : State := { atBlock uSLV 5 live with par := { live.par with renderFrom := some 0 } }

def jobsResultsAndCutoff_7 : State := { live with hlt := { live.hlt with waiting := [⟨1, 1, 0⟩] } }

def lanesWakeSitOutRetire_2 : State :=
  { lane0 { laneNone with state := .active } with hlt := { live.hlt with waiting := [⟨0, 1, 0⟩] } }

def lanesWakeSitOutRetire_4 : State := { live with hlt := { live.hlt with waiting := [⟨2, 1, 0⟩] } }

def lanesWakeSitOutRetire_7 : State := atIdx 192000 (sitting [⟨2, 1, [], 0, false, true, 0⟩])

def filtersSwapAndEnd_0 : State := { live with cor := { live.cor with swaps := [swap .waiting []] } }

def filtersSwapAndEnd_1 : State := atBlock uCOR 102
  { live with cor := { live.cor with swaps := [swap .prepared []] } }

def filtersSwapAndEnd_2 : State := atBlock uCOR 102
  { live with cor := { live.cor with swaps := [swap .fading [[1]]] } }

def filtersSwapAndEnd_3 : State := atBlock uCOR 102 { live with cor := { live.cor with swaps := [swap .fading []] } }

def measurementRuns_1 : State := { runIn 3 (fun m => { m with queue := [0] }) with ue := [1528] }

def clockCandidatesAndSelection_2 : State := cand0 2 { candZero with state := 2, rate := 48000 }

def clockCandidatesAndSelection_3 : State := cand0 2 { candZero with state := 3, rate := 48000 }

def clockCandidatesAndSelection_5 : State := atNs 100000000 (cand0 2 { candZero with state := 2, rate := 48000 })

def clockCandidatesAndSelection_6 : State := atNs 10000000000 (cand0 5 { candZero with state := 2 })

def clockCandidatesAndSelection_8 : State := atNs 1000000000
  { live with clk := { live.clk with inSince := some 0, state := 4 } }

def clockCandidatesAndSelection_14 : State := { live with hlt := { live.hlt with waiting := [⟨4, 1, 0⟩] } }

def ptpInstanceActs_0 : State := ptp 1 (fun z => { z with master := some ⟨0, 0, 0, 0, 0, 0, 0, 0, 0, 0, 0⟩ })

def ptpInstanceActs_3 : State := ptp 1 (fun z => { z with portState := 9, txStamp := [(1, 5)] })

def ptpInstanceActs_4 : State := ptp 0x11 (fun z => { z with txStamp := [(2, 5)] })

def ptpInstanceActs_5 : State := atNs 90000000000 (ptp 1 (fun z =>
  { z with master := some ⟨0, 0, 0, 0, 0, 0, 0, 0, 0, 0, 0⟩ }))

def ptpInstanceActs_6 : State := atNs 1000000000 (withWords [(Reg.TIM_CTRL.base, 1)] (cand0 0
  { candZero with state := 3 }))

def ptpInstanceActs_7 : State := atNs 2000000000 (ptp 1 (fun z => { z with portBack := some 0 }))

def ptpInstanceActs_13 : State := atNs 1000000000 (linkIn 7 1 (fun z => { z with up := true }))

def triggersAndCaptures_2 : State := modTim (fun z => { z with trigs := [(31, { trigZero with armed := true })] })
  live

def framesReceivedAndSent_3 : State := withWords [(Reg.NET_MAX_FRAME.at 7, 64)] (netUp 0x80000000)

def framesReceivedAndSent_8 : State :=
  { withWords [(Reg.NET_MODE.at 7, 3)] live with start := { live.start with refs := 2 } }

def framesReceivedAndSent_9 : State := modPort 7 (fun x => { x with sending := some ⟨0, 3, [1], false, none⟩ }) (netUp
  0)

def queuesWork_1 : State := inQueue 511 0 0x80000000 [] (modQueue 511 (fun x => { x with read := 1 }) live)

def queuesWork_3 : State := withWords [(Reg.QUEUE0.at 511, 0xC0000000), (Reg.QMG_TXS_LEN.base, 60)] live

def queuesWork_4 : State := withWords [(Reg.QUEUE0.at 511, 0xC0000000), (Reg.QMG_TXS_LEN.base, 9597)] live

def streamsReceive_2 : State := streaming 0x20000000 (udpFrame 9 (rtpPacket 12))

def streamsReceive_7 : State := atNs 1000000000
  { live with mst := { live.mst with rx := [(0, { rxZero with range := some 0 })] } }

def streamsReceive_8 : State := withWords [(Reg.LRX0.at 0, 0x10000000)]
  { live with lnk := { live.lnk with rx := [(0, { rxZero with gap := some 2400, fs := 48000 })] } }

def streamsReceive_9 : State := withWords [(Reg.MST_PORT_IP.at 7, 0x01020304)] (inQueue 3 7 0x80700006 arpFrame live)

def linksAndTheirWidth_0 : State := { linkIn 7 1 id with start := { live.start with refs := 1 } }

def linksAndTheirWidth_4 : State := linkIn 7 1 (fun z => { z with up := true, dead := [0, 1, 2] })

def linksAndTheirWidth_5 : State := linkIn 7 1 (fun z => { z with up := true, txRetired := [0], txDead := [1, 2, 3] })

def linksAndTheirWidth_6 : State := linkIn 7 1 (fun z => { z with up := true, txWidth := 4 })

def linksAndTheirWidth_7 : State := linkIn 7 1 (fun z => { z with up := true, txWidth := 1 })

def linksAndTheirWidth_12 : State := linkIn 7 1 (fun z => { z with up := true, txMove := some 0 })

def linksAndTheirWidth_13 : State := linkIn 7 1 (fun z =>
  { z with up := true, change := some ⟨2, false, 0, false, false⟩ })

def linksAndTheirWidth_15 : State := linkIn 7 1 (fun z => { z with up := true, txWidth := 4, txDead := [3] })

def linksAndTheirWidth_16 : State := linkIn 7 5 (fun z => { z with up := true, txWidth := 4, lowRun := 100 })

def linksAndTheirWidth_19 : State := linkIn 7 1 (fun z => { z with up := true, txWidth := 2, load := 1000000000 })

def linksAndTheirWidth_20 : State := linkIn 7 1 (fun z =>
  { z with up := true, txWidth := 2, load := 1000000000, change := some ⟨2, false, 0, false, false⟩ })

def linksAndTheirWidth_22 : State := atNs 9999 (linkIn 7 1 (fun z =>
  { z with up := true, change := some ⟨2, false, 0, false, false⟩ }))

def linksAndTheirWidth_23 : State := atNs 10000 (linkIn 7 1 (fun z =>
  { z with up := true, change := some ⟨2, false, 0, false, false⟩ }))

def linksAndTheirWidth_24 : State := atNs 10000 (linkIn 7 1 (fun z =>
  { z with up := true, change := some ⟨2, false, 0, true, false⟩ }))

def linksAndTheirWidth_27 : State := linkIn 7 1 (fun z => { z with up := true, rxRetired := [0] })

def linksAndTheirWidth_28 : State := linkIn 7 1 (fun z => { z with up := true, rxMove := some 0 })

def linksAndTheirWidth_29 : State := withWords [(Reg.LNK_MARGIN.at 7, 5)] (linkIn 7 1 (fun z =>
  { z with up := true }))

def linkFramesPass_7 : State := withWords [(Reg.LNK_RXQ0.at 7, 3)] (linkIn 7 1 (fun z => { z with up := true }))

def linkFramesPass_8 : State := withWords [(Reg.QUEUE0.at 3, 0x80000000), (Reg.QUEUE1.at 3, 0x8000)] (withWords
  [(Reg.LNK_RXQ0.at 7, 3)] (linkIn 7 1 (fun z => { z with up := true })))

def linkFramesPass_9 : State := linkIn 7 9 (fun z => { z with up := true, echo := some (1, 2) })

def linkFramesPass_14 : State := linkIn 7 1 (fun z => { z with up := true, direct := [(5, [1])] })

def linkFramesPass_15 : State := linkIn 7 1 (fun z => { z with up := true, direct := [(7, [1])] })

def linkFramesPass_16 : State := linkIn 7 1 (fun z => { z with up := true, direct := [(8, [1])] })

def linkFramesAndSegmentsAct_0 : State := withWords [(Reg.LNK_RXQ0.at 1, 0x5)]
  { inQueue 5 9 0x80900001 (lframe 1 3 31 (List.replicate 48 0)) live with lnk := { live.lnk with rx := [(63, rxZero)] } }

def linkFramesAndSegmentsAct_1 : State := withWords [(Reg.LNK_RXQ0.at 1, 0x5), (Reg.LRX0.at 63, 0x10000000)]
  { inQueue 5 9 0x80900001 (lframe 1 3 31 (List.replicate 48 0)) live with lnk := { live.lnk with rx := [(63, rxZero)] } }

def linkFramesAndSegmentsAct_2 : State := inQueue 5 8 0x80900001 (lframe 4 3 0 (List.replicate 32 0)) (withWords
  [(Reg.LNK_RXQ1.at 0, 0x5)] (pairUp id))

def linkFramesAndSegmentsAct_3 : State := modLink 0 (fun z =>
  { z with inbox := [(5, lframe 5 3 0 ([0, 120] ++ List.replicate 30 0), 0)] }) (pairUp (fun z =>
  { z with role := 2 }))

def linkFramesAndSegmentsAct_4 : State := modLink 0 (fun z =>
  { z with inbox := [(5, lframe 5 3 0 ([0, 16] ++ List.replicate 30 0), 0)] }) (pairUp (fun z =>
  { z with role := 2 }))

def linkFramesAndSegmentsAct_6 : State := { linkTime 3 candZero with clk := live.clk, words := (linkIn 7 9 id).words }

def linkFramesAndSegmentsAct_7 : State := linkTime 3 { candZero with state := 2, fresh := false }

def linkFramesAndSegmentsAct_10 : State := linkIn 7 9 (fun z =>
  { z with up := true, inbox := [(8, lframe 8 3 0 (List.replicate 32 0), 5)] })

def linkFramesAndSegmentsAct_11 : State := inQueue 5 8 0x80900001 (lframe 3 3 0 ([1, 0, 0, 0, 0, 0, 0, 0, 24] ++
  List.replicate 15 0)) (withWords [(Reg.LNK_RXQ1.at 0, 0x5)] (pairUp (fun z => { z with role := 2 })))

def linkFramesAndSegmentsAct_12 : State := inQueue 5 8 0x80900001 (lframe 3 3 0 ([1, 0, 0, 0, 0, 0, 0, 0, 24] ++
  List.replicate 15 0)) (withWords [(Reg.LNK_RXQ1.at 0, 0x5)] (pairUp (fun z =>
  { z with role := 2, filling := some 0, slot0 := ⟨false, 1, 24, 8⟩ })))

def linkFramesAndSegmentsAct_13 : State := inQueue 5 8 0x80900001 (lframe 3 3 0 ([1, 0, 0, 0, 8, 0, 0, 0, 24] ++
  List.replicate 15 0)) (withWords [(Reg.LNK_RXQ1.at 0, 0x5)] (pairUp (fun z =>
  { z with role := 2, filling := some 0, slot0 := ⟨false, 1, 24, 8⟩ })))

def linkFramesAndSegmentsAct_14 : State := inQueue 5 8 0x80900001 (lframe 3 3 0 ([1, 0, 0, 0, 8, 0, 0, 0, 24] ++
  List.replicate 15 0)) (withWords [(Reg.LNK_RXQ1.at 0, 0x5)] (pairUp (fun z => { z with role := 2 })))

def serialPortsFollow_0 : State := serial true 0x40000000 { serZero with state := 2, rate := 96000 }

def serialPortsFollow_3 : State := atNs 1000000000 (serial false 0x20000000 { serZero with state := 4 })

def serialPortsFollow_4 : State := serial true 0x40000000 { serZero with state := 4 }

def serialPortsFollow_5 : State := serial false 0x20000000 { serZero with state := 3, rate := 48000 }

def serialPortsFollow_6 : State := serial true 0x40000000 { serZero with state := 2 }

def serialPortsFollow_7 : State := serial true 0x40000000 { serZero with state := 2, rate := 48000 }

def serialPortsFollow_8 : State := serial false 0xA0000000 { serZero with state := 2 }

def serialPortsFollow_9 : State := atNs 1000000000 (serial true 0xC0000000
  { serZero with state := 1, clocks := some 0, want := some 0, rate := 96000 })

def serialPortsFollow_10 : State := serial false 0x20000000 { serZero with state := 1 }

def suppliesResetUnits_2 : State := { live with start := { live.start with resetLow := true } }

def suppliesResetUnits_6 : State := { live with sec := { live.sec with executing := some (1, 0) } }

def suppliesResetUnits_8 : State := { live with start := { live.start with hot := true } }

def startsGoThroughTheirStages_3 : State := { live with start := { live.start with stage := 3 }, mem := [⟨40, 1⟩] }

def startsGoThroughTheirStages_4 : State :=
  { live with start := { live.start with stage := 4, loading := true, slotA := loadable, secOfs := 32 } }

def startsGoThroughTheirStages_5 : State := { live with start := { live.start with stage := 4 } }

def testPortShifts_2 : State := { live with start := { live.start with resetLow := true }, tap := ⟨.extest, [true]⟩ }

def aluResults_0 : State := core 0x007FF800 ({ coreZero with state := 2, pc := 16383 })

def aluResults_1 : State := core 0x00FFF800 ({ coreZero with state := 2, pc := 16383 })

def aluResults_2 : State := core 0x017FF800 ({ coreZero with state := 2, pc := 16383 })

def aluResults_3 : State := core 0x01FFF800 ({ coreZero with state := 2, pc := 16383 })

def aluResults_4 : State := core 0x027FF800 ({ coreZero with state := 2, pc := 16383 })

def aluResults_5 : State := core 0x02FFF800 ({ coreZero with state := 2, pc := 16383 })

def aluResults_6 : State := core 0x037FF800 ({ coreZero with state := 2, pc := 16383 })

def aluResults_7 : State := core 0x057FF800 ({ coreZero with state := 2, pc := 16383 })

def aluResults_8 : State := core 0x05FFF800 ({ coreZero with state := 2, pc := 16383 })

def aluResults_9 : State := core 0x067FF800 ({ coreZero with state := 2, pc := 16383 })

def aluResults_10 : State := core 0x06FFF800 ({ coreZero with state := 2, pc := 16383 })

def aluResults_11 : State := core 0x077FF800 ({ coreZero with state := 2, pc := 16383 })

def aluResults_12 : State := core 0x087F8000 ({ coreZero with state := 2, pc := 16383 })

def aluResults_13 : State := core 0x08FFF800 ({ coreZero with state := 2, pc := 16383 })

def aluResults_14 : State := core 0x0787F800 ({ coreZero with state := 2, pc := 16383 })

def aluResults_15 : State := core 0x21FFFFFF ({ coreZero with state := 2, pc := 16383 })

def aluResults_16 : State := core 0x23FFFFFF ({ coreZero with state := 2, pc := 16383 })

def aluResults_17 : State := core 0x25FFFFFF ({ coreZero with state := 2, pc := 16383 })

def aluResults_18 : State := core 0x27FFFFFF ({ coreZero with state := 2, pc := 16383 })

def aluResults_19 : State := core 0x2E1FFFFF ({ coreZero with state := 2, pc := 16383 })

def aluResults_20 : State := core 0x31E1FFFF ({ coreZero with state := 2, pc := 16383 })

def aluResults_21 : State := core 0x33E1FFFF ({ coreZero with state := 2, pc := 16383 })

def aluResults_22 : State := core 0x03FFF800 ({ coreZero with state := 2, pc := 16383 })

def aluResults_23 : State := core 0x047FF800 ({ coreZero with state := 2, pc := 16383 })

def aluResults_24 : State := core 0x04FFF800 ({ coreZero with state := 2, pc := 16383 })

def aluResults_25 : State := core 0x29FE001F ({ coreZero with state := 2, pc := 16383 })

def aluResults_26 : State := core 0x2BFE001F ({ coreZero with state := 2, pc := 16383 })

def aluResults_27 : State := core 0x2DFE001F ({ coreZero with state := 2, pc := 16383 })

def coreLoadsAndStores_0 : State := core 0x43FA0000
  ({ coreZero with state := 2, pc := 16383, regs := [(23, 0x3FFFC)] })

def coreLoadsAndStores_1 : State := core 0x47FA0000
  ({ coreZero with state := 2, pc := 16383, regs := [(23, 0x3FFFE)] })

def coreLoadsAndStores_2 : State := core 0x4BFA0000
  ({ coreZero with state := 2, pc := 16383, regs := [(23, 0x3FFFF)] })

def coreLoadsAndStores_3 : State := core 0x4FFA0000 ({ coreZero with state := 2, pc := 16383, regs := [(23, 6)] })

def coreLoadsAndStores_4 : State := core 0x53FA0000
  ({ coreZero with state := 2, pc := 16383, regs := [(23, 0x3FFFC)] })

def coreLoadsAndStores_5 : State := core 0x57FA0000 ({ coreZero with state := 2, pc := 16383, regs := [(23, 0)] })

def coreLoadsAndStores_6 : State := core 0x5BFA0000
  ({ coreZero with state := 2, pc := 16383, regs := [(23, 0x3FFFF)] })

def coreLoadsAndStores_7 : State := core 0x5FFA0000 ({ coreZero with state := 2, pc := 16383, regs := [(23, 6)] })

def coreLoadsAndStores_10 : State := core 0x43FA0000
  ({ coreZero with state := 2, pc := 16383, regs := [(23, 0x40000)] })

def coreLoadsAndStores_11 : State := core 0x53FA0000
  ({ coreZero with state := 2, pc := 16383, regs := [(23, 0x80000000)] })

def coreLoadsAndStores_12 : State := core 0x43FA0000
  ({ coreZero with state := 2, pc := 16383, regs := [(23, 0x80000000)] })

def coreLoadsAndStores_13 : State :=
  { withWords [(Reg.DRC_TOP_HI.base, 0x11)] (core 0x43FA0000 ({ coreZero with state := 2, pc := 16383, regs := [(23, 0x80000000), (37, 32)] })) with ue := [2 ^ 36] }

def coreAccumulators_0 : State := core 0x67F80000 ({ coreZero with state := 2, pc := 16383 })

def coreAccumulators_1 : State := core 0x6FF80000 ({ coreZero with state := 2, pc := 16383 })

def coreAccumulators_2 : State := core 0x77F80000 ({ coreZero with state := 2, pc := 16383 })

def coreAccumulators_3 : State := core 0x7FF80000 ({ coreZero with state := 2, pc := 16383 })

def coreAccumulators_4 : State := core 0x77FC0000 ({ coreZero with state := 2, pc := 16383 })

def coreAccumulators_5 : State := core 0x77FC0000
  ({ coreZero with state := 2, pc := 16383, regs := [(16, 6), (17, 6), (18, 6), (19, 6)] })

def coreAccumulators_6 : State := core 0xA0000000 ({ coreZero with state := 2, pc := 16383 })

def coreAccumulators_7 : State := core 0xA10C7000 ({ coreZero with state := 2, pc := 16383 })

def coreAccumulators_8 : State := core 0xA20C0FFF ({ coreZero with state := 2, pc := 16383 })

def coreAccumulators_11 : State := core 0xA3C3FC00 ({ coreZero with state := 2, pc := 16383 })

def coreAccumulators_12 : State := core 0xA4C00000 ({ coreZero with state := 2, pc := 16383 })

def coreAccumulators_13 : State := core 0xA5C00000 ({ coreZero with state := 2, pc := 16383 })

def coreAccumulators_14 : State := core 0xA6C00000 ({ coreZero with state := 2, pc := 16383 })

def coreAccumulators_15 : State := core 0xAE000000 ({ coreZero with state := 2, pc := 16383 })

def coreAccumulators_16 : State := core 0xAD000000 ({ coreZero with state := 2, pc := 16383 })

def coreAccumulators_17 : State := core 0xAC000000 ({ coreZero with state := 2, pc := 16383 })

def coreAccumulators_18 : State := core 0xAC000000 ({ coreZero with state := 2, pc := 16383, handler := true })

def coreSequence_0 : State := core 0x801FFFFF ({ coreZero with state := 2, pc := 16383 })

def coreSequence_1 : State := core 0x80200000 ({ coreZero with state := 2, pc := 16383 })

def coreSequence_2 : State := core 0x821FFFFF ({ coreZero with state := 2, pc := 16383 })

def coreSequence_3 : State := core 0x84000000 ({ coreZero with state := 2, pc := 16383, regs := [(40, 16383)] })

def coreSequence_4 : State := core 0x86000000 ({ coreZero with state := 2, pc := 16383, regs := [(41, 5)] })

def coreSequence_5 : State := core 0x89E00000 ({ coreZero with state := 2, pc := 16383, regs := [(15, 7)] })

def coreSequence_6 : State := core 0x8A00FF00 ({ coreZero with state := 2, pc := 16383 })

def coreSequence_7 : State := core 0x8C003000 ({ coreZero with state := 2, pc := 16383 })

def coreSequence_8 : State := core 0x8C000003 ({ coreZero with state := 2, pc := 16383 })

def coreSequence_9 : State := core 0x8CFFFFFF ({ coreZero with state := 2, pc := 16383 })

def coreSequence_10 : State := core 0x8CFFFFFF
  ({ coreZero with state := 2, pc := 16383, loops := [⟨0, 0, 1⟩, ⟨0, 0, 1⟩] })

def coreSequence_11 : State := core 0xA7000000 ({ coreZero with state := 2, pc := 16383 })

def coreSequence_12 : State := core 0xA8000000 ({ coreZero with state := 2, pc := 16383 })

def coreSequence_13 : State := withWords [(0x10140104, 0)] (core 0xA8000000
  ({ coreZero with state := 2, pc := 16383, regs := [(0, 0x10800), (1, 0xFF0000)] }))

def coreSequence_14 : State := core 0xA9000000 ({ coreZero with state := 2, pc := 16383 })

def coreSequence_15 : State := withWords [(Reg.CORE0.at 15, 0x80000000)] (core 0xA9000000
  ({ coreZero with state := 2, pc := 16383 }))

def coreSequence_16 : State := withWords [(Reg.CORE0.at 15, 0x80000000)] (core 0xAA000000
  ({ coreZero with state := 2, pc := 16383 }))

def coreSequence_17 : State := core 0xAA000000 ({ coreZero with state := 2, pc := 16383 })

def coreSequence_18 : State := core 0xAB000000 ({ coreZero with state := 2, pc := 16383 })

def coreSequence_19 : State := core 0xE0000000 ({ coreZero with state := 2, pc := 16383 })

def coresInterruptStartRun_0 : State := core 0 { coreZero with state := 3, doorbell := true, regs := [(36, 0x140)] }

def coresInterruptStartRun_1 : State := core 0 { coreZero with state := 1, regs := [(44, 1)] }

def coresInterruptStartRun_2 : State := withWords [(Reg.CORE0.at 15, 0x80000000)] (core 0
  { coreZero with state := 5 })

def coresInterruptStartRun_8 : State :=
  { core 0 { coreZero with state := 2 } with dsx := { live.dsx with jobs := [⟨0, job 1 1, .running 15, none⟩] } }

def coresInterruptStartRun_11 : State :=
  { core 0 { coreZero with state := 4, loaded := true } with dsx := { live.dsx with jobs := [⟨0, job 1 1, .running 15, none⟩] } }

def coresInterruptStartRun_12 : State := withWords [(Reg.CORE0.at 15, 0x80000000)] (core 0
  { coreZero with state := 1, loaded := true, inputs := [(3, 0)] })

def coresInterruptStartRun_13 : State := withWords [(Reg.CORE0.at 15, 0x80000000)] (core 0
  { coreZero with state := 1, loaded := true, inputs := [(3, 0)], dataLen := 4 })

def coresInterruptStartRun_14 : State := atNs 1000 (withWords [(Reg.DRU_TASK_MAX.base, 1)] (core 0
  { coreZero with state := 2 }))

def coresInterruptStartRun_16 : State := withWords [(Reg.CORE0.at 15, 0x80000000)] (leavingCore)

def coresInterruptStartRun_17 : State := withWords [(Reg.CORE0.at 15, 0x80000000)] (modCore 15 (fun x =>
  { x with runBlock := some 3 }) leavingCore)

def memoriesAndDram_0 : State := { live with memst := { live.memst with banks := [(5 * 256 + 14, .filling)] } }

def memoriesAndDram_3 : State := { live with drc := { live.drc with panicTail := true } }

def memoriesAndDram_6 : State := { dramOn with start := { live.start with stage := 4 } }

def memoriesAndDram_10 : State := withWords [(Reg.DRC_SCRUB_LIMIT_LO.base, 0x40), (Reg.DRC_SCRUB_LIMIT_HI.base, 0x10),
  (Reg.DRC_TOP_HI.base, 0x11)] live

def lifeCycleAdvances_4 : State := atNs 1000000 ({ live with sec := { live.sec with armed := some (3, 0) } })

def lifeCycleAdvances_7 : State := atNs 1000001 ({ live with sec := { live.sec with armed := some (3, 0) } })

def lifeCycleAdvances_8 : State := atNs 5000000 ({ live with sec := { live.sec with executing := some (3, 0) } })

def dmaRuns_1 : State := dmaIn none 15 { dmaChanZero with state := 0 }

def dmaRuns_2 : State := dmaIn none 15 { dmaChanZero with state := 3 }

def dmaRuns_3 : State := dmaIn none 15 { dmaChanZero with state := 1 }

def dmaRuns_7 : State := put 0x1000 ([0, 0x20, 0, 0, 0, 0, 0, 0, 0, 0x30, 0, 0, 0, 0, 0, 0, 4]) (dmaIn (some 15) 15
  { dmaChanZero with state := 2, cur := 0x1000 })

def dmaRuns_8 : State := put 0x1000 ([0, 0x20, 0, 0, 0, 0, 0, 0, 3, 0x20, 0, 0, 0, 0, 0, 0, 4]) (dmaIn (some 15) 15
  { dmaChanZero with state := 2, cur := 0x1000 })

def dmaRuns_9 : State := dmaIn (some 15) 15 { dmaChanZero with state := 2, cur := 0x10000000 }

def dmaRuns_10 : State := dmaIn (some 15) 15 { dmaChanZero with state := 2, fetched := true, desc := oneWord }

def dmaRuns_11 : State := dmaIn (some 15) 15
  { dmaChanZero with state := 2, fetched := true, desc := oneWord.set 22 1 }

def dmaRuns_12 : State := dmaIn (some 15) 15
  { dmaChanZero with state := 2, fetched := true, done := 4, desc := oneWord }

def pairingWorks_1 : State := atNs 1000000 (pairUp (fun z => { z with hbAt := some 0 }))

def pairingWorks_2 : State := atNs 100000000 (withWords [(Reg.PAR_TXQ.base, 5)] (pairUp id))

def pairingWorks_5 : State := pairUp (fun z => { z with cutin := some ⟨0, 0, none⟩ })

def pairingWorks_6 : State := pairUp (fun z => { z with cutin := some ⟨0, 0, some 0⟩ })

def pairingWorks_7 : State := atIdx 96000 (pairUp (fun z => { z with role := 1, hbAt := some 0, sendOfs := some 0 }))

def pairingWorks_8 : State := atIdx 96000 (pairUp (fun z => { z with role := 1, hbAt := some 0 }))

def pairingWorks_9 : State := atNs 100000000 (withWords [(Reg.HLT_ABD_MASK.base, 0x200)] (pairUp (fun z =>
  { z with role := 3, abd := some ⟨0, 0⟩ })))

def pairingWorks_10 : State := pairUp (fun z => { z with role := 1, hbAt := some 0, healthAt := some 0, pRole := 2 })

def wearIsWatched_1 : State := atNs 10000000000
  ({ live with hlt := { live.hlt with islands := [(159, { islandZero with step := 1, highSince := some 0 })] } })

def wearIsWatched_2 : State := atNs 100000000
  ({ live with hlt := { live.hlt with islands := [(159, { islandZero with step := 3, lowSince := some 0 })] } })

def wearIsWatched_3 : State := atNs 60000000000 (withWords [(Reg.HLT_SELFTEST.base, 60)] (pairUp (fun z =>
  { z with role := 2 })))

def wearIsWatched_4 : State := atNs 2000000000 { live with hlt := { live.hlt with testing := some 79 } }

def maximumFrameLength_0 : State := withWords [(Reg.NET_MAX_FRAME.at 7, 63)] live

def maximumFrameLength_1 : State := withWords [(Reg.NET_MAX_FRAME.at 7, 9601)] live

def maximumFrameLength_2 : State := withWords [(Reg.NET_MAX_FRAME.at 7, 9600)] live

def rndNarrowsAccumulators_0 : State := core 0xA3C3F000 ({ coreZero with state := 2, pc := 16383 })

def rndNarrowsAccumulators_2 : State := core 0xA3C3F400 ({ coreZero with state := 2, pc := 16383 })

def rndNarrowsAccumulators_3 : State := core 0xA3C3F800 ({ coreZero with state := 2, pc := 16383 })

theorem witness_StepTakesFrontCommand :
    ∃ (s : State) (c : Instr) (rest : List Instr), s.pending = c :: rest :=
  ⟨stepTakesFrontCommand_0, .commandTake, [.timeRead], by decide +kernel⟩

theorem witness_IdleStepIsOneSample :
    ∃ s w : State, w = work s ∧ s.pending = [] :=
  ⟨live, _, rfl, by decide +kernel⟩

theorem witness_CommandsKeepQueueAndFuses :
    ∃ (c : Instr) (s t : State), exec c s = .next t ∧ c ≠ .lcFuseDone :=
  ⟨.timeRead, live, afterNext (exec .timeRead live), (next_afterNext _ (by decide +kernel)), by decide +kernel⟩

theorem witness_SoundIsKept :
    ∃ s t : State, Sound s ∧ step s = .next t :=
  ⟨{ live with pending := [.timeRead] }, afterNext (step { live with pending := [.timeRead] }), sound_of
    (by decide +kernel), (next_afterNext _ (by decide +kernel))⟩

theorem witness_RowsRestUntilRunning :
    ∃ (c : Instr) (s w : State), w = work s ∧ restsUntilRunning c = true ∧ running w = false :=
  ⟨.route, State.reset, _, rfl, by decide +kernel⟩

theorem witness_EventsAreRecorded :
    (∃ (s : State) (code wr n : Nat) (data : List Byte) (recs : List (List Byte)), recs = eventRecords s code data ∧ n
      = recs.length ∧ wr = rd32 s (ctlBlock + 0x10) ∧ bit (regW s (Reg.SYS_EVT_EN.at (code / 32))) (code % 32) =
      false) ∧
    (∃ (s : State) (code wr n : Nat) (data : List Byte) (recs : List (List Byte)) (k : Nat), recs = eventRecords s
      code data ∧ n = recs.length ∧ wr = rd32 s (ctlBlock + 0x10) ∧ bit (regW s (Reg.SYS_EVT_EN.at (code / 32))) (code
      % 32) = true ∧ wrapSub wr (rd32 s (ctlBlock + 0x14)) + n ≤ 2048 ∧ k < n) ∧
    (∃ (s : State) (code wr n : Nat) (data : List Byte) (recs : List (List Byte)), recs = eventRecords s code data ∧ n
      = recs.length ∧ wr = rd32 s (ctlBlock + 0x10) ∧ bit (regW s (Reg.SYS_EVT_EN.at (code / 32))) (code % 32) = true
      ∧ 2048 < wrapSub wr (rd32 s (ctlBlock + 0x14)) + n) :=
  ⟨⟨withWords [(Reg.SYS_EVT_EN.at 0, 0)] live, 0x10, _, _, [1, 2], _, rfl, rfl, rfl, by decide +kernel⟩,
   ⟨eventsAreRecorded_1, 0x10, _, _, [1, 2, 3, 4, 5, 6, 7], _, 1, rfl, rfl, rfl, by decide +kernel⟩,
   ⟨fullRing, 0x10, _, _, [1], _, rfl, rfl, rfl, by decide +kernel⟩⟩

theorem witness_DeviceWordsChangeAlone :
    (∃ a b hi lo i : Nat, lo ≤ hi ∧ hi < 32 ∧ i < 32 ∧ a ≠ b ∧ a ≠ Reg.SYS_RENDER_RATE.base ∧ a ≠
      Reg.FEA_ACCEPT_LO.base) ∧
    (∃ hi lo i j : Nat, lo ≤ hi ∧ hi < 32 ∧ i < 32 ∧ j ≠ i) ∧
    (∃ hi lo i j : Nat, lo ≤ hi ∧ hi < 32 ∧ i < 32 ∧ (j < lo ∨ hi < j)) :=
  ⟨⟨0x10000200, 0x10000204, 31, 0, 31, by decide +kernel⟩,
   ⟨31, 31, 31, 0, by decide +kernel⟩,
   ⟨30, 8, 0, 31, by decide +kernel⟩⟩

theorem witness_MemoryIsByteAddressed :
    (∃ (m : List Host.Cell) (a b : Nat), Memory.wf m = true ∧ b ≠ a) ∧
    (∃ m m' : List Host.Cell, (∀ b : Nat, memRead m b = memRead m' b) ∧ Memory.wf m = true ∧ Memory.wf m' = true) :=
  ⟨⟨[⟨1, 7⟩, ⟨5, 9⟩], 1, 0, by decide +kernel⟩,
   ⟨[⟨1, 7⟩], [⟨1, 7⟩], (fun _ => rfl), by decide +kernel⟩⟩

theorem witness_StoresAreLocal :
    (∃ (s w : State) (src tag a : Nat) (noresp : Bool), w = work s ∧ Sound s ∧ plainMemory w a ∧ src ≤ 16 ∧ a % 4 = 0
      ∧ cmdReady w src (fun r => recIs 1 tag noresp r && r.addr == a) = true) ∧
    (∃ (s w : State) (src tag a : Nat) (noresp : Bool) (v : Word), w = work s ∧ Sound s ∧ plainMemory w a ∧ src ≤ 16 ∧
      a % 4 = 0 ∧ cmdReady w src (fun r => recIs 2 tag noresp r && r.addr == a && r.data == v.toNat) = true) ∧
    (∃ (s w : State) (src tag a : Nat) (noresp : Bool) (v : Word) (lsb width : Nat), w = work s ∧ Sound s ∧
      plainMemory w a ∧ src ≤ 16 ∧ a % 4 = 0 ∧ cmdReady w src (fun r => recIs 3 tag noresp r && r.addr == a && r.count
      % 32 == lsb && r.count / 256 % 32 + 1 == width && r.data == v.toNat) = true) ∧
    (∃ (s w : State) (src a half : Nat), w = work s ∧ Sound s ∧ plainMemory w a ∧ src ≤ 16 ∧ a % 4 = 0 ∧ half < 2 ^ 16
      ∧ half % 2 = 1 ∧ (w.start.stage = 2 → half < 16 ∨ 22 ≤ half) ∧ powered w = true ∧ w.sys.wrLatch = none ∧
      chainDescs w = [] ∧ ueIn w (2 * half) 1 = [] ∧ ueIn w (2 * half + 1) 1 = []) :=
  ⟨⟨takes 16 (cmd 1 7 0xEFFFC 0 0), _, 16, 7, 0xEFFFC, false, rfl, sound_of (by decide +kernel), plain_of
    (by decide +kernel), by decide +kernel⟩,
   ⟨takes 0 (cmd 2 7 0 0 9), _, 0, 7, 0, false, 9, rfl, sound_of (by decide +kernel), plain_of (by decide +kernel),
     by decide +kernel⟩,
   ⟨takes 4 (cmd 3 7 0xEFFFC 0x001F 9), _, 4, 7, 0xEFFFC, false, 9, 31, 1, rfl, sound_of (by decide +kernel), plain_of
     (by decide +kernel), by decide +kernel⟩,
   ⟨live, _, 0, 0, 0xFFFF, rfl, sound_of (by decide +kernel), plain_of (by decide +kernel), by decide +kernel⟩⟩

theorem witness_WordCommandsAnswer :
    (∃ (s w : State) (src tag a : Nat) (noresp : Bool), w = work s ∧ plainMemory w a ∧ cmdReady w src (fun r => recIs
      1 tag noresp r && r.addr == a) = true ∧ a % 4 = 0) ∧
    (∃ (s w : State) (src tag a : Nat) (noresp : Bool) (v : Word), w = work s ∧ plainMemory w a ∧ a % 4 = 0 ∧ cmdReady
      w src (fun r => recIs 2 tag noresp r && r.addr == a && r.data == v.toNat) = true) ∧
    (∃ (s w : State) (src tag a : Nat) (noresp : Bool) (v : Word) (lsb width : Nat), w = work s ∧ plainMemory w a ∧ a
      % 4 = 0 ∧ cmdReady w src (fun r => recIs 3 tag noresp r && r.addr == a && r.count % 32 == lsb && r.count / 256 %
      32 + 1 == width && r.data == v.toNat) = true) :=
  ⟨⟨takes 24 (cmd 1 7 0xEFFFC 0 0), _, 24, 7, 0xEFFFC, false, rfl, plain_of (by decide +kernel), by decide +kernel⟩,
   ⟨takes 0 (cmd 2 7 0 0 9), _, 0, 7, 0, false, 9, rfl, plain_of (by decide +kernel), by decide +kernel⟩,
   ⟨takes 0 (cmd 3 7 0 0x1F00 9), _, 0, 7, 0, false, 9, 0, 32, rfl, plain_of (by decide +kernel), by decide +kernel⟩⟩

theorem witness_BurstsMoveWords :
    (∃ (s w : State) (src tag a n buf : Nat) (noresp : Bool), w = work s ∧ (∀ k : Nat, k < n → plainMemory w (a + 4 *
      k)) ∧ 1 ≤ src ∧ burstFault src a n buf = none ∧ a + 4 * n ≤ secBase ∧ cmdReady w src (fun r => recIs 4 tag
      noresp r && r.addr == a && r.count == n && (src != 0 || r.data == buf)) = true) ∧
    (∃ (s w : State) (src tag a n buf : Nat) (noresp : Bool) (ws : List Word), w = work s ∧ (∀ k : Nat, k < n →
      plainMemory w (a + 4 * k)) ∧ 1 ≤ src ∧ burstFault src a n buf = none ∧ a + 4 * n ≤ secBase ∧ ws.length = n ∧
      unguarded w = true ∧ cmdReady w src (fun r => recIs 5 tag noresp r && r.addr == a && r.count == n && (if src = 0
      then r.data == buf else r.words == ws)) = true) ∧
    (∃ (s w : State) (tag a n buf : Nat) (noresp : Bool), w = work s ∧ (∀ k : Nat, k < n → plainMemory w (a + 4 * k))
      ∧ burstFault 0 a n buf = none ∧ a + 4 * n ≤ secBase ∧ ueIn w buf (4 * n) = [] ∧ cmdReady w 0 (fun r => recIs 4
      tag noresp r && r.addr == a && r.count == n && r.data == buf) = true) ∧
    (∃ (s w : State) (tag a n buf : Nat) (noresp : Bool), w = work s ∧ (∀ k : Nat, k < n → plainMemory w (a + 4 * k))
      ∧ burstFault 0 a n buf = none ∧ a + 4 * n ≤ secBase ∧ ueIn w buf (4 * n) = [] ∧ unguarded w = true ∧ cmdReady w
      0 (fun r => recIs 5 tag noresp r && r.addr == a && r.count == n && r.data == buf) = true) :=
  ⟨⟨takes 1 (cmd 4 7 0xEFFFC 1 0), _, 1, 7, 0xEFFFC, 1, 0, false, rfl, plains_of _ _ _ (by decide +kernel),
    by decide +kernel⟩,
   ⟨burstsMoveWords_1, _, 1, 7, 0, 2, 0, false, [3, 4], rfl, plains_of _ _ _ (by decide +kernel), by decide +kernel⟩,
   ⟨takes 0 (cmd 4 7 0xEFFF0 4 0x18200), _, 7, 0xEFFF0, 4, 0x18200, false, rfl, plains_of _ _ _ (by decide +kernel),
     by decide +kernel⟩,
   ⟨takes 0 (cmd 5 7 0xEFFF0 4 0x1FFF0), _, 7, 0xEFFF0, 4, 0x1FFF0, false, rfl, plains_of _ _ _ (by decide +kernel),
     by decide +kernel⟩⟩

theorem witness_CommandsRefusedAndFaults :
    (∃ (s w : State) (src tag a : Nat) (noresp : Bool) (st : Nat), w = work s ∧ a % 4 = 0 ∧ readStatus w a = st ∧ st ≠
      0 ∧ cmdReady w src (fun r => recIs 1 tag noresp r && r.addr == a) = true) ∧
    (∃ (s w : State) (src tag a : Nat) (noresp : Bool) (v : Word) (st : Nat), w = work s ∧ a % 4 = 0 ∧ readStatus w a
      = st ∧ st ≠ 0 ∧ cmdReady w src (fun r => recIs 2 tag noresp r && r.addr == a && r.data == v.toNat) = true ∧
      dsxWaits w a = false) ∧
    (∃ (s w : State) (src tag a : Nat) (noresp : Bool) (v : Word) (st lsb width : Nat), w = work s ∧ a % 4 = 0 ∧
      readStatus w a = st ∧ st ≠ 0 ∧ cmdReady w src (fun r => recIs 3 tag noresp r && r.addr == a && r.count % 32 ==
      lsb && r.count / 256 % 32 + 1 == width && r.data == v.toNat) = true ∧ dsxWaits w a = false) ∧
    (∃ (s w : State) (src tag a : Nat) (noresp : Bool), w = work s ∧ a % 4 ≠ 0 ∧ cmdReady w src (fun r => recIs 1 tag
      noresp r && r.addr == a) = true) ∧
    (∃ (s w : State) (src tag a n buf : Nat) (noresp : Bool) (f : Fault), w = work s ∧ burstFault src a n buf = some f
      ∧ cmdReady w src (fun r => recIs 4 tag noresp r && r.addr == a && r.count == n && (src != 0 || r.data == buf)) =
      true) ∧
    (∃ (s w : State) (src tag a : Nat) (noresp : Bool) (f : Fault) (v : Word), w = work s ∧ a % 4 = 0 ∧ readStatus w a
      = 0 ∧ fabPlace w a = .mem ∧ writeStop w a (bytesOf 4 v.toNat) = some f ∧ cmdReady w src (fun r => recIs 2 tag
      noresp r && r.addr == a && r.data == v.toNat) = true) :=
  ⟨⟨takes 0 (cmd 1 7 0xF0000 0 0), _, 0, 7, 0xF0000, false, 3, rfl, by decide +kernel⟩,
   ⟨takes 0 (cmd 2 7 0xFFFFFFFFFC 0 9), _, 0, 7, 0xFFFFFFFFFC, false, 9, 1, rfl, by decide +kernel⟩,
   ⟨takes 0 (cmd 3 7 0xFFFFC 0x1F 9), _, 0, 7, 0xFFFFC, false, 9, 3, 31, 1, rfl, by decide +kernel⟩,
   ⟨takes 0 (cmd 1 7 3 0 0), _, 0, 7, 3, false, rfl, by decide +kernel⟩,
   ⟨takes 1 (cmd 4 7 0 4097 0), _, 1, 7, 0, 4097, 0, false, .badBurst, rfl, by decide +kernel⟩,
   ⟨commandsRefusedAndFaults_5, _, 0, 7, 0x1018, false, .chainChanged, 9, rfl, by decide +kernel⟩⟩

theorem witness_TagCommandsInsert :
    (∃ (s w : State) (src tag target k : Nat) (noresp : Bool), w = work s ∧ cmdReady w src (fun r => recIs 6 tag
      noresp r && (recTarget r == target && r.data / 2 ^ 24 == k)) = true) ∧
    (∃ (s w : State) (src tag target k : Nat) (noresp : Bool), w = work s ∧ w.heldTags = [] ∧ cmdReady w src (fun r =>
      recIs 7 tag noresp r && (recTarget r == target && r.count == k)) = true) ∧
    (∃ (s w : State) (src tag target k : Nat) (noresp : Bool), w = work s ∧ w.heldTags = [] ∧ cmdReady w src (fun r =>
      recIs 8 tag noresp r && (recTarget r == target && r.count == k)) = true) ∧
    (∃ (s w : State) (src tag target k : Nat) (noresp : Bool), w = work s ∧ w.heldTags = [] ∧ cmdReady w src (fun r =>
      recIs 9 tag noresp r && (recTarget r == target && r.count == k)) = true) :=
  ⟨⟨tagCommandsInsert_0, _, 0, 7, 2 ^ 40 - 1, 0x1D, false, rfl, by decide +kernel⟩,
   ⟨takes 0 (cmd 7 7 5 3 0), _, 0, 7, 5, 3, false, rfl, by decide +kernel⟩,
   ⟨takes 0 (cmd 8 7 5 3 0), _, 0, 7, 5, 3, false, rfl, by decide +kernel⟩,
   ⟨takes 24 (cmd 9 7 5 3 0), _, 24, 7, 5, 3, false, rfl, by decide +kernel⟩⟩

theorem witness_FeatureRequestAndRestart :
    (∃ (s w : State) (src tag : Nat) (noresp close : Bool) (req : Word), w = work s ∧ cmdReady w src (fun r => recIs
      10 tag noresp r && r.data == req.toNat && Nat.testBit r.count 0 == close) = true ∧ w.start.stage = 3) ∧
    (∃ (s w : State) (src tag : Nat) (noresp close : Bool) (req : Word), w = work s ∧ cmdReady w src (fun r => recIs
      10 tag noresp r && r.data == req.toNat && Nat.testBit r.count 0 == close) = true ∧ w.start.stage ≠ 3) ∧
    (∃ (s w : State) (src tag slot : Nat) (noresp : Bool), w = work s ∧ src = 0 ∧ cmdReady w src (fun r => recIs 11
      tag noresp r && r.count % 4 == slot) = true) ∧
    (∃ (s w : State) (src tag slot : Nat) (noresp : Bool) (c : ReplyCtx) (cs : List ReplyCtx) (q : Nat), w = work s ∧
      q = (if src ≤ 16 then 512 + c.port else linkRspQueue w (src - 17)) ∧ cmdReady w src (fun r => recIs 11 tag
      noresp r && r.count % 4 == slot) = true ∧ src ≠ 0 ∧ (sourceOf w src).reply = c :: cs) :=
  ⟨⟨featureRequestAndRestart_0, _, 0, 7, false, true, 6, rfl, by decide +kernel⟩,
   ⟨takes 0 (cmd 10 7 0 0 6), _, 0, 7, false, false, 6, rfl, by decide +kernel⟩,
   ⟨takes 0 (cmd 11 7 0 3 0), _, _, 7, 3, false, rfl, rfl, by decide +kernel⟩,
   ⟨withReply 24 (takes 24 (cmd 11 7 0 2 0)), _, 24, 7, 2, false, ⟨1, [], 5, 6, 0⟩, [], _, rfl, rfl,
     by decide +kernel⟩⟩

theorem witness_HostPinsAccess :
    (∃ (s w : State) (k d0 l0 : Nat), w = work s ∧ powered w = true ∧ k < 2 ^ 15 ∧ w.sys.wrLatch = some (2 * k, d0,
      l0) ∧ chainDescs w = [] ∧ (w.start.stage = 2 → 2 * k + 1 < 16 ∨ 22 ≤ 2 * k + 1)) ∧
    (∃ (s w : State) (k : Nat), w = work s ∧ powered w = true ∧ k < 2 ^ 15 ∧ w.start.stage = 2 ∧ 16 ≤ 2 * k + 1 ∧ 2 *
      k + 1 < 22) ∧
    (∃ (s w : State) (k : Nat), w = work s ∧ powered w = true ∧ k < 2 ^ 15 ∧ ueIn w (4 * k) 4 = []) ∧
    (∃ (s w : State) (k v : Nat), w = work s ∧ powered w = true ∧ k < 2 ^ 15 ∧ w.sys.rdLatch = some (2 * k + 1, v)) :=
  ⟨⟨hostHalf live, _, 0x7FFF, 5, 3, rfl, by decide +kernel⟩,
   ⟨hostPinsAccess_1, _, 10, rfl, by decide +kernel⟩,
   ⟨hostHalf live, _, 0x7FFF, rfl, by decide +kernel⟩,
   ⟨hostHalf live, _, 0x7FFF, 8, rfl, by decide +kernel⟩⟩

theorem witness_RingsAndRemoteFrames :
    (∃ (s w : State) (rd : Nat) (ok : Bool) (bs : List Byte) (t : State), w = work s ∧ rd = rd32 w (ctlBlock + 0x04) ∧
      loadMem 10 0 w (cmdRing + rd % 2048 * 16) 16 = (ok, bs, t) ∧ cmdsOn w = true ∧ rd32 w (ctlBlock + 0x00) ≠ rd) ∧
    (∃ (s w : State) (a n : Nat), w = work s ∧ ueIn w a n = []) ∧
    (∃ s w : State, w = work s ∧ rd32 w (ctlBlock + 0x00) = rd32 w (ctlBlock + 0x04)) ∧
    (∃ (s w : State) (r : RspRec) (rs : List RspRec), w = work s ∧ (sourceOf w 0).rsps = r :: rs ∧ ringFull w = false) ∧
    (∃ (s w : State) (q : Nat) (pre bs : List Byte) (t : State) (u : Udp), w = work s ∧ consume 5 q w = some (pre, bs,
      t) ∧ udpOf bs = some u ∧ linkHead 6 q w = none ∧ cmdsOn w = true ∧ accepted w 10 = true ∧ bit (actW w
      Reg.SYS_CTRL.base) 0 = true ∧ u.dport = fld (actW w Reg.SYS_CTRL.base) 31 16) ∧
    (∃ (s w : State) (q n c : Nat) (bs : List Byte) (t : State), w = work s ∧ takeLink 6 q w = some (n, bs, c, t) ∧
      cmdsOn w = true ∧ getLE (lfPayload bs) 1 1 = 0 ∧ 1 ≤ getLE (lfPayload bs) 0 1 ∧ 16 + 16 * getLE (lfPayload bs) 0
      1 ≤ (lfPayload bs).length) ∧
    (∃ (s w : State) (cfg : Word), w = work s ∧ cfg = actW w Reg.SYS_EVT_FWD_CFG.base ∧ running w = true ∧ w.sys.fwd ≠
      [] ∧ bit (actW w Reg.SYS_CTRL.base) 1 = true ∧ w.sys.fwdTick ≠ some (nowTick w)) :=
  ⟨⟨{ live with mem := [⟨0x18100, 1⟩] }, _, _, (loadMem 10 0 (work ({ live with mem := [⟨0x18100, 1⟩] })) (cmdRing +
    (rd32 (work ({ live with mem := [⟨0x18100, 1⟩] })) (ctlBlock + 0x04)) % 2048 * 16) 16).1, (loadMem 10 0 (work
    ({ live with mem := [⟨0x18100, 1⟩] })) (cmdRing + (rd32 (work ({ live with mem := [⟨0x18100, 1⟩] })) (ctlBlock +
    0x04)) % 2048 * 16) 16).2.1, (loadMem 10 0 (work ({ live with mem := [⟨0x18100, 1⟩] })) (cmdRing + (rd32 (work
    ({ live with mem := [⟨0x18100, 1⟩] })) (ctlBlock + 0x04)) % 2048 * 16) 16).2.2, rfl, rfl, rfl, by decide +kernel⟩,
   ⟨live, _, 0, 0, rfl, by decide +kernel⟩,
   ⟨live, _, rfl, by decide +kernel⟩,
   ⟨ringsAndRemoteFrames_3, _, ((sourceOf (work ringsAndRemoteFrames_3) 0).rsps).headD (⟨0, 0, 0, 0, 0, []⟩),
     ((sourceOf (work ringsAndRemoteFrames_3) 0).rsps).tail, rfl, by decide +kernel⟩,
   ⟨ringsAndRemoteFrames_4, _, 511, ((consume 5 511 (work ringsAndRemoteFrames_4)).getD ([], [], live)).1, ((consume 5
     511 (work ringsAndRemoteFrames_4)).getD ([], [], live)).2.1, ((consume 5 511 (work ringsAndRemoteFrames_4)).getD
     ([], [], live)).2.2, (udpOf (((consume 5 511 (work ringsAndRemoteFrames_4)).getD ([], [], live)).2.1)).getD ⟨0,
     0, 0, 0, []⟩, rfl, some_getD _ ([], [], live) (by decide +kernel), some_getD _ ⟨0, 0, 0, 0, []⟩
     (by decide +kernel), by decide +kernel⟩,
   ⟨ringsAndRemoteFrames_5, _, 5, ((takeLink 6 5 (work ringsAndRemoteFrames_5)).getD (0, [], 0, live)).1, ((takeLink 6
     5 (work ringsAndRemoteFrames_5)).getD (0, [], 0, live)).2.2.1, ((takeLink 6 5 (work ringsAndRemoteFrames_5)).getD
     (0, [], 0, live)).2.1, ((takeLink 6 5 (work ringsAndRemoteFrames_5)).getD (0, [], 0, live)).2.2.2, rfl, some_getD
     _ (0, [], 0, live) (by decide +kernel), by decide +kernel⟩,
   ⟨ringsAndRemoteFrames_6, _, _, rfl, rfl, by decide +kernel⟩⟩

theorem witness_RegistersStoreAndLatch :
    (∃ (s w : State) (a i j : Nat) (v : Word) (r : RegSpec), w = work s ∧ writeWord 3 a v w = plainWrite r i a v w ∧ a
      % 4 = 0 ∧ cmdsOn w = true ∧ assigned w a = true ∧ liveSpec w a = some (r, i, j) ∧ (fabPlace w a = .block ∨
      fabPlace w a = .table) ∧ (r.acc = .ro ∨ r.acc = .wo)) ∧
    (∃ (s w : State) (a i j : Nat) (v : Word) (r : RegSpec), w = work s ∧ writeWord 3 a v w = plainWrite r i a v w ∧ a
      % 4 = 0 ∧ cmdsOn w = true ∧ assigned w a = true ∧ liveSpec w a = some (r, i, j) ∧ (fabPlace w a = .block ∨
      fabPlace w a = .table) ∧ r.acc = .w1c) ∧
    (∃ (s w : State) (a i j : Nat) (v : Word) (r : RegSpec), w = work s ∧ writeWord 3 a v w = plainWrite r i a v w ∧ a
      % 4 = 0 ∧ cmdsOn w = true ∧ assigned w a = true ∧ liveSpec w a = some (r, i, j) ∧ (fabPlace w a = .block ∨
      fabPlace w a = .table) ∧ r.acc = .rw ∧ (regW w a &&& classMask r .frozen = v &&& classMask r .frozen ∨ frozenNow
      w r i = false)) ∧
    (∃ (s w : State) (a i j : Nat) (v : Word) (r : RegSpec), w = work s ∧ writeWord 3 a v w = plainWrite r i a v w ∧ a
      % 4 = 0 ∧ cmdsOn w = true ∧ assigned w a = true ∧ liveSpec w a = some (r, i, j) ∧ (fabPlace w a = .block ∨
      fabPlace w a = .table) ∧ r.acc = .rw ∧ regW w a &&& classMask r .frozen ≠ v &&& classMask r .frozen ∧ frozenNow
      w r i = true) ∧
    (∃ (s w : State) (c : Nat) (e : List Word) (q : List (List Word)) (h : Option Nat), w = work s ∧ cmdsOn w = true ∧
      c < 16 ∧ tabGet ⟨[], none⟩ w.tim.caps c = (⟨q, h⟩ : CapSt) ∧ e = q.headD [0, 0, 0, 0]) :=
  ⟨⟨live, _, 0x10000104, 0, 0, 1, Reg.SYS_EPOCH, rfl, rfl, by decide +kernel⟩,
   ⟨live, _, 0x10000360, 0, 0, 3, Reg.SYS_STAT, rfl, rfl, by decide +kernel⟩,
   ⟨live, _, 0x10000100, 0, 0, 1, Reg.SYS_RENDER_RATE, rfl, rfl, by decide +kernel⟩,
   ⟨live, _, 0x10000100, 0, 0, 2, Reg.SYS_RENDER_RATE, rfl, rfl, by decide +kernel⟩,
   ⟨registersStoreAndLatch_4, _, 15, [1, 2], [[1, 2]], none, rfl, by decide +kernel⟩⟩

theorem witness_TagsEnterTheStream :
    (∃ (s w : State) (w3 : Word) (g : TagRec) (x : State), w = work s ∧ x = setW Reg.SYS_TAG_W3.base w3 w ∧ g =
      tagOfWords (regW w Reg.SYS_TAG_W0.base) (regW w Reg.SYS_TAG_W1.base) (regW w Reg.SYS_TAG_W2.base) w3 ∧ cmdsOn w
      = true ∧ w.heldTags = [] ∧ tagBad x g = false) ∧
    (∃ (s w : State) (w3 : Word) (g : TagRec) (x : State), w = work s ∧ x = setW Reg.SYS_TAG_W3.base w3 w ∧ g =
      tagOfWords (regW w Reg.SYS_TAG_W0.base) (regW w Reg.SYS_TAG_W1.base) (regW w Reg.SYS_TAG_W2.base) w3 ∧ cmdsOn w
      = true ∧ (w.heldTags ≠ [] ∨ tagBad x g = true)) ∧
    (∃ (s w : State) (g : TagRec) (u : Nat), w = work s ∧ tagBlocked w u g = true) ∧
    (∃ (s w : State) (g : TagRec) (u : Nat), w = work s ∧ tagBlocked w u g = false) ∧
    (∃ (s w : State) (h : HeldTag) (t : List HeldTag), w = work s ∧ heldFirst w [] w.heldTags = some (h, t)) ∧
    (∃ (s w t : State) (u : Nat) (g : TagRec), w = work s ∧ takeTransit u (sysClock 1 u w) = some (g, t) ∧ u = uMEA ∧
      running w = true ∧ g.typ = tSTART) ∧
    (∃ (s w t : State) (u : Nat) (g : TagRec), w = work s ∧ takeTransit u (sysClock 1 u w) = some (g, t) ∧ running w =
      true ∧ (g.typ = tMARK ∨ g.typ = tEPOCH ∧ bit g.payload 1 = false ∨ g.typ = tCUE ∨ g.typ = tSTOP)) ∧
    (∃ (s w t : State) (u : Nat) (g : TagRec), w = work s ∧ takeTransit u (sysClock 1 u w) = some (g, t) ∧ running w =
      true ∧ g.typ = tEPOCH ∧ bit g.payload 1 = true ∧ u ∈ [uMST, uLNK, uTDM, uAES]) :=
  ⟨⟨tagsEnterTheStream_0, _, 0, _, _, rfl, rfl, rfl, by decide +kernel⟩,
   ⟨tagsEnterTheStream_1, _, 0, _, _, rfl, rfl, rfl, by decide +kernel⟩,
   ⟨tagsEnterTheStream_1, _, tag 0 0 0, uLAN, rfl, by decide +kernel⟩,
   ⟨live, _, tag 0 0 0, uLAN, rfl, by decide +kernel⟩,
   ⟨tagsEnterTheStream_1, _, ⟨uLAN, tag 1 0 0, none⟩, [], rfl, by decide +kernel⟩,
   ⟨tagsEnterTheStream_5, _, ((takeTransit uMEA (sysClock 1 uMEA (work tagsEnterTheStream_5))).getD ((tag 0 0 0),
     live)).2, _, ((takeTransit uMEA (sysClock 1 uMEA (work tagsEnterTheStream_5))).getD ((tag 0 0 0), live)).1, rfl,
     some_getD _ ((tag 0 0 0), live) (by decide +kernel), rfl, by decide +kernel⟩,
   ⟨tagsEnterTheStream_6, _, ((takeTransit uSYS (sysClock 1 uSYS (work tagsEnterTheStream_6))).getD ((tag 0 0 0),
     live)).2, uSYS, ((takeTransit uSYS (sysClock 1 uSYS (work tagsEnterTheStream_6))).getD ((tag 0 0 0), live)).1,
     rfl, some_getD _ ((tag 0 0 0), live) (by decide +kernel), by decide +kernel⟩,
   ⟨tagsEnterTheStream_7, _, ((takeTransit uMST (sysClock 1 uMST (work tagsEnterTheStream_7))).getD ((tag 0 0 0),
     live)).2, uMST, ((takeTransit uMST (sysClock 1 uMST (work tagsEnterTheStream_7))).getD ((tag 0 0 0), live)).1,
     rfl, some_getD _ ((tag 0 0 0), live) (by decide +kernel), by decide +kernel⟩⟩

theorem witness_DueTagsAct :
    (∃ (s w : State) (u : Nat) (p : PendTag), w = work s ∧ running w = true ∧ dueFirst w u = some p ∧ p.tag.typ =
      tCOMMIT) ∧
    (∃ (s w : State) (u : Nat) (p : PendTag), w = work s ∧ running w = true ∧ dueFirst w u = some p ∧ p.tag.typ =
      tMARK) ∧
    (∃ (s w : State) (u : Nat) (p : PendTag), w = work s ∧ running w = true ∧ dueFirst w u = some p ∧ p.tag.typ =
      tEPOCH) ∧
    (∃ (s w : State) (u : Nat) (p : PendTag), w = work s ∧ u = uRTE ∧ running w = true ∧ dueFirst w u = some p ∧
      p.tag.typ = tROUTE) ∧
    (∃ (s w : State) (u : Nat) (p : PendTag), w = work s ∧ u = uRTE ∧ running w = true ∧ dueFirst w u = some p ∧
      p.tag.typ = tRAMP) ∧
    (∃ (s w : State) (u : Nat) (p : PendTag), w = work s ∧ u = uINC ∧ running w = true ∧ dueFirst w u = some p ∧
      p.tag.typ = tRAMP) ∧
    (∃ (s w : State) (u : Nat) (p : PendTag), w = work s ∧ u = uCOR ∧ running w = true ∧ dueFirst w u = some p ∧
      p.tag.typ = tRAMP) ∧
    (∃ (s w : State) (u : Nat) (p : PendTag), w = work s ∧ u = uLAN ∧ running w = true ∧ dueFirst w u = some p ∧
      p.tag.typ = tMIGRATE) ∧
    (∃ (s w : State) (u : Nat) (p : PendTag), w = work s ∧ u = uCOR ∧ running w = true ∧ dueFirst w u = some p ∧
      p.tag.typ = tSWAP) :=
  ⟨⟨pend uSYS (tag tCOMMIT uSYS 0) live, _, uSYS, ⟨tag tCOMMIT uSYS 0, 0, []⟩, rfl, by decide +kernel⟩,
   ⟨pend uAES (tag tMARK uAES 0) live, _, uAES, ⟨tag tMARK uAES 0, 0, []⟩, rfl, by decide +kernel⟩,
   ⟨pend uMEA (tag tEPOCH uMEA 0) live, _, uMEA, ⟨tag tEPOCH uMEA 0, 0, []⟩, rfl, by decide +kernel⟩,
   ⟨pend uRTE (tag tROUTE uRTE 0) live, _, _, ⟨tag tROUTE uRTE 0, 0, []⟩, rfl, rfl, by decide +kernel⟩,
   ⟨pend uRTE (tag tRAMP uRTE 0) live, _, _, ⟨tag tRAMP uRTE 0, 0, []⟩, rfl, rfl, by decide +kernel⟩,
   ⟨pend uINC (tag tRAMP uINC 0) live, _, _, ⟨tag tRAMP uINC 0, 0, []⟩, rfl, rfl, by decide +kernel⟩,
   ⟨pend uCOR (tag tRAMP uCOR 0) live, _, _, ⟨tag tRAMP uCOR 0, 0, []⟩, rfl, rfl, by decide +kernel⟩,
   ⟨pend uLAN (tag tMIGRATE uLAN 0) live, _, _, ⟨tag tMIGRATE uLAN 0, 0, []⟩, rfl, rfl, by decide +kernel⟩,
   ⟨pend uCOR (tag tSWAP uCOR 0) live, _, _, ⟨tag tSWAP uCOR 0, 0, []⟩, rfl, rfl, by decide +kernel⟩⟩

theorem witness_StartStopTagsAct :
    (∃ (s w : State) (u : Nat) (p : PendTag) (aes : Bool), w = work s ∧ running w = true ∧ dueFirst w u = some p ∧ u =
      serUnit aes ∧ (aes = true ∨ bit p.tag.payload 0 = false) ∧ p.tag.typ = tSTART) ∧
    (∃ (s w : State) (u : Nat) (p : PendTag) (aes : Bool), w = work s ∧ running w = true ∧ dueFirst w u = some p ∧ u =
      serUnit aes ∧ (aes = true ∨ bit p.tag.payload 0 = false) ∧ p.tag.typ = tSTOP) ∧
    (∃ (s w : State) (u : Nat) (p : PendTag), w = work s ∧ u = uTDM ∧ running w = true ∧ dueFirst w u = some p ∧ bit
      p.tag.payload 0 = true ∧ p.tag.typ = tSTART) ∧
    (∃ (s w : State) (u : Nat) (p : PendTag), w = work s ∧ u = uTDM ∧ running w = true ∧ dueFirst w u = some p ∧ bit
      p.tag.payload 0 = true ∧ p.tag.typ = tSTOP) ∧
    (∃ (s w : State) (u : Nat) (p : PendTag), w = work s ∧ u = uMST ∧ running w = true ∧ dueFirst w u = some p ∧
      p.tag.typ = tSTART) ∧
    (∃ (s w : State) (u : Nat) (p : PendTag), w = work s ∧ u = uMST ∧ running w = true ∧ dueFirst w u = some p ∧
      p.tag.typ = tSTOP) ∧
    (∃ (s w : State) (u : Nat) (p : PendTag), w = work s ∧ u = uLNK ∧ running w = true ∧ dueFirst w u = some p ∧
      p.tag.typ = tSTART) ∧
    (∃ (s w : State) (u : Nat) (p : PendTag), w = work s ∧ u = uLNK ∧ running w = true ∧ dueFirst w u = some p ∧
      p.tag.typ = tSTOP) ∧
    (∃ (s w : State) (u : Nat) (p : PendTag), w = work s ∧ u = uMEA ∧ running w = true ∧ dueFirst w u = some p ∧
      p.tag.typ = tSTART) ∧
    (∃ (s w : State) (u : Nat) (p : PendTag), w = work s ∧ u = uMEA ∧ running w = true ∧ dueFirst w u = some p ∧
      p.tag.typ = tSTOP) :=
  ⟨⟨pend uAES (tag tSTART uAES 1) live, _, uAES, ⟨tag tSTART uAES 1, 0, []⟩, true, rfl, by decide +kernel⟩,
   ⟨pend uTDM (tag tSTOP uTDM 0) live, _, uTDM, ⟨tag tSTOP uTDM 0, 0, []⟩, false, rfl, by decide +kernel⟩,
   ⟨pend uTDM (tag tSTART uTDM 1) live, _, _, ⟨tag tSTART uTDM 1, 0, []⟩, rfl, rfl, by decide +kernel⟩,
   ⟨pend uTDM (tag tSTOP uTDM 1) live, _, _, ⟨tag tSTOP uTDM 1, 0, []⟩, rfl, rfl, by decide +kernel⟩,
   ⟨pend uMST (tag tSTART uMST 0) live, _, _, ⟨tag tSTART uMST 0, 0, []⟩, rfl, rfl, by decide +kernel⟩,
   ⟨pend uMST (tag tSTOP uMST 0) live, _, _, ⟨tag tSTOP uMST 0, 0, []⟩, rfl, rfl, by decide +kernel⟩,
   ⟨pend uLNK (tag tSTART uLNK 0) live, _, _, ⟨tag tSTART uLNK 0, 0, []⟩, rfl, rfl, by decide +kernel⟩,
   ⟨pend uLNK (tag tSTOP uLNK 0) live, _, _, ⟨tag tSTOP uLNK 0, 0, []⟩, rfl, rfl, by decide +kernel⟩,
   ⟨pend uMEA (tag tSTART uMEA 0) live, _, _, ⟨tag tSTART uMEA 0, 0, []⟩, rfl, rfl, by decide +kernel⟩,
   ⟨pend uMEA (tag tSTOP uMEA 0) live, _, _, ⟨tag tSTOP uMEA 0, 0, []⟩, rfl, rfl, by decide +kernel⟩⟩

theorem witness_CueAndSnapTagsAct :
    (∃ (s w : State) (p : PendTag) (t : SnapTab) (k : Nat) (x : State), w = work s ∧ (snapTab (removePend uSYS p w)).1
      = some t ∧ x = (snapTab (removePend uSYS p w)).2 ∧ running w = true ∧ fld p.tag.payload 15 0 = k ∧ k ≠ 0xFFFF ∧
      (unitSt w uSYS).pend.find? (fun q => q.tag.typ == tCUE) = some p ∧ t.cues ≤ k) ∧
    (∃ (s w : State) (p : PendTag) (t : SnapTab) (k : Nat) (x : State) (ok : Bool) (c : List Byte) (y z v : State), w
      = work s ∧ (snapTab (removePend uSYS p w)).1 = some t ∧ x = (snapTab (removePend uSYS p w)).2 ∧ fabRead 10 0 x
      (t.base + 16 + 16 * t.snaps + 16 * k) 16 = (ok, c, y) ∧ (getLE c 0 2 = 0xFFFF ∧ z = y ∨ (∃ (area : Nat) (as :
      List Nat) (q : State), getLE c 0 2 ≠ 0xFFFF ∧ snapEntry t (getLE c 0 2) y = (some (area, as), q) ∧ recallWords
      as area q = .ok z)) ∧ applyRecords (getLE c 2 2) (getLE c 4 5) z = .ok v ∧ running w = true ∧ fld p.tag.payload
      15 0 = k ∧ k ≠ 0xFFFF ∧ (unitSt w uSYS).pend.find? (fun q => q.tag.typ == tCUE) = some p ∧ k < t.cues) ∧
    (∃ (s w : State) (p : PendTag) (t : SnapTab) (k area : Nat) (as : List Nat) (u : State), w = work s ∧ (snapTab
      (removePend uSYS p w)).1 = some t ∧ (snapEntry t k (snapTab (removePend uSYS p w)).2).1 = some (area, as) ∧
      fabWrite 3 10 0 (wordValues as (snapEntry t k (snapTab (removePend uSYS p w)).2).2).2 area (wordValues as
      (snapEntry t k (snapTab (removePend uSYS p w)).2).2).1 = .ok u ∧ running w = true ∧ fld p.tag.payload 15 0 = k ∧
      k ≠ 0xFFFF ∧ (unitSt w uSYS).pend.find? (fun q => q.tag.typ == tSNAP && ((bit q.tag.payload 16 && !bit
      q.tag.payload 17) || decide (q.block ≤ nowBlock w))) = some p ∧ bit p.tag.payload 17 = false ∧ p.snap = [] ∧ bit
      p.tag.payload 16 = false ∧ as.any (snapBars (snapEntry t k (snapTab (removePend uSYS p w)).2).2) = false) ∧
    (∃ (s w : State) (p : PendTag) (t : SnapTab) (k area : Nat) (as : List Nat) (u : State), w = work s ∧ (snapTab
      (removePend uSYS p w)).1 = some t ∧ (snapEntry t k (snapTab (removePend uSYS p w)).2).1 = some (area, as) ∧
      recallWords as area (snapEntry t k (snapTab (removePend uSYS p w)).2).2 = .ok u ∧ running w = true ∧ fld
      p.tag.payload 15 0 = k ∧ k ≠ 0xFFFF ∧ (unitSt w uSYS).pend.find? (fun q => q.tag.typ == tSNAP && ((bit
      q.tag.payload 16 && !bit q.tag.payload 17) || decide (q.block ≤ nowBlock w))) = some p ∧ bit p.tag.payload 17 =
      false ∧ p.snap = [] ∧ bit p.tag.payload 16 = true) :=
  ⟨⟨cueAndSnapTagsAct_0, _, ⟨tag tCUE uSYS 5, 0, []⟩, ((snapTab (removePend uSYS (⟨tag tCUE uSYS 5, 0, []⟩) (work
    cueAndSnapTagsAct_0))).1).getD ⟨0, 0, 0⟩, 5, _, rfl, some_getD _ ⟨0, 0, 0⟩ (by decide +kernel), rfl,
    by decide +kernel⟩,
   ⟨cueAndSnapTagsAct_1, _, ⟨tag tCUE uSYS 0, 0, []⟩, ((snapTab (removePend uSYS (⟨tag tCUE uSYS 0, 0, []⟩) (work
     cueAndSnapTagsAct_1))).1).getD ⟨0, 0, 0⟩, 0, _, (fabRead 10 0 ((snapTab (removePend uSYS (⟨tag tCUE uSYS 0, 0,
     []⟩) (work cueAndSnapTagsAct_1))).2) ((((snapTab (removePend uSYS (⟨tag tCUE uSYS 0, 0, []⟩) (work
     cueAndSnapTagsAct_1))).1).getD ⟨0, 0, 0⟩).base + 16 + 16 * (((snapTab (removePend uSYS (⟨tag tCUE uSYS 0, 0, []⟩)
     (work cueAndSnapTagsAct_1))).1).getD ⟨0, 0, 0⟩).snaps + 16 * 0) 16).1, (fabRead 10 0 ((snapTab (removePend uSYS
     (⟨tag tCUE uSYS 0, 0, []⟩) (work cueAndSnapTagsAct_1))).2) ((((snapTab (removePend uSYS (⟨tag tCUE uSYS 0, 0,
     []⟩) (work cueAndSnapTagsAct_1))).1).getD ⟨0, 0, 0⟩).base + 16 + 16 * (((snapTab (removePend uSYS (⟨tag tCUE uSYS
     0, 0, []⟩) (work cueAndSnapTagsAct_1))).1).getD ⟨0, 0, 0⟩).snaps + 16 * 0) 16).2.1, (fabRead 10 0 ((snapTab
     (removePend uSYS (⟨tag tCUE uSYS 0, 0, []⟩) (work cueAndSnapTagsAct_1))).2) ((((snapTab (removePend uSYS (⟨tag
     tCUE uSYS 0, 0, []⟩) (work cueAndSnapTagsAct_1))).1).getD ⟨0, 0, 0⟩).base + 16 + 16 * (((snapTab (removePend uSYS
     (⟨tag tCUE uSYS 0, 0, []⟩) (work cueAndSnapTagsAct_1))).1).getD ⟨0, 0, 0⟩).snaps + 16 * 0) 16).2.2, (fabRead 10 0
     ((snapTab (removePend uSYS (⟨tag tCUE uSYS 0, 0, []⟩) (work cueAndSnapTagsAct_1))).2) ((((snapTab (removePend
     uSYS (⟨tag tCUE uSYS 0, 0, []⟩) (work cueAndSnapTagsAct_1))).1).getD ⟨0, 0, 0⟩).base + 16 + 16 * (((snapTab
     (removePend uSYS (⟨tag tCUE uSYS 0, 0, []⟩) (work cueAndSnapTagsAct_1))).1).getD ⟨0, 0, 0⟩).snaps + 16 * 0)
     16).2.2, okOr live (applyRecords (getLE ((fabRead 10 0 ((snapTab (removePend uSYS (⟨tag tCUE uSYS 0, 0, []⟩)
     (work cueAndSnapTagsAct_1))).2) ((((snapTab (removePend uSYS (⟨tag tCUE uSYS 0, 0, []⟩) (work
     cueAndSnapTagsAct_1))).1).getD ⟨0, 0, 0⟩).base + 16 + 16 * (((snapTab (removePend uSYS (⟨tag tCUE uSYS 0, 0, []⟩)
     (work cueAndSnapTagsAct_1))).1).getD ⟨0, 0, 0⟩).snaps + 16 * 0) 16).2.1) 2 2) (getLE ((fabRead 10 0 ((snapTab
     (removePend uSYS (⟨tag tCUE uSYS 0, 0, []⟩) (work cueAndSnapTagsAct_1))).2) ((((snapTab (removePend uSYS (⟨tag
     tCUE uSYS 0, 0, []⟩) (work cueAndSnapTagsAct_1))).1).getD ⟨0, 0, 0⟩).base + 16 + 16 * (((snapTab (removePend uSYS
     (⟨tag tCUE uSYS 0, 0, []⟩) (work cueAndSnapTagsAct_1))).1).getD ⟨0, 0, 0⟩).snaps + 16 * 0) 16).2.1) 4 5)
     ((fabRead 10 0 ((snapTab (removePend uSYS (⟨tag tCUE uSYS 0, 0, []⟩) (work cueAndSnapTagsAct_1))).2) ((((snapTab
     (removePend uSYS (⟨tag tCUE uSYS 0, 0, []⟩) (work cueAndSnapTagsAct_1))).1).getD ⟨0, 0, 0⟩).base + 16 + 16 *
     (((snapTab (removePend uSYS (⟨tag tCUE uSYS 0, 0, []⟩) (work cueAndSnapTagsAct_1))).1).getD ⟨0, 0, 0⟩).snaps + 16
     * 0) 16).2.2)), rfl, some_getD _ ⟨0, 0, 0⟩ (by decide +kernel), rfl, rfl, (Or.inl ⟨by decide +kernel, rfl⟩),
     (ok_okOr _ _ (by decide +kernel)), by decide +kernel⟩,
   ⟨cueAndSnapTagsAct_2, _, ⟨tag tSNAP uSYS 0, 0, []⟩, ((snapTab (removePend uSYS (⟨tag tSNAP uSYS 0, 0, []⟩) (work
     cueAndSnapTagsAct_2))).1).getD ⟨0, 0, 0⟩, 0, (((snapEntry (((snapTab (removePend uSYS (⟨tag tSNAP uSYS 0, 0, []⟩)
     (work cueAndSnapTagsAct_2))).1).getD ⟨0, 0, 0⟩) 0 (snapTab (removePend uSYS (⟨tag tSNAP uSYS 0, 0, []⟩) (work
     cueAndSnapTagsAct_2))).2).1).getD (0, [])).1, (((snapEntry (((snapTab (removePend uSYS (⟨tag tSNAP uSYS 0, 0,
     []⟩) (work cueAndSnapTagsAct_2))).1).getD ⟨0, 0, 0⟩) 0 (snapTab (removePend uSYS (⟨tag tSNAP uSYS 0, 0, []⟩)
     (work cueAndSnapTagsAct_2))).2).1).getD (0, [])).2, okOr live (fabWrite 3 10 0 (wordValues ((((snapEntry
     (((snapTab (removePend uSYS (⟨tag tSNAP uSYS 0, 0, []⟩) (work cueAndSnapTagsAct_2))).1).getD ⟨0, 0, 0⟩) 0
     (snapTab (removePend uSYS (⟨tag tSNAP uSYS 0, 0, []⟩) (work cueAndSnapTagsAct_2))).2).1).getD (0, [])).2)
     (snapEntry (((snapTab (removePend uSYS (⟨tag tSNAP uSYS 0, 0, []⟩) (work cueAndSnapTagsAct_2))).1).getD ⟨0, 0,
     0⟩) 0 (snapTab (removePend uSYS (⟨tag tSNAP uSYS 0, 0, []⟩) (work cueAndSnapTagsAct_2))).2).2).2 ((((snapEntry
     (((snapTab (removePend uSYS (⟨tag tSNAP uSYS 0, 0, []⟩) (work cueAndSnapTagsAct_2))).1).getD ⟨0, 0, 0⟩) 0
     (snapTab (removePend uSYS (⟨tag tSNAP uSYS 0, 0, []⟩) (work cueAndSnapTagsAct_2))).2).1).getD (0, [])).1)
     (wordValues ((((snapEntry (((snapTab (removePend uSYS (⟨tag tSNAP uSYS 0, 0, []⟩) (work
     cueAndSnapTagsAct_2))).1).getD ⟨0, 0, 0⟩) 0 (snapTab (removePend uSYS (⟨tag tSNAP uSYS 0, 0, []⟩) (work
     cueAndSnapTagsAct_2))).2).1).getD (0, [])).2) (snapEntry (((snapTab (removePend uSYS (⟨tag tSNAP uSYS 0, 0, []⟩)
     (work cueAndSnapTagsAct_2))).1).getD ⟨0, 0, 0⟩) 0 (snapTab (removePend uSYS (⟨tag tSNAP uSYS 0, 0, []⟩) (work
     cueAndSnapTagsAct_2))).2).2).1), rfl, some_getD _ ⟨0, 0, 0⟩ (by decide +kernel), some_getD _ (0, [])
     (by decide +kernel), (ok_okOr _ _ (by decide +kernel)), by decide +kernel⟩,
   ⟨cueAndSnapTagsAct_3, _, ⟨tag tSNAP uSYS 0x10000, 0, []⟩, ((snapTab (removePend uSYS (⟨tag tSNAP uSYS 0x10000, 0,
     []⟩) (work cueAndSnapTagsAct_3))).1).getD ⟨0, 0, 0⟩, 0, (((snapEntry (((snapTab (removePend uSYS (⟨tag tSNAP uSYS
     0x10000, 0, []⟩) (work cueAndSnapTagsAct_3))).1).getD ⟨0, 0, 0⟩) 0 (snapTab (removePend uSYS (⟨tag tSNAP uSYS
     0x10000, 0, []⟩) (work cueAndSnapTagsAct_3))).2).1).getD (0, [])).1, (((snapEntry (((snapTab (removePend uSYS
     (⟨tag tSNAP uSYS 0x10000, 0, []⟩) (work cueAndSnapTagsAct_3))).1).getD ⟨0, 0, 0⟩) 0 (snapTab (removePend uSYS
     (⟨tag tSNAP uSYS 0x10000, 0, []⟩) (work cueAndSnapTagsAct_3))).2).1).getD (0, [])).2, okOr live (recallWords
     ((((snapEntry (((snapTab (removePend uSYS (⟨tag tSNAP uSYS 0x10000, 0, []⟩) (work cueAndSnapTagsAct_3))).1).getD
     ⟨0, 0, 0⟩) 0 (snapTab (removePend uSYS (⟨tag tSNAP uSYS 0x10000, 0, []⟩) (work cueAndSnapTagsAct_3))).2).1).getD
     (0, [])).2) ((((snapEntry (((snapTab (removePend uSYS (⟨tag tSNAP uSYS 0x10000, 0, []⟩) (work
     cueAndSnapTagsAct_3))).1).getD ⟨0, 0, 0⟩) 0 (snapTab (removePend uSYS (⟨tag tSNAP uSYS 0x10000, 0, []⟩) (work
     cueAndSnapTagsAct_3))).2).1).getD (0, [])).1) (snapEntry (((snapTab (removePend uSYS (⟨tag tSNAP uSYS 0x10000, 0,
     []⟩) (work cueAndSnapTagsAct_3))).1).getD ⟨0, 0, 0⟩) 0 (snapTab (removePend uSYS (⟨tag tSNAP uSYS 0x10000, 0,
     []⟩) (work cueAndSnapTagsAct_3))).2).2), rfl, some_getD _ ⟨0, 0, 0⟩ (by decide +kernel), some_getD _ (0, [])
     (by decide +kernel), (ok_okOr _ _ (by decide +kernel)), by decide +kernel⟩⟩

theorem witness_BlocksAndTicksAdvance :
    (∃ (s w : State) (u : Nat) (x : BlockIn), w = work s ∧ running w = true ∧ honoursTags u = true ∧ u ≠ uSYS ∧
      unitPresent w u = true ∧ x.out = false ∧ inputsIn false u (unitSt w u).next w = true) ∧
    (∃ (s w : State) (u : Nat) (x : BlockIn), w = work s ∧ running w = true ∧ honoursTags u = true ∧ u ≠ uSYS ∧
      unitPresent w u = true ∧ x.out = true ∧ hasOut u = true ∧ inputsIn true u (sideNext true u w) w = true) ∧
    (∃ (s w : State) (u : Nat), w = work s ∧ running w = true ∧ unitPresent w u = true ∧ honoursTags u = true ∧
      tickOpen w u = true) ∧
    (∃ (s w : State) (u : Nat), w = work s ∧ u = uPAR ∧ running w = true ∧ unitPresent w u = true ∧ honoursTags u =
      false ∧ (unitSt w u).tickDone ≠ some (nowTick w)) ∧
    (∃ (s w : State) (u : Nat), w = work s ∧ u = uHLT ∧ running w = true ∧ unitPresent w u = true ∧ honoursTags u =
      false ∧ (unitSt w u).tickDone ≠ some (nowTick w)) ∧
    (∃ (s w : State) (u : Nat), w = work s ∧ u = uCLK ∧ running w = true ∧ unitPresent w u = true ∧ honoursTags u =
      false ∧ (unitSt w u).tickDone ≠ some (nowTick w)) :=
  ⟨⟨blocksAndTicksAdvance_0, _, uINC, ⟨false, [], [], [], [], [], [], [], []⟩, rfl, by decide +kernel⟩,
   ⟨blocksAndTicksAdvance_1, _, uMST, ⟨true, [], [], [], [], [], [], [], []⟩, rfl, by decide +kernel⟩,
   ⟨live, _, uSLV, rfl, by decide +kernel⟩,
   ⟨live, _, _, rfl, rfl, by decide +kernel⟩,
   ⟨live, _, _, rfl, rfl, by decide +kernel⟩,
   ⟨live, _, _, rfl, rfl, by decide +kernel⟩⟩

theorem witness_ReleaseDeadlineTimeStep :
    (∃ s w : State, w = work s ∧ running w = true ∧ inputsIn false uRED (unitSt w uRED).next w = true ∧ renders w
      (unitSt w uRED).next = true) ∧
    (∃ (s w : State) (kind number b : Nat) (t : State), w = work s ∧ b = outOfKind kind w ∧ t = raise 0x03 (bytesOf 1
      kind ++ bytesOf 1 number ++ bytesOf 4 (extBlk w b)) (count Reg.HLT_DEADLINE_MISS_CNT.base w) ∧ running w = true
      ∧ b + 7 ≤ nowBlock w) ∧
    (∃ (s w : State) (kind : Nat), w = work s ∧ running w = true ∧ nowBlock w < outOfKind kind w + 7) ∧
    (∃ s w t : State, w = work s ∧ t =
      { modTim (fun x => { x with stepDue := false }) w with time := { w.time with haveTime := true } } ∧ running w =
      true ∧ unitPresent w uTIM = true ∧ w.tim.stepDue = true ∧ w.time.stepWaits = false ∧ stepTicks w = 0) ∧
    (∃ (s w t : State) (k : Nat), w = work s ∧ t =
      { modTim (fun x => { x with stepDue := false }) w with time := { w.time with haveTime := true } } ∧ k = nowTick
      w + 3 ∧ running w = true ∧ unitPresent w uTIM = true ∧ w.tim.stepDue = true ∧ w.time.stepWaits = false ∧
      stepTicks w ≠ 0) ∧
    (∃ (s w : State) (k now : Nat) (ofs x on was : Int) (before : List (Nat × Int)), w = work s ∧ x = k * tickLen w ∧
      on = ofs * tickLen w ∧ was = (before.head?.map (·.2)).getD 0 * tickLen w ∧ now = (((w.time.sec * subPerSec +
      w.time.sub : Nat) : Int) + (on - was) * (subPerSample w : Nat)).toNat ∧ running w = true ∧ w.time.steps = (k,
      ofs) :: before ∧ w.time.stepWaits = true ∧ x ≤ w.time.idx) ∧
    (∃ (s w : State) (k now : Nat) (ofs x on was : Int) (before : List (Nat × Int)), w = work s ∧ x = k * tickLen w ∧
      on = ofs * tickLen w ∧ was = (before.head?.map (·.2)).getD 0 * tickLen w ∧ now = (((w.time.sec * subPerSec +
      w.time.sub : Nat) : Int) + (on - was) * (subPerSample w : Nat)).toNat ∧ running w = true ∧ w.time.steps = (k,
      ofs) :: before ∧ w.time.stepWaits = true ∧ w.time.idx < x) ∧
    (∃ (s w : State) (y : Nat), w = work s ∧ running w = true ∧ (∀ p ∈ w.time.steps, y < p.1 * tickLen w)) ∧
    (∃ (s w : State) (y : Nat) (p : Nat × Int) (ps : List (Nat × Int)), w = work s ∧ running w = true ∧ w.time.steps =
      p :: ps ∧ p.1 * tickLen w ≤ y) :=
  ⟨⟨releaseDeadlineTimeStep_0, _, rfl, by decide +kernel⟩,
   ⟨atIdx 112 live, _, 3, 0, _, _, rfl, rfl, rfl, by decide +kernel⟩,
   ⟨live, _, 3, rfl, by decide +kernel⟩,
   ⟨releaseDeadlineTimeStep_3, _, _, rfl, rfl, by decide +kernel⟩,
   ⟨stepping, _, _, _, rfl, rfl, rfl, by decide +kernel⟩,
   ⟨releaseDeadlineTimeStep_5, _, 0, _, 5, _, _, _, [], rfl, rfl, rfl, rfl, rfl, by decide +kernel⟩,
   ⟨releaseDeadlineTimeStep_6, _, 1, _, 5, _, _, _, [], rfl, rfl, rfl, rfl, rfl, by decide +kernel⟩,
   ⟨live, _, 0, rfl, by decide +kernel⟩,
   ⟨releaseDeadlineTimeStep_8, _, 0, ((work releaseDeadlineTimeStep_8).time.steps).headD ((0, 0)), ((work
     releaseDeadlineTimeStep_8).time.steps).tail, rfl, by decide +kernel⟩⟩

theorem witness_InputsLockAndRest :
    (∃ (s w : State) (c rate : Nat) (t : State), w = work s ∧ up w uINC ∧ t = chanBit c 3 false (chanBit c 1 true
      (chanBit c 0 true (modChan c (fun y =>
      { y with lock := .unsettled (settleLen w (fld (actW w (Reg.INCH1.at c)) 2 1)) }) (setF (Reg.INCS1.at c) 17 0
      rate w)))) ∧ (chanSt w c).hasAsrc = true ∧ 32000 ≤ rate ∧ rate ≤ 216000 ∧ (chanSt w c).lock = .measuring) ∧
    (∃ (s w : State) (c rate : Nat) (t : State), w = work s ∧ up w uINC ∧ t = chanBit c 3 false (chanBit c 1 true
      (chanBit c 0 true (modChan c (fun y =>
      { y with lock := .unsettled (settleLen w (fld (actW w (Reg.INCH1.at c)) 2 1)) }) (setF (Reg.INCS1.at c) 17 0
      rate w)))) ∧ (chanSt w c).hasAsrc = true ∧ 32000 ≤ rate ∧ rate ≤ 216000 ∧ (chanSt w c).lock = .outOfRange) ∧
    (∃ (s w : State) (c rate : Nat) (t : State), w = work s ∧ up w uINC ∧ t = incFault 1 c (chanBit c 3 true (chanBit
      c 0 false (modChan c (fun y => { y with lock := .outOfRange }) (setF (Reg.INCS1.at c) 17 0 rate w)))) ∧ (chanSt
      w c).hasAsrc = true ∧ (rate < 32000 ∨ 216000 < rate) ∧ (chanSt w c).lock = .measuring) ∧
    (∃ (s w : State) (c rate : Nat) (t : State), w = work s ∧ up w uINC ∧ t = incFault 1 c (chanBit c 3 true (chanBit
      c 0 false (modChan c (fun y => { y with lock := .outOfRange }) (setF (Reg.INCS1.at c) 17 0 rate w)))) ∧ (chanSt
      w c).hasAsrc = true ∧ (rate < 32000 ∨ 216000 < rate) ∧ (chanSt w c).lock = .outOfRange) ∧
    (∃ (s w : State) (c : Nat), w = work s ∧ up w uINC ∧ (chanSt w c).hasAsrc = true ∧ (chanSt w c).lock = .unsettled
      0) ∧
    (∃ (s w : State) (n : Nat), w = work s ∧ up w uINC ∧ actF w (Reg.INCH3.at n) 15 0 ≠ 0 ∧ actF w (Reg.INCH3.at n) 15
      0 * tickLen w ≤ (chanSt w n).quiet ∧ tickLen w ≠ 0 ∧ (chanSt w n).wall = .active) ∧
    (∃ (s w : State) (n : Nat), w = work s ∧ up w uCOR ∧ actF w (Reg.COUT5.at n) 15 0 ≠ 0 ∧ actF w (Reg.COUT5.at n) 15
      0 * tickLen w ≤ (corOut w n).quiet ∧ tickLen w ≠ 0 ∧ (corOut w n).wall = .active) :=
  ⟨⟨inputsLockAndRest_0, _, 0, 32000, _, rfl, up_of (by decide +kernel), rfl, by decide +kernel⟩,
   ⟨inputsLockAndRest_1, _, 0, 216000, _, rfl, up_of (by decide +kernel), rfl, by decide +kernel⟩,
   ⟨inputsLockAndRest_0, _, 0, 31999, _, rfl, up_of (by decide +kernel), rfl, by decide +kernel⟩,
   ⟨inputsLockAndRest_1, _, 0, 216001, _, rfl, up_of (by decide +kernel), rfl, by decide +kernel⟩,
   ⟨inputsLockAndRest_4, _, 0, rfl, up_of (by decide +kernel), by decide +kernel⟩,
   ⟨inputsLockAndRest_5, _, 0, rfl, up_of (by decide +kernel), by decide +kernel⟩,
   ⟨inputsLockAndRest_6, _, 0, rfl, up_of (by decide +kernel), by decide +kernel⟩⟩

theorem witness_MotionIsIngested :
    (∃ (s w : State) (q : Nat) (pre bs : List Byte) (t : State) (d : Udp) (mine : Bool), w = work s ∧ up w uMOT ∧
      consume 3 q w = some (pre, bs, t) ∧ udpOf bs = some d ∧ mine = (actB t Reg.MOT_CTRL.base 0 && toDevice t d.dst
      d.dport (actF t Reg.MOT_OSC_PORT.base 15 0))) ∧
    (∃ (s w : State) (due : OscHeld → Bool), w = work s ∧ up w uMOT ∧ due = (fun m => decide (m.time ≤ extBlk w
      (unitSt w uMOT).next * 16))) ∧
    (∃ (s w : State) (q : Nat) (pre bs : List Byte) (t : State) (d : Udp) (mine : Bool), w = work s ∧ up w uMOT ∧
      consume 4 q w = some (pre, bs, t) ∧ udpOf bs = some d ∧ mine = (actB t Reg.MOT_CTRL.base 1 && toDevice t d.dst
      d.dport (actF t Reg.MOT_NATIVE_PORT.base 15 0)) ∧ takeLink 2 q w = none) ∧
    (∃ (s w : State) (q n c : Nat) (bs : List Byte) (t : State), w = work s ∧ up w uMOT ∧ takeLink 2 q w = some (n,
      bs, c, t)) ∧
    (∃ (s w : State) (n : Nat), w = work s ∧ up w uMOT ∧ objCount w ≤ n) ∧
    (∃ (s w : State) (n : Nat), w = work s ∧ up w uMOT ∧ n < objCount w) ∧
    (∃ (w : State) (p : List Byte), (p.length < 32 ∨ getLE p 0 2 ≠ 1 ∨ getLE p 2 1 = 0 ∨ p.length ≠ 32 + 32 * getLE p
      2 1 ∨ (∃ x : Sender, w.mot.senders.find? (fun x => x.id == getLE p 4 4) = some x ∧ getLE p 8 8 ≤ x.seq))) ∧
    (∃ (w : State) (p : List Byte), (∀ x : Sender, w.mot.senders.find? (fun x => x.id == getLE p 4 4) = some x → x.seq
      < getLE p 8 8) ∧ 32 ≤ p.length ∧ getLE p 0 2 = 1 ∧ getLE p 2 1 ≠ 0 ∧ p.length = 32 + 32 * getLE p 2 1) :=
  ⟨⟨motionIsIngested_0, _, 511, ((consume 3 511 (work motionIsIngested_0)).getD ([], [], live)).1, ((consume 3 511
    (work motionIsIngested_0)).getD ([], [], live)).2.1, ((consume 3 511 (work motionIsIngested_0)).getD ([], [],
    live)).2.2, (udpOf (((consume 3 511 (work motionIsIngested_0)).getD ([], [], live)).2.1)).getD ⟨0, 0, 0, 0, []⟩,
    _, rfl, up_of (by decide +kernel), some_getD _ ([], [], live) (by decide +kernel), some_getD _ ⟨0, 0, 0, 0, []⟩
    (by decide +kernel), rfl⟩,
   ⟨live, _, _, rfl, up_of (by decide +kernel), rfl⟩,
   ⟨motionIsIngested_2, _, 0, ((consume 4 0 (work motionIsIngested_2)).getD ([], [], live)).1, ((consume 4 0 (work
     motionIsIngested_2)).getD ([], [], live)).2.1, ((consume 4 0 (work motionIsIngested_2)).getD ([], [], live)).2.2,
     (udpOf (((consume 4 0 (work motionIsIngested_2)).getD ([], [], live)).2.1)).getD ⟨0, 0, 0, 0, []⟩, _, rfl, up_of
     (by decide +kernel), some_getD _ ([], [], live) (by decide +kernel), some_getD _ ⟨0, 0, 0, 0, []⟩
     (by decide +kernel), rfl, by decide +kernel⟩,
   ⟨motionIsIngested_3, _, 5, ((takeLink 2 5 (work motionIsIngested_3)).getD (0, [], 0, live)).1, ((takeLink 2 5 (work
     motionIsIngested_3)).getD (0, [], 0, live)).2.2.1, ((takeLink 2 5 (work motionIsIngested_3)).getD (0, [], 0,
     live)).2.1, ((takeLink 2 5 (work motionIsIngested_3)).getD (0, [], 0, live)).2.2.2, rfl, up_of
     (by decide +kernel), some_getD _ (0, [], 0, live) (by decide +kernel)⟩,
   ⟨live, _, 1024, rfl, up_of (by decide +kernel), by decide +kernel⟩,
   ⟨live, _, 0, rfl, up_of (by decide +kernel), by decide +kernel⟩,
   ⟨live, [], by decide +kernel⟩,
   ⟨live, [1, 0, 1] ++ List.replicate 61 0, (fun x h => by cases h), by decide +kernel⟩⟩

theorem witness_MotionAndDescriptors :
    (∃ s w : State, w = work s ∧ up w uMOT ∧ tickOpen w uMOT = true) ∧
    (∃ (s w : State) (n : Nat), w = work s ∧ up w uMOT ∧ n < objCount w ∧ lossDue w w.mot.nextTick n = true) ∧
    (∃ s w : State, w = work s ∧ up w uDSX ∧ dsxBusy w = false) ∧
    (∃ s w : State, w = work s ∧ up w uDSX ∧ dsxBusy w = true) ∧
    (∃ (s w : State) (n : Nat) (x : ObjSt) (d : Desc), w = work s ∧ up w uDSX ∧ w.mot.objs.find? (fun p =>
      p.2.slot.isSome) = some (n, x) ∧ x.slot = some d) ∧
    (∃ (s w : State) (src : Nat) (d : Desc) (t : List Desc), w = work s ∧ up w uDSX ∧ src ≠ 0 ∧ tabGet [] w.dsx.held
      src = d :: t) :=
  ⟨⟨live, _, rfl, up_of (by decide +kernel), by decide +kernel⟩,
   ⟨lost0, _, 0, rfl, up_of (by decide +kernel), by decide +kernel⟩,
   ⟨live, _, rfl, up_of (by decide +kernel), by decide +kernel⟩,
   ⟨motionAndDescriptors_3, _, rfl, up_of (by decide +kernel), by decide +kernel⟩,
   ⟨motionAndDescriptors_4, _, 0, { objZero with slot := some (job 0 0) }, job 0 0, rfl, up_of (by decide +kernel),
     by decide +kernel⟩,
   ⟨motionAndDescriptors_5, _, 1, (tabGet [] (work motionAndDescriptors_5).dsx.held 1).headD (job 0 0), (tabGet []
     (work motionAndDescriptors_5).dsx.held 1).tail, rfl, up_of (by decide +kernel), by decide +kernel⟩⟩

theorem witness_JobsResultsAndCutoff :
    (∃ (s w : State) (e : Nat) (j : Job), w = work s ∧ up w uDSX ∧ engineIdle w 0 e = true ∧ inFollow w = false ∧
      pickJob w 0 e = some j) ∧
    (∃ (s w : State) (e : Nat) (j : Job), w = work s ∧ up w uDSX ∧ engineIdle w 1 e = true ∧ inFollow w = false ∧
      pickJob w 1 e = some j) ∧
    (∃ (s w : State) (e : Nat) (j : Job), w = work s ∧ up w uDSX ∧ w.dsx.jobs.find? (fun j => j.desc.kind == 0 &&
      decide (j.pos = .running e)) = some j) ∧
    (∃ (s w : State) (obj : Nat) (r : SolveRes) (x y z : State), w = work s ∧ up w uSLV ∧ x =
      { w with slv := { w.slv with results := w.slv.results.erase r } } ∧ y = (if resultLate w r = true then stick
      Reg.SLV_STAT.base 1 (count Reg.SLV_LATE_JOB_CNT.base
      { x with slv := { x.slv with lateCount := x.slv.lateCount + 1 } }) else x) ∧ z = writeWindow Reg.LSHL.base
      Reg.LSHH0.base obj (resultTick w r) r y ∧ w.slv.results.find? (fun r => r.obj == obj && resultReady w r) = some
      r ∧ commitOnWay w = false ∧ (∀ old : SolveRes, tabFind? obj w.slv.shadow = some old → old.tick ≤ r.tick)) ∧
    (∃ (s w : State) (obj : Nat) (r : SolveRes) (x y : State) (old : SolveRes), w = work s ∧ up w uSLV ∧ x =
      { w with slv := { w.slv with results := w.slv.results.erase r } } ∧ y = (if resultLate w r = true then stick
      Reg.SLV_STAT.base 1 (count Reg.SLV_LATE_JOB_CNT.base
      { x with slv := { x.slv with lateCount := x.slv.lateCount + 1 } }) else x) ∧ w.slv.results.find? (fun r => r.obj
      == obj && resultReady w r) = some r ∧ commitOnWay w = false ∧ tabFind? obj w.slv.shadow = some old ∧ r.tick <
      old.tick) ∧
    (∃ s w : State, w = work s ∧ up w uSLV ∧ renders w (unitSt w uSLV).next = true ∧ (unitSt w uSLV).next % tickBlocks
      w = tickBlocks w - 1 ∧ w.slv.cutoff ≠ some (tickOfBlock w (unitSt w uSLV).next)) ∧
    (∃ (s w : State) (g cause : Nat), w = work s ∧ up w uDSX ∧ cause < 5 ∧ retirable w 1 g = true ∧ w.hlt.waiting.any
      (fun x => x.cls == 1) = false ∧ retireBusy w 1 g = false) ∧
    (∃ (s w : State) (g cause : Nat), w = work s ∧ up w uDSX ∧ cause < 5 ∧ retirable w 1 g = true ∧ w.hlt.waiting.any
      (fun x => x.cls == 1 && x.inst == g) = false ∧ (w.hlt.waiting.any (fun x => x.cls == 1) = true ∨ retireBusy w 1
      g = true)) :=
  ⟨⟨jobs [⟨0, job 0 0, .waiting, none⟩], _, 0, ⟨0, job 0 0, .waiting, none⟩, rfl, up_of (by decide +kernel),
    by decide +kernel⟩,
   ⟨jobsResultsAndCutoff_1, _, 0, ⟨0, job 1 1, .waiting, none⟩, rfl, up_of (by decide +kernel), by decide +kernel⟩,
   ⟨jobs [⟨0, job 0 0, .running 0, none⟩], _, 0, ⟨0, job 0 0, .running 0, none⟩, rfl, up_of (by decide +kernel),
     by decide +kernel⟩,
   ⟨jobsResultsAndCutoff_3, _, 7, res 7 4, _, _, _, rfl, up_of (by decide +kernel), rfl, rfl, rfl, by decide +kernel⟩,
   ⟨jobsResultsAndCutoff_4, _, 7, res 7 3, _, _, res 7 4, rfl, up_of (by decide +kernel), rfl, rfl, by decide +kernel⟩,
   ⟨jobsResultsAndCutoff_5, _, rfl, up_of (by decide +kernel), by decide +kernel⟩,
   ⟨live, _, 0, 0, rfl, up_of (by decide +kernel), by decide +kernel⟩,
   ⟨jobsResultsAndCutoff_7, _, 0, 4, rfl, up_of (by decide +kernel), by decide +kernel⟩⟩

theorem witness_LanesWakeSitOutRetire :
    (∃ (s w : State) (n cause : Nat), w = work s ∧ up w uLAN ∧ cause < 5 ∧ (laneSt w n).gated = true ∧ (bringsSound w
      n (unitSt w uLAN).next = true ∨ mayGate w n = false)) ∧
    (∃ (s w : State) (n cause : Nat), w = work s ∧ up w uLAN ∧ cause < 5 ∧ retirable w 0 n = true ∧ w.hlt.waiting.any
      (fun x => x.cls == 0) = false ∧ retireBusy w 0 n = false) ∧
    (∃ (s w : State) (n cause : Nat), w = work s ∧ up w uLAN ∧ cause < 5 ∧ retirable w 0 n = true ∧ w.hlt.waiting.any
      (fun x => x.cls == 0 && x.inst == n) = false ∧ (w.hlt.waiting.any (fun x => x.cls == 0) = true ∨ retireBusy w 0
      n = true)) ∧
    (∃ (s w : State) (n cause : Nat), w = work s ∧ up w uCOR ∧ cause < 5 ∧ retirable w 2 n = true ∧ w.hlt.waiting.any
      (fun x => x.cls == 2) = false ∧ retireBusy w 2 n = false) ∧
    (∃ (s w : State) (n cause : Nat), w = work s ∧ up w uCOR ∧ cause < 5 ∧ retirable w 2 n = true ∧ w.hlt.waiting.any
      (fun x => x.cls == 2 && x.inst == n) = false ∧ (w.hlt.waiting.any (fun x => x.cls == 2) = true ∨ retireBusy w 2
      n = true)) ∧
    (∃ (s w : State) (l p : Nat) (ps : List Nat) (t : State), w = work s ∧ up w uLAN ∧ t =
      { w with lan := { w.lan with lastStart := nowTick w } } ∧ accepted w 14 = true ∧ actB w Reg.LAN_ROTATE.base 0 =
      true ∧ w.lan.lastStart + sitPeriod w ≤ nowTick w ∧ (w.lan.sits.filter (fun x => !x.retire)).length < sitConc w ∧
      minBy (sitOrder w) ((lanesIn w .active).filter (fun p => !(w.lan.sits.any (fun x => x.lane == p || (x.spare == p
      && !x.testing))))) = some l ∧ freeSpares w = p :: ps) ∧
    (∃ (s w : State) (l p : Nat) (t : State), w = work s ∧ up w uLAN ∧ t =
      { w with lan := { w.lan with lastStart := nowTick w } } ∧ accepted w 14 = true ∧ actB w Reg.LAN_ROTATE.base 0 =
      true ∧ w.lan.lastStart + sitPeriod w ≤ nowTick w ∧ (w.lan.sits.filter (fun x => !x.retire)).length < sitConc w ∧
      minBy (sitOrder w) ((lanesIn w .active).filter (fun p => !(w.lan.sits.any (fun x => x.lane == p || (x.spare == p
      && !x.testing))))) = some l ∧ freeSpares w = []) ∧
    (∃ (s w : State) (n : Nat) (x : SitOut), w = work s ∧ up w uLAN ∧ sitDone w n = some x) :=
  ⟨⟨gated0, _, 0, 4, rfl, up_of (by decide +kernel), by decide +kernel⟩,
   ⟨lane0 { laneNone with state := .active }, _, 0, 4, rfl, up_of (by decide +kernel), by decide +kernel⟩,
   ⟨lanesWakeSitOutRetire_2, _, 0, 0, rfl, up_of (by decide +kernel), by decide +kernel⟩,
   ⟨live, _, 0, 0, rfl, up_of (by decide +kernel), by decide +kernel⟩,
   ⟨lanesWakeSitOutRetire_4, _, 0, 0, rfl, up_of (by decide +kernel), by decide +kernel⟩,
   ⟨sitting [], _, 0, 1, [], _, rfl, up_of (by decide +kernel), rfl, by decide +kernel⟩,
   ⟨sitting [⟨2, 1, [], 0, true, false, 0⟩], _, 0, 0, _, rfl, up_of (by decide +kernel), rfl, by decide +kernel⟩,
   ⟨lanesWakeSitOutRetire_7, _, 2, ⟨2, 1, [], 0, false, true, 0⟩, rfl, up_of (by decide +kernel), by decide +kernel⟩⟩

theorem witness_FiltersSwapAndEnd :
    (∃ (s w : State) (x : SwapRec) (xs : List SwapRec), w = work s ∧ up w uCOR ∧ w.cor.swaps = x :: xs ∧ x.phase =
      .waiting ∧ x.start ≤ corTickNow w + 2 ∧ w.cor.slot ≤ corTickNow w + 2) ∧
    (∃ (s w : State) (x : SwapRec) (xs : List SwapRec), w = work s ∧ up w uCOR ∧ w.cor.swaps = x :: xs ∧ x.phase =
      .prepared ∧ x.prepTick < corTickNow w) ∧
    (∃ (s w : State) (x : SwapRec) (xs : List SwapRec) (t : State) (c : List Nat) (cs : List (List Nat)), w = work s ∧
      up w uCOR ∧ t = x.cur.foldl (fun u o => modOut o (fun z => { z with xfade := none }) u) w ∧ w.cor.swaps = x ::
      xs ∧ x.phase = .fading ∧ x.start + x.xf + 1 ≤ corTickNow w ∧ x.rest = c :: cs) ∧
    (∃ (s w : State) (x : SwapRec) (xs : List SwapRec) (t u : State), w = work s ∧ up w uCOR ∧ t = x.cur.foldl (fun u
      o => modOut o (fun z => { z with xfade := none }) u) w ∧ u =
      { t with cor := { t.cor with slot := x.start + x.xf + 3, swaps := xs } } ∧ w.cor.swaps = x :: xs ∧ x.phase =
      .fading ∧ x.start + x.xf + 1 ≤ corTickNow w ∧ x.rest = []) ∧
    (∃ (s w : State) (n : Nat) (keep : Nat × CorOut → Nat), w = work s ∧ up w uCOR ∧ n = 16 * (unitSt w uCOR).next ∧
      keep = (fun q => (q.2.filts.zip q.2.filts.tail).zipIdx.foldl (fun m p => if decide (n < oldReach w (sliceOf w
      q.1) p.1.1.2 p.1.2.1) || (p.2 == 0 && q.2.xfade.isSome) then p.2 + 2 else m) 1)) :=
  ⟨⟨filtersSwapAndEnd_0, _, ((work filtersSwapAndEnd_0).cor.swaps).headD (swap .waiting []), ((work
    filtersSwapAndEnd_0).cor.swaps).tail, rfl, up_of (by decide +kernel), by decide +kernel⟩,
   ⟨filtersSwapAndEnd_1, _, ((work filtersSwapAndEnd_1).cor.swaps).headD (swap .waiting []), ((work
     filtersSwapAndEnd_1).cor.swaps).tail, rfl, up_of (by decide +kernel), by decide +kernel⟩,
   ⟨filtersSwapAndEnd_2, _, ((work filtersSwapAndEnd_2).cor.swaps).headD (swap .waiting []), ((work
     filtersSwapAndEnd_2).cor.swaps).tail, _, ((((work filtersSwapAndEnd_2).cor.swaps).headD (swap .waiting
     [])).rest).headD ([]), ((((work filtersSwapAndEnd_2).cor.swaps).headD (swap .waiting [])).rest).tail, rfl, up_of
     (by decide +kernel), rfl, by decide +kernel⟩,
   ⟨filtersSwapAndEnd_3, _, ((work filtersSwapAndEnd_3).cor.swaps).headD (swap .waiting []), ((work
     filtersSwapAndEnd_3).cor.swaps).tail, _, _, rfl, up_of (by decide +kernel), rfl, rfl, by decide +kernel⟩,
   ⟨live, _, _, _, rfl, up_of (by decide +kernel), rfl, rfl⟩⟩

theorem witness_MeasurementRuns :
    (∃ (s w : State) (k : Nat), w = work s ∧ up w uMEA ∧ (meaRun w k).state = 2 ∧ runCapture (meaRun w k) ≤ (meaRun w
      k).taken) ∧
    (∃ (s w : State) (k : Nat) (ks : List Nat) (a : Nat) (as : List Nat), w = work s ∧ up w uMEA ∧ w.mea.queue = k ::
      ks ∧ ueIn w (runWork (meaRun w k)) (workNeed (meaRun w k)) = a :: as) ∧
    (∃ (s w : State) (k : Nat) (ks : List Nat) (t : State), w = work s ∧ up w uMEA ∧ t = runShow k 4 0 (count
      (Reg.RUNS1.at k) (modRun k (fun x => { x with caps := [] }) (((runChans (meaRun w k)).zipIdx).foldl
      (runResultWrite (meaRun w k)) { w with mea := { w.mea with queue := ks } }))) ∧ w.mea.queue = k :: ks ∧ ueIn w
      (runWork (meaRun w k)) (workNeed (meaRun w k)) = []) ∧
    (∃ s w : State, w = work s ∧ up w uMEA ∧ liveOn w = true ∧ w.mea.lastFrame + liveFft w / 2 ≤ 16 * w.mea.capNext) ∧
    (∃ (s w : State) (p : Nat) (u : State), w = work s ∧ up w uMEA ∧ u = modPair p (fun x =>
      { x with searched := some (monoSec w) }) w ∧ liveOn w = true ∧ searchPair w = some p) ∧
    (∃ (s w : State) (every base : Nat) (t : State), w = work s ∧ up w uMEA ∧ every = (if actF w
      Reg.MEA_LIVE_CTRL.base 15 0 = 0 then 1000 else actF w Reg.MEA_LIVE_CTRL.base 15 0) ∧ base = addrOf (actW w
      Reg.MEA_LIVE_BASE_LO.base) (actW w Reg.MEA_LIVE_BASE_HI.base) ∧ t = raise 0x1F (bytesOf 1 w.mea.copy ++ bytesOf
      2 (enabledPairs w).length) ((enabledPairs w).foldl (pairPublish base w.mea.copy)
      { w with mea := { w.mea with lastPub := nowTick w, copy := 1 - w.mea.copy } }) ∧ liveOn w = true ∧ w.mea.lastPub
      + every ≤ nowTick w) :=
  ⟨⟨runIn 2 id, _, 0, rfl, up_of (by decide +kernel), by decide +kernel⟩,
   ⟨measurementRuns_1, _, 0, [], 1528, [], rfl, up_of (by decide +kernel), by decide +kernel⟩,
   ⟨runIn 3 (fun m => { m with queue := [0] }), _, 0, [], _, rfl, up_of (by decide +kernel), rfl, by decide +kernel⟩,
   ⟨liveOn0 (fun m => { m with capNext := 512 }), _, rfl, up_of (by decide +kernel), by decide +kernel⟩,
   ⟨liveOn0 id, _, 0, _, rfl, up_of (by decide +kernel), rfl, by decide +kernel⟩,
   ⟨atIdx 96000 (liveOn0 id), _, _, _, _, rfl, up_of (by decide +kernel), rfl, rfl, rfl, by decide +kernel⟩⟩

theorem witness_ClockCandidatesAndSelection :
    (∃ (s w : State) (c period r : Nat) (t : State), w = work s ∧ up w uCLK ∧ t = modCand c (fun y =>
      { y with rate := r, periods := [period], last := monoNs w }) (candGo c 2 (modCand c (fun y =>
      { y with rate := r, shown := hertz period }) w)) ∧ c < 8 ∧ (candType w c = 2 ∨ candType w c = 3) ∧ period ≠ 0 ∧
      ((cand w c).state = 1 ∨ (cand w c).state = 4) ∧ supportedRate w c period = some r) ∧
    (∃ (s w : State) (c period : Nat), w = work s ∧ up w uCLK ∧ c < 8 ∧ (candType w c = 2 ∨ candType w c = 3) ∧ period
      ≠ 0 ∧ ((cand w c).state = 1 ∨ (cand w c).state = 4) ∧ supportedRate w c period = none) ∧
    (∃ (s w : State) (c period q : Nat), w = work s ∧ up w uCLK ∧ q = 1000000000000 / max 1 (cand w c).rate ∧ c < 8 ∧
      (candType w c = 2 ∨ candType w c = 3) ∧ period ≠ 0 ∧ ((cand w c).state = 2 ∨ (cand w c).state = 3) ∧ q < 8 *
      (max q period - min q period)) ∧
    (∃ (s w : State) (c period q : Nat) (ps : List Nat) (t : State), w = work s ∧ up w uCLK ∧ q = 1000000000000 / max
      1 (cand w c).rate ∧ ps = (period :: (cand w c).periods).take 64 ∧ t = modCand c (fun y =>
      { y with periods := ps, shown := hertz (ps.foldl (· + ·) 0 / ps.length), last := monoNs w }) w ∧ c < 8 ∧
      (candType w c = 2 ∨ candType w c = 3) ∧ period ≠ 0 ∧ ((cand w c).state = 2 ∨ (cand w c).state = 3) ∧ 8 * (max q
      period - min q period) ≤ q ∧ ps.length < 64) ∧
    (∃ (s w : State) (c : Nat), w = work s ∧ up w uCLK ∧ firstPps w = some c ∧ c < 8 ∧ candType w c = 4) ∧
    (∃ (s w : State) (c : Nat), w = work s ∧ up w uCLK ∧ c < 8 ∧ (candType w c = 2 ∨ candType w c = 3 ∨ candType w c =
      4) ∧ (cand w c).last * (cand w c).rate + 3000000000 ≤ monoNs w * (cand w c).rate) ∧
    (∃ (s w : State) (c : Nat), w = work s ∧ up w uCLK ∧ c < 8 ∧ (cand w c).state = 2 ∧ (cand w c).since + candQual w
      c * 1000000 ≤ monoNs w) ∧
    (∃ (s w : State) (c : Nat), w = work s ∧ up w uCLK ∧ c < 8 ∧ 2 ≤ (cand w c).state) ∧
    (∃ (s w : State) (t : Nat), w = work s ∧ up w uCLK ∧ w.clk.inSince = some t ∧ (w.clk.state = 1 ∨ w.clk.state = 4)
      ∧ t + 1000000000 ≤ monoNs w) ∧
    (∃ (s w : State) (f h : Nat) (t : State), w = work s ∧ up w uCLK ∧ h = actF w Reg.CLK_CTRL.base 31 16 ∧ freeCand w
      = some f ∧ t = modClk (fun k => { k with pullFree := true }) w ∧ h ≠ 0 ∧ w.clk.state = 3 ∧ w.clk.holdSince + h *
      1000000000 ≤ monoNs w ∧ w.clk.freq ≠ 0) ∧
    (∃ (s w : State) (f h : Nat) (t : State), w = work s ∧ up w uCLK ∧ h = actF w Reg.CLK_CTRL.base 31 16 ∧ freeCand w
      = some f ∧ t = modClk (fun k => { k with pullFree := true }) w ∧ h ≠ 0 ∧ w.clk.state = 3 ∧ w.clk.holdSince + h *
      1000000000 ≤ monoNs w ∧ w.clk.freq = 0 ∧ freeCand t = some f) ∧
    (∃ (s w : State) (c i a : Nat) (v x : Word) (t : State), w = work s ∧ up w uCLK ∧ a = Reg.CLK_CAND0.at c + 4 * i ∧
      x = v &&& candMask i ∧ t = setW a x w ∧ c < 8 ∧ i < 4 ∧ (i = 1 ∨ i = 2 ∨ (i = 0 ∧ actW w a &&& 0x800F00FF = x
      &&& 0x800F00FF) ∨ (i = 3 ∧ actW w a = x))) ∧
    (∃ (s w : State) (c i a : Nat) (v x : Word) (t : State), w = work s ∧ up w uCLK ∧ a = Reg.CLK_CAND0.at c + 4 * i ∧
      x = v &&& candMask i ∧ t = setW a x w ∧ c < 8 ∧ i < 4 ∧ ((i = 0 ∧ actW w a &&& 0x800F00FF ≠ x &&& 0x800F00FF) ∨
      (i = 3 ∧ actW w a ≠ x))) ∧
    (∃ (s w : State) (cause : Nat), w = work s ∧ up w uCLK ∧ cause < 5 ∧ retirable w 4 0 = true ∧ w.hlt.waiting.any
      (fun x => x.cls == 4) = false ∧ retireBusy w 4 0 = false) ∧
    (∃ (s w : State) (cause : Nat), w = work s ∧ up w uCLK ∧ cause < 5 ∧ retirable w 4 0 = true ∧ w.hlt.waiting.any
      (fun x => x.cls == 4 && x.inst == 0) = false ∧ (w.hlt.waiting.any (fun x => x.cls == 4) = true ∨ retireBusy w 4
      0 = true)) :=
  ⟨⟨cand0 2 { candZero with state := 1 }, _, 0, 20833333, 48000, _, rfl, up_of (by decide +kernel), rfl,
    by decide +kernel⟩,
   ⟨cand0 2 { candZero with state := 1 }, _, 0, 1, rfl, up_of (by decide +kernel), by decide +kernel⟩,
   ⟨clockCandidatesAndSelection_2, _, 0, 1, _, rfl, up_of (by decide +kernel), rfl, by decide +kernel⟩,
   ⟨clockCandidatesAndSelection_3, _, 0, 20833333, _, _, _, rfl, up_of (by decide +kernel), rfl, rfl, rfl,
     by decide +kernel⟩,
   ⟨cand0 4 { candZero with state := 3 }, _, (firstPps (work (cand0 4 { candZero with state := 3 }))).getD 0, rfl,
     up_of (by decide +kernel), some_getD _ 0 (by decide +kernel), by decide +kernel⟩,
   ⟨clockCandidatesAndSelection_5, _, 0, rfl, up_of (by decide +kernel), by decide +kernel⟩,
   ⟨clockCandidatesAndSelection_6, _, 0, rfl, up_of (by decide +kernel), by decide +kernel⟩,
   ⟨cand0 5 { candZero with state := 2 }, _, 0, rfl, up_of (by decide +kernel), by decide +kernel⟩,
   ⟨clockCandidatesAndSelection_8, _, ((work clockCandidatesAndSelection_8).clk.inSince).getD 0, rfl, up_of
     (by decide +kernel), some_getD _ 0 (by decide +kernel), by decide +kernel⟩,
   ⟨holdOver 7, _, (freeCand (work (holdOver 7))).getD 0, _, _, rfl, up_of (by decide +kernel), rfl, some_getD _ 0
     (by decide +kernel), rfl, by decide +kernel⟩,
   ⟨holdOver 0, _, (freeCand (work (holdOver 0))).getD 0, _, _, rfl, up_of (by decide +kernel), rfl, some_getD _ 0
     (by decide +kernel), rfl, by decide +kernel⟩,
   ⟨live, _, 7, 1, _, 5, _, _, rfl, up_of (by decide +kernel), rfl, rfl, rfl, by decide +kernel⟩,
   ⟨live, _, 7, 3, _, 1, _, _, rfl, up_of (by decide +kernel), rfl, rfl, rfl, by decide +kernel⟩,
   ⟨live, _, 4, rfl, up_of (by decide +kernel), by decide +kernel⟩,
   ⟨clockCandidatesAndSelection_14, _, 4, rfl, up_of (by decide +kernel), by decide +kernel⟩⟩

theorem witness_PtpInstanceActs :
    (∃ (s w : State) (hd iv : Nat) (t1 t2 corr : Int) (t : State), w = work s ∧ up w uTIM ∧ t = ptpGo 9 (modTim (fun x
      => { x with syncDiff := t2 / 16384 * 16384 - t1 - corr }) (takeTim w)) ∧ ptpOn (takeTim w) = true ∧ hd % 256 =
      ptpDomain (takeTim w) ∧ iv = syncNs hd ∧ (takeTim w).tim.master ≠ none ∧ 7812500 ≤ iv ∧ iv ≤ 2000000000) ∧
    (∃ (s w : State) (st sd iv : Nat), w = work s ∧ up w uTIM ∧ sd ≠ Config.clockIdentity % 2 ^ 64 ∧ ptpOn (takeTim w)
      = true ∧ st < 255 ∧ 125000000 ≤ iv ∧ iv ≤ 8000000000) ∧
    (∃ s w : State, w = work s ∧ up w uTIM ∧ ptpOn (takeTim w) = true ∧ ptpP2P (takeTim w) = false ∧ (takeTim
      w).tim.portState = 6) ∧
    (∃ (s w : State) (sent : Int), w = work s ∧ up w uTIM ∧ tabFind? 1 (takeTim w).tim.txStamp = some sent ∧ ptpOn
      (takeTim w) = true ∧ ptpP2P (takeTim w) = false ∧ ((takeTim w).tim.portState = 8 ∨ (takeTim w).tim.portState =
      9)) ∧
    (∃ (s w : State) (t2 t3 t4 corr ratio sent : Int) (x : State), w = work s ∧ up w uTIM ∧ tabFind? 2 (takeTim
      w).tim.txStamp = some sent ∧ x = modTim (fun t =>
      { t with neighRate := ratio, txStamp := tabErase 2 t.txStamp }) (meanDelay (((t4 / 16384 * 16384 - sent) * ratio
      / 2 ^ 32 - (t3 - t2) - corr) / 2) (takeTim w)) ∧ ptpOn (takeTim w) = true ∧ ptpP2P (takeTim w) = true) ∧
    (∃ (s w : State) (m : Master), w = work s ∧ up w uTIM ∧ ptpOn w = true ∧ w.tim.master = some m ∧ masterHeard w m =
      false) ∧
    (∃ (s w : State) (c : Nat), w = work s ∧ up w uTIM ∧ ptpOn w = true ∧ c ∈ ptpCands w ∧ 2 ≤ (cand w c).state ∧
      (cand w c).last + 3 * (cand w c).interval ≤ monoNs w) ∧
    (∃ (s w : State) (t : Nat), w = work s ∧ up w uTIM ∧ ptpOn w = true ∧ w.tim.portBack = some t ∧ t + 2000000000 ≤
      monoNs w) ∧
    (∃ (s w : State) (cfg : Word), w = work s ∧ up w uTIM ∧ cfg = actW w Reg.TIM_PTP_CFG.base ∧ ptpOn w = true ∧
      w.tim.portState = 6 ∧ (w.tim.sentSync = 0 ∨ w.tim.sentSync + logInterval (fld cfg 19 16) ≤ monoNs w)) ∧
    (∃ (s w : State) (cfg : Word) (o : Master), w = work s ∧ up w uTIM ∧ cfg = actW w Reg.TIM_PTP_CFG.base ∧ o =
      ownMaster w ∧ ptpOn w = true ∧ w.tim.portState = 6 ∧ (w.tim.sentAnn = 0 ∨ w.tim.sentAnn + logInterval (fld cfg
      23 20) ≤ monoNs w)) ∧
    (∃ (s w : State) (cfg : Word), w = work s ∧ up w uTIM ∧ cfg = actW w Reg.TIM_PTP_CFG.base ∧ ptpOn w = true ∧
      ptpP2P w = true) ∧
    (∃ (s w : State) (cfg : Word), w = work s ∧ up w uTIM ∧ cfg = actW w Reg.TIM_PTP_CFG.base ∧ ptpOn w = true ∧
      ptpP2P w = false ∧ (w.tim.portState = 8 ∨ w.tim.portState = 9)) ∧
    (∃ (s w : State) (ofs k : Nat) (t : Int) (x : State), w = work s ∧ up w uTIM ∧ t = (timeFx w + (ofs * 16384 :
      Nat)) / 16384 * 16384 ∧ x = modTim (fun m => { m with txStamp := tabSet k t m.txStamp }) w ∧ k ≤ 3) ∧
    (∃ (s w : State) (n : Nat), w = work s ∧ up w uTIM ∧ unitPresent w uLNK = true ∧ (linkSt w n).up = true ∧ (linkSt
      w n).heard + 3 * timeInt w n ≤ monoNs w) :=
  ⟨⟨ptpInstanceActs_0, _, 249 * 256, 7812500, 0, 0, 0, _, rfl, up_of (by decide +kernel), rfl, by decide +kernel⟩,
   ⟨ptp 1 id, _, 254, (Config.clockIdentity + 1) % 2 ^ 64, 125000000, rfl, up_of (by decide +kernel), (by omega),
     by decide +kernel⟩,
   ⟨ptp 1 (fun z => { z with portState := 6 }), _, rfl, up_of (by decide +kernel), by decide +kernel⟩,
   ⟨ptpInstanceActs_3, _, (tabFind? 1 (takeTim (work ptpInstanceActs_3)).tim.txStamp).getD 0, rfl, up_of
     (by decide +kernel), some_getD _ 0 (by decide +kernel), by decide +kernel⟩,
   ⟨ptpInstanceActs_4, _, 0, 0, 0, 0, 0, (tabFind? 2 (takeTim (work ptpInstanceActs_4)).tim.txStamp).getD 0, _, rfl,
     up_of (by decide +kernel), some_getD _ 0 (by decide +kernel), rfl, by decide +kernel⟩,
   ⟨ptpInstanceActs_5, _, ⟨0, 0, 0, 0, 0, 0, 0, 0, 0, 0, 0⟩, rfl, up_of (by decide +kernel), by decide +kernel⟩,
   ⟨ptpInstanceActs_6, _, 0, rfl, up_of (by decide +kernel), by decide +kernel⟩,
   ⟨ptpInstanceActs_7, _, 0, rfl, up_of (by decide +kernel), by decide +kernel⟩,
   ⟨ptp 1 (fun z => { z with portState := 6 }), _, _, rfl, up_of (by decide +kernel), rfl, by decide +kernel⟩,
   ⟨ptp 1 (fun z => { z with portState := 6 }), _, _, _, rfl, up_of (by decide +kernel), rfl, rfl, by decide +kernel⟩,
   ⟨ptp 0x11 id, _, _, rfl, up_of (by decide +kernel), rfl, by decide +kernel⟩,
   ⟨ptp 1 (fun z => { z with portState := 9 }), _, _, rfl, up_of (by decide +kernel), rfl, by decide +kernel⟩,
   ⟨ptp 1 id, _, 0, 3, _, _, rfl, up_of (by decide +kernel), rfl, rfl, by decide +kernel⟩,
   ⟨ptpInstanceActs_13, _, 7, rfl, up_of (by decide +kernel), by decide +kernel⟩⟩

theorem witness_TriggersAndCaptures :
    (∃ (s w : State) (hi : Bool) (v l u : Word), w = work s ∧ up w uTIM ∧ l = (if hi then regW w
      Reg.TIM_PPS_SEC_LO.base else v) ∧ u = (if hi then v else regW w Reg.TIM_PPS_SEC_HI.base)) ∧
    (∃ (s w : State) (i : Nat) (v : Word), w = work s ∧ up w uTIM ∧ i < 32 ∧ bit v 0 = false) ∧
    (∃ (s w : State) (i : Nat) (v : Word), w = work s ∧ up w uTIM ∧ i < 32 ∧ bit v 0 = true ∧ (trig w i).armed = true) ∧
    (∃ (s w : State) (i : Nat) (v : Word) (t : State) (x : TrigSt), w = work s ∧ up w uTIM ∧ t = setW
      (Reg.TIM_TRIG3.at i) (v &&& fieldsMask Reg.TIM_TRIG3) w ∧ x = ⟨true, fld (regW t (Reg.TIM_TRIG0.at i)) 31 0 + 2
      ^ 32 * fld (regW t (Reg.TIM_TRIG1.at i)) 31 0, fld (regW t (Reg.TIM_TRIG2.at i)) 31 0, v, (List.range 4).map
      (fun k => regW t (Reg.TIM_TRIGREC.at i k)), 0, false, false⟩ ∧ i < 32 ∧ bit v 0 = true ∧ (trig w i).armed =
      false) ∧
    (∃ (s w : State) (src : Nat), w = work s ∧ up w uTIM ∧ src < 22) :=
  ⟨⟨live, _, true, 5, _, _, rfl, up_of (by decide +kernel), rfl, rfl⟩,
   ⟨live, _, 31, 0, rfl, up_of (by decide +kernel), by decide +kernel⟩,
   ⟨triggersAndCaptures_2, _, 31, 1, rfl, up_of (by decide +kernel), by decide +kernel⟩,
   ⟨live, _, 31, 1, _, _, rfl, up_of (by decide +kernel), rfl, rfl, by decide +kernel⟩,
   ⟨live, _, 21, rfl, up_of (by decide +kernel), by decide +kernel⟩⟩

theorem witness_FramesReceivedAndSent :
    (∃ (s w : State) (p : Nat) (bs : List Byte) (code : Bool) (low : State), w = work s ∧ up w uNET ∧ (∀ k e n : Nat,
      frameCheck w p bs false = .inr (k, e, n) → low = poolLow (freeCells w - cellsGranted w n (min (bs.length + 4)
      (maxFrame w p + 1))) w) ∧ (∀ k : Nat, frameCheck w p bs false = .inl k → low = w) ∧ p < netPorts w ∧ netMode w p
      ≠ 0 ∧ (portSt w p).link = true ∧ frameCheck w p bs code = .inl 1) ∧
    (∃ (s w : State) (p : Nat) (bs : List Byte) (code : Bool), w = work s ∧ up w uNET ∧ p < netPorts w ∧ netMode w p ≠
      0 ∧ (portSt w p).link = true ∧ frameCheck w p bs code = .inl 2) ∧
    (∃ (s w : State) (p : Nat) (bs : List Byte) (code : Bool), w = work s ∧ up w uNET ∧ p < netPorts w ∧ netMode w p ≠
      0 ∧ (portSt w p).link = true ∧ frameCheck w p bs code = .inl 3) ∧
    (∃ (s w : State) (p : Nat) (bs : List Byte) (code : Bool) (k e n : Nat), w = work s ∧ up w uNET ∧ p < netPorts w ∧
      netMode w p ≠ 0 ∧ (portSt w p).link = true ∧ frameCheck w p bs code = .inr (k, e, n) ∧ maxFrame w p < bs.length
      + 4) ∧
    (∃ (s w : State) (p : Nat) (bs : List Byte) (code fcs : Bool) (k e n : Nat), w = work s ∧ up w uNET ∧ fcs = true ∧
      p < netPorts w ∧ netMode w p ≠ 0 ∧ (portSt w p).link = true ∧ frameCheck w p bs code = .inr (k, e, n) ∧
      bs.length + 4 ≤ maxFrame w p) ∧
    (∃ (s w : State) (p q : Nat) (bs : List Byte) (code fcs : Bool) (k e n : Nat) (pre : List Byte), w = work s ∧ up w
      uNET ∧ pre = prefixOf (bs.length + 4) p (1 + ((if (vlanOf bs).1.isSome then 2 else 0) + (if beAt bs 0 6 / 2 ^ 40
      % 2 = 1 ∧ beAt bs 0 6 ≠ 0xFFFFFFFFFFFF then 4 else 0) + (if beAt bs 0 6 = 0xFFFFFFFFFFFF then 8 else 0)))
      ((vlanOf bs).1.getD (pvid w p)) e w q ∧ fcs = false ∧ p < netPorts w ∧ netMode w p ≠ 0 ∧ (portSt w p).link =
      true ∧ frameCheck w p bs code = .inr (k, e, n) ∧ bs.length + 4 ≤ maxFrame w p) ∧
    (∃ (s w : State) (p : Nat) (t : State), w = work s ∧ up w uNET ∧ t = modPort p (fun x =>
      { x with link := false, rate := 0, creditA := 0, creditB := 0 })
      (match (portSt w p).sending with | some x => count (Reg.NET_TX_DISCARD_CNT.at p) (txRelease p x w) | none => w)
      ∧ p < netPorts w ∧ (portSt w p).link = true) ∧
    (∃ (s w : State) (p r k : Nat), w = work s ∧ up w uNET ∧ p < netPorts w ∧ (portSt w p).link = false ∧ netRate w p
      r = some k ∧ netRef w = true) ∧
    (∃ (s w : State) (p r k : Nat), w = work s ∧ up w uNET ∧ p < netPorts w ∧ (portSt w p).link = false ∧ netRate w p
      r = some k ∧ netRef w = false) ∧
    (∃ (s w : State) (p : Nat) (x : Sending), w = work s ∧ up w uNET ∧ p < netPorts w ∧ (portSt w p).link = true ∧
      (portSt w p).sending = some x) ∧
    (∃ (s w : State) (p : Nat) (t : State) (c q : Nat), w = work s ∧ up w uNET ∧ p < netPorts w ∧ nextTx t p = some
      (c, q)) ∧
    (∃ (s w : State) (p : Nat) (t : State), w = work s ∧ up w uNET ∧ p < netPorts w ∧ nextTx t p = none) ∧
    (∃ (s w : State) (p c d : Nat), w = work s ∧ up w uNET ∧ d = ((-(creditOf w p c)).toNat + idleSlope w p c - 1) /
      max 1 (idleSlope w p c) ∧ (∀ k : Nat, k = 1 ∨ k = 2 → k ≠ c → classWaiting w p k = []) ∧ p < netPorts w ∧
      (portSt w p).link = true ∧ (portSt w p).sending = none ∧ nextTx w p = none ∧ (c = 1 ∨ c = 2) ∧ classWaiting w p
      c ≠ [] ∧ creditOf w p c < 0) :=
  ⟨⟨netUp 0, _, 7, [], true, lowAfter (work (netUp 0)) 7 ([]), rfl, up_of (by decide +kernel),
    (fun _ _ _ h => by simp only [lowAfter, h]), (fun _ h => by simp only [lowAfter, h]), by decide +kernel⟩,
   ⟨netUp 0, _, 7, List.replicate 59 0, false, rfl, up_of (by decide +kernel), by decide +kernel⟩,
   ⟨netUp 0, _, 7, List.replicate 60 0, false, rfl, up_of (by decide +kernel), by decide +kernel⟩,
   ⟨framesReceivedAndSent_3, _, 7, List.replicate 6 0xFF ++ List.replicate 55 0, false, 1, 255, 3, rfl, up_of
     (by decide +kernel), by decide +kernel⟩,
   ⟨framesReceivedAndSent_3, _, 7, (List.replicate 6 0xFF ++ List.replicate 54 0), false, _, 1, 255, 3, rfl, up_of
     (by decide +kernel), rfl, by decide +kernel⟩,
   ⟨netUp 0x80000000, _, 7, 0, (List.replicate 6 0xFF ++ List.replicate 54 0), false, _, 1, 255, 3, _, rfl, up_of
     (by decide +kernel), rfl, rfl, by decide +kernel⟩,
   ⟨netUp 0, _, 7, _, rfl, up_of (by decide +kernel), rfl, by decide +kernel⟩,
   ⟨withWords [(Reg.NET_MODE.at 7, 3)] live, _, 7, 1, 1, rfl, up_of (by decide +kernel), by decide +kernel⟩,
   ⟨framesReceivedAndSent_8, _, 7, 1, 1, rfl, up_of (by decide +kernel), by decide +kernel⟩,
   ⟨framesReceivedAndSent_9, _, 7, ⟨0, 3, [1], false, none⟩, rfl, up_of (by decide +kernel), by decide +kernel⟩,
   ⟨live, _, 7, sends 0xC0700000 0, 0, 3, rfl, up_of (by decide +kernel), by decide +kernel⟩,
   ⟨live, _, 7, live, rfl, up_of (by decide +kernel), by decide +kernel⟩,
   ⟨sends 0xD0700000 (-5), _, 7, 1, _, rfl, up_of (by decide +kernel), rfl,
     (by intro k h1 h2; rcases h1 with h1 | h1 <;> subst h1 <;> first | exact absurd rfl h2 | decide +kernel),
     by decide +kernel⟩⟩

theorem witness_QueuesWork :
    (∃ (s w : State) (q : Nat) (t : State), w = work s ∧ up w uQMG ∧ opRead q w = .ok t ∧ opAllowed w q = true) ∧
    (∃ (s w : State) (q : Nat), w = work s ∧ up w uQMG ∧ opAllowed w q = true ∧ (queueSt w q).frames[(queueSt w
      q).read]? = none) ∧
    (∃ (s w : State) (q : Nat) (c : Instr), w = work s ∧ up w uQMG ∧ opAllowed w q = false ∧ (c = .queueRead q ∨ c =
      .queueMark q ∨ c = .queueRewind q ∨ c = .queueRelease q ∨ c = .queueFlush q)) ∧
    (∃ (s w : State) (v : Word) (a n q : Nat) (ok : Bool) (bs : List Byte) (t : State), w = work s ∧ up w uQMG ∧ q =
      fld v 8 0 ∧ n = fld (regW w Reg.QMG_TXS_LEN.base) 13 0 ∧ a = fld (regW w Reg.QMG_TXS_ADDR_LO.base) 31 0 + 2 ^ 32
      * fld (regW w Reg.QMG_TXS_ADDR_HI.base) 7 0 ∧ fabRead 10 0 w a n = (ok, bs, t) ∧ qEn w q = true ∧ qTx w q = true
      ∧ 60 ≤ n ∧ n ≤ 9596) ∧
    (∃ (s w : State) (v : Word) (a n q : Nat), w = work s ∧ up w uQMG ∧ q = fld v 8 0 ∧ n = fld (regW w
      Reg.QMG_TXS_LEN.base) 13 0 ∧ a = fld (regW w Reg.QMG_TXS_ADDR_LO.base) 31 0 + 2 ^ 32 * fld (regW w
      Reg.QMG_TXS_ADDR_HI.base) 7 0 ∧ qEn w q = true ∧ qTx w q = true ∧ (n < 60 ∨ 9596 < n)) ∧
    (∃ (s w : State) (v : Word) (a n q : Nat), w = work s ∧ up w uQMG ∧ q = fld v 8 0 ∧ n = fld (regW w
      Reg.QMG_TXS_LEN.base) 13 0 ∧ a = fld (regW w Reg.QMG_TXS_ADDR_LO.base) 31 0 + 2 ^ 32 * fld (regW w
      Reg.QMG_TXS_ADDR_HI.base) 7 0 ∧ (qEn w q = false ∨ qTx w q = false)) ∧
    (∃ (s w : State) (q a j : Nat) (en : Bool) (r : RegSpec) (t : State), w = work s ∧ up w uQMG ∧ a = Reg.QUEUE0.at q
      ∧ plainWrite r q a (putFld (regW w a) 31 31 (if en then 1 else 0)) w = .ok t ∧ q < 512 ∧ liveSpec w a = some (r,
      q, j) ∧ r.base = Reg.QUEUE0.base) ∧
    (∃ (s w : State) (q : Nat) (old : Word), w = work s ∧ up w uQMG ∧ q < 512 ∧ bit old 31 ≠ actB w (Reg.QUEUE0.at q)
      31) :=
  ⟨⟨inQueue 511 0 0x80000000 [] live, _, 511, okOr live (opRead 511 (work (inQueue 511 0 0x80000000 [] live))), rfl,
    up_of (by decide +kernel), (ok_okOr _ _ (by decide +kernel)), by decide +kernel⟩,
   ⟨queuesWork_1, _, 511, rfl, up_of (by decide +kernel), by decide +kernel⟩,
   ⟨live, _, 0, .queueRead 0, rfl, up_of (by decide +kernel), by decide +kernel⟩,
   ⟨queuesWork_3, _, 511, _, _, _, (fabRead 10 0 (work queuesWork_3) (fld (regW (work queuesWork_3)
     Reg.QMG_TXS_ADDR_LO.base) 31 0 + 2 ^ 32 * fld (regW (work queuesWork_3) Reg.QMG_TXS_ADDR_HI.base) 7 0) (fld (regW
     (work queuesWork_3) Reg.QMG_TXS_LEN.base) 13 0)).1, (fabRead 10 0 (work queuesWork_3) (fld (regW (work
     queuesWork_3) Reg.QMG_TXS_ADDR_LO.base) 31 0 + 2 ^ 32 * fld (regW (work queuesWork_3) Reg.QMG_TXS_ADDR_HI.base) 7
     0) (fld (regW (work queuesWork_3) Reg.QMG_TXS_LEN.base) 13 0)).2.1, (fabRead 10 0 (work queuesWork_3) (fld (regW
     (work queuesWork_3) Reg.QMG_TXS_ADDR_LO.base) 31 0 + 2 ^ 32 * fld (regW (work queuesWork_3)
     Reg.QMG_TXS_ADDR_HI.base) 7 0) (fld (regW (work queuesWork_3) Reg.QMG_TXS_LEN.base) 13 0)).2.2, rfl, up_of
     (by decide +kernel), rfl, rfl, rfl, rfl, by decide +kernel⟩,
   ⟨queuesWork_4, _, 511, _, _, _, rfl, up_of (by decide +kernel), rfl, rfl, rfl, by decide +kernel⟩,
   ⟨live, _, 511, _, _, _, rfl, up_of (by decide +kernel), rfl, rfl, rfl, by decide +kernel⟩,
   ⟨live, _, 511, _, 0, true, Reg.QUEUE0, okOr live (plainWrite Reg.QUEUE0 511 (Reg.QUEUE0.at 511) (putFld (regW (work
     live) (Reg.QUEUE0.at 511)) 31 31 (if true then 1 else 0)) (work live)), rfl, up_of (by decide +kernel), rfl,
     (ok_okOr _ _ (by decide +kernel)), by decide +kernel⟩,
   ⟨live, _, 511, 0x80000000, rfl, up_of (by decide +kernel), by decide +kernel⟩⟩

theorem witness_StreamsReceive :
    (∃ (s w t : State) (q : Nat) (ks : List Nat) (f : FrameRec) (pre bs : List Byte), w = work s ∧ up w uMST ∧
      (queueSt w q).frames[(queueSt w q).read]? = some f ∧ consume 1 q w = some (pre, bs, t) ∧ ks = [] ∧ rxOfQueue w q
      = ks ∧ etherType (f.bytes.drop 32) ≠ 0x22F0) ∧
    (∃ (s w t : State) (q : Nat) (ks : List Nat) (f : FrameRec) (pre bs : List Byte) (k : Nat) (l : List Nat), w =
      work s ∧ up w uMST ∧ (queueSt w q).frames[(queueSt w q).read]? = some f ∧ consume 1 q w = some (pre, bs, t) ∧ ks
      = k :: l ∧ rxOfQueue w q = ks ∧ etherType (f.bytes.drop 32) ≠ 0x22F0 ∧ udpOf bs = none) ∧
    (∃ (s w t : State) (q : Nat) (ks : List Nat) (f : FrameRec) (pre bs : List Byte) (u : Udp) (l₁ l₂ : List Nat) (k :
      Nat) (r : RtpParts), w = work s ∧ up w uMST ∧ (queueSt w q).frames[(queueSt w q).read]? = some f ∧ consume 1 q w
      = some (pre, bs, t) ∧ udpOf bs = some u ∧ ks = l₁ ++ k :: l₂ ∧ (∀ (n : Nat) (r' : RtpParts), n ∈ l₁ → rtpParts
      (extId (rxW0 false w n)) u.payload = some r' → rtpMatch w n u r' = false) ∧ rtpParts (extId (rxW0 false w k))
      u.payload = some r ∧ rxOfQueue w q = ks ∧ etherType (f.bytes.drop 32) ≠ 0x22F0 ∧ rtpMatch w k u r = true) ∧
    (∃ (s w t : State) (q : Nat) (ks : List Nat) (f : FrameRec) (pre bs : List Byte) (u : Udp) (k : Nat) (l : List
      Nat), w = work s ∧ up w uMST ∧ (queueSt w q).frames[(queueSt w q).read]? = some f ∧ consume 1 q w = some (pre,
      bs, t) ∧ udpOf bs = some u ∧ (∀ (n : Nat) (r : RtpParts), n ∈ ks → rtpParts (extId (rxW0 false w n)) u.payload =
      some r → rtpMatch w n u r = false) ∧ rxOfQueue w q = ks ∧ etherType (f.bytes.drop 32) ≠ 0x22F0 ∧ ks = k :: l) ∧
    (∃ (s w t : State) (q : Nat) (ks : List Nat) (f : FrameRec) (pre bs p : List Byte), w = work s ∧ up w uMST ∧
      (queueSt w q).frames[(queueSt w q).read]? = some f ∧ consume 1 q w = some (pre, bs, t) ∧ p = bs.drop ((vlanOf
      bs).2 + 2) ∧ ks = [] ∧ rxOfQueue w q = ks ∧ etherType (f.bytes.drop 32) = 0x22F0) ∧
    (∃ (s w t : State) (q : Nat) (ks : List Nat) (f : FrameRec) (pre bs p : List Byte) (l₁ l₂ : List Nat) (k : Nat), w
      = work s ∧ up w uMST ∧ (queueSt w q).frames[(queueSt w q).read]? = some f ∧ consume 1 q w = some (pre, bs, t) ∧
      p = bs.drop ((vlanOf bs).2 + 2) ∧ ks = l₁ ++ k :: l₂ ∧ (∀ n : Nat, n ∈ l₁ → aafMatch w n p = false) ∧ rxOfQueue
      w q = ks ∧ etherType (f.bytes.drop 32) = 0x22F0 ∧ aafMatch w k p = true) ∧
    (∃ (s w t : State) (q : Nat) (ks : List Nat) (f : FrameRec) (pre bs p : List Byte) (k : Nat) (l : List Nat), w =
      work s ∧ up w uMST ∧ (queueSt w q).frames[(queueSt w q).read]? = some f ∧ consume 1 q w = some (pre, bs, t) ∧ p
      = bs.drop ((vlanOf bs).2 + 2) ∧ (∀ n : Nat, n ∈ ks → aafMatch w n p = false) ∧ rxOfQueue w q = ks ∧ etherType
      (f.bytes.drop 32) = 0x22F0 ∧ ks = k :: l) ∧
    (∃ (s w : State) (k : Nat) (x : RxSt) (t : Nat), w = work s ∧ up w uMST ∧ rxOf false w k = some x ∧ x.range = some
      t ∧ t + 1000000000 ≤ monoNs w) ∧
    (∃ (s w : State) (k : Nat) (x : RxSt) (lnk : Bool), w = work s ∧ up w (if lnk then uLNK else uMST) ∧ rxOf lnk w k
      = some x ∧ rxClaimEn lnk w k = true ∧ x.ramp = none ∧ x.fs / 20 ≤ x.gap.getD 0) ∧
    (∃ (s w t : State) (q : Nat) (f : FrameRec) (pre bs : List Byte) (port ip : Nat) (a : List Byte), w = work s ∧ up
      w uMST ∧ (queueSt w q).frames[(queueSt w q).read]? = some f ∧ consume 6 q w = some (pre, bs, t) ∧ port = beAt
      pre 2 1 ∧ a = bs.drop ((vlanOf bs).2 + 2) ∧ ip = fld (actW w (Reg.MST_PORT_IP.at port)) 31 0 ∧ etherType
      (f.bytes.drop 32) = 0x0806 ∧ beAt a 0 2 = 1 ∧ beAt a 2 2 = 0x0800 ∧ beAt a 6 2 = 1 ∧ ip ≠ 0 ∧ beAt a 24 4 = ip) ∧
    (∃ (s w t : State) (q : Nat) (f : FrameRec) (pre bs : List Byte) (port ip : Nat) (a : List Byte), w = work s ∧ up
      w uMST ∧ (queueSt w q).frames[(queueSt w q).read]? = some f ∧ consume 6 q w = some (pre, bs, t) ∧ port = beAt
      pre 2 1 ∧ a = bs.drop ((vlanOf bs).2 + 2) ∧ ip = fld (actW w (Reg.MST_PORT_IP.at port)) 31 0 ∧ etherType
      (f.bytes.drop 32) = 0x0806 ∧ (ip = 0 ∨ beAt a 24 4 ≠ ip)) ∧
    (∃ (s w t : State) (q : Nat) (f : FrameRec) (pre bs : List Byte), w = work s ∧ up w uMST ∧ (queueSt w
      q).frames[(queueSt w q).read]? = some f ∧ consume 6 q w = some (pre, bs, t) ∧ etherType (f.bytes.drop 32) ≠
      0x0806 ∧ queryGroup bs = none) ∧
    (∃ (s w t : State) (q : Nat) (f : FrameRec) (pre bs : List Byte) (port grp : Nat), w = work s ∧ up w uMST ∧
      (queueSt w q).frames[(queueSt w q).read]? = some f ∧ consume 6 q w = some (pre, bs, t) ∧ queryGroup bs = some
      grp ∧ port = beAt pre 2 1 ∧ etherType (f.bytes.drop 32) ≠ 0x0806) :=
  ⟨⟨inQueue 3 7 0x80700001 (udpFrame 9 [1]) live, _, ((consume 1 3 (work (inQueue 3 7 0x80700001 (udpFrame 9 [1])
    live))).getD ([], [], live)).2.2, 3, _, ((queueSt (work (inQueue 3 7 0x80700001 (udpFrame 9 [1]) live))
    3).frames[(queueSt (work (inQueue 3 7 0x80700001 (udpFrame 9 [1]) live)) 3).read]?).getD ⟨[], 0, none, []⟩,
    ((consume 1 3 (work (inQueue 3 7 0x80700001 (udpFrame 9 [1]) live))).getD ([], [], live)).1, ((consume 1 3 (work
    (inQueue 3 7 0x80700001 (udpFrame 9 [1]) live))).getD ([], [], live)).2.1, rfl, up_of (by decide +kernel),
    some_getD _ ⟨[], 0, none, []⟩ (by decide +kernel), some_getD _ ([], [], live) (by decide +kernel), rfl,
    by decide +kernel⟩,
   ⟨streaming 0x20000000 [1], _, ((consume 1 3 (work (streaming 0x20000000 [1]))).getD ([], [], live)).2.2, 3, _,
     ((queueSt (work (streaming 0x20000000 [1])) 3).frames[(queueSt (work (streaming 0x20000000 [1])) 3).read]?).getD
     ⟨[], 0, none, []⟩, ((consume 1 3 (work (streaming 0x20000000 [1]))).getD ([], [], live)).1, ((consume 1 3 (work
     (streaming 0x20000000 [1]))).getD ([], [], live)).2.1, 0, [], rfl, up_of (by decide +kernel), some_getD _ ⟨[], 0,
     none, []⟩ (by decide +kernel), some_getD _ ([], [], live) (by decide +kernel), rfl, by decide +kernel⟩,
   ⟨streamsReceive_2, _, ((consume 1 3 (work streamsReceive_2)).getD ([], [], live)).2.2, 3, _, ((queueSt (work
     streamsReceive_2) 3).frames[(queueSt (work streamsReceive_2) 3).read]?).getD ⟨[], 0, none, []⟩, ((consume 1 3
     (work streamsReceive_2)).getD ([], [], live)).1, ((consume 1 3 (work streamsReceive_2)).getD ([], [], live)).2.1,
     (udpOf (((consume 1 3 (work streamsReceive_2)).getD ([], [], live)).2.1)).getD ⟨0, 0, 0, 0, []⟩, [], [], 0,
     (rtpParts (extId (rxW0 false (work streamsReceive_2) 0)) ((udpOf (((consume 1 3 (work streamsReceive_2)).getD
     ([], [], live)).2.1)).getD ⟨0, 0, 0, 0, []⟩).payload).getD ⟨0, 0, 0, 0, 0, 0, []⟩, rfl, up_of
     (by decide +kernel), some_getD _ ⟨[], 0, none, []⟩ (by decide +kernel), some_getD _ ([], [], live)
     (by decide +kernel), some_getD _ ⟨0, 0, 0, 0, []⟩ (by decide +kernel), rfl,
     (fun n _ h => absurd h List.not_mem_nil), some_getD _ ⟨0, 0, 0, 0, 0, 0, []⟩ (by decide +kernel),
     by decide +kernel⟩,
   ⟨streaming 0x20000000 (udpFrame 9 [1]), _, ((consume 1 3 (work (streaming 0x20000000 (udpFrame 9 [1])))).getD ([],
     [], live)).2.2, 3, [0], ((queueSt (work (streaming 0x20000000 (udpFrame 9 [1]))) 3).frames[(queueSt (work
     (streaming 0x20000000 (udpFrame 9 [1]))) 3).read]?).getD ⟨[], 0, none, []⟩, ((consume 1 3 (work (streaming
     0x20000000 (udpFrame 9 [1])))).getD ([], [], live)).1, ((consume 1 3 (work (streaming 0x20000000 (udpFrame 9
     [1])))).getD ([], [], live)).2.1, (udpOf (((consume 1 3 (work (streaming 0x20000000 (udpFrame 9 [1])))).getD ([],
     [], live)).2.1)).getD ⟨0, 0, 0, 0, []⟩, 0, [], rfl, up_of (by decide +kernel), some_getD _ ⟨[], 0, none, []⟩
     (by decide +kernel), some_getD _ ([], [], live) (by decide +kernel), some_getD _ ⟨0, 0, 0, 0, []⟩
     (by decide +kernel), (none_matches _ _ (by decide +kernel)), by decide +kernel⟩,
   ⟨inQueue 3 7 0x80700001 aafFrame live, _, ((consume 1 3 (work (inQueue 3 7 0x80700001 aafFrame live))).getD ([],
     [], live)).2.2, 3, _, ((queueSt (work (inQueue 3 7 0x80700001 aafFrame live)) 3).frames[(queueSt (work (inQueue 3
     7 0x80700001 aafFrame live)) 3).read]?).getD ⟨[], 0, none, []⟩, ((consume 1 3 (work (inQueue 3 7 0x80700001
     aafFrame live))).getD ([], [], live)).1, ((consume 1 3 (work (inQueue 3 7 0x80700001 aafFrame live))).getD ([],
     [], live)).2.1, _, rfl, up_of (by decide +kernel), some_getD _ ⟨[], 0, none, []⟩ (by decide +kernel), some_getD _
     ([], [], live) (by decide +kernel), rfl, rfl, by decide +kernel⟩,
   ⟨streaming 0x60000000 aafFrame, _, ((consume 1 3 (work (streaming 0x60000000 aafFrame))).getD ([], [], live)).2.2,
     3, _, ((queueSt (work (streaming 0x60000000 aafFrame)) 3).frames[(queueSt (work (streaming 0x60000000 aafFrame))
     3).read]?).getD ⟨[], 0, none, []⟩, ((consume 1 3 (work (streaming 0x60000000 aafFrame))).getD ([], [], live)).1,
     ((consume 1 3 (work (streaming 0x60000000 aafFrame))).getD ([], [], live)).2.1, _, [], [], 0, rfl, up_of
     (by decide +kernel), some_getD _ ⟨[], 0, none, []⟩ (by decide +kernel), some_getD _ ([], [], live)
     (by decide +kernel), rfl, rfl, (fun n h => absurd h List.not_mem_nil), by decide +kernel⟩,
   ⟨streaming 0x20000000 aafFrame, _, ((consume 1 3 (work (streaming 0x20000000 aafFrame))).getD ([], [], live)).2.2,
     3, [0], ((queueSt (work (streaming 0x20000000 aafFrame)) 3).frames[(queueSt (work (streaming 0x20000000
     aafFrame)) 3).read]?).getD ⟨[], 0, none, []⟩, ((consume 1 3 (work (streaming 0x20000000 aafFrame))).getD ([], [],
     live)).1, ((consume 1 3 (work (streaming 0x20000000 aafFrame))).getD ([], [], live)).2.1, _, 0, [], rfl, up_of
     (by decide +kernel), some_getD _ ⟨[], 0, none, []⟩ (by decide +kernel), some_getD _ ([], [], live)
     (by decide +kernel), rfl, (only0 (by decide +kernel)), by decide +kernel⟩,
   ⟨streamsReceive_7, _, 0, { rxZero with range := some 0 }, 0, rfl, up_of (by decide +kernel), by decide +kernel⟩,
   ⟨streamsReceive_8, _, 0, { rxZero with gap := some 2400, fs := 48000 }, true, rfl, up_of (by decide +kernel),
     by decide +kernel⟩,
   ⟨streamsReceive_9, _, ((consume 6 3 (work streamsReceive_9)).getD ([], [], live)).2.2, 3, ((queueSt (work
     streamsReceive_9) 3).frames[(queueSt (work streamsReceive_9) 3).read]?).getD ⟨[], 0, none, []⟩, ((consume 6 3
     (work streamsReceive_9)).getD ([], [], live)).1, ((consume 6 3 (work streamsReceive_9)).getD ([], [], live)).2.1,
     _, _, _, rfl, up_of (by decide +kernel), some_getD _ ⟨[], 0, none, []⟩ (by decide +kernel), some_getD _ ([], [],
     live) (by decide +kernel), rfl, rfl, rfl, by decide +kernel⟩,
   ⟨inQueue 3 7 0x80700006 arpFrame live, _, ((consume 6 3 (work (inQueue 3 7 0x80700006 arpFrame live))).getD ([],
     [], live)).2.2, 3, ((queueSt (work (inQueue 3 7 0x80700006 arpFrame live)) 3).frames[(queueSt (work (inQueue 3 7
     0x80700006 arpFrame live)) 3).read]?).getD ⟨[], 0, none, []⟩, ((consume 6 3 (work (inQueue 3 7 0x80700006
     arpFrame live))).getD ([], [], live)).1, ((consume 6 3 (work (inQueue 3 7 0x80700006 arpFrame live))).getD ([],
     [], live)).2.1, _, _, _, rfl, up_of (by decide +kernel), some_getD _ ⟨[], 0, none, []⟩ (by decide +kernel),
     some_getD _ ([], [], live) (by decide +kernel), rfl, rfl, rfl, by decide +kernel⟩,
   ⟨inQueue 3 7 0x80700006 (udpFrame 9 [1]) live, _, ((consume 6 3 (work (inQueue 3 7 0x80700006 (udpFrame 9 [1])
     live))).getD ([], [], live)).2.2, 3, ((queueSt (work (inQueue 3 7 0x80700006 (udpFrame 9 [1]) live))
     3).frames[(queueSt (work (inQueue 3 7 0x80700006 (udpFrame 9 [1]) live)) 3).read]?).getD ⟨[], 0, none, []⟩,
     ((consume 6 3 (work (inQueue 3 7 0x80700006 (udpFrame 9 [1]) live))).getD ([], [], live)).1, ((consume 6 3 (work
     (inQueue 3 7 0x80700006 (udpFrame 9 [1]) live))).getD ([], [], live)).2.1, rfl, up_of (by decide +kernel),
     some_getD _ ⟨[], 0, none, []⟩ (by decide +kernel), some_getD _ ([], [], live) (by decide +kernel),
     by decide +kernel⟩,
   ⟨inQueue 3 7 0x80700006 igmpFrame live, _, ((consume 6 3 (work (inQueue 3 7 0x80700006 igmpFrame live))).getD ([],
     [], live)).2.2, 3, ((queueSt (work (inQueue 3 7 0x80700006 igmpFrame live)) 3).frames[(queueSt (work (inQueue 3 7
     0x80700006 igmpFrame live)) 3).read]?).getD ⟨[], 0, none, []⟩, ((consume 6 3 (work (inQueue 3 7 0x80700006
     igmpFrame live))).getD ([], [], live)).1, ((consume 6 3 (work (inQueue 3 7 0x80700006 igmpFrame live))).getD ([],
     [], live)).2.1, _, (queryGroup (((consume 6 3 (work (inQueue 3 7 0x80700006 igmpFrame live))).getD ([], [],
     live)).2.1)).getD 0, rfl, up_of (by decide +kernel), some_getD _ ⟨[], 0, none, []⟩ (by decide +kernel), some_getD
     _ ([], [], live) (by decide +kernel), some_getD _ 0 (by decide +kernel), rfl, by decide +kernel⟩⟩

theorem witness_LinksAndTheirWidth :
    (∃ (s w : State) (n : Nat) (rx tx rr : List Nat), w = work s ∧ up w uLNK ∧ rr = (rx.foldl (fun l k => setAdd k l)
      (linkSt w n).rxRetired).filter (fun k => decide (k < 5)) ∧ n < linkCount w ∧ lnkEn w n = true ∧ (linkSt w n).up
      = false ∧ usableLanes tx [] ≠ 0 ∧ usableLanes rr [] ≠ 0 ∧ linkRef w n = false) ∧
    (∃ (s w : State) (n : Nat) (rx tx rr : List Nat), w = work s ∧ up w uLNK ∧ rr = (rx.foldl (fun l k => setAdd k l)
      (linkSt w n).rxRetired).filter (fun k => decide (k < 5)) ∧ n < linkCount w ∧ lnkEn w n = true ∧ (linkSt w n).up
      = false ∧ usableLanes tx [] ≠ 0 ∧ usableLanes rr [] ≠ 0 ∧ linkRef w n = true) ∧
    (∃ (s w : State) (n : Nat) (cut : Bool) (t : State), w = work s ∧ up w uLNK ∧ t = raise 0x2C (bytesOf 1 n ++
      bytesOf 1 0) (stick (Reg.LNK_HIST.at n) 0 (pcsErr n (if cut then 1 else 0) (linkShow n (modLink n (fun x =>
      { x with up := false, change := none, rxWidth := 0, txWidth := 0, direct := [], rxMove := none, txMove := none, rxRetired := match x.rxMove with | some k => setAdd k x.rxRetired | none => x.rxRetired })
      w)))) ∧ n < linkCount w ∧ (linkSt w n).up = true) ∧
    (∃ (s w : State) (n lane : Nat) (t : State), w = work s ∧ up w uLNK ∧ t = modLink n (fun x =>
      { x with dead := setAdd lane x.dead }) w ∧ n < linkCount w ∧ (linkSt w n).up = true ∧ lane < 5 ∧ laneInMap w n
      lane = true ∧ usableLanes (linkSt t n).rxRetired (linkSt t n).dead ≠ 0) ∧
    (∃ (s w : State) (n lane : Nat) (t : State), w = work s ∧ up w uLNK ∧ t = modLink n (fun x =>
      { x with dead := setAdd lane x.dead }) w ∧ n < linkCount w ∧ (linkSt w n).up = true ∧ lane < 5 ∧ laneInMap w n
      lane = true ∧ usableLanes (linkSt t n).rxRetired (linkSt t n).dead = 0) ∧
    (∃ (s w : State) (n lane : Nat) (t : State), w = work s ∧ up w uLNK ∧ t = modLink n (fun x =>
      { x with txDead := setAdd lane x.txDead }) w ∧ n < linkCount w ∧ (linkSt w n).up = true ∧ lane < 5 ∧ (linkSt w
      n).txRetired.contains lane = false ∧ (linkSt w n).txDead.contains lane = false ∧ (lane = 4 → (linkSt w
      n).txRetired ≠ []) ∧ txCap t n = 0) ∧
    (∃ (s w : State) (n lane : Nat) (t : State), w = work s ∧ up w uLNK ∧ t = modLink n (fun x =>
      { x with txDead := setAdd lane x.txDead }) w ∧ n < linkCount w ∧ (linkSt w n).up = true ∧ lane < 5 ∧ (linkSt w
      n).txRetired.contains lane = false ∧ (linkSt w n).txDead.contains lane = false ∧ (lane = 4 → (linkSt w
      n).txRetired ≠ []) ∧ txCap t n ≠ 0 ∧ (linkSt t n).change = none ∧ txCap t n < (linkSt t n).txWidth) ∧
    (∃ (s w : State) (n lane : Nat) (t : State), w = work s ∧ up w uLNK ∧ t = modLink n (fun x =>
      { x with txDead := setAdd lane x.txDead }) w ∧ n < linkCount w ∧ (linkSt w n).up = true ∧ lane < 5 ∧ (linkSt w
      n).txRetired.contains lane = false ∧ (linkSt w n).txDead.contains lane = false ∧ (lane = 4 → (linkSt w
      n).txRetired ≠ []) ∧ txCap t n ≠ 0 ∧ ((linkSt t n).change ≠ none ∨ (linkSt t n).txWidth ≤ txCap t n)) ∧
    (∃ (s w : State) (n code arg : Nat), w = work s ∧ up w uLNK ∧ n < linkCount w ∧ (linkSt w n).up = true ∧ (code =
      0x51 ∨ code = 0x52) ∧ (arg = 1 ∨ arg = 2 ∨ arg = 4)) ∧
    (∃ (s w : State) (n code arg : Nat), w = work s ∧ up w uLNK ∧ n < linkCount w ∧ (linkSt w n).up = true ∧ (code =
      0x51 ∨ code = 0x52) ∧ arg ≠ 1 ∧ arg ≠ 2 ∧ arg ≠ 4) ∧
    (∃ (s w : State) (n arg : Nat), w = work s ∧ up w uLNK ∧ n < linkCount w ∧ (linkSt w n).up = true ∧ arg < 4 ∧
      (linkSt w n).txRetired = []) ∧
    (∃ (s w : State) (n arg : Nat), w = work s ∧ up w uLNK ∧ n < linkCount w ∧ (linkSt w n).up = true ∧ (4 ≤ arg ∨
      (linkSt w n).txRetired ≠ [])) ∧
    (∃ (s w : State) (n k : Nat), w = work s ∧ up w uLNK ∧ n < linkCount w ∧ (linkSt w n).up = true ∧ (linkSt w
      n).txMove = some k ∧ widthSent w n = none) ∧
    (∃ (s w : State) (n arg : Nat) (c : WidthChange), w = work s ∧ up w uLNK ∧ n < linkCount w ∧ (linkSt w n).up =
      true ∧ widthSent w n = some c ∧ arg = (if c.restore then 0x52 else 0x51)) ∧
    (∃ (s w : State) (n arg : Nat) (c : WidthChange), w = work s ∧ up w uLNK ∧ n < linkCount w ∧ (linkSt w n).up =
      true ∧ widthSent w n = some c ∧ arg ≠ (if c.restore then 0x52 else 0x51)) ∧
    (∃ (s w : State) (n : Nat), w = work s ∧ up w uLNK ∧ n < linkCount w ∧ (linkSt w n).up = true ∧ (linkSt w
      n).change = none ∧ txCap w n < (linkSt w n).txWidth) ∧
    (∃ (s w : State) (n : Nat), w = work s ∧ up w uLNK ∧ n < linkCount w ∧ (linkSt w n).up = true ∧ (linkSt w
      n).change = none ∧ (linkSt w n).txWidth ≤ txCap w n ∧ bit (lnkCfg w n) 2 = true ∧ 1 < (linkSt w n).txWidth ∧
      shedHold w n ≤ (linkSt w n).lowRun) ∧
    (∃ (s w : State) (n : Nat) (t : State), w = work s ∧ up w uLNK ∧ n < linkCount w ∧ laneMoving t n = false) ∧
    (∃ (s w : State) (n : Nat) (t : State), w = work s ∧ up w uLNK ∧ n < linkCount w ∧ laneMoving t n = true) ∧
    (∃ (s w : State) (n : Nat), w = work s ∧ up w uLNK ∧ n < linkCount w ∧ (linkSt w n).up = true ∧ loadOver (linkSt w
      n).txWidth (linkSt w n).load (restorePct w n) = true ∧ (linkSt w n).change = none ∧ (linkSt w n).txWidth < txCap
      w n) ∧
    (∃ (s w : State) (n : Nat) (c : WidthChange), w = work s ∧ up w uLNK ∧ n < linkCount w ∧ (linkSt w n).up = true ∧
      loadOver (linkSt w n).txWidth (linkSt w n).load (restorePct w n) = true ∧ (linkSt w n).change = some c ∧
      c.restore = false) ∧
    (∃ (s w : State) (n : Nat) (c : WidthChange) (t : State), w = work s ∧ up w uLNK ∧ t = count (Reg.LNK_WIDTH_CNT.at
      n) (modLink n (fun x => { x with change := none, txWidth := c.width, lowRun := 0 }) w) ∧ n < linkCount w ∧
      widthSent w n = some c) ∧
    (∃ (s w : State) (n : Nat) (c : WidthChange), w = work s ∧ up w uLNK ∧ n < linkCount w ∧ widthSent w n = some c ∧
      monoNs w < c.sent + 10000) ∧
    (∃ (s w : State) (n : Nat) (c : WidthChange), w = work s ∧ up w uLNK ∧ n < linkCount w ∧ widthSent w n = some c ∧
      c.sent + 10000 ≤ monoNs w) ∧
    (∃ (s w : State) (n : Nat) (c : WidthChange) (t : State), w = work s ∧ up w uLNK ∧ n < linkCount w ∧ c.thenRestore
      = true ∧ (linkSt t n).txWidth < txCap t n) ∧
    (∃ (s w : State) (n : Nat) (c : WidthChange) (t : State), w = work s ∧ up w uLNK ∧ n < linkCount w ∧
      (c.thenRestore = false ∨ txCap t n ≤ (linkSt t n).txWidth)) ∧
    (∃ (s w : State) (n lane : Nat), w = work s ∧ up w uLNK ∧ n < linkCount w ∧ (linkSt w n).up = true ∧ laneMoving w
      n = false ∧ (linkSt w n).change = none ∧ laneInMap w n lane = true ∧ (linkSt w n).rxRetired = []) ∧
    (∃ (s w : State) (n lane : Nat), w = work s ∧ up w uLNK ∧ n < linkCount w ∧ (linkSt w n).up = true ∧ laneMoving w
      n = false ∧ (linkSt w n).change = none ∧ laneInMap w n lane = true ∧ (linkSt w n).rxRetired ≠ []) ∧
    (∃ (s w : State) (n k : Nat), w = work s ∧ up w uLNK ∧ n < linkCount w ∧ (linkSt w n).rxMove = some k) ∧
    (∃ (s w : State) (n lane margin : Nat), w = work s ∧ up w uLNK ∧ n < linkCount w ∧ lane < 5 ∧ weakLane w n margin
      = true) ∧
    (∃ (s w : State) (n lane margin : Nat), w = work s ∧ up w uLNK ∧ n < linkCount w ∧ lane < 5 ∧ weakLane w n margin
      = false) :=
  ⟨⟨linksAndTheirWidth_0, _, 7, [0], [4], _, rfl, up_of (by decide +kernel), rfl, by decide +kernel⟩,
   ⟨linkIn 7 1 id, _, 7, [0], [4], _, rfl, up_of (by decide +kernel), rfl, by decide +kernel⟩,
   ⟨linkIn 7 1 (fun z => { z with up := true }), _, 7, false, _, rfl, up_of (by decide +kernel), rfl,
     by decide +kernel⟩,
   ⟨linkIn 7 1 (fun z => { z with up := true }), _, 7, 3, _, rfl, up_of (by decide +kernel), rfl, by decide +kernel⟩,
   ⟨linksAndTheirWidth_4, _, 7, 3, _, rfl, up_of (by decide +kernel), rfl, by decide +kernel⟩,
   ⟨linksAndTheirWidth_5, _, 7, 4, _, rfl, up_of (by decide +kernel), rfl, by decide +kernel⟩,
   ⟨linksAndTheirWidth_6, _, 7, 0, _, rfl, up_of (by decide +kernel), rfl, by decide +kernel⟩,
   ⟨linksAndTheirWidth_7, _, 7, 3, _, rfl, up_of (by decide +kernel), rfl, by decide +kernel⟩,
   ⟨linkIn 7 1 (fun z => { z with up := true }), _, 7, 0x52, 4, rfl, up_of (by decide +kernel), by decide +kernel⟩,
   ⟨linkIn 7 1 (fun z => { z with up := true }), _, 7, 0x52, 3, rfl, up_of (by decide +kernel), by decide +kernel⟩,
   ⟨linkIn 7 1 (fun z => { z with up := true }), _, 7, 3, rfl, up_of (by decide +kernel), by decide +kernel⟩,
   ⟨linkIn 7 1 (fun z => { z with up := true }), _, 7, 4, rfl, up_of (by decide +kernel), by decide +kernel⟩,
   ⟨linksAndTheirWidth_12, _, 7, 0, rfl, up_of (by decide +kernel), by decide +kernel⟩,
   ⟨linksAndTheirWidth_13, _, 7, 0x51, ⟨2, false, 0, false, false⟩, rfl, up_of (by decide +kernel), by decide +kernel⟩,
   ⟨linksAndTheirWidth_13, _, 7, 0x52, ⟨2, false, 0, false, false⟩, rfl, up_of (by decide +kernel), by decide +kernel⟩,
   ⟨linksAndTheirWidth_15, _, 7, rfl, up_of (by decide +kernel), by decide +kernel⟩,
   ⟨linksAndTheirWidth_16, _, 7, rfl, up_of (by decide +kernel), by decide +kernel⟩,
   ⟨linkIn 7 1 (fun z => { z with up := true }), _, 7, live, rfl, up_of (by decide +kernel), by decide +kernel⟩,
   ⟨linkIn 7 1 (fun z => { z with up := true }), _, 7, linkIn 7 1 (fun z => { z with up := true, txMove := some 0 }),
     rfl, up_of (by decide +kernel), by decide +kernel⟩,
   ⟨linksAndTheirWidth_19, _, 7, rfl, up_of (by decide +kernel), by decide +kernel⟩,
   ⟨linksAndTheirWidth_20, _, 7, ⟨2, false, 0, false, false⟩, rfl, up_of (by decide +kernel), by decide +kernel⟩,
   ⟨linksAndTheirWidth_13, _, 7, ⟨2, false, 0, false, false⟩, _, rfl, up_of (by decide +kernel), rfl,
     by decide +kernel⟩,
   ⟨linksAndTheirWidth_22, _, 7, ⟨2, false, 0, false, false⟩, rfl, up_of (by decide +kernel), by decide +kernel⟩,
   ⟨linksAndTheirWidth_23, _, 7, ⟨2, false, 0, false, false⟩, rfl, up_of (by decide +kernel), by decide +kernel⟩,
   ⟨linksAndTheirWidth_24, _, 7, ⟨2, false, 0, true, false⟩, linkIn 7 1 (fun z => { z with txWidth := 1 }), rfl, up_of
     (by decide +kernel), by decide +kernel⟩,
   ⟨linksAndTheirWidth_23, _, 7, ⟨2, false, 0, false, false⟩, live, rfl, up_of (by decide +kernel), by decide +kernel⟩,
   ⟨linkIn 7 1 (fun z => { z with up := true }), _, 7, 3, rfl, up_of (by decide +kernel), by decide +kernel⟩,
   ⟨linksAndTheirWidth_27, _, 7, 4, rfl, up_of (by decide +kernel), by decide +kernel⟩,
   ⟨linksAndTheirWidth_28, _, 7, 0, rfl, up_of (by decide +kernel), by decide +kernel⟩,
   ⟨linksAndTheirWidth_29, _, 7, 4, 4, rfl, up_of (by decide +kernel), by decide +kernel⟩,
   ⟨linksAndTheirWidth_29, _, 7, 4, 5, rfl, up_of (by decide +kernel), by decide +kernel⟩⟩

theorem witness_LinkFramesPass :
    (∃ (s w : State) (n : Nat) (bs : List Byte) (code : Bool), w = work s ∧ up w uLNK ∧ n < linkCount w ∧ (linkSt w
      n).up = true ∧ linkCheck w n bs code = 1) ∧
    (∃ (s w : State) (n : Nat) (bs : List Byte) (code : Bool), w = work s ∧ up w uLNK ∧ n < linkCount w ∧ (linkSt w
      n).up = true ∧ linkCheck w n bs code = 2) ∧
    (∃ (s w : State) (n : Nat) (bs : List Byte) (code : Bool), w = work s ∧ up w uLNK ∧ n < linkCount w ∧ (linkSt w
      n).up = true ∧ (linkCheck w n bs code = 3 ∨ linkCheck w n bs code = 4)) ∧
    (∃ (s w : State) (n : Nat) (bs : List Byte) (code : Bool), w = work s ∧ up w uLNK ∧ linkCheck w n bs code = 5 ∧ n
      < linkCount w ∧ (linkSt w n).up = true) ∧
    (∃ (s w : State) (n : Nat) (bs : List Byte) (code : Bool), w = work s ∧ up w uLNK ∧ n < linkCount w ∧ (linkSt w
      n).up = true ∧ linkCheck w n bs code = 6) ∧
    (∃ (s w : State) (n : Nat) (bs : List Byte) (code : Bool), w = work s ∧ up w uLNK ∧ n < linkCount w ∧ (linkSt w
      n).up = true ∧ linkCheck w n bs code = 7) ∧
    (∃ (s w : State) (n : Nat) (bs : List Byte) (code : Bool), w = work s ∧ up w uLNK ∧ n < linkCount w ∧ (linkSt w
      n).up = true ∧ linkCheck w n bs code = 0 ∧ linkQueue w n (lfType bs) = none) ∧
    (∃ (s w : State) (n : Nat) (bs : List Byte) (code : Bool) (k : Nat), w = work s ∧ up w uLNK ∧ n < linkCount w ∧
      (linkSt w n).up = true ∧ linkCheck w n bs code = 0 ∧ linkQueue w n (lfType bs) = some k ∧ (qEn w k = false ∨ qTx
      w k = true)) ∧
    (∃ (s w : State) (n q : Nat) (bs : List Byte) (code : Bool) (k : Nat) (ok : Bool) (t : State), w = work s ∧ up w
      uLNK ∧ storeFrame k (prefixOf bs.length (8 + n) 1 0 0xFF w q) (bs.take (bs.length - 4)) bs.length w = (ok, t) ∧
      n < linkCount w ∧ (linkSt w n).up = true ∧ linkCheck w n bs code = 0 ∧ linkQueue w n (lfType bs) = some k ∧ qEn
      w k = true ∧ qTx w k = false) ∧
    (∃ (s w : State) (n : Nat) (tx rx : Int) (p : List Byte), w = work s ∧ up w uLNK ∧ p = List.replicate 16 0 ++
      stampBytes tx ++ stampBytes rx ++ bytesOf 1 ((if (timeSource w).isSome || w.tim.portState == 6 then 1 else 0) +
      if (linkSt w n).echo.isSome then 2 else 0) ++ bytesOf 1 (scaleNow w) ++ bytesOf 8 w.tim.gmId ++ bytesOf 1 (fld
      (regW w Reg.TIM_PTP_STAT.base) 15 8) ++ List.replicate 5 0 ∧ n < linkCount w ∧ (linkSt w n).up = true ∧
      lnkTimeEn w n = true ∧ ((linkSt w n).timeSent = 0 ∨ (linkSt w n).timeSent + timeInt w n ≤ monoNs w) ∧ (linkSt w
      n).echo.getD (0, 0) = (tx, rx)) ∧
    (∃ (s w : State) (n : Nat), w = work s ∧ up w uLNK ∧ n < linkCount w ∧ (linkSt w n).up = true ∧ lnkTimeEn w n =
      true ∧ ((linkSt w n).clockSent = 0 ∨ (linkSt w n).clockSent + 100000000 ≤ monoNs w ∨ (linkSt w n).clockState ≠
      some w.clk.state)) ∧
    (∃ (s w : State) (n : Nat), w = work s ∧ up w uLNK ∧ n < linkCount w ∧ (linkSt w n).up = false) ∧
    (∃ (s w : State) (n : Nat) (b b' : List Byte) (k : Nat) (t : State), w = work s ∧ up w uLNK ∧ k = tabGet 0 (linkSt
      t n).seqs (lfType b) ∧ b' = b.take 20 ++ bytesOf 4 k ++ b.drop 24 ∧ n < linkCount w) ∧
    (∃ (s w : State) (n : Nat), w = work s ∧ up w uLNK ∧ n < linkCount w ∧ (linkSt w n).up = true ∧ widthSent w n ≠
      none) ∧
    (∃ (s w : State) (n : Nat) (goes : List Byte → State → State) (b : List Byte), w = work s ∧ up w uLNK ∧ goes =
      (fun b t => snapSend snapSegs (linkWire n b t)) ∧ n < linkCount w ∧ (linkSt w n).up = true ∧ widthSent w n =
      none ∧ (linkSt w n).direct.find? (fun f => f.1 == 5) = some (5, b)) ∧
    (∃ (s w : State) (n : Nat) (goes : List Byte → State → State) (b : List Byte), w = work s ∧ up w uLNK ∧ goes =
      (fun b t => snapSend snapSegs (linkWire n b t)) ∧ n < linkCount w ∧ (linkSt w n).up = true ∧ widthSent w n =
      none ∧ (linkSt w n).direct.find? (fun f => f.1 == 5) = none ∧ (linkSt w n).direct.find? (fun f => f.1 == 7) =
      some (7, b)) ∧
    (∃ (s w : State) (n : Nat) (goes : List Byte → State → State) (b : List Byte), w = work s ∧ up w uLNK ∧ goes =
      (fun b t => snapSend snapSegs (linkWire n b t)) ∧ n < linkCount w ∧ (linkSt w n).up = true ∧ widthSent w n =
      none ∧ (linkSt w n).direct.find? (fun f => f.1 == 5) = none ∧ (linkSt w n).direct.find? (fun f => f.1 == 7) =
      none ∧ (linkSt w n).direct.find? (fun f => f.1 == 8) = some (8, b)) ∧
    (∃ (s w : State) (n : Nat) (goes : List Byte → State → State) (c q : Nat) (f : FrameRec) (rest : List FrameRec)
      (body : List Byte), w = work s ∧ up w uLNK ∧ goes = (fun b t => snapSend snapSegs (linkWire n b t)) ∧ body =
      f.bytes.drop 32 ∧ n < linkCount w ∧ (linkSt w n).up = true ∧ widthSent w n = none ∧ (linkSt w n).direct.find?
      (fun f => f.1 == 5) = none ∧ (linkSt w n).direct.find? (fun f => f.1 == 7) = none ∧ (linkSt w n).direct.find?
      (fun f => f.1 == 8) = none ∧ linkNext w n c = some q ∧ (c = 1 ∨ (linkNext w n 1 = none ∧ (c = 2 ∨ (linkNext w n
      2 = none ∧ c = 0)))) ∧ (queueSt w q).frames = f :: rest) :=
  ⟨⟨linkIn 7 1 (fun z => { z with up := true }), _, 7, [], true, rfl, up_of (by decide +kernel), by decide +kernel⟩,
   ⟨linkIn 7 1 (fun z => { z with up := true }), _, 7, List.replicate 63 0, false, rfl, up_of (by decide +kernel),
     by decide +kernel⟩,
   ⟨linkIn 7 1 (fun z => { z with up := true }), _, 7, checked (lframe 0 2 0 []), false, rfl, up_of
     (by decide +kernel), by decide +kernel⟩,
   ⟨linkIn 7 1 (fun z => { z with up := true }), _, 7, lframe 5 258 0 [], false, rfl, up_of (by decide +kernel),
     (linkCheck_long _ _ _ (by decide +kernel) (by rw [lframe_length]; omega)), by decide +kernel⟩,
   ⟨linkIn 7 1 (fun z => { z with up := true }), _, 7, lframe 5 2 0 [] ++ List.replicate 5 0, false, rfl, up_of
     (by decide +kernel), by decide +kernel⟩,
   ⟨linkIn 7 1 (fun z => { z with up := true }), _, 7, lframe 5 2 0 [] ++ List.replicate 4 0, false, rfl, up_of
     (by decide +kernel), by decide +kernel⟩,
   ⟨linkIn 7 1 (fun z => { z with up := true }), _, 7, checked (lframe 5 2 0 []), false, rfl, up_of
     (by decide +kernel), by decide +kernel⟩,
   ⟨linkFramesPass_7, _, 7, checked (lframe 1 2 0 []), false, 3, rfl, up_of (by decide +kernel), by decide +kernel⟩,
   ⟨linkFramesPass_8, _, 7, 0, checked (lframe 1 2 0 []), false, 3, (storeFrame 3 (prefixOf (checked (lframe 1 2 0
     [])).length (8 + 7) 1 0 0xFF (work linkFramesPass_8) 0) ((checked (lframe 1 2 0 [])).take ((checked (lframe 1 2 0
     [])).length - 4)) (checked (lframe 1 2 0 [])).length (work linkFramesPass_8)).1, (storeFrame 3 (prefixOf (checked
     (lframe 1 2 0 [])).length (8 + 7) 1 0 0xFF (work linkFramesPass_8) 0) ((checked (lframe 1 2 0 [])).take ((checked
     (lframe 1 2 0 [])).length - 4)) (checked (lframe 1 2 0 [])).length (work linkFramesPass_8)).2, rfl, up_of
     (by decide +kernel), rfl, by decide +kernel⟩,
   ⟨linkFramesPass_9, _, 7, 1, 2, _, rfl, up_of (by decide +kernel), rfl, by decide +kernel⟩,
   ⟨linkFramesPass_9, _, 7, rfl, up_of (by decide +kernel), by decide +kernel⟩,
   ⟨linkIn 7 1 id, _, 7, rfl, up_of (by decide +kernel), by decide +kernel⟩,
   ⟨live, _, 7, [], _, _, live, rfl, up_of (by decide +kernel), rfl, rfl, by decide +kernel⟩,
   ⟨linksAndTheirWidth_13, _, 7, rfl, up_of (by decide +kernel), by decide +kernel⟩,
   ⟨linkFramesPass_14, _, 7, _, [1], rfl, up_of (by decide +kernel), rfl, by decide +kernel⟩,
   ⟨linkFramesPass_15, _, 7, _, [1], rfl, up_of (by decide +kernel), rfl, by decide +kernel⟩,
   ⟨linkFramesPass_16, _, 7, _, [1], rfl, up_of (by decide +kernel), rfl, by decide +kernel⟩,
   ⟨linkSends, _, 7, _, 1, 3, ⟨[1], 1, none, []⟩, [], _, rfl, up_of (by decide +kernel), rfl, rfl, by decide +kernel⟩⟩

theorem witness_LinkFramesAndSegmentsAct :
    (∃ (s w t : State) (n q : Nat) (bs : List Byte) (k c chans : Nat) (x : RxSt) (fs : Nat) (smp : List (List Int)), w
      = work s ∧ up w uLNK ∧ takeLink 1 q w = some (n, bs, c, t) ∧ k = n * 32 + lfId bs % 32 ∧ chans = lfId bs / 256 %
      64 + 1 ∧ fs = (if lfId bs / 32 % 4 = 0 then 48000 else if lfId bs / 32 % 4 = 1 then 96000 else 192000) ∧ smp =
      (List.range chans).map (fun c => (List.range 16).map (fun j => signed 24 (getLE (lfPayload bs) ((j * chans + c)
      * 3) 3))) ∧ rxOf true t k = some x ∧ x.stopped = false ∧ lfId bs / 32 % 4 ≠ 3 ∧ lfPaylen bs = 48 * chans ∧
      rxClaimEn true t k = false) ∧
    (∃ (s w t : State) (n q : Nat) (bs : List Byte) (k c chans : Nat) (x : RxSt) (fs : Nat) (smp : List (List Int))
      (ok : Bool) (u : State), w = work s ∧ up w uLNK ∧ takeLink 1 q w = some (n, bs, c, t) ∧ k = n * 32 + lfId bs %
      32 ∧ chans = lfId bs / 256 % 64 + 1 ∧ fs = (if lfId bs / 32 % 4 = 0 then 48000 else if lfId bs / 32 % 4 = 1 then
      96000 else 192000) ∧ smp = (List.range chans).map (fun c => (List.range 16).map (fun j => signed 24 (getLE
      (lfPayload bs) ((j * chans + c) * 3) 3))) ∧ claimSeen true k (lfClaim bs) t = (ok, u) ∧ rxOf true t k = some x ∧
      x.stopped = false ∧ lfId bs / 32 % 4 ≠ 3 ∧ lfPaylen bs = 48 * chans ∧ rxClaimEn true t k = true) ∧
    (∃ (s w t : State) (n q : Nat) (bs : List Byte) (c : Nat), w = work s ∧ up w uLNK ∧ takeLink 4 q w = some (n, bs,
      c, t) ∧ unitPresent w uPAR = true ∧ paired w = true ∧ (pairLinks w).contains n = true ∧ 32 ≤ (lfPayload
      bs).length) ∧
    (∃ (s w t : State) (n : Nat) (bs : List Byte) (e : Int), w = work s ∧ up w uLNK ∧ takeInbox n 5 w = some (bs, e,
      t) ∧ n < linkCount w ∧ unitPresent w uPAR = true ∧ paired w = true ∧ (pairLinks w).contains n = true ∧ 32 ≤
      (lfPayload bs).length ∧ w.par.hbLost = false ∧ getLE (lfPayload bs) 1 1 = ownRank w) ∧
    (∃ (s w t : State) (n : Nat) (bs : List Byte) (e : Int), w = work s ∧ up w uLNK ∧ takeInbox n 5 w = some (bs, e,
      t) ∧ n < linkCount w ∧ unitPresent w uPAR = true ∧ paired w = true ∧ (pairLinks w).contains n = true ∧ 32 ≤
      (lfPayload bs).length ∧ w.par.hbLost = false ∧ getLE (lfPayload bs) 1 1 ≠ ownRank w ∧ getLE (lfPayload bs) 2 1 %
      2 = 0 ∧ w.par.role ≠ 1) ∧
    (∃ (s w t : State) (n : Nat) (bs : List Byte) (e : Int) (u : State), w = work s ∧ up w uLNK ∧ takeInbox n 7 w =
      some (bs, e, t) ∧ u = modLink n (fun x => { x with echo := some (stampOf (lfPayload bs) 0, e) }) t ∧ n <
      linkCount w ∧ getLE (lfPayload bs) 48 1 % 4 ≠ 3) ∧
    (∃ (s w t : State) (n : Nat) (bs : List Byte) (e : Int) (u v : State), w = work s ∧ up w uLNK ∧ takeInbox n 7 w =
      some (bs, e, t) ∧ u = modLink n (fun x => { x with echo := some (stampOf (lfPayload bs) 0, e) }) t ∧ v =
      linkGmSeen n (getLE (lfPayload bs) 50 8) (modLink n (fun x => { x with heard := monoNs w }) u) ∧ n < linkCount w
      ∧ getLE (lfPayload bs) 48 1 % 4 = 3 ∧ linkCands v n = []) ∧
    (∃ (s w t : State) (n : Nat) (bs : List Byte) (e pr : Int) (u v : State) (c : Nat) (d ph : Int), w = work s ∧ up w
      uLNK ∧ takeInbox n 7 w = some (bs, e, t) ∧ u = modLink n (fun x =>
      { x with echo := some (stampOf (lfPayload bs) 0, e) }) t ∧ v = linkGmSeen n (getLE (lfPayload bs) 50 8) (modLink
      n (fun x => { x with heard := monoNs w }) u) ∧ d = ((e - stampOf (lfPayload bs) 16) - (stampOf (lfPayload bs) 0
      - stampOf (lfPayload bs) 32)) / 2 ∧ ph = stampOf (lfPayload bs) 0 + d - e + sfld (actW w (Reg.LNK_ASYM.at n)) 31
      0 * 256 ∧ n < linkCount w ∧ getLE (lfPayload bs) 48 1 % 4 = 3 ∧ linkCands v n = [c] ∧ 655360000 < (-ph -
      pr).natAbs ∧ (cand v c).fresh = false ∧ ((cand v c).state = 2 ∨ (cand v c).state = 3)) ∧
    (∃ (s w t : State) (n : Nat) (bs : List Byte) (e pr : Int) (u v : State) (c : Nat) (d ph : Int), w = work s ∧ up w
      uLNK ∧ takeInbox n 7 w = some (bs, e, t) ∧ u = modLink n (fun x =>
      { x with echo := some (stampOf (lfPayload bs) 0, e) }) t ∧ v = linkGmSeen n (getLE (lfPayload bs) 50 8) (modLink
      n (fun x => { x with heard := monoNs w }) u) ∧ d = ((e - stampOf (lfPayload bs) 16) - (stampOf (lfPayload bs) 0
      - stampOf (lfPayload bs) 32)) / 2 ∧ ph = stampOf (lfPayload bs) 0 + d - e + sfld (actW w (Reg.LNK_ASYM.at n)) 31
      0 * 256 ∧ n < linkCount w ∧ getLE (lfPayload bs) 48 1 % 4 = 3 ∧ linkCands v n = [c] ∧ ((-ph - pr).natAbs ≤
      655360000 ∨ (cand v c).fresh = true) ∧ ((cand v c).state = 2 ∨ (cand v c).state = 3)) ∧
    (∃ (s w t : State) (n : Nat) (bs : List Byte) (e : Int) (u v : State) (c : Nat) (d ph : Int), w = work s ∧ up w
      uLNK ∧ takeInbox n 7 w = some (bs, e, t) ∧ u = modLink n (fun x =>
      { x with echo := some (stampOf (lfPayload bs) 0, e) }) t ∧ v = linkGmSeen n (getLE (lfPayload bs) 50 8) (modLink
      n (fun x => { x with heard := monoNs w }) u) ∧ d = ((e - stampOf (lfPayload bs) 16) - (stampOf (lfPayload bs) 0
      - stampOf (lfPayload bs) 32)) / 2 ∧ ph = stampOf (lfPayload bs) 0 + d - e + sfld (actW w (Reg.LNK_ASYM.at n)) 31
      0 * 256 ∧ n < linkCount w ∧ getLE (lfPayload bs) 48 1 % 4 = 3 ∧ linkCands v n = [c] ∧ ((cand v c).state = 1 ∨
      (cand v c).state = 4)) ∧
    (∃ (s w t : State) (n : Nat) (bs : List Byte) (e : Int), w = work s ∧ up w uLNK ∧ takeInbox n 8 w = some (bs, e,
      t) ∧ n < linkCount w) ∧
    (∃ (s w t u : State) (n c q : Nat) (bs p : List Byte), w = work s ∧ up w uLNK ∧ takeLink 3 q w = some (n, bs, c,
      t) ∧ p = lfPayload bs ∧ slotTake (nextSlot t) (getLE p 0 4) 0 (getLE p 8 4) ((lfVf bs).testBit 6) (p.drop 16)
      (modPar (fun x => { x with filling := some (nextSlot t) }) (modSlot (nextSlot t) (fun _ => ⟨false, getLE p 0 4,
      getLE p 8 4, 0⟩) t)) = .ok u ∧ unitPresent w uPAR = true ∧ paired w = true ∧ w.par.role = 2 ∧ (pairLinks
      w).contains n = true ∧ 16 ≤ p.length ∧ getLE p 4 4 = 0 ∧ t.par.filling = none) ∧
    (∃ (s w t u : State) (n c q : Nat) (bs p : List Byte) (f : Nat) (v : State), w = work s ∧ up w uLNK ∧ takeLink 3 q
      w = some (n, bs, c, t) ∧ p = lfPayload bs ∧ t.par.filling = some f ∧ v = slotBad f (slotOf t f).seq (slotOf t
      f).total t ∧ slotTake (nextSlot t) (getLE p 0 4) 0 (getLE p 8 4) ((lfVf bs).testBit 6) (p.drop 16) (modPar (fun
      x => { x with filling := some (nextSlot t) }) (modSlot (nextSlot t) (fun _ => ⟨false, getLE p 0 4, getLE p 8 4,
      0⟩) v)) = .ok u ∧ unitPresent w uPAR = true ∧ paired w = true ∧ w.par.role = 2 ∧ (pairLinks w).contains n = true
      ∧ 16 ≤ p.length ∧ getLE p 4 4 = 0) ∧
    (∃ (s w t u : State) (n c q : Nat) (bs p : List Byte) (f : Nat), w = work s ∧ up w uLNK ∧ takeLink 3 q w = some
      (n, bs, c, t) ∧ p = lfPayload bs ∧ t.par.filling = some f ∧ slotTake f (getLE p 0 4) (getLE p 4 4) (getLE p 8 4)
      ((lfVf bs).testBit 6) (p.drop 16) t = .ok u ∧ unitPresent w uPAR = true ∧ paired w = true ∧ w.par.role = 2 ∧
      (pairLinks w).contains n = true ∧ 16 ≤ p.length ∧ getLE p 4 4 ≠ 0) ∧
    (∃ (s w t : State) (n c q : Nat) (bs p : List Byte), w = work s ∧ up w uLNK ∧ takeLink 3 q w = some (n, bs, c, t)
      ∧ p = lfPayload bs ∧ unitPresent w uPAR = true ∧ paired w = true ∧ w.par.role = 2 ∧ (pairLinks w).contains n =
      true ∧ 16 ≤ p.length ∧ getLE p 4 4 ≠ 0 ∧ t.par.filling = none ∧ (slotOf t (nextSlot t)).seq ≠ getLE p 0 4) :=
  ⟨⟨linkFramesAndSegmentsAct_0, _, ((takeLink 1 5 (work linkFramesAndSegmentsAct_0)).getD (0, [], 0, live)).2.2.2,
    ((takeLink 1 5 (work linkFramesAndSegmentsAct_0)).getD (0, [], 0, live)).1, 5, ((takeLink 1 5 (work
    linkFramesAndSegmentsAct_0)).getD (0, [], 0, live)).2.1, _, ((takeLink 1 5 (work linkFramesAndSegmentsAct_0)).getD
    (0, [], 0, live)).2.2.1, _, rxZero, _, _, rfl, up_of (by decide +kernel), some_getD _ (0, [], 0, live)
    (by decide +kernel), rfl, rfl, rfl, rfl, by decide +kernel⟩,
   ⟨linkFramesAndSegmentsAct_1, _, ((takeLink 1 5 (work linkFramesAndSegmentsAct_1)).getD (0, [], 0, live)).2.2.2,
     ((takeLink 1 5 (work linkFramesAndSegmentsAct_1)).getD (0, [], 0, live)).1, 5, ((takeLink 1 5 (work
     linkFramesAndSegmentsAct_1)).getD (0, [], 0, live)).2.1, _, ((takeLink 1 5 (work
     linkFramesAndSegmentsAct_1)).getD (0, [], 0, live)).2.2.1, _, rxZero, _, _, (claimSeen true ((((takeLink 1 5
     (work linkFramesAndSegmentsAct_1)).getD (0, [], 0, live)).1) * 32 + lfId (((takeLink 1 5 (work
     linkFramesAndSegmentsAct_1)).getD (0, [], 0, live)).2.1) % 32) (lfClaim (((takeLink 1 5 (work
     linkFramesAndSegmentsAct_1)).getD (0, [], 0, live)).2.1)) (((takeLink 1 5 (work linkFramesAndSegmentsAct_1)).getD
     (0, [], 0, live)).2.2.2)).1, (claimSeen true ((((takeLink 1 5 (work linkFramesAndSegmentsAct_1)).getD (0, [], 0,
     live)).1) * 32 + lfId (((takeLink 1 5 (work linkFramesAndSegmentsAct_1)).getD (0, [], 0, live)).2.1) % 32)
     (lfClaim (((takeLink 1 5 (work linkFramesAndSegmentsAct_1)).getD (0, [], 0, live)).2.1)) (((takeLink 1 5 (work
     linkFramesAndSegmentsAct_1)).getD (0, [], 0, live)).2.2.2)).2, rfl, up_of (by decide +kernel), some_getD _ (0,
     [], 0, live) (by decide +kernel), rfl, rfl, rfl, rfl, rfl, by decide +kernel⟩,
   ⟨linkFramesAndSegmentsAct_2, _, ((takeLink 4 5 (work linkFramesAndSegmentsAct_2)).getD (0, [], 0, live)).2.2.2,
     ((takeLink 4 5 (work linkFramesAndSegmentsAct_2)).getD (0, [], 0, live)).1, 5, ((takeLink 4 5 (work
     linkFramesAndSegmentsAct_2)).getD (0, [], 0, live)).2.1, ((takeLink 4 5 (work linkFramesAndSegmentsAct_2)).getD
     (0, [], 0, live)).2.2.1, rfl, up_of (by decide +kernel), some_getD _ (0, [], 0, live) (by decide +kernel),
     by decide +kernel⟩,
   ⟨linkFramesAndSegmentsAct_3, _, ((takeInbox 0 5 (work linkFramesAndSegmentsAct_3)).getD ([], 0, live)).2.2, 0,
     ((takeInbox 0 5 (work linkFramesAndSegmentsAct_3)).getD ([], 0, live)).1, ((takeInbox 0 5 (work
     linkFramesAndSegmentsAct_3)).getD ([], 0, live)).2.1, rfl, up_of (by decide +kernel), some_getD _ ([], 0, live)
     (by decide +kernel), by decide +kernel⟩,
   ⟨linkFramesAndSegmentsAct_4, _, ((takeInbox 0 5 (work linkFramesAndSegmentsAct_4)).getD ([], 0, live)).2.2, 0,
     ((takeInbox 0 5 (work linkFramesAndSegmentsAct_4)).getD ([], 0, live)).1, ((takeInbox 0 5 (work
     linkFramesAndSegmentsAct_4)).getD ([], 0, live)).2.1, rfl, up_of (by decide +kernel), some_getD _ ([], 0, live)
     (by decide +kernel), by decide +kernel⟩,
   ⟨linkTime 0 candZero, _, ((takeInbox 7 7 (work (linkTime 0 candZero))).getD ([], 0, live)).2.2, 7, ((takeInbox 7 7
     (work (linkTime 0 candZero))).getD ([], 0, live)).1, ((takeInbox 7 7 (work (linkTime 0 candZero))).getD ([], 0,
     live)).2.1, _, rfl, up_of (by decide +kernel), some_getD _ ([], 0, live) (by decide +kernel), rfl,
     by decide +kernel⟩,
   ⟨linkFramesAndSegmentsAct_6, _, ((takeInbox 7 7 (work linkFramesAndSegmentsAct_6)).getD ([], 0, live)).2.2, 7,
     ((takeInbox 7 7 (work linkFramesAndSegmentsAct_6)).getD ([], 0, live)).1, ((takeInbox 7 7 (work
     linkFramesAndSegmentsAct_6)).getD ([], 0, live)).2.1, _, _, rfl, up_of (by decide +kernel), some_getD _ ([], 0,
     live) (by decide +kernel), rfl, rfl, by decide +kernel⟩,
   ⟨linkFramesAndSegmentsAct_7, _, ((takeInbox 7 7 (work linkFramesAndSegmentsAct_7)).getD ([], 0, live)).2.2, 7,
     ((takeInbox 7 7 (work linkFramesAndSegmentsAct_7)).getD ([], 0, live)).1, ((takeInbox 7 7 (work
     linkFramesAndSegmentsAct_7)).getD ([], 0, live)).2.1, 1000000000, _, _, 0, _, _, rfl, up_of (by decide +kernel),
     some_getD _ ([], 0, live) (by decide +kernel), rfl, rfl, rfl, rfl, by decide +kernel⟩,
   ⟨linkTime 3 { candZero with state := 2 }, _, ((takeInbox 7 7 (work (linkTime 3 { candZero with state := 2 }))).getD
     ([], 0, live)).2.2, 7, ((takeInbox 7 7 (work (linkTime 3 { candZero with state := 2 }))).getD ([], 0, live)).1,
     ((takeInbox 7 7 (work (linkTime 3 { candZero with state := 2 }))).getD ([], 0, live)).2.1, 0, _, _, 0, _, _, rfl,
     up_of (by decide +kernel), some_getD _ ([], 0, live) (by decide +kernel), rfl, rfl, rfl, rfl, by decide +kernel⟩,
   ⟨linkTime 3 { candZero with state := 1 }, _, ((takeInbox 7 7 (work (linkTime 3 { candZero with state := 1 }))).getD
     ([], 0, live)).2.2, 7, ((takeInbox 7 7 (work (linkTime 3 { candZero with state := 1 }))).getD ([], 0, live)).1,
     ((takeInbox 7 7 (work (linkTime 3 { candZero with state := 1 }))).getD ([], 0, live)).2.1, _, _, 0, _, _, rfl,
     up_of (by decide +kernel), some_getD _ ([], 0, live) (by decide +kernel), rfl, rfl, rfl, rfl, by decide +kernel⟩,
   ⟨linkFramesAndSegmentsAct_10, _, ((takeInbox 7 8 (work linkFramesAndSegmentsAct_10)).getD ([], 0, live)).2.2, 7,
     ((takeInbox 7 8 (work linkFramesAndSegmentsAct_10)).getD ([], 0, live)).1, ((takeInbox 7 8 (work
     linkFramesAndSegmentsAct_10)).getD ([], 0, live)).2.1, rfl, up_of (by decide +kernel), some_getD _ ([], 0, live)
     (by decide +kernel), by decide +kernel⟩,
   ⟨linkFramesAndSegmentsAct_11, _, ((takeLink 3 5 (work linkFramesAndSegmentsAct_11)).getD (0, [], 0, live)).2.2.2,
     okOr live (slotTake (nextSlot (((takeLink 3 5 (work linkFramesAndSegmentsAct_11)).getD (0, [], 0, live)).2.2.2))
     (getLE (lfPayload (((takeLink 3 5 (work linkFramesAndSegmentsAct_11)).getD (0, [], 0, live)).2.1)) 0 4) 0 (getLE
     (lfPayload (((takeLink 3 5 (work linkFramesAndSegmentsAct_11)).getD (0, [], 0, live)).2.1)) 8 4) ((lfVf
     (((takeLink 3 5 (work linkFramesAndSegmentsAct_11)).getD (0, [], 0, live)).2.1)).testBit 6) ((lfPayload
     (((takeLink 3 5 (work linkFramesAndSegmentsAct_11)).getD (0, [], 0, live)).2.1)).drop 16) (modPar (fun x =>
     { x with filling := some (nextSlot (((takeLink 3 5 (work linkFramesAndSegmentsAct_11)).getD (0, [], 0, live)).2.2.2)) })
     (modSlot (nextSlot (((takeLink 3 5 (work linkFramesAndSegmentsAct_11)).getD (0, [], 0, live)).2.2.2)) (fun _ =>
     ⟨false, getLE (lfPayload (((takeLink 3 5 (work linkFramesAndSegmentsAct_11)).getD (0, [], 0, live)).2.1)) 0 4,
     getLE (lfPayload (((takeLink 3 5 (work linkFramesAndSegmentsAct_11)).getD (0, [], 0, live)).2.1)) 8 4, 0⟩)
     (((takeLink 3 5 (work linkFramesAndSegmentsAct_11)).getD (0, [], 0, live)).2.2.2)))), ((takeLink 3 5 (work
     linkFramesAndSegmentsAct_11)).getD (0, [], 0, live)).1, ((takeLink 3 5 (work linkFramesAndSegmentsAct_11)).getD
     (0, [], 0, live)).2.2.1, 5, ((takeLink 3 5 (work linkFramesAndSegmentsAct_11)).getD (0, [], 0, live)).2.1, _,
     rfl, up_of (by decide +kernel), some_getD _ (0, [], 0, live) (by decide +kernel), rfl,
     (ok_okOr _ _ (by decide +kernel)), by decide +kernel⟩,
   ⟨linkFramesAndSegmentsAct_12, _, ((takeLink 3 5 (work linkFramesAndSegmentsAct_12)).getD (0, [], 0, live)).2.2.2,
     okOr live (slotTake (nextSlot (((takeLink 3 5 (work linkFramesAndSegmentsAct_12)).getD (0, [], 0, live)).2.2.2))
     (getLE (lfPayload (((takeLink 3 5 (work linkFramesAndSegmentsAct_12)).getD (0, [], 0, live)).2.1)) 0 4) 0 (getLE
     (lfPayload (((takeLink 3 5 (work linkFramesAndSegmentsAct_12)).getD (0, [], 0, live)).2.1)) 8 4) ((lfVf
     (((takeLink 3 5 (work linkFramesAndSegmentsAct_12)).getD (0, [], 0, live)).2.1)).testBit 6) ((lfPayload
     (((takeLink 3 5 (work linkFramesAndSegmentsAct_12)).getD (0, [], 0, live)).2.1)).drop 16) (modPar (fun x =>
     { x with filling := some (nextSlot (((takeLink 3 5 (work linkFramesAndSegmentsAct_12)).getD (0, [], 0, live)).2.2.2)) })
     (modSlot (nextSlot (((takeLink 3 5 (work linkFramesAndSegmentsAct_12)).getD (0, [], 0, live)).2.2.2)) (fun _ =>
     ⟨false, getLE (lfPayload (((takeLink 3 5 (work linkFramesAndSegmentsAct_12)).getD (0, [], 0, live)).2.1)) 0 4,
     getLE (lfPayload (((takeLink 3 5 (work linkFramesAndSegmentsAct_12)).getD (0, [], 0, live)).2.1)) 8 4, 0⟩)
     (slotBad (((((takeLink 3 5 (work linkFramesAndSegmentsAct_12)).getD (0, [], 0, live)).2.2.2).par.filling).getD 0)
     (slotOf (((takeLink 3 5 (work linkFramesAndSegmentsAct_12)).getD (0, [], 0, live)).2.2.2) (((((takeLink 3 5 (work
     linkFramesAndSegmentsAct_12)).getD (0, [], 0, live)).2.2.2).par.filling).getD 0)).seq (slotOf (((takeLink 3 5
     (work linkFramesAndSegmentsAct_12)).getD (0, [], 0, live)).2.2.2) (((((takeLink 3 5 (work
     linkFramesAndSegmentsAct_12)).getD (0, [], 0, live)).2.2.2).par.filling).getD 0)).total (((takeLink 3 5 (work
     linkFramesAndSegmentsAct_12)).getD (0, [], 0, live)).2.2.2))))), ((takeLink 3 5 (work
     linkFramesAndSegmentsAct_12)).getD (0, [], 0, live)).1, ((takeLink 3 5 (work linkFramesAndSegmentsAct_12)).getD
     (0, [], 0, live)).2.2.1, 5, ((takeLink 3 5 (work linkFramesAndSegmentsAct_12)).getD (0, [], 0, live)).2.1, _,
     ((((takeLink 3 5 (work linkFramesAndSegmentsAct_12)).getD (0, [], 0, live)).2.2.2).par.filling).getD 0, _, rfl,
     up_of (by decide +kernel), some_getD _ (0, [], 0, live) (by decide +kernel), rfl, some_getD _ 0
     (by decide +kernel), rfl, (ok_okOr _ _ (by decide +kernel)), by decide +kernel⟩,
   ⟨linkFramesAndSegmentsAct_13, _, ((takeLink 3 5 (work linkFramesAndSegmentsAct_13)).getD (0, [], 0, live)).2.2.2,
     okOr live (slotTake (((((takeLink 3 5 (work linkFramesAndSegmentsAct_13)).getD (0, [], 0,
     live)).2.2.2).par.filling).getD 0) (getLE (lfPayload (((takeLink 3 5 (work linkFramesAndSegmentsAct_13)).getD (0,
     [], 0, live)).2.1)) 0 4) (getLE (lfPayload (((takeLink 3 5 (work linkFramesAndSegmentsAct_13)).getD (0, [], 0,
     live)).2.1)) 4 4) (getLE (lfPayload (((takeLink 3 5 (work linkFramesAndSegmentsAct_13)).getD (0, [], 0,
     live)).2.1)) 8 4) ((lfVf (((takeLink 3 5 (work linkFramesAndSegmentsAct_13)).getD (0, [], 0, live)).2.1)).testBit
     6) ((lfPayload (((takeLink 3 5 (work linkFramesAndSegmentsAct_13)).getD (0, [], 0, live)).2.1)).drop 16)
     (((takeLink 3 5 (work linkFramesAndSegmentsAct_13)).getD (0, [], 0, live)).2.2.2)), ((takeLink 3 5 (work
     linkFramesAndSegmentsAct_13)).getD (0, [], 0, live)).1, ((takeLink 3 5 (work linkFramesAndSegmentsAct_13)).getD
     (0, [], 0, live)).2.2.1, 5, ((takeLink 3 5 (work linkFramesAndSegmentsAct_13)).getD (0, [], 0, live)).2.1, _,
     ((((takeLink 3 5 (work linkFramesAndSegmentsAct_13)).getD (0, [], 0, live)).2.2.2).par.filling).getD 0, rfl,
     up_of (by decide +kernel), some_getD _ (0, [], 0, live) (by decide +kernel), rfl, some_getD _ 0
     (by decide +kernel), (ok_okOr _ _ (by decide +kernel)), by decide +kernel⟩,
   ⟨linkFramesAndSegmentsAct_14, _, ((takeLink 3 5 (work linkFramesAndSegmentsAct_14)).getD (0, [], 0, live)).2.2.2,
     ((takeLink 3 5 (work linkFramesAndSegmentsAct_14)).getD (0, [], 0, live)).1, ((takeLink 3 5 (work
     linkFramesAndSegmentsAct_14)).getD (0, [], 0, live)).2.2.1, 5, ((takeLink 3 5 (work
     linkFramesAndSegmentsAct_14)).getD (0, [], 0, live)).2.1, _, rfl, up_of (by decide +kernel), some_getD _ (0, [],
     0, live) (by decide +kernel), rfl, by decide +kernel⟩⟩

theorem witness_SerialPortsFollow :
    (∃ (s w : State) (aes : Bool) (p : Nat), w = work s ∧ up w (serUnit aes) ∧ p < serCount aes w ∧ serSlave aes w p =
      true ∧ (serOf aes w p).state = 2 ∧ serRendered w (serOf aes w p).rate = true) ∧
    (∃ (s w : State) (aes : Bool) (p rate : Nat) (ppm : Int) (t u : State), w = work s ∧ up w (serUnit aes) ∧ t = setN
      (serPpm aes p) (lowBits 32 ppm) (setF (serStat aes p) 31 14 rate (serMod aes p (fun y => { y with ppm := ppm })
      w)) ∧ u = setN (serPpm aes p) (lowBits 32 ppm) (serMod aes p (fun y =>
      { y with ppm := ppm, rangeAt := if slipPpm aes t p < ppm.natAbs then monoNs t else y.rangeAt }) t) ∧ p <
      serCount aes w ∧ serSlave aes w p = true ∧ slipPpm aes t p < ppm.natAbs ∧ ((serOf aes t p).state = 1 ∨ (serOf
      aes t p).state = 2) ∧ serRendered t (serOf aes t p).rate = true ∧ serSlave aes t p = true) ∧
    (∃ (s w : State) (aes : Bool) (p rate : Nat) (ppm : Int) (t u : State), w = work s ∧ up w (serUnit aes) ∧ t = setN
      (serPpm aes p) (lowBits 32 ppm) (setF (serStat aes p) 31 14 rate (serMod aes p (fun y => { y with ppm := ppm })
      w)) ∧ u = setN (serPpm aes p) (lowBits 32 ppm) (serMod aes p (fun y =>
      { y with ppm := ppm, rangeAt := if slipPpm aes t p < ppm.natAbs then monoNs t else y.rangeAt }) t) ∧ p <
      serCount aes w ∧ serSlave aes w p = true ∧ ppm.natAbs ≤ slipPpm aes t p) ∧
    (∃ (s w : State) (aes : Bool) (p : Nat) (ppm : Int), w = work s ∧ up w (serUnit aes) ∧ p < serCount aes w ∧
      serSlave aes w p = true ∧ (serOf aes w p).state = 4 ∧ ppm.natAbs ≤ slipPpm aes w p ∧ (serOf aes w p).rangeAt +
      1000000000 ≤ monoNs w) ∧
    (∃ (s w : State) (aes : Bool) (p : Nat) (f : PortFlow), w = work s ∧ up w (serUnit aes) ∧ f = (if serRxOn aes w p
      = true ∧ (serOf aes w p).flow ≠ .mute then .rampOut else .mute) ∧ p < serCount aes w ∧ serSlave aes w p = true ∧
      ((serOf aes w p).state = 1 ∨ (serOf aes w p).state = 2 ∨ (serOf aes w p).state = 4)) ∧
    (∃ (s w : State) (aes : Bool) (p rate : Nat), w = work s ∧ up w (serUnit aes) ∧ p < serCount aes w ∧ serSlave aes
      w p = true ∧ (serOf aes w p).state = 3 ∧ rateKnown rate = true ∧ rateMoved (serOf aes w p).rate rate = false) ∧
    (∃ (s w : State) (aes : Bool) (p : Nat) (recent : List Nat) (t u : State), w = work s ∧ up w (serUnit aes) ∧
      recent = monoNs w :: (serOf aes w p).glitches.filter (fun t => decide (monoNs w < t + 1000000000)) ∧ t = serMod
      aes p (fun y => { y with glitches := recent }) w ∧ u = count (serGlitchCnt aes p) (if serRxOn aes w p = true ∧
      (serOf aes w p).state = 2 then serKeep aes p 0 (serOf aes w p).newest t else t) ∧ p < serCount aes w ∧ serSlave
      aes w p = true ∧ ((serOf aes w p).state = 1 ∨ (serOf aes w p).state = 2 ∨ (serOf aes w p).state = 4)) ∧
    (∃ (s w : State) (aes : Bool) (p rate : Nat) (t u : State), w = work s ∧ up w (serUnit aes) ∧ t = raise (if aes
      then 0x34 else 0x31) (bytesOf 1 p ++ [0] ++ bytesOf 4 rate) (stick (serHist aes p) 1 (setF (serStat aes p) 31 14
      rate w)) ∧ u = (if serCode aes w p = 0 then serMod aes p (fun y => { y with rate := rateNear rate }) t else
      serLose aes p t) ∧ p < serCount aes w ∧ serSlave aes w p = true ∧ 1 ≤ (serOf aes w p).state ∧ (serOf aes w
      p).state ≤ 4 ∧ rateMoved (serOf aes w p).rate rate = true ∧ ((serOf aes w p).state = 3 → rateMoved (fld (regW w
      (serStat aes p)) 31 14) rate = true)) ∧
    (∃ (s w : State) (aes : Bool) (p a : Nat) (t : State), w = work s ∧ up w (serUnit aes) ∧ a = (if aes then
      Reg.AES_CFG.at p else Reg.TDM_CFG.at p) ∧ writeWord 3 a (putFld (regW w a) 31 31 0) w = .ok t ∧ p < serCount aes
      w) ∧
    (∃ (s w : State) (aes : Bool) (p : Nat), w = work s ∧ up w (serUnit aes) ∧ p < serCount aes w ∧ (serOf aes w
      p).state ≠ 2 ∧ (serOf aes (openBlock (serUnit aes) w) p).state = 2) ∧
    (∃ (s w : State) (aes : Bool) (p new : Nat) (hz : Nat → Nat → Nat), w = work s ∧ up w (serUnit aes) ∧ aes = false
      ∧ new = actF w Reg.TDM_MCLK.base 17 0 ∧ (∀ v m : Nat, hz v m = mclkHz (v / 8 ^ m % 8)) ∧ p < serCount aes w) ∧
    (∃ (s w : State) (p : Nat) (bs : List Byte), w = work s ∧ up w uAES ∧ p < serCount true w ∧ serRxOn true w p =
      true ∧ bs.length = 24 ∧ (nth 0 bs 0).toNat % 2 = 1 ∧ (nth 0 bs 23).toNat ≠ 0 ∧ (nth 0 bs 23).toNat ≠ csCrc bs) ∧
    (∃ (s w : State) (p : Nat) (sub : Bool) (bs old : List Byte) (t u : State) (n : Nat), w = work s ∧ up w uAES ∧ old
      = (List.range 6).flatMap (fun k => bytesOf 4 (fld (regW w (if sub then Reg.AES_CS_RXB.at p k else
      Reg.AES_CS_RXA.at p k)) 31 0)) ∧ t = (List.range 6).foldl (fun t k => setN (if sub then Reg.AES_CS_RXB.at p k
      else Reg.AES_CS_RXA.at p k) (getLE bs (4 * k) 4) t) w ∧ n = (if fld (regW t (Reg.AES_CS_RXA.at p 0)) 7 0 / 2 % 2
      == 1 || fld (regW t (Reg.AES_CS_RXB.at p 0)) 7 0 / 2 % 2 == 1 then 1 else 0) ∧ u = setF (Reg.AES_STAT.at p) 6 6
      n (setF (Reg.AES_STAT.at p) 5 5 (if (nth 0 bs 0).toNat % 2 = 1 then 0 else 1) (setF (Reg.AES_STAT.at p) 4 4 1
      t)) ∧ p < serCount true w ∧ serRxOn true w p = true ∧ bs.length = 24 ∧ ((nth 0 bs 0).toNat % 2 = 0 ∨ (nth 0 bs
      23).toNat = 0 ∨ (nth 0 bs 23).toNat = csCrc bs)) :=
  ⟨⟨serialPortsFollow_0, _, true, 3, rfl, up_of (by decide +kernel), by decide +kernel⟩,
   ⟨serialPortsFollow_0, _, true, 3, 96000, 1000000000, _, _, rfl, up_of (by decide +kernel), rfl, rfl,
     by decide +kernel⟩,
   ⟨serialPortsFollow_0, _, true, 3, 96000, 0, _, _, rfl, up_of (by decide +kernel), rfl, rfl, by decide +kernel⟩,
   ⟨serialPortsFollow_3, _, false, 3, 0, rfl, up_of (by decide +kernel), by decide +kernel⟩,
   ⟨serialPortsFollow_4, _, true, 3, _, rfl, up_of (by decide +kernel), rfl, by decide +kernel⟩,
   ⟨serialPortsFollow_5, _, false, 3, 48480, rfl, up_of (by decide +kernel), by decide +kernel⟩,
   ⟨serialPortsFollow_6, _, true, 3, _, _, _, rfl, up_of (by decide +kernel), rfl, rfl, rfl, by decide +kernel⟩,
   ⟨serialPortsFollow_7, _, true, 3, 96000, _, _, rfl, up_of (by decide +kernel), rfl, rfl, by decide +kernel⟩,
   ⟨serialPortsFollow_8, _, false, 3, _, okOr live (writeWord 3 ((if false then Reg.AES_CFG.at 3 else Reg.TDM_CFG.at
     3)) (putFld (regW (work serialPortsFollow_8) ((if false then Reg.AES_CFG.at 3 else Reg.TDM_CFG.at 3))) 31 31 0)
     (work serialPortsFollow_8)), rfl, up_of (by decide +kernel), rfl, (ok_okOr _ _ (by decide +kernel)),
     by decide +kernel⟩,
   ⟨serialPortsFollow_9, _, true, 3, rfl, up_of (by decide +kernel), by decide +kernel⟩,
   ⟨serialPortsFollow_10, _, _, 3, _, fun v m => mclkHz (v / 8 ^ m % 8), rfl, up_of (by decide +kernel), rfl, rfl,
     (fun _ _ => rfl), by decide +kernel⟩,
   ⟨serial true 0x40000000 serZero, _, 3, [1] ++ List.replicate 22 0 ++ [9], rfl, up_of (by decide +kernel),
     by decide +kernel⟩,
   ⟨serial true 0x40000000 serZero, _, 3, false, List.replicate 24 0, _, _, _, _, rfl, up_of (by decide +kernel), rfl,
     rfl, rfl, rfl, by decide +kernel⟩⟩

theorem witness_SuppliesResetUnits :
    (∃ (s w : State) (img pins : Nat) (t : State), w = work s ∧ t = straps img (pins % 4)
      { w with start := { w.start with supplies := true, refs := pins / 4 % 4 }, time := { w.time with mono := 0 }, sec := { w.sec with executing := none, latched := [], tampered := false } }
      ∧ s.start.supplies = false) ∧
    (∃ s w : State, w = work s ∧ s.start.resetLow = false) ∧
    (∃ s w : State, w = work s ∧ s.start.resetLow = true) ∧
    (∃ (s w : State) (u ms : Nat) (t : State), w = work s ∧ (u = 3 → unitPresent w uMEA = true) ∧ t = setN
      Reg.HLT_UNIT_LAST.base u (count Reg.HLT_UNIT_RESTART_CNT.base w) ∧ running w = true ∧ 50 ≤ ms ∧ u ≤ 3) ∧
    (∃ (s w : State) (m ns : Nat), w = work s ∧ running w = true ∧ m ≤ 11 ∧ 1000 ≤ ns ∧ w.hlt.supplies.contains m =
      false) ∧
    (∃ (s w : State) (us : Nat), w = work s ∧ s.start.supplies = true ∧ 10 ≤ us ∧ s.sec.executing = none) ∧
    (∃ (s w : State) (us : Nat), w = work s ∧ s.start.supplies = true ∧ 10 ≤ us ∧ s.sec.executing.isSome = true) ∧
    (∃ (s w : State) (tj : Int) (us : Nat), w = work s ∧ w.start.supplies = true ∧ 125 * 256 < tj ∧ 1000 ≤ us ∧
      w.start.hot = false) ∧
    (∃ (s w : State) (tj : Int), w = work s ∧ w.start.hot = true ∧ tj < 105 * 256 ∧ w.start.resetLow = false) :=
  ⟨⟨State.reset, _, 2, 15, _, rfl, rfl, by decide +kernel⟩,
   ⟨live, _, rfl, by decide +kernel⟩,
   ⟨suppliesResetUnits_2, _, rfl, by decide +kernel⟩,
   ⟨live, _, 3, 50, _, rfl, (fun _ => by decide +kernel), rfl, by decide +kernel⟩,
   ⟨live, _, 11, 1000, rfl, by decide +kernel⟩,
   ⟨live, _, 10, rfl, by decide +kernel⟩,
   ⟨suppliesResetUnits_6, _, 10, rfl, by decide +kernel⟩,
   ⟨live, _, 125 * 256 + 1, 1000, rfl, by decide +kernel⟩,
   ⟨suppliesResetUnits_8, _, 105 * 256 - 1, rfl, by decide +kernel⟩⟩

theorem witness_StartsGoThroughTheirStages :
    (∃ (s w : State) (x : BistIn) (t : State), w = work s ∧ t = x.bad.foldl bistFail (wearScan (flashShow (modStart
      (fun y => { y with flashMib := min 256 x.flashMib, slotA := x.slotA, slotB := x.slotB }) (strapsTake x.straps
      w)))) ∧ powered w = true ∧ w.start.stage = 2 ∧ x.flashMib < 64) ∧
    (∃ (s w : State) (x : BistIn) (t : State), w = work s ∧ t = x.bad.foldl bistFail (wearScan (flashShow (modStart
      (fun y => { y with flashMib := min 256 x.flashMib, slotA := x.slotA, slotB := x.slotB }) (strapsTake x.straps
      w)))) ∧ powered w = true ∧ w.start.stage = 2 ∧ 64 ≤ x.flashMib ∧ 4 ≤ x.speed) ∧
    (∃ (s w : State) (x : BistIn) (t : State), w = work s ∧ t = x.bad.foldl bistFail (wearScan (flashShow (modStart
      (fun y => { y with flashMib := min 256 x.flashMib, slotA := x.slotA, slotB := x.slotB }) (strapsTake x.straps
      w)))) ∧ powered w = true ∧ w.start.stage = 2 ∧ 64 ≤ x.flashMib ∧ x.speed < 4) ∧
    (∃ (s w : State) (req v : Nat), w = work s ∧ v = rd32 w 40 % 2 ∧ req = (if v = 1 then rdN w 8 32 else 2 ^ 64 - 1)
      ∧ powered w = true ∧ w.start.stage = 3) ∧
    (∃ (s w : State) (x : Section) (t : State), w = work s ∧ x = sectionAt (slotImage w w.start.slotSel)
      w.start.secOfs ∧ (1 ≤ x.typ → x.typ ≤ 11 → sectionOk w x = true ∧ placeOk w x = true) ∧ sectionLoad x w = .ok
      (0, t) ∧ powered w = true ∧ w.start.stage = 4 ∧ w.start.loading = true ∧ w.start.secOfs + 16 + x.len ≤ imgLen w
      w.start.slotSel ∧ (w.start.secNo = 0 → x.typ = 1) ∧ crc32c x.pay = x.crc ∧ w.start.secNo + 1 ≠ imgSections w
      w.start.slotSel) ∧
    (∃ (s w : State) (b : Nat) (n₀ n₁ n₂ n₃ : State), w = work s ∧ n₀ = timeStart (if actF w Reg.SYS_RENDER_RATE.base
      1 0 = 2 ∧ accepted w 1 = false then setF Reg.FEA_STAT.base 2 2 1 (stageGo 5 (stageAll (timeStart w))) else
      stageGo 5 (stageAll (timeStart w))) ∧ b = tickStart n₀ (nowTick n₀ + 1) ∧ n₁ = [uINC, uRTE, uMOT, uSLV,
      uCOR].foldl (fun t u => loadCommit b (timeStart w) t u) (logicalStart (unitsStart b n₀)) ∧ n₂ = candsStart
      (mclkChange (bootSet (objsStart (b / tickBlocks n₁) n₁))) ∧ n₃ = parStart (wearFlush (setF Reg.FEA_STAT.base 0 0
      1 (storeBytes (if ptpOn (bootSet (objsStart (b / tickBlocks n₁) n₁)) then ptpEnable n₂ else n₂) 52 [1]))) ∧
      powered w = true ∧ w.start.stage = 4 ∧ w.start.loading = false) :=
  ⟨⟨hostPinsAccess_1, _, ⟨[(0, 3)], 63, [], [], 0, 4, none⟩, _, rfl, rfl, by decide +kernel⟩,
   ⟨hostPinsAccess_1, _, ⟨[(0, 3)], 64, [], [], 4, 4, none⟩, _, rfl, rfl, by decide +kernel⟩,
   ⟨hostPinsAccess_1, _, ⟨[(0, 3)], 256, [], [], 3, 4, none⟩, _, rfl, rfl, by decide +kernel⟩,
   ⟨startsGoThroughTheirStages_3, _, _, _, rfl, rfl, rfl, by decide +kernel⟩,
   ⟨startsGoThroughTheirStages_4, _, _, (work startsGoThroughTheirStages_4), rfl, rfl, (fun _ _ => by decide +kernel),
     rfl, by decide +kernel⟩,
   ⟨startsGoThroughTheirStages_5, _, _, _, _, _, _, rfl, rfl, rfl, rfl, rfl, rfl, by decide +kernel⟩⟩

theorem witness_TestPortShifts :
    (∃ (s w : State) (bs balls : List Bool) (u : State), w = work s ∧ sampleBalls bs.length
      { w with tap := { w.tap with ir := .sample } } = (balls, u) ∧ s.start.supplies = true) ∧
    (∃ s w : State, w = work s ∧ s.start.supplies = true ∧ w.start.resetLow = false) ∧
    (∃ s w t : State, w = work s ∧ t = emit (.balls w.tap.cells) { w with tap := { w.tap with ir := .extest } } ∧
      s.start.supplies = true ∧ w.start.resetLow = true) :=
  ⟨⟨live, _, [true], (sampleBalls ([true]).length
    { (work live) with tap := { (work live).tap with ir := .sample } }).1, (sampleBalls ([true]).length
    { (work live) with tap := { (work live).tap with ir := .sample } }).2, rfl, rfl, by decide +kernel⟩,
   ⟨live, _, rfl, by decide +kernel⟩,
   ⟨testPortShifts_2, _, _, rfl, rfl, by decide +kernel⟩⟩

theorem witness_AluResults :
    (∃ (s w : State) (n d : Nat) (i x y : Word), w = work s ∧ i = fetchWord w n ∧ x = dReg (coreOf w n) (fld i 18 15)
      ∧ y = dReg (coreOf w n) (fld i 14 11) ∧ d = fld i 22 19 ∧ druReady w n .add) ∧
    (∃ (s w : State) (n d : Nat) (i x y : Word), w = work s ∧ i = fetchWord w n ∧ x = dReg (coreOf w n) (fld i 18 15)
      ∧ y = dReg (coreOf w n) (fld i 14 11) ∧ d = fld i 22 19 ∧ druReady w n .sub) ∧
    (∃ (s w : State) (n d : Nat) (i x y : Word), w = work s ∧ i = fetchWord w n ∧ x = dReg (coreOf w n) (fld i 18 15)
      ∧ y = dReg (coreOf w n) (fld i 14 11) ∧ d = fld i 22 19 ∧ druReady w n .adds) ∧
    (∃ (s w : State) (n d : Nat) (i x y : Word), w = work s ∧ i = fetchWord w n ∧ x = dReg (coreOf w n) (fld i 18 15)
      ∧ y = dReg (coreOf w n) (fld i 14 11) ∧ d = fld i 22 19 ∧ druReady w n .subs) ∧
    (∃ (s w : State) (n d : Nat) (i x y : Word), w = work s ∧ i = fetchWord w n ∧ x = dReg (coreOf w n) (fld i 18 15)
      ∧ y = dReg (coreOf w n) (fld i 14 11) ∧ d = fld i 22 19 ∧ druReady w n .and) ∧
    (∃ (s w : State) (n d : Nat) (i x y : Word), w = work s ∧ i = fetchWord w n ∧ x = dReg (coreOf w n) (fld i 18 15)
      ∧ y = dReg (coreOf w n) (fld i 14 11) ∧ d = fld i 22 19 ∧ druReady w n .or) ∧
    (∃ (s w : State) (n d : Nat) (i x y : Word), w = work s ∧ i = fetchWord w n ∧ x = dReg (coreOf w n) (fld i 18 15)
      ∧ y = dReg (coreOf w n) (fld i 14 11) ∧ d = fld i 22 19 ∧ druReady w n .xor) ∧
    (∃ (s w : State) (n d : Nat) (i x y : Word), w = work s ∧ i = fetchWord w n ∧ x = dReg (coreOf w n) (fld i 18 15)
      ∧ y = dReg (coreOf w n) (fld i 14 11) ∧ d = fld i 22 19 ∧ druReady w n .min) ∧
    (∃ (s w : State) (n d : Nat) (i x y : Word), w = work s ∧ i = fetchWord w n ∧ x = dReg (coreOf w n) (fld i 18 15)
      ∧ y = dReg (coreOf w n) (fld i 14 11) ∧ d = fld i 22 19 ∧ druReady w n .max) ∧
    (∃ (s w : State) (n d : Nat) (i x y : Word), w = work s ∧ i = fetchWord w n ∧ x = dReg (coreOf w n) (fld i 18 15)
      ∧ y = dReg (coreOf w n) (fld i 14 11) ∧ d = fld i 22 19 ∧ druReady w n .abs) ∧
    (∃ (s w : State) (n d : Nat) (i x y : Word), w = work s ∧ i = fetchWord w n ∧ x = dReg (coreOf w n) (fld i 18 15)
      ∧ y = dReg (coreOf w n) (fld i 14 11) ∧ d = fld i 22 19 ∧ druReady w n .neg) ∧
    (∃ (s w : State) (n d : Nat) (i x y : Word), w = work s ∧ i = fetchWord w n ∧ x = dReg (coreOf w n) (fld i 18 15)
      ∧ y = dReg (coreOf w n) (fld i 14 11) ∧ d = fld i 22 19 ∧ druReady w n .mul) ∧
    (∃ (s w : State) (n d : Nat) (i x y : Word), w = work s ∧ i = fetchWord w n ∧ x = dReg (coreOf w n) (fld i 18 15)
      ∧ y = dReg (coreOf w n) (fld i 14 11) ∧ d = fld i 22 19 ∧ druReady w n .mov) ∧
    (∃ (s w : State) (n d : Nat) (i x y : Word), w = work s ∧ i = fetchWord w n ∧ x = dReg (coreOf w n) (fld i 18 15)
      ∧ y = dReg (coreOf w n) (fld i 14 11) ∧ d = fld i 22 19 ∧ druReady w n .cls) ∧
    (∃ (s w : State) (n d : Nat) (i x y : Word), w = work s ∧ i = fetchWord w n ∧ x = dReg (coreOf w n) (fld i 18 15)
      ∧ y = dReg (coreOf w n) (fld i 14 11) ∧ d = fld i 22 19 ∧ druReady w n .cmp) ∧
    (∃ (s w : State) (n d k : Nat) (i x : Word), w = work s ∧ i = fetchWord w n ∧ x = dReg (coreOf w n) (fld i 20 17)
      ∧ d = fld i 24 21 ∧ k = fld i 16 0 ∧ druReady w n .addi) ∧
    (∃ (s w : State) (n d k : Nat) (i x : Word), w = work s ∧ i = fetchWord w n ∧ x = dReg (coreOf w n) (fld i 20 17)
      ∧ d = fld i 24 21 ∧ k = fld i 16 0 ∧ druReady w n .andi) ∧
    (∃ (s w : State) (n d k : Nat) (i x : Word), w = work s ∧ i = fetchWord w n ∧ x = dReg (coreOf w n) (fld i 20 17)
      ∧ d = fld i 24 21 ∧ k = fld i 16 0 ∧ druReady w n .ori) ∧
    (∃ (s w : State) (n d k : Nat) (i x : Word), w = work s ∧ i = fetchWord w n ∧ x = dReg (coreOf w n) (fld i 20 17)
      ∧ d = fld i 24 21 ∧ k = fld i 16 0 ∧ druReady w n .xori) ∧
    (∃ (s w : State) (n d k : Nat) (i x : Word), w = work s ∧ i = fetchWord w n ∧ x = dReg (coreOf w n) (fld i 20 17)
      ∧ d = fld i 24 21 ∧ k = fld i 16 0 ∧ druReady w n .cmpi) ∧
    (∃ (s w : State) (n d k : Nat) (i x : Word), w = work s ∧ i = fetchWord w n ∧ x = dReg (coreOf w n) (fld i 20 17)
      ∧ d = fld i 24 21 ∧ k = fld i 16 0 ∧ druReady w n .movi) ∧
    (∃ (s w : State) (n d k : Nat) (i x : Word), w = work s ∧ i = fetchWord w n ∧ x = dReg (coreOf w n) (fld i 20 17)
      ∧ d = fld i 24 21 ∧ k = fld i 16 0 ∧ druReady w n .movhi) ∧
    (∃ (s w t : State) (n : Nat) (i : Word) (b : Bool) (x y : Word), w = work s ∧ i = fetchWord w n ∧ drawBit w = (b,
      t) ∧ x = dReg (coreOf w n) (fld i 18 15) ∧ y = dReg (coreOf w n) (fld i 14 11) ∧ druReady w n .shl) ∧
    (∃ (s w t : State) (n : Nat) (i : Word) (b : Bool) (x y : Word), w = work s ∧ i = fetchWord w n ∧ drawBit w = (b,
      t) ∧ x = dReg (coreOf w n) (fld i 18 15) ∧ y = dReg (coreOf w n) (fld i 14 11) ∧ druReady w n .shr) ∧
    (∃ (s w t : State) (n : Nat) (i : Word) (b : Bool) (x y : Word), w = work s ∧ i = fetchWord w n ∧ drawBit w = (b,
      t) ∧ x = dReg (coreOf w n) (fld i 18 15) ∧ y = dReg (coreOf w n) (fld i 14 11) ∧ druReady w n .asr) ∧
    (∃ (s w t : State) (n : Nat) (i : Word) (b : Bool) (x : Word), w = work s ∧ i = fetchWord w n ∧ drawBit w = (b, t)
      ∧ x = dReg (coreOf w n) (fld i 20 17) ∧ druReady w n .shli) ∧
    (∃ (s w t : State) (n : Nat) (i : Word) (b : Bool) (x : Word), w = work s ∧ i = fetchWord w n ∧ drawBit w = (b, t)
      ∧ x = dReg (coreOf w n) (fld i 20 17) ∧ druReady w n .shri) ∧
    (∃ (s w t : State) (n : Nat) (i : Word) (b : Bool) (x : Word), w = work s ∧ i = fetchWord w n ∧ drawBit w = (b, t)
      ∧ x = dReg (coreOf w n) (fld i 20 17) ∧ druReady w n .asri) :=
  ⟨⟨aluResults_0, _, 15, _, _, _, _, rfl, rfl, rfl, rfl, rfl, ready_of (by decide +kernel)⟩,
   ⟨aluResults_1, _, 15, _, _, _, _, rfl, rfl, rfl, rfl, rfl, ready_of (by decide +kernel)⟩,
   ⟨aluResults_2, _, 15, _, _, _, _, rfl, rfl, rfl, rfl, rfl, ready_of (by decide +kernel)⟩,
   ⟨aluResults_3, _, 15, _, _, _, _, rfl, rfl, rfl, rfl, rfl, ready_of (by decide +kernel)⟩,
   ⟨aluResults_4, _, 15, _, _, _, _, rfl, rfl, rfl, rfl, rfl, ready_of (by decide +kernel)⟩,
   ⟨aluResults_5, _, 15, _, _, _, _, rfl, rfl, rfl, rfl, rfl, ready_of (by decide +kernel)⟩,
   ⟨aluResults_6, _, 15, _, _, _, _, rfl, rfl, rfl, rfl, rfl, ready_of (by decide +kernel)⟩,
   ⟨aluResults_7, _, 15, _, _, _, _, rfl, rfl, rfl, rfl, rfl, ready_of (by decide +kernel)⟩,
   ⟨aluResults_8, _, 15, _, _, _, _, rfl, rfl, rfl, rfl, rfl, ready_of (by decide +kernel)⟩,
   ⟨aluResults_9, _, 15, _, _, _, _, rfl, rfl, rfl, rfl, rfl, ready_of (by decide +kernel)⟩,
   ⟨aluResults_10, _, 15, _, _, _, _, rfl, rfl, rfl, rfl, rfl, ready_of (by decide +kernel)⟩,
   ⟨aluResults_11, _, 15, _, _, _, _, rfl, rfl, rfl, rfl, rfl, ready_of (by decide +kernel)⟩,
   ⟨aluResults_12, _, 15, _, _, _, _, rfl, rfl, rfl, rfl, rfl, ready_of (by decide +kernel)⟩,
   ⟨aluResults_13, _, 15, _, _, _, _, rfl, rfl, rfl, rfl, rfl, ready_of (by decide +kernel)⟩,
   ⟨aluResults_14, _, 15, _, _, _, _, rfl, rfl, rfl, rfl, rfl, ready_of (by decide +kernel)⟩,
   ⟨aluResults_15, _, 15, _, _, _, _, rfl, rfl, rfl, rfl, rfl, ready_of (by decide +kernel)⟩,
   ⟨aluResults_16, _, 15, _, _, _, _, rfl, rfl, rfl, rfl, rfl, ready_of (by decide +kernel)⟩,
   ⟨aluResults_17, _, 15, _, _, _, _, rfl, rfl, rfl, rfl, rfl, ready_of (by decide +kernel)⟩,
   ⟨aluResults_18, _, 15, _, _, _, _, rfl, rfl, rfl, rfl, rfl, ready_of (by decide +kernel)⟩,
   ⟨aluResults_19, _, 15, _, _, _, _, rfl, rfl, rfl, rfl, rfl, ready_of (by decide +kernel)⟩,
   ⟨aluResults_20, _, 15, _, _, _, _, rfl, rfl, rfl, rfl, rfl, ready_of (by decide +kernel)⟩,
   ⟨aluResults_21, _, 15, _, _, _, _, rfl, rfl, rfl, rfl, rfl, ready_of (by decide +kernel)⟩,
   ⟨aluResults_22, _, (drawBit (work aluResults_22)).2, 15, _, (drawBit (work aluResults_22)).1, _, _, rfl, rfl, rfl,
     rfl, rfl, ready_of (by decide +kernel)⟩,
   ⟨aluResults_23, _, (drawBit (work aluResults_23)).2, 15, _, (drawBit (work aluResults_23)).1, _, _, rfl, rfl, rfl,
     rfl, rfl, ready_of (by decide +kernel)⟩,
   ⟨aluResults_24, _, (drawBit (work aluResults_24)).2, 15, _, (drawBit (work aluResults_24)).1, _, _, rfl, rfl, rfl,
     rfl, rfl, ready_of (by decide +kernel)⟩,
   ⟨aluResults_25, _, (drawBit (work aluResults_25)).2, 15, _, (drawBit (work aluResults_25)).1, _, rfl, rfl, rfl,
     rfl, ready_of (by decide +kernel)⟩,
   ⟨aluResults_26, _, (drawBit (work aluResults_26)).2, 15, _, (drawBit (work aluResults_26)).1, _, rfl, rfl, rfl,
     rfl, ready_of (by decide +kernel)⟩,
   ⟨aluResults_27, _, (drawBit (work aluResults_27)).2, 15, _, (drawBit (work aluResults_27)).1, _, rfl, rfl, rfl,
     rfl, ready_of (by decide +kernel)⟩⟩

theorem witness_AluFrame :
    (∃ (s w t : State) (n d : Nat) (i : Word) (c : Instr) (k : Nat), w = work s ∧ i = fetchWord w n ∧ exec c s = .next
      t ∧ ((c ∈ [.add n, .sub n, .adds n, .subs n, .and n, .or n, .xor n, .shl n, .shr n, .asr n, .min n, .max n, .abs
      n, .neg n, .mul n, .mov n, .cls n, .cmp n] ∧ d = fld i 22 19) ∨ (c ∈ [.addi n, .andi n, .ori n, .xori n, .shli
      n, .shri n, .asri n, .cmpi n, .movi n, .movhi n] ∧ d = fld i 24 21)) ∧ k ≠ n) ∧
    (∃ (s w t : State) (n d : Nat) (i : Word) (c : Instr) (r : Nat), w = work s ∧ i = fetchWord w n ∧ exec c s = .next
      t ∧ ((c ∈ [.add n, .sub n, .adds n, .subs n, .and n, .or n, .xor n, .shl n, .shr n, .asr n, .min n, .max n, .abs
      n, .neg n, .mul n, .mov n, .cls n, .cmp n] ∧ d = fld i 22 19) ∨ (c ∈ [.addi n, .andi n, .ori n, .xori n, .shli
      n, .shri n, .asri n, .cmpi n, .movi n, .movhi n] ∧ d = fld i 24 21)) ∧ r < 36 ∧ r ≠ d) ∧
    (∃ (s w t : State) (n d : Nat) (i : Word) (c : Instr) (r : Nat), w = work s ∧ i = fetchWord w n ∧ exec c s = .next
      t ∧ ((c ∈ [.add n, .sub n, .adds n, .subs n, .and n, .or n, .xor n, .shl n, .shr n, .asr n, .min n, .max n, .abs
      n, .neg n, .mul n, .mov n, .cls n, .cmp n] ∧ d = fld i 22 19) ∨ (c ∈ [.addi n, .andi n, .ori n, .xori n, .shli
      n, .shri n, .asri n, .cmpi n, .movi n, .movhi n] ∧ d = fld i 24 21)) ∧ (c = .cmp n ∨ c = .cmpi n) ∧ r < 36) :=
  ⟨⟨aluResults_0, _, afterNext (exec (.add 15) aluResults_0), 15, fld (fetchWord (work aluResults_0) 15) 22 19, _, .add
    15, 16, rfl, rfl, (next_afterNext _ (by decide +kernel)), by decide +kernel⟩,
   ⟨aluResults_19, _, afterNext (exec (.cmpi 15) aluResults_19), 15, fld (fetchWord (work aluResults_19) 15) 24 21, _,
     .cmpi 15, 35, rfl, rfl, (next_afterNext _ (by decide +kernel)), by decide +kernel⟩,
   ⟨aluResults_19, _, afterNext (exec (.cmpi 15) aluResults_19), 15, fld (fetchWord (work aluResults_19) 15) 24 21, _,
     .cmpi 15, 0, rfl, rfl, (next_afterNext _ (by decide +kernel)), by decide +kernel⟩⟩

theorem witness_CoreLoadsAndStores :
    (∃ (s w w₀ : State) (n a rd an size : Nat) (i : Word) (upd : Option Word) (m : DruMn) (free : Bool) (bs : List
      Byte) (t u : State), w = work s ∧ i = fetchWord w n ∧ druReady w n m ∧ rd = fld i 25 22 ∧ an = fld i 21 19 ∧
      free = (size != 3 && crosses8 a size) ∧ w₀ = (if free then { w with free := w.free + 1 } else w) ∧ localLoad n a
      size w₀ = (bs, u) ∧ t = loadEnd n rd an (if free then Config.freeWord w.free else loadExt size bs) upd u ∧ m =
      .ld ∧ size = 4 ∧ druAddr (coreOf w n) an (fld i 18 17) (fld i 16 0) size = (a, upd) ∧ a < 2 ^ 31) ∧
    (∃ (s w w₀ : State) (n a rd an size : Nat) (i : Word) (upd : Option Word) (m : DruMn) (free : Bool) (bs : List
      Byte) (t u : State), w = work s ∧ i = fetchWord w n ∧ druReady w n m ∧ rd = fld i 25 22 ∧ an = fld i 21 19 ∧
      free = (size != 3 && crosses8 a size) ∧ w₀ = (if free then { w with free := w.free + 1 } else w) ∧ localLoad n a
      size w₀ = (bs, u) ∧ t = loadEnd n rd an (if free then Config.freeWord w.free else loadExt size bs) upd u ∧ m =
      .ldh ∧ size = 2 ∧ druAddr (coreOf w n) an (fld i 18 17) (fld i 16 0) size = (a, upd) ∧ a < 2 ^ 31) ∧
    (∃ (s w w₀ : State) (n a rd an size : Nat) (i : Word) (upd : Option Word) (m : DruMn) (free : Bool) (bs : List
      Byte) (t u : State), w = work s ∧ i = fetchWord w n ∧ druReady w n m ∧ rd = fld i 25 22 ∧ an = fld i 21 19 ∧
      free = (size != 3 && crosses8 a size) ∧ w₀ = (if free then { w with free := w.free + 1 } else w) ∧ localLoad n a
      size w₀ = (bs, u) ∧ t = loadEnd n rd an (if free then Config.freeWord w.free else loadExt size bs) upd u ∧ m =
      .ldb ∧ size = 1 ∧ druAddr (coreOf w n) an (fld i 18 17) (fld i 16 0) size = (a, upd) ∧ a < 2 ^ 31) ∧
    (∃ (s w w₀ : State) (n a rd an size : Nat) (i : Word) (upd : Option Word) (m : DruMn) (free : Bool) (bs : List
      Byte) (t u : State), w = work s ∧ i = fetchWord w n ∧ druReady w n m ∧ rd = fld i 25 22 ∧ an = fld i 21 19 ∧
      free = (size != 3 && crosses8 a size) ∧ w₀ = (if free then { w with free := w.free + 1 } else w) ∧ localLoad n a
      size w₀ = (bs, u) ∧ t = loadEnd n rd an (if free then Config.freeWord w.free else loadExt size bs) upd u ∧ m =
      .ld24 ∧ size = 3 ∧ druAddr (coreOf w n) an (fld i 18 17) (fld i 16 0) size = (a, upd) ∧ a < 2 ^ 31) ∧
    (∃ (s w w₀ : State) (n a rd an size : Nat) (i : Word) (upd : Option Word) (m : DruMn) (free : Bool) (bs : List
      Byte) (t : State), w = work s ∧ i = fetchWord w n ∧ druReady w n m ∧ rd = fld i 25 22 ∧ an = fld i 21 19 ∧ free
      = (size != 3 && crosses8 a size) ∧ w₀ = (if free then { w with free := w.free + 1 } else w) ∧ bs = bytesOf size
      (if free then Config.freeWord w.free else dReg (coreOf w n) rd).toNat ∧ t = coreDone n (updateAn n an upd
      (localStore n a bs w₀)) ∧ m = .st ∧ size = 4 ∧ druAddr (coreOf w n) an (fld i 18 17) (fld i 16 0) size = (a,
      upd) ∧ a < 2 ^ 31) ∧
    (∃ (s w w₀ : State) (n a rd an size : Nat) (i : Word) (upd : Option Word) (m : DruMn) (free : Bool) (bs : List
      Byte) (t : State), w = work s ∧ i = fetchWord w n ∧ druReady w n m ∧ rd = fld i 25 22 ∧ an = fld i 21 19 ∧ free
      = (size != 3 && crosses8 a size) ∧ w₀ = (if free then { w with free := w.free + 1 } else w) ∧ bs = bytesOf size
      (if free then Config.freeWord w.free else dReg (coreOf w n) rd).toNat ∧ t = coreDone n (updateAn n an upd
      (localStore n a bs w₀)) ∧ m = .sth ∧ size = 2 ∧ druAddr (coreOf w n) an (fld i 18 17) (fld i 16 0) size = (a,
      upd) ∧ a < 2 ^ 31) ∧
    (∃ (s w w₀ : State) (n a rd an size : Nat) (i : Word) (upd : Option Word) (m : DruMn) (free : Bool) (bs : List
      Byte) (t : State), w = work s ∧ i = fetchWord w n ∧ druReady w n m ∧ rd = fld i 25 22 ∧ an = fld i 21 19 ∧ free
      = (size != 3 && crosses8 a size) ∧ w₀ = (if free then { w with free := w.free + 1 } else w) ∧ bs = bytesOf size
      (if free then Config.freeWord w.free else dReg (coreOf w n) rd).toNat ∧ t = coreDone n (updateAn n an upd
      (localStore n a bs w₀)) ∧ m = .stb ∧ size = 1 ∧ druAddr (coreOf w n) an (fld i 18 17) (fld i 16 0) size = (a,
      upd) ∧ a < 2 ^ 31) ∧
    (∃ (s w w₀ : State) (n a rd an size : Nat) (i : Word) (upd : Option Word) (m : DruMn) (free : Bool) (bs : List
      Byte) (t : State), w = work s ∧ i = fetchWord w n ∧ druReady w n m ∧ rd = fld i 25 22 ∧ an = fld i 21 19 ∧ free
      = (size != 3 && crosses8 a size) ∧ w₀ = (if free then { w with free := w.free + 1 } else w) ∧ bs = bytesOf size
      (if free then Config.freeWord w.free else dReg (coreOf w n) rd).toNat ∧ t = coreDone n (updateAn n an upd
      (localStore n a bs w₀)) ∧ m = .st24 ∧ size = 3 ∧ druAddr (coreOf w n) an (fld i 18 17) (fld i 16 0) size = (a,
      upd) ∧ a < 2 ^ 31) ∧
    (∃ (s w w₀ : State) (n a rd an size : Nat) (i : Word) (upd : Option Word) (m : DruMn) (free : Bool), w = work s ∧
      i = fetchWord w n ∧ druReady w n m ∧ rd = fld i 25 22 ∧ an = fld i 21 19 ∧ free = (size != 3 && crosses8 a size)
      ∧ w₀ = (if free then { w with free := w.free + 1 } else w) ∧ druAddr (coreOf w n) an (fld i 18 17) (fld i 16 0)
      size = (a, upd) ∧ a < 2 ^ 31 ∧ a + size ≤ 0x40000 ∧ n < 16 ∧ ueIn w (coreWindow n + a) size = []) ∧
    (∃ (s w w₀ : State) (n a rd an size : Nat) (i : Word) (upd : Option Word) (m : DruMn) (free : Bool) (bs : List
      Byte), w = work s ∧ i = fetchWord w n ∧ druReady w n m ∧ rd = fld i 25 22 ∧ an = fld i 21 19 ∧ free = (size != 3
      && crosses8 a size) ∧ w₀ = (if free then { w with free := w.free + 1 } else w) ∧ druAddr (coreOf w n) an (fld i
      18 17) (fld i 16 0) size = (a, upd) ∧ a < 2 ^ 31 ∧ a + size ≤ 0x40000 ∧ bs.length = size) ∧
    (∃ (s w w₀ : State) (n a rd an size : Nat) (i : Word) (upd : Option Word) (m : DruMn) (free : Bool) (bs : List
      Byte), w = work s ∧ i = fetchWord w n ∧ druReady w n m ∧ rd = fld i 25 22 ∧ an = fld i 21 19 ∧ free = (size != 3
      && crosses8 a size) ∧ w₀ = (if free then { w with free := w.free + 1 } else w) ∧ druAddr (coreOf w n) an (fld i
      18 17) (fld i 16 0) size = (a, upd) ∧ a < 2 ^ 31 ∧ 0x40000 ≤ a ∧ bs ≠ []) ∧
    (∃ (s w : State) (n a : Nat) (i : Word) (upd : Option Word), w = work s ∧ i = fetchWord w n ∧ druReady w n .st ∧ 2
      ^ 31 ≤ a ∧ druAddr (coreOf w n) (fld i 21 19) (fld i 18 17) (fld i 16 0) 4 = (a, upd) ∧ crosses8 a 4 = false ∧
      (coreOf w n).rep = none ∧ (coreOf w n).wbuf.length < 8) ∧
    (∃ (s w : State) (n a : Nat) (i : Word) (upd : Option Word) (t u : State) (ok : Bool) (bs : List Byte), w = work s
      ∧ i = fetchWord w n ∧ druReady w n .ld ∧ drainCore n w = .ok t ∧ fabRead 5 n t (sharedAddr (coreOf w n) a) 4 =
      (ok, bs, u) ∧ 2 ^ 31 ≤ a ∧ druAddr (coreOf w n) (fld i 21 19) (fld i 18 17) (fld i 16 0) 4 = (a, upd) ∧ crosses8
      a 4 = false ∧ (coreOf w n).rep = none ∧ (ok = true ∨ sharedAddr (coreOf w n) a < dramBase)) ∧
    (∃ (s w : State) (n a : Nat) (i : Word) (upd : Option Word) (t u : State) (ok : Bool) (bs : List Byte), w = work s
      ∧ i = fetchWord w n ∧ druReady w n .ld ∧ drainCore n w = .ok t ∧ fabRead 5 n t (sharedAddr (coreOf w n) a) 4 =
      (ok, bs, u) ∧ 2 ^ 31 ≤ a ∧ druAddr (coreOf w n) (fld i 21 19) (fld i 18 17) (fld i 16 0) 4 = (a, upd) ∧ crosses8
      a 4 = false ∧ (coreOf w n).rep = none ∧ ok = false ∧ dramBase ≤ sharedAddr (coreOf w n) a) :=
  ⟨⟨coreLoadsAndStores_0, _, _, 15, 0x3FFFC, _, _, _, _, some (aReg (coreOf (work coreLoadsAndStores_0) 15) (fld
    (fetchWord (work coreLoadsAndStores_0) 15) 21 19) + wordOf 4), _, _, (localLoad 15 0x3FFFC 4 ((if ((4 != 3 &&
    crosses8 0x3FFFC 4)) then { (work coreLoadsAndStores_0) with free := (work coreLoadsAndStores_0).free + 1 } else
    (work coreLoadsAndStores_0)))).1, _, (localLoad 15 0x3FFFC 4 ((if ((4 != 3 && crosses8 0x3FFFC 4)) then
    { (work coreLoadsAndStores_0) with free := (work coreLoadsAndStores_0).free + 1 } else (work
    coreLoadsAndStores_0)))).2, rfl, rfl, ready_of (by decide +kernel), rfl, rfl, rfl, rfl, rfl, rfl, rfl, rfl,
    by decide +kernel⟩,
   ⟨coreLoadsAndStores_1, _, _, 15, 0x3FFFE, _, _, _, _, some (aReg (coreOf (work coreLoadsAndStores_1) 15) (fld
     (fetchWord (work coreLoadsAndStores_1) 15) 21 19) + wordOf 2), _, _, (localLoad 15 0x3FFFE 2 ((if ((2 != 3 &&
     crosses8 0x3FFFE 2)) then { (work coreLoadsAndStores_1) with free := (work coreLoadsAndStores_1).free + 1 } else
     (work coreLoadsAndStores_1)))).1, _, (localLoad 15 0x3FFFE 2 ((if ((2 != 3 && crosses8 0x3FFFE 2)) then
     { (work coreLoadsAndStores_1) with free := (work coreLoadsAndStores_1).free + 1 } else (work
     coreLoadsAndStores_1)))).2, rfl, rfl, ready_of (by decide +kernel), rfl, rfl, rfl, rfl, rfl, rfl, rfl, rfl,
     by decide +kernel⟩,
   ⟨coreLoadsAndStores_2, _, _, 15, 0x3FFFF, _, _, _, _, some (aReg (coreOf (work coreLoadsAndStores_2) 15) (fld
     (fetchWord (work coreLoadsAndStores_2) 15) 21 19) + wordOf 1), _, _, (localLoad 15 0x3FFFF 1 ((if ((1 != 3 &&
     crosses8 0x3FFFF 1)) then { (work coreLoadsAndStores_2) with free := (work coreLoadsAndStores_2).free + 1 } else
     (work coreLoadsAndStores_2)))).1, _, (localLoad 15 0x3FFFF 1 ((if ((1 != 3 && crosses8 0x3FFFF 1)) then
     { (work coreLoadsAndStores_2) with free := (work coreLoadsAndStores_2).free + 1 } else (work
     coreLoadsAndStores_2)))).2, rfl, rfl, ready_of (by decide +kernel), rfl, rfl, rfl, rfl, rfl, rfl, rfl, rfl,
     by decide +kernel⟩,
   ⟨coreLoadsAndStores_3, _, _, 15, 6, _, _, _, _, some (aReg (coreOf (work coreLoadsAndStores_3) 15) (fld (fetchWord
     (work coreLoadsAndStores_3) 15) 21 19) + wordOf 3), _, _, (localLoad 15 6 3 ((if ((3 != 3 && crosses8 6 3)) then
     { (work coreLoadsAndStores_3) with free := (work coreLoadsAndStores_3).free + 1 } else (work
     coreLoadsAndStores_3)))).1, _, (localLoad 15 6 3 ((if ((3 != 3 && crosses8 6 3)) then
     { (work coreLoadsAndStores_3) with free := (work coreLoadsAndStores_3).free + 1 } else (work
     coreLoadsAndStores_3)))).2, rfl, rfl, ready_of (by decide +kernel), rfl, rfl, rfl, rfl, rfl, rfl, rfl, rfl,
     by decide +kernel⟩,
   ⟨coreLoadsAndStores_4, _, _, 15, 0x3FFFC, _, _, _, _, some (aReg (coreOf (work coreLoadsAndStores_4) 15) (fld
     (fetchWord (work coreLoadsAndStores_4) 15) 21 19) + wordOf 4), _, _, _, _, rfl, rfl, ready_of
     (by decide +kernel), rfl, rfl, rfl, rfl, rfl, rfl, rfl, rfl, by decide +kernel⟩,
   ⟨coreLoadsAndStores_5, _, _, 15, 0, _, _, _, _, some (aReg (coreOf (work coreLoadsAndStores_5) 15) (fld (fetchWord
     (work coreLoadsAndStores_5) 15) 21 19) + wordOf 2), _, _, _, _, rfl, rfl, ready_of (by decide +kernel), rfl, rfl,
     rfl, rfl, rfl, rfl, rfl, rfl, by decide +kernel⟩,
   ⟨coreLoadsAndStores_6, _, _, 15, 0x3FFFF, _, _, _, _, some (aReg (coreOf (work coreLoadsAndStores_6) 15) (fld
     (fetchWord (work coreLoadsAndStores_6) 15) 21 19) + wordOf 1), _, _, _, _, rfl, rfl, ready_of
     (by decide +kernel), rfl, rfl, rfl, rfl, rfl, rfl, rfl, rfl, by decide +kernel⟩,
   ⟨coreLoadsAndStores_7, _, _, 15, 6, _, _, _, _, some (aReg (coreOf (work coreLoadsAndStores_7) 15) (fld (fetchWord
     (work coreLoadsAndStores_7) 15) 21 19) + wordOf 3), _, _, _, _, rfl, rfl, ready_of (by decide +kernel), rfl, rfl,
     rfl, rfl, rfl, rfl, rfl, rfl, by decide +kernel⟩,
   ⟨coreLoadsAndStores_0, _, _, 15, 0x3FFFC, _, _, 4, _, some (aReg (coreOf (work coreLoadsAndStores_0) 15) (fld
     (fetchWord (work coreLoadsAndStores_0) 15) 21 19) + wordOf 4), .ld, _, rfl, rfl, ready_of (by decide +kernel),
     rfl, rfl, rfl, rfl, by decide +kernel⟩,
   ⟨coreLoadsAndStores_0, _, _, 15, 0x3FFFC, _, _, 4, _, some (aReg (coreOf (work coreLoadsAndStores_0) 15) (fld
     (fetchWord (work coreLoadsAndStores_0) 15) 21 19) + wordOf 4), .ld, _, [1, 2, 3, 4], rfl, rfl, ready_of
     (by decide +kernel), rfl, rfl, rfl, rfl, by decide +kernel⟩,
   ⟨coreLoadsAndStores_10, _, _, 15, 0x40000, _, _, 4, _, some (aReg (coreOf (work coreLoadsAndStores_10) 15) (fld
     (fetchWord (work coreLoadsAndStores_10) 15) 21 19) + wordOf 4), .ld, _, [1], rfl, rfl, ready_of
     (by decide +kernel), rfl, rfl, rfl, rfl, by decide +kernel⟩,
   ⟨coreLoadsAndStores_11, _, 15, 2 ^ 31, _, some (aReg (coreOf (work coreLoadsAndStores_11) 15) 7 + wordOf 4), rfl,
     rfl, ready_of (by decide +kernel), by decide +kernel⟩,
   ⟨coreLoadsAndStores_12, _, 15, 2 ^ 31, _, some (aReg (coreOf (work coreLoadsAndStores_12) 15) 7 + wordOf 4), okOr
     live (drainCore 15 (work coreLoadsAndStores_12)), (fabRead 5 15 (okOr live (drainCore 15 (work
     coreLoadsAndStores_12))) (sharedAddr (coreOf (work coreLoadsAndStores_12) 15) (2 ^ 31)) 4).2.2, (fabRead 5 15
     (okOr live (drainCore 15 (work coreLoadsAndStores_12))) (sharedAddr (coreOf (work coreLoadsAndStores_12) 15) (2 ^
     31)) 4).1, (fabRead 5 15 (okOr live (drainCore 15 (work coreLoadsAndStores_12))) (sharedAddr (coreOf (work
     coreLoadsAndStores_12) 15) (2 ^ 31)) 4).2.1, rfl, rfl, ready_of (by decide +kernel),
     (ok_okOr _ _ (by decide +kernel)), rfl, by decide +kernel⟩,
   ⟨coreLoadsAndStores_13, _, 15, 2 ^ 31, _, some (aReg (coreOf (work coreLoadsAndStores_13) 15) 7 + wordOf 4), okOr
     live (drainCore 15 (work coreLoadsAndStores_13)), (fabRead 5 15 (okOr live (drainCore 15 (work
     coreLoadsAndStores_13))) (sharedAddr (coreOf (work coreLoadsAndStores_13) 15) (2 ^ 31)) 4).2.2, (fabRead 5 15
     (okOr live (drainCore 15 (work coreLoadsAndStores_13))) (sharedAddr (coreOf (work coreLoadsAndStores_13) 15) (2 ^
     31)) 4).1, (fabRead 5 15 (okOr live (drainCore 15 (work coreLoadsAndStores_13))) (sharedAddr (coreOf (work
     coreLoadsAndStores_13) 15) (2 ^ 31)) 4).2.1, rfl, rfl, ready_of (by decide +kernel),
     (ok_okOr _ _ (by decide +kernel)), rfl, by decide +kernel⟩⟩

theorem witness_CoreAccumulators :
    (∃ (s w : State) (n a x y : Nat) (i : Word) (c : CoreSt), w = work s ∧ i = fetchWord w n ∧ c = coreOf w n ∧ a =
      fld i 26 25 ∧ x = fld i 24 22 ∧ y = fld i 21 19 + 8 ∧ druReady w n .mac ∧ bit i 18 = false ∧ bit i 10 = false) ∧
    (∃ (s w : State) (n a x y : Nat) (i : Word) (c : CoreSt), w = work s ∧ i = fetchWord w n ∧ c = coreOf w n ∧ a =
      fld i 26 25 ∧ x = fld i 24 22 ∧ y = fld i 21 19 + 8 ∧ druReady w n .msu ∧ bit i 18 = false ∧ bit i 10 = false) ∧
    (∃ (s w : State) (n a x y : Nat) (i : Word) (c : CoreSt), w = work s ∧ i = fetchWord w n ∧ c = coreOf w n ∧ a =
      fld i 26 25 ∧ x = fld i 24 22 ∧ y = fld i 21 19 + 8 ∧ druReady w n .mpy ∧ bit i 18 = false ∧ bit i 10 = false) ∧
    (∃ (s w : State) (n a x y : Nat) (i : Word) (c : CoreSt), w = work s ∧ i = fetchWord w n ∧ c = coreOf w n ∧ a =
      fld i 26 25 ∧ x = fld i 24 22 ∧ y = fld i 21 19 + 8 ∧ druReady w n .dmac ∧ bit i 18 = false ∧ bit i 10 = false) ∧
    (∃ (s w t : State) (n a : Nat) (i : Word) (c : CoreSt) (upd : Option Word) (bs : List Byte) (u : State), w = work
      s ∧ i = fetchWord w n ∧ c = coreOf w n ∧ druReady w n .mpy ∧ t = modCore n (setAcc (fld i 26 25) (BitVec.ofInt
      72 ((dReg c (fld i 24 22)).toInt * (dReg c (fld i 21 19 + 8)).toInt))) w ∧ druAddr c (fld i 14 13) (fld i 12 11)
      0 4 = (a, upd) ∧ localLoad n a 4 t = (bs, u) ∧ bit i 18 = true ∧ bit i 10 = false ∧ a < 2 ^ 31 ∧ crosses8 a 4 =
      false) ∧
    (∃ (s w t : State) (n a : Nat) (i : Word) (c : CoreSt) (upd : Option Word), w = work s ∧ i = fetchWord w n ∧ c =
      coreOf w n ∧ druReady w n .mpy ∧ t = modCore n (setAcc (fld i 26 25) (BitVec.ofInt 72 ((dReg c (fld i 24
      22)).toInt * (dReg c (fld i 21 19 + 8)).toInt))) w ∧ druAddr c (fld i 14 13) (fld i 12 11) 0 4 = (a, upd) ∧ bit
      i 18 = true ∧ bit i 10 = false ∧ (2 ^ 31 ≤ a ∨ crosses8 a 4 = true)) ∧
    (∃ (s w : State) (n : Nat) (i : Word) (c : CoreSt), w = work s ∧ i = fetchWord w n ∧ c = coreOf w n ∧ druReady w n
      .nop) ∧
    (∃ (s w : State) (n : Nat) (i : Word) (c : CoreSt), w = work s ∧ i = fetchWord w n ∧ c = coreOf w n ∧ druReady w n
      .movr) ∧
    (∃ (s w : State) (n : Nat) (i : Word) (c : CoreSt), w = work s ∧ i = fetchWord w n ∧ c = coreOf w n ∧ druReady w n
      .setr) ∧
    (∃ (s w : State) (n : Nat) (i : Word) (c : CoreSt) (dst : Nat), w = work s ∧ i = fetchWord w n ∧ c = coreOf w n ∧
      dst ≠ 44) ∧
    (∃ (s w : State) (n : Nat) (i : Word) (c : CoreSt) (dst : Nat), w = work s ∧ i = fetchWord w n ∧ c = coreOf w n ∧
      dst = 44) ∧
    (∃ (s w : State) (n : Nat) (i : Word) (c : CoreSt), w = work s ∧ i = fetchWord w n ∧ c = coreOf w n ∧ druReady w n
      .rnd) ∧
    (∃ (s w : State) (n : Nat) (i : Word) (c : CoreSt), w = work s ∧ i = fetchWord w n ∧ c = coreOf w n ∧ druReady w n
      .clr) ∧
    (∃ (s w : State) (n : Nat) (i : Word) (c : CoreSt), w = work s ∧ i = fetchWord w n ∧ c = coreOf w n ∧ druReady w n
      .ldacc) ∧
    (∃ (s w : State) (n : Nat) (i : Word) (c : CoreSt), w = work s ∧ i = fetchWord w n ∧ c = coreOf w n ∧ druReady w n
      .addacc) ∧
    (∃ (s w : State) (n : Nat) (i : Word) (c : CoreSt), w = work s ∧ i = fetchWord w n ∧ c = coreOf w n ∧ druReady w n
      .evt) ∧
    (∃ (s w : State) (n : Nat) (i : Word) (c : CoreSt), w = work s ∧ i = fetchWord w n ∧ c = coreOf w n ∧ druReady w n
      .di) ∧
    (∃ (s w : State) (n : Nat) (i : Word) (c : CoreSt), w = work s ∧ i = fetchWord w n ∧ c = coreOf w n ∧ druReady w n
      .ei ∧ c.handler = false) ∧
    (∃ (s w : State) (n : Nat) (i : Word) (c : CoreSt), w = work s ∧ i = fetchWord w n ∧ c = coreOf w n ∧ druReady w n
      .ei ∧ c.handler = true) :=
  ⟨⟨coreAccumulators_0, _, 15, _, _, _, _, _, rfl, rfl, rfl, rfl, rfl, rfl, ready_of (by decide +kernel),
    by decide +kernel⟩,
   ⟨coreAccumulators_1, _, 15, _, _, _, _, _, rfl, rfl, rfl, rfl, rfl, rfl, ready_of (by decide +kernel),
     by decide +kernel⟩,
   ⟨coreAccumulators_2, _, 15, _, _, _, _, _, rfl, rfl, rfl, rfl, rfl, rfl, ready_of (by decide +kernel),
     by decide +kernel⟩,
   ⟨coreAccumulators_3, _, 15, _, _, _, _, _, rfl, rfl, rfl, rfl, rfl, rfl, ready_of (by decide +kernel),
     by decide +kernel⟩,
   ⟨coreAccumulators_4, _, _, 15, (druAddr (coreOf (work coreAccumulators_4) 15) (fld (fetchWord (work
     coreAccumulators_4) 15) 14 13) (fld (fetchWord (work coreAccumulators_4) 15) 12 11) 0 4).1, _, _, (druAddr
     (coreOf (work coreAccumulators_4) 15) (fld (fetchWord (work coreAccumulators_4) 15) 14 13) (fld (fetchWord (work
     coreAccumulators_4) 15) 12 11) 0 4).2, (localLoad 15 ((druAddr (coreOf (work coreAccumulators_4) 15) (fld
     (fetchWord (work coreAccumulators_4) 15) 14 13) (fld (fetchWord (work coreAccumulators_4) 15) 12 11) 0 4).1) 4
     (modCore 15 (setAcc (fld (fetchWord (work coreAccumulators_4) 15) 26 25) (BitVec.ofInt 72 ((dReg (coreOf (work
     coreAccumulators_4) 15) (fld (fetchWord (work coreAccumulators_4) 15) 24 22)).toInt * (dReg (coreOf (work
     coreAccumulators_4) 15) (fld (fetchWord (work coreAccumulators_4) 15) 21 19 + 8)).toInt))) (work
     coreAccumulators_4))).1, (localLoad 15 ((druAddr (coreOf (work coreAccumulators_4) 15) (fld (fetchWord (work
     coreAccumulators_4) 15) 14 13) (fld (fetchWord (work coreAccumulators_4) 15) 12 11) 0 4).1) 4 (modCore 15 (setAcc
     (fld (fetchWord (work coreAccumulators_4) 15) 26 25) (BitVec.ofInt 72 ((dReg (coreOf (work coreAccumulators_4)
     15) (fld (fetchWord (work coreAccumulators_4) 15) 24 22)).toInt * (dReg (coreOf (work coreAccumulators_4) 15)
     (fld (fetchWord (work coreAccumulators_4) 15) 21 19 + 8)).toInt))) (work coreAccumulators_4))).2, rfl, rfl, rfl,
     ready_of (by decide +kernel), rfl, rfl, rfl, by decide +kernel⟩,
   ⟨coreAccumulators_5, _, _, 15, (druAddr (coreOf (work coreAccumulators_5) 15) (fld (fetchWord (work
     coreAccumulators_5) 15) 14 13) (fld (fetchWord (work coreAccumulators_5) 15) 12 11) 0 4).1, _, _, (druAddr
     (coreOf (work coreAccumulators_5) 15) (fld (fetchWord (work coreAccumulators_5) 15) 14 13) (fld (fetchWord (work
     coreAccumulators_5) 15) 12 11) 0 4).2, rfl, rfl, rfl, ready_of (by decide +kernel), rfl, rfl, by decide +kernel⟩,
   ⟨coreAccumulators_6, _, 15, _, _, rfl, rfl, rfl, ready_of (by decide +kernel)⟩,
   ⟨coreAccumulators_7, _, 15, _, _, rfl, rfl, rfl, ready_of (by decide +kernel)⟩,
   ⟨coreAccumulators_8, _, 15, _, _, rfl, rfl, rfl, ready_of (by decide +kernel)⟩,
   ⟨live, _, 0, _, _, 43, rfl, rfl, rfl, by decide +kernel⟩,
   ⟨live, _, 0, _, _, _, rfl, rfl, rfl, rfl⟩,
   ⟨coreAccumulators_11, _, 15, _, _, rfl, rfl, rfl, ready_of (by decide +kernel)⟩,
   ⟨coreAccumulators_12, _, 15, _, _, rfl, rfl, rfl, ready_of (by decide +kernel)⟩,
   ⟨coreAccumulators_13, _, 15, _, _, rfl, rfl, rfl, ready_of (by decide +kernel)⟩,
   ⟨coreAccumulators_14, _, 15, _, _, rfl, rfl, rfl, ready_of (by decide +kernel)⟩,
   ⟨coreAccumulators_15, _, 15, _, _, rfl, rfl, rfl, ready_of (by decide +kernel)⟩,
   ⟨coreAccumulators_16, _, 15, _, _, rfl, rfl, rfl, ready_of (by decide +kernel)⟩,
   ⟨coreAccumulators_17, _, 15, _, _, rfl, rfl, rfl, ready_of (by decide +kernel), by decide +kernel⟩,
   ⟨coreAccumulators_18, _, 15, _, _, rfl, rfl, rfl, ready_of (by decide +kernel), by decide +kernel⟩⟩

theorem witness_CoreSequence :
    (∃ (s w : State) (n t : Nat) (i : Word) (c : CoreSt), w = work s ∧ i = fetchWord w n ∧ c = coreOf w n ∧ druReady w
      n .br ∧ c.loops = [] ∧ t < 16384 ∧ condHolds (srReg c) (fld i 24 21) = true ∧ (c.pc : Int) + sfld i 20 0 = t) ∧
    (∃ (s w : State) (n t : Nat) (i : Word) (c : CoreSt), w = work s ∧ i = fetchWord w n ∧ c = coreOf w n ∧ druReady w
      n .br ∧ c.loops = [] ∧ t < 16384 ∧ condHolds (srReg c) (fld i 24 21) = false) ∧
    (∃ (s w : State) (n t : Nat) (i : Word) (c : CoreSt), w = work s ∧ i = fetchWord w n ∧ c = coreOf w n ∧ druReady w
      n .call ∧ c.loops = [] ∧ t < 16384 ∧ (c.pc : Int) + sfld i 20 0 = t) ∧
    (∃ (s w : State) (n t : Nat) (i : Word) (c : CoreSt), w = work s ∧ i = fetchWord w n ∧ c = coreOf w n ∧ druReady w
      n .ret ∧ c.loops = [] ∧ t < 16384 ∧ (tabGet 0 c.regs 40).toNat = t) ∧
    (∃ (s w : State) (n t : Nat) (i : Word) (c : CoreSt), w = work s ∧ i = fetchWord w n ∧ c = coreOf w n ∧ druReady w
      n .rti ∧ c.loops = [] ∧ t < 16384 ∧ (tabGet 0 c.regs 41).toNat = t) ∧
    (∃ (s w : State) (n t : Nat) (i : Word) (c : CoreSt), w = work s ∧ i = fetchWord w n ∧ c = coreOf w n ∧ druReady w
      n .jmp ∧ c.loops = [] ∧ t < 16384 ∧ fld (dReg c (fld i 24 21)) 13 0 = t) ∧
    (∃ (s w : State) (n k : Nat) (i : Word) (c : CoreSt), w = work s ∧ i = fetchWord w n ∧ c = coreOf w n ∧ druReady w
      n .rep ∧ k = (if bit i 24 then (dReg c (fld i 11 8)).toNat % 2 ^ 16 else fld i 23 8)) ∧
    (∃ (s w : State) (n k : Nat) (i : Word) (c : CoreSt), w = work s ∧ i = fetchWord w n ∧ c = coreOf w n ∧ druReady w
      n .loop ∧ k = (if bit i 24 then (dReg c (fld i 15 12)).toNat % 2 ^ 16 else fld i 23 12) ∧ fld i 11 0 = 0) ∧
    (∃ (s w : State) (n k : Nat) (i : Word) (c : CoreSt), w = work s ∧ i = fetchWord w n ∧ c = coreOf w n ∧ druReady w
      n .loop ∧ k = 0 ∧ k = (if bit i 24 then (dReg c (fld i 15 12)).toNat % 2 ^ 16 else fld i 23 12) ∧ fld i 11 0 ≠
      0) ∧
    (∃ (s w : State) (n k : Nat) (i : Word) (c : CoreSt), w = work s ∧ i = fetchWord w n ∧ c = coreOf w n ∧ druReady w
      n .loop ∧ k = (if bit i 24 then (dReg c (fld i 15 12)).toNat % 2 ^ 16 else fld i 23 12) ∧ fld i 11 0 ≠ 0 ∧ k ≠ 0
      ∧ c.loops.length < 2) ∧
    (∃ (s w : State) (n k : Nat) (i : Word) (c : CoreSt), w = work s ∧ i = fetchWord w n ∧ c = coreOf w n ∧ druReady w
      n .loop ∧ k = (if bit i 24 then (dReg c (fld i 15 12)).toNat % 2 ^ 16 else fld i 23 12) ∧ fld i 11 0 ≠ 0 ∧ k ≠ 0
      ∧ 2 ≤ c.loops.length) ∧
    (∃ (s w t : State) (n : Nat) (i : Word), w = work s ∧ i = fetchWord w n ∧ druReady w n .drain ∧ drainCore n w =
      .ok t) ∧
    (∃ (s w t : State) (n : Nat) (i : Word) (q : Nat), w = work s ∧ i = fetchWord w n ∧ druReady w n .signal ∧
      drainCore n w = .ok t ∧ q = 4 * fld i 23 22 ∧ (offer (descOfWords 1 (dReg (coreOf t n) q) (dReg (coreOf t n) (q
      + 1)) (dReg (coreOf t n) (q + 2)) (dReg (coreOf t n) (q + 3))) t).1 ≠ .refused) ∧
    (∃ (s w t : State) (n : Nat) (i : Word) (q : Nat) (u : State), w = work s ∧ i = fetchWord w n ∧ druReady w n
      .signal ∧ drainCore n w = .ok t ∧ q = 4 * fld i 23 22 ∧ offer (descOfWords 1 (dReg (coreOf t n) q) (dReg (coreOf
      t n) (q + 1)) (dReg (coreOf t n) (q + 2)) (dReg (coreOf t n) (q + 3))) t = (.refused, u)) ∧
    (∃ (s w t : State) (n : Nat) (i : Word), w = work s ∧ i = fetchWord w n ∧ druReady w n .halt ∧ drainCore n w = .ok
      t ∧ coreStream w n = false) ∧
    (∃ (s w : State) (n : Nat) (i : Word), w = work s ∧ i = fetchWord w n ∧ druReady w n .halt ∧ coreStream w n =
      true) ∧
    (∃ (s w : State) (n : Nat) (i : Word), w = work s ∧ i = fetchWord w n ∧ druReady w n .blkend ∧ coreStream w n =
      true) ∧
    (∃ (s w : State) (n : Nat) (i : Word), w = work s ∧ i = fetchWord w n ∧ druReady w n .blkend ∧ coreStream w n =
      false) ∧
    (∃ (s w : State) (n : Nat) (i : Word), w = work s ∧ i = fetchWord w n ∧ druReady w n .wait) ∧
    (∃ (s w : State) (n : Nat) (i : Word), w = work s ∧ i = fetchWord w n ∧ coreRuns w n = true ∧ druDecode i = none) :=
  ⟨⟨coreSequence_0, _, 15, 16382, _, _, rfl, rfl, rfl, ready_of (by decide +kernel), by decide +kernel⟩,
   ⟨coreSequence_1, _, 15, 0, _, _, rfl, rfl, rfl, ready_of (by decide +kernel), by decide +kernel⟩,
   ⟨coreSequence_2, _, 15, 16382, _, _, rfl, rfl, rfl, ready_of (by decide +kernel), by decide +kernel⟩,
   ⟨coreSequence_3, _, 15, 16383, _, _, rfl, rfl, rfl, ready_of (by decide +kernel), by decide +kernel⟩,
   ⟨coreSequence_4, _, 15, 5, _, _, rfl, rfl, rfl, ready_of (by decide +kernel), by decide +kernel⟩,
   ⟨coreSequence_5, _, 15, 7, _, _, rfl, rfl, rfl, ready_of (by decide +kernel), by decide +kernel⟩,
   ⟨coreSequence_6, _, 15, _, _, _, rfl, rfl, rfl, ready_of (by decide +kernel), rfl⟩,
   ⟨coreSequence_7, _, 15, _, _, _, rfl, rfl, rfl, ready_of (by decide +kernel), rfl, by decide +kernel⟩,
   ⟨coreSequence_8, _, 15, _, _, _, rfl, rfl, rfl, ready_of (by decide +kernel), rfl, by decide +kernel⟩,
   ⟨coreSequence_9, _, 15, _, _, _, rfl, rfl, rfl, ready_of (by decide +kernel), rfl, by decide +kernel⟩,
   ⟨coreSequence_10, _, 15, _, _, _, rfl, rfl, rfl, ready_of (by decide +kernel), rfl, by decide +kernel⟩,
   ⟨coreSequence_11, _, okOr live (drainCore 15 (work coreSequence_11)), 15, _, rfl, rfl, ready_of
     (by decide +kernel), (ok_okOr _ _ (by decide +kernel))⟩,
   ⟨coreSequence_12, _, okOr live (drainCore 15 (work coreSequence_12)), 15, _, _, rfl, rfl, ready_of
     (by decide +kernel), (ok_okOr _ _ (by decide +kernel)), rfl, by decide +kernel⟩,
   ⟨coreSequence_13, _, okOr live (drainCore 15 (work coreSequence_13)), 15, _, _, (offer (descOfWords 1 (dReg (coreOf
     (okOr live (drainCore 15 (work coreSequence_13))) 15) (4 * fld (fetchWord (work coreSequence_13) 15) 23 22))
     (dReg (coreOf (okOr live (drainCore 15 (work coreSequence_13))) 15) ((4 * fld (fetchWord (work coreSequence_13)
     15) 23 22) + 1)) (dReg (coreOf (okOr live (drainCore 15 (work coreSequence_13))) 15) ((4 * fld (fetchWord (work
     coreSequence_13) 15) 23 22) + 2)) (dReg (coreOf (okOr live (drainCore 15 (work coreSequence_13))) 15) ((4 * fld
     (fetchWord (work coreSequence_13) 15) 23 22) + 3))) (okOr live (drainCore 15 (work coreSequence_13)))).2, rfl,
     rfl, ready_of (by decide +kernel), (ok_okOr _ _ (by decide +kernel)), rfl, by decide +kernel⟩,
   ⟨coreSequence_14, _, okOr live (drainCore 15 (work coreSequence_14)), 15, _, rfl, rfl, ready_of
     (by decide +kernel), (ok_okOr _ _ (by decide +kernel)), by decide +kernel⟩,
   ⟨coreSequence_15, _, 15, _, rfl, rfl, ready_of (by decide +kernel), by decide +kernel⟩,
   ⟨coreSequence_16, _, 15, _, rfl, rfl, ready_of (by decide +kernel), by decide +kernel⟩,
   ⟨coreSequence_17, _, 15, _, rfl, rfl, ready_of (by decide +kernel), by decide +kernel⟩,
   ⟨coreSequence_18, _, 15, _, rfl, rfl, ready_of (by decide +kernel)⟩,
   ⟨coreSequence_19, _, 15, _, rfl, rfl, by decide +kernel⟩⟩

theorem witness_CoresInterruptStartRun :
    (∃ (s w : State) (n : Nat) (c : CoreSt) (src : Nat), w = work s ∧ up w uDRU ∧ c = coreOf w n ∧ corePresent w n =
      true ∧ ((src = 0 ∧ c.doorbell = true ∧ bit (srReg c) 8 = true) ∨ (src = 1 ∧ c.timer = true ∧ bit (srReg c) 9 =
      true)) ∧ (c.state = 2 ∨ c.state = 3) ∧ bit (srReg c) 6 = true ∧ c.branch = none ∧ c.rep = none) ∧
    (∃ (s w : State) (n : Nat) (c : CoreSt), w = work s ∧ up w uDRU ∧ c = coreOf w n ∧ corePresent w n = true ∧
      c.state ≠ 0 ∧ (tabGet 0 c.regs 44).toNat ≠ 0) ∧
    (∃ (s w : State) (n : Nat) (c : CoreSt), w = work s ∧ up w uDRU ∧ c = coreOf w n ∧ corePresent w n = true ∧
      (c.state = 0 ∨ c.state = 5) ∧ coreStream w n = true) ∧
    (∃ (s w : State) (n : Nat) (c : CoreSt), w = work s ∧ up w uDRU ∧ c = coreOf w n ∧ corePresent w n = true ∧
      (c.state = 0 ∨ c.state = 5) ∧ coreStream w n = false) ∧
    (∃ (s w : State) (n : Nat) (c : CoreSt), w = work s ∧ up w uDRU ∧ c = coreOf w n ∧ corePresent w n = true ∧
      c.state = 5) ∧
    (∃ (s w : State) (n : Nat) (c : CoreSt), w = work s ∧ up w uDRU ∧ c = coreOf w n ∧ corePresent w n = true ∧
      c.state = 2) ∧
    (∃ (s w : State) (n : Nat) (c : CoreSt), w = work s ∧ up w uDRU ∧ c = coreOf w n ∧ corePresent w n = true ∧
      ((c.state = 1 ∧ c.runBlock = none) ∨ (c.state = 4 ∧ coreStream w n = true))) ∧
    (∃ (s w : State) (n : Nat) (c : CoreSt) (t : State), w = work s ∧ up w uDRU ∧ c = coreOf w n ∧ t = modCore n (fun
      x => { x with wbuf := [], stopping := true, runBlock := none }) w ∧ corePresent w n = true ∧ (coreStream w n =
      true ∨ coreJob w n = none)) ∧
    (∃ (s w : State) (n : Nat) (c : CoreSt) (t : State), w = work s ∧ up w uDRU ∧ c = coreOf w n ∧ t = modCore n (fun
      x => { x with wbuf := [], stopping := true, runBlock := none }) w ∧ corePresent w n = true ∧ coreStream w n =
      false ∧ coreJob w n ≠ none) ∧
    (∃ (s w : State) (n : Nat) (c : CoreSt) (p : ProgEntry) (t u v : State) (full : Bool) (code data : List Byte) (z :
      State), w = work s ∧ up w uDRU ∧ c = coreOf w n ∧ readEntry n c.entry w = (some p, t) ∧ (full = true → loadMem 9
      n t p.code (4 * p.words) = (true, code, u)) ∧ (full = false → code = [] ∧ u = t) ∧ loadMem 9 n u p.data p.dbytes
      = (true, data, v) ∧ z = writeMem (writeMem v (coreWindow n + 0x40000) code) (coreWindow n + p.ddst) data ∧
      corePresent w n = true ∧ c.state = 4 ∧ c.loaded = false ∧ full = (resident w n != c.entry)) ∧
    (∃ (s w : State) (n : Nat) (c : CoreSt) (t : State), w = work s ∧ up w uDRU ∧ c = coreOf w n ∧ readEntry n c.entry
      w = (none, t) ∧ corePresent w n = true ∧ c.state = 4 ∧ c.loaded = false) ∧
    (∃ (s w : State) (n : Nat) (c : CoreSt) (j : Job), w = work s ∧ up w uDRU ∧ c = coreOf w n ∧ corePresent w n =
      true ∧ coreStream w n = false ∧ c.state = 4 ∧ c.loaded = true ∧ coreJob w n = some j) ∧
    (∃ (s w : State) (n : Nat) (c : CoreSt) (b : Nat), w = work s ∧ up w uDRU ∧ c = coreOf w n ∧
      (c.inputs.reverse.find? (fun p => decide (c.nextRun ≤ p.1))).map (·.1) = some b ∧ (streamCores w).contains n =
      true ∧ c.state = 1 ∧ c.runBlock = none ∧ buffersBad w n = false) ∧
    (∃ (s w : State) (n : Nat) (c : CoreSt) (b : Nat), w = work s ∧ up w uDRU ∧ c = coreOf w n ∧
      (c.inputs.reverse.find? (fun p => decide (c.nextRun ≤ p.1))).map (·.1) = some b ∧ (streamCores w).contains n =
      true ∧ c.state = 1 ∧ c.runBlock = none ∧ buffersBad w n = true) ∧
    (∃ (s w : State) (n : Nat) (c : CoreSt) (m : Nat), w = work s ∧ up w uDRU ∧ c = coreOf w n ∧ m = fld (actW w
      Reg.DRU_TASK_MAX.base) 31 0 ∧ corePresent w n = true ∧ coreStream w n = false ∧ (c.state = 2 ∨ c.state = 3) ∧ m
      ≠ 0 ∧ c.began + 1000 * m ≤ monoNs w) ∧
    (∃ (s w : State) (n : Nat) (c : CoreSt) (cause : Nat), w = work s ∧ up w uDRU ∧ c = coreOf w n ∧ cause < 5 ∧
      retirable w 3 n = true ∧ w.hlt.waiting.any (fun x => x.cls == 3) = false ∧ retireBusy w 3 n = false) ∧
    (∃ (s w : State) (n : Nat) (c : CoreSt) (q : Nat) (bad : List Nat) (t u v : State), w = work s ∧ up w uDRU ∧ c =
      coreOf w n ∧ w.dru.spare = some q ∧ t = copyRange (coreWindow n) (coreWindow 16) 0x50000 (bad.foldl (fun t a =>
      reportUe 1 5 n a t) w) ∧ u = bad.foldl (fun t a => storeBytes t (a - coreWindow n + coreWindow 16)
      (List.replicate 8 0)) t ∧ v = { u with dru := { u.dru with copied := true } } ∧ w.dru.leaving = some n ∧
      w.dru.copied = false ∧ (coreStream w n = false → coreJob w n = none) ∧ bad = w.ue.filter (fun a => decide
      (coreWindow n ≤ a) && decide (a < coreWindow n + 0x50000)) ∧ (coreStream w n = false ∨ c.runBlock = none)) ∧
    (∃ (s w : State) (n : Nat) (c : CoreSt) (q : Nat) (bad : List Nat) (t u v : State), w = work s ∧ up w uDRU ∧ c =
      coreOf w n ∧ w.dru.spare = some q ∧ t = copyRange (coreWindow n) (coreWindow 16) 0x50000 (bad.foldl (fun t a =>
      reportUe 1 5 n a t) w) ∧ u = bad.foldl (fun t a => storeBytes t (a - coreWindow n + coreWindow 16)
      (List.replicate 8 0)) t ∧ v = { u with dru := { u.dru with copied := true } } ∧ w.dru.leaving = some n ∧
      w.dru.copied = false ∧ (coreStream w n = false → coreJob w n = none) ∧ bad = w.ue.filter (fun a => decide
      (coreWindow n ≤ a) && decide (a < coreWindow n + 0x50000)) ∧ coreStream w n = true ∧ c.runBlock ≠ none) :=
  ⟨⟨coresInterruptStartRun_0, _, 15, _, 0, rfl, up_of (by decide +kernel), rfl, by decide +kernel⟩,
   ⟨coresInterruptStartRun_1, _, 15, _, rfl, up_of (by decide +kernel), rfl, by decide +kernel⟩,
   ⟨coresInterruptStartRun_2, _, 15, _, rfl, up_of (by decide +kernel), rfl, by decide +kernel⟩,
   ⟨core 0 { coreZero with state := 0 }, _, 15, _, rfl, up_of (by decide +kernel), rfl, by decide +kernel⟩,
   ⟨core 0 { coreZero with state := 5 }, _, 15, _, rfl, up_of (by decide +kernel), rfl, by decide +kernel⟩,
   ⟨core 0 { coreZero with state := 2 }, _, 15, _, rfl, up_of (by decide +kernel), rfl, by decide +kernel⟩,
   ⟨core 0 { coreZero with state := 1 }, _, 15, _, rfl, up_of (by decide +kernel), rfl, by decide +kernel⟩,
   ⟨core 0 { coreZero with state := 2 }, _, 15, _, _, rfl, up_of (by decide +kernel), rfl, rfl, by decide +kernel⟩,
   ⟨coresInterruptStartRun_8, _, 15, _, _, rfl, up_of (by decide +kernel), rfl, rfl, by decide +kernel⟩,
   ⟨loadableCore, _, 15, _, (readEntry 15 (coreOf (work loadableCore) 15).entry (work loadableCore)).1.getD ⟨0, 0,
     false, 0, 0, 0, 0, 0, 0⟩, (readEntry 15 (coreOf (work loadableCore) 15).entry (work loadableCore)).2, (loadMem 9
     15 ((readEntry 15 (coreOf (work loadableCore) 15).entry (work loadableCore)).2) ((readEntry 15 (coreOf (work
     loadableCore) 15).entry (work loadableCore)).1.getD ⟨0, 0, false, 0, 0, 0, 0, 0, 0⟩).code (4 * ((readEntry 15
     (coreOf (work loadableCore) 15).entry (work loadableCore)).1.getD ⟨0, 0, false, 0, 0, 0, 0, 0, 0⟩).words)).2.2,
     (loadMem 9 15 ((loadMem 9 15 ((readEntry 15 (coreOf (work loadableCore) 15).entry (work loadableCore)).2)
     ((readEntry 15 (coreOf (work loadableCore) 15).entry (work loadableCore)).1.getD ⟨0, 0, false, 0, 0, 0, 0, 0,
     0⟩).code (4 * ((readEntry 15 (coreOf (work loadableCore) 15).entry (work loadableCore)).1.getD ⟨0, 0, false, 0,
     0, 0, 0, 0, 0⟩).words)).2.2) ((readEntry 15 (coreOf (work loadableCore) 15).entry (work loadableCore)).1.getD ⟨0,
     0, false, 0, 0, 0, 0, 0, 0⟩).data ((readEntry 15 (coreOf (work loadableCore) 15).entry (work
     loadableCore)).1.getD ⟨0, 0, false, 0, 0, 0, 0, 0, 0⟩).dbytes).2.2, true, (loadMem 9 15 ((readEntry 15 (coreOf
     (work loadableCore) 15).entry (work loadableCore)).2) ((readEntry 15 (coreOf (work loadableCore) 15).entry (work
     loadableCore)).1.getD ⟨0, 0, false, 0, 0, 0, 0, 0, 0⟩).code (4 * ((readEntry 15 (coreOf (work loadableCore)
     15).entry (work loadableCore)).1.getD ⟨0, 0, false, 0, 0, 0, 0, 0, 0⟩).words)).2.1, (loadMem 9 15 ((loadMem 9 15
     ((readEntry 15 (coreOf (work loadableCore) 15).entry (work loadableCore)).2) ((readEntry 15 (coreOf (work
     loadableCore) 15).entry (work loadableCore)).1.getD ⟨0, 0, false, 0, 0, 0, 0, 0, 0⟩).code (4 * ((readEntry 15
     (coreOf (work loadableCore) 15).entry (work loadableCore)).1.getD ⟨0, 0, false, 0, 0, 0, 0, 0, 0⟩).words)).2.2)
     ((readEntry 15 (coreOf (work loadableCore) 15).entry (work loadableCore)).1.getD ⟨0, 0, false, 0, 0, 0, 0, 0,
     0⟩).data ((readEntry 15 (coreOf (work loadableCore) 15).entry (work loadableCore)).1.getD ⟨0, 0, false, 0, 0, 0,
     0, 0, 0⟩).dbytes).2.1, _, rfl, up_of (by decide +kernel), rfl,
     (pairSome _ ⟨0, 0, false, 0, 0, 0, 0, 0, 0⟩ (by decide +kernel)), (fun _ => tripleFst _ (by decide +kernel)),
     (offTrue (by decide +kernel)), (tripleFst _ (by decide +kernel)), rfl, by decide +kernel⟩,
   ⟨core 0 { coreZero with state := 4 }, _, 15, _, (readEntry 15 (coreOf (work (core 0 { coreZero with state := 4 }))
     15).entry (work (core 0 { coreZero with state := 4 }))).2, rfl, up_of (by decide +kernel), rfl,
     (pairNone _ (by decide +kernel)), by decide +kernel⟩,
   ⟨coresInterruptStartRun_11, _, 15, _, ⟨0, job 1 1, .running 15, none⟩, rfl, up_of (by decide +kernel), rfl,
     by decide +kernel⟩,
   ⟨coresInterruptStartRun_12, _, 15, _, (((coreOf (work coresInterruptStartRun_12) 15).inputs.reverse.find? (fun p =>
     decide ((coreOf (work coresInterruptStartRun_12) 15).nextRun ≤ p.1))).map (·.1)).getD 0, rfl, up_of
     (by decide +kernel), rfl, some_getD _ 0 (by decide +kernel), by decide +kernel⟩,
   ⟨coresInterruptStartRun_13, _, 15, _, (((coreOf (work coresInterruptStartRun_13) 15).inputs.reverse.find? (fun p =>
     decide ((coreOf (work coresInterruptStartRun_13) 15).nextRun ≤ p.1))).map (·.1)).getD 0, rfl, up_of
     (by decide +kernel), rfl, some_getD _ 0 (by decide +kernel), by decide +kernel⟩,
   ⟨coresInterruptStartRun_14, _, 15, _, _, rfl, up_of (by decide +kernel), rfl, rfl, by decide +kernel⟩,
   ⟨core 0 { coreZero with state := 2 }, _, 15, _, 4, rfl, up_of (by decide +kernel), rfl, by decide +kernel⟩,
   ⟨coresInterruptStartRun_16, _, 15, _, ((work coresInterruptStartRun_16).dru.spare).getD 0, [], _, _, _, rfl, up_of
     (by decide +kernel), rfl, some_getD _ 0 (by decide +kernel), rfl, rfl, rfl, by decide +kernel⟩,
   ⟨coresInterruptStartRun_17, _, 15, _, ((work coresInterruptStartRun_17).dru.spare).getD 0, [], _, _, _, rfl, up_of
     (by decide +kernel), rfl, some_getD _ 0 (by decide +kernel), rfl, rfl, rfl, by decide +kernel⟩⟩

theorem witness_MemoriesAndDram :
    (∃ (s w : State) (b : Nat), w = work s ∧ powered w = true ∧ bankState w 5 b = .filling) ∧
    (∃ (s w : State) (finds : List ScrubFind) (t : State), w = work s ∧ up w uMEM ∧ t = finds.foldl (scrubWord
      w.memst.weak) w) ∧
    (∃ (s w : State) (p amount level : Nat), w = work s ∧ up w uDRC ∧ level = portLevel w p amount ∧ p < 3 ∧ inPanic w
      p = false ∧ level < panicOn w) ∧
    (∃ (s w : State) (p amount level : Nat), w = work s ∧ up w uDRC ∧ level = portLevel w p amount ∧ p < 3 ∧ inPanic w
      p = true ∧ panicOff w ≤ level) ∧
    (∃ (s w : State) (ch : Nat), w = work s ∧ powered w = true ∧ w.drc.trained = true ∧ ch < 4 ∧ w.drc.selfRefresh =
      false) ∧
    (∃ (s w : State) (ch : Nat), w = work s ∧ powered w = true ∧ w.drc.trained = true ∧ ch < 4 ∧ inPanic w 0 = false ∧
      inPanic w 1 = false ∧ inPanic w 2 = false) ∧
    (∃ (s w : State) (us : Nat), w = work s ∧ powered w = true ∧ w.drc.selfRefresh = false ∧ w.drc.trained = true ∧
      bit (actW w Reg.DRC_CFG.base) 0 = true ∧ srIdle w ≤ us ∧ portsIdle w = true ∧ requestsWait w = false) ∧
    (∃ (s w : State) (acts req inst ch row b : Nat) (old new : List (Nat × Nat × Nat)) (t : State), w = work s ∧ up w
      uDRC ∧ t =
      { w with drc := { w.drc with actWindow := monoNs w / 32000000, acts := tabSet ((row * 256 + b) * 4 + ch) new (if w.drc.actWindow = monoNs w / 32000000 then w.drc.acts else []) } }
      ∧ b < 256 ∧ old = rowActs w ((row * 256 + b) * 4 + ch) ∧ new = actsAdd req inst acts old ∧ (actsSum new ≤ rhMax
      w ∨ rhMax w < actsSum old)) ∧
    (∃ (s w : State) (acts req inst ch row b : Nat) (old new : List (Nat × Nat × Nat)) (t : State) (r k : Nat) (held :
      List Throttle) (m : Tab Nat), w = work s ∧ up w uDRC ∧ t =
      { w with drc := { w.drc with actWindow := monoNs w / 32000000, acts := tabSet ((row * 256 + b) * 4 + ch) new (if w.drc.actWindow = monoNs w / 32000000 then w.drc.acts else []) } }
      ∧ b < 256 ∧ old = rowActs w ((row * 256 + b) * 4 + ch) ∧ new = actsAdd req inst acts old ∧ actsSum old ≤ rhMax w
      ∧ rhMax w < actsSum new ∧ actsTop new = (r, k) ∧ held = w.drc.throttled.filter (fun (x : Throttle) => decide
      (monoNs w < x.until_)) ∧ m = (if row = 0 then w.drc.managed else tabMod 0 (((row - 1) * 256 + b) * 4 + ch) (· +
      1) w.drc.managed)) ∧
    (∃ (s w : State) (lo hi : Nat), w = work s ∧ up w uDRC ∧ patrolRange w = (lo, hi) ∧ hi ≤ lo) ∧
    (∃ (s w : State) (lo hi : Nat) (fixed bad : List Nat) (t u : State), w = work s ∧ up w uDRC ∧ patrolRange w = (lo,
      hi) ∧ t = (fixed.filter (fun a => decide (lo ≤ a) && decide (a < hi))).foldl (fun t a => reportDramCe 12 0 a t)
      (selfRefreshExit w) ∧ u =
      { t with ue := (bad.filter (fun a => decide (lo ≤ a) && decide (a < hi))).foldl (fun l a => setAdd (word8 a) l) t.ue }
      ∧ lo < hi) :=
  ⟨⟨memoriesAndDram_0, _, 14, rfl, by decide +kernel⟩,
   ⟨live, _, [], _, rfl, up_of (by decide +kernel), rfl⟩,
   ⟨live, _, 1, 0, _, rfl, up_of (by decide +kernel), rfl, by decide +kernel⟩,
   ⟨memoriesAndDram_3, _, 2, 100, _, rfl, up_of (by decide +kernel), rfl, by decide +kernel⟩,
   ⟨dramOn, _, 3, rfl, by decide +kernel⟩,
   ⟨dramOn, _, 3, rfl, by decide +kernel⟩,
   ⟨memoriesAndDram_6, _, 100, rfl, by decide +kernel⟩,
   ⟨live, _, 1024, 0, 0, 0, 0, 255, [], [(0, 0, 1024)], _, rfl, up_of (by decide +kernel), rfl, by decide +kernel⟩,
   ⟨live, _, 65536, 0, 0, 0, 0, 255, [], [(0, 0, 65536)], _, 0, 0, [], [], rfl, up_of (by decide +kernel), rfl,
     by decide +kernel⟩,
   ⟨live, _, (patrolRange (work live)).1, (patrolRange (work live)).2, rfl, up_of (by decide +kernel), rfl,
     by decide +kernel⟩,
   ⟨memoriesAndDram_10, _, (patrolRange (work memoriesAndDram_10)).1, (patrolRange (work memoriesAndDram_10)).2, [],
     [], _, _, rfl, up_of (by decide +kernel), rfl, rfl, rfl, by decide +kernel⟩⟩

theorem witness_LifeCycleAdvances :
    (∃ (s w t : State) (ns : Nat), w = work s ∧ t =
      { secWipe w with sec := { (secWipe w).sec with tampered := true } } ∧ w.start.supplies = true ∧ ns < 100 * min
      100 (fld (actW w Reg.SEC_TAMPER.base) 6 0)) ∧
    (∃ (s w t : State) (ns : Nat), w = work s ∧ t =
      { secWipe w with sec := { (secWipe w).sec with tampered := true } } ∧ w.start.supplies = true ∧ 100 * min 100
      (fld (actW w Reg.SEC_TAMPER.base) 6 0) ≤ ns ∧ powered w = true) ∧
    (∃ (s w t : State) (ns : Nat), w = work s ∧ t =
      { secWipe w with sec := { (secWipe w).sec with tampered := true } } ∧ w.start.supplies = true ∧ 100 * min 100
      (fld (actW w Reg.SEC_TAMPER.base) 6 0) ≤ ns ∧ powered w = false) ∧
    (∃ (s w : State) (v : Word), w = work s ∧ powered w = true ∧ w.sec.executing = none ∧ w.sec.armed = none ∧ fld v
      15 8 = 0xA5 ∧ w.fuse.life < fld v 1 0) ∧
    (∃ (s w : State) (v : Word) (k at_ : Nat), w = work s ∧ powered w = true ∧ w.sec.executing = none ∧ w.sec.armed =
      some (k, at_) ∧ monoNs w ≤ at_ + 1000000 ∧ fld v 15 8 = 0xA5 ∧ w.fuse.life < fld v 1 0) ∧
    (∃ (s w : State) (v : Word) (k at_ : Nat), w = work s ∧ powered w = true ∧ w.sec.executing = none ∧ w.sec.armed =
      some (k, at_) ∧ monoNs w ≤ at_ + 1000000 ∧ fld v 1 0 = k ∧ fld v 15 8 = 0x5A) ∧
    (∃ (s w : State) (v : Word) (k at_ : Nat), w = work s ∧ powered w = true ∧ w.sec.executing = none ∧ w.sec.armed =
      some (k, at_) ∧ monoNs w ≤ at_ + 1000000 ∧ (fld v 1 0 ≠ k ∨ fld v 15 8 ≠ 0x5A)) ∧
    (∃ (s w : State) (k at_ : Nat), w = work s ∧ powered w = true ∧ w.sec.armed = some (k, at_) ∧ at_ + 1000000 <
      monoNs w) ∧
    (∃ (s w t : State) (k at_ : Nat) (u : State), w = work s ∧ t =
      { w with fuse := { w.fuse with life := k, keys := if k = 2 then w.sec.latched else w.fuse.keys }, sec := { w.sec with executing := none, latched := [] } }
      ∧ u = raise 0x75 (bytesOf 1 w.fuse.life ++ bytesOf 1 k) (stick Reg.SEC_STAT.base 1 (setN Reg.SEC_LC.base k
      (storeBytes t 7 (bytesOf 1 k)))) ∧ powered w = true ∧ w.sec.executing = some (k, at_) ∧ at_ + 5000000 ≤ monoNs
      w) :=
  ⟨⟨withWords [(Reg.SEC_TAMPER.base, 10)] live, _, _, 999, rfl, rfl, by decide +kernel⟩,
   ⟨withWords [(Reg.SEC_TAMPER.base, 10)] live, _, _, 1000, rfl, rfl, by decide +kernel⟩,
   ⟨suppliesResetUnits_2, _, _, 10000, rfl, rfl, by decide +kernel⟩,
   ⟨live, _, 0xA503, rfl, by decide +kernel⟩,
   ⟨lifeCycleAdvances_4, _, 0xA503, 3, 0, rfl, by decide +kernel⟩,
   ⟨lifeCycleAdvances_4, _, 0x5A03, 3, 0, rfl, by decide +kernel⟩,
   ⟨lifeCycleAdvances_4, _, 0x5A02, 3, 0, rfl, by decide +kernel⟩,
   ⟨lifeCycleAdvances_7, _, 3, 0, rfl, by decide +kernel⟩,
   ⟨lifeCycleAdvances_8, _, _, 3, 0, _, rfl, rfl, rfl, by decide +kernel⟩⟩

theorem witness_DmaRuns :
    (∃ (s w : State) (b : Bool) (c : Nat), w = work s ∧ up w uDMA ∧ c < dmaCount b ∧ dmaOwned w b c = true) ∧
    (∃ (s w : State) (b : Bool) (c : Nat) (v : Word) (a : Nat), w = work s ∧ up w uDMA ∧ a = fld (regW (setN (dmaBase
      b c + 4) (fld v 7 0) w) (dmaBase b c)) 31 5 * 32 + 2 ^ 32 * fld v 7 0 ∧ c < dmaCount b ∧ dmaOwned w b c = false
      ∧ dmaRuns (dmaChan w b c) = false) ∧
    (∃ (s w : State) (b : Bool) (c : Nat), w = work s ∧ up w uDMA ∧ c < dmaCount b ∧ dmaOwned w b c = false ∧ dmaRuns
      (dmaChan w b c) = true) ∧
    (∃ (s w : State) (b : Bool) (c : Nat), w = work s ∧ up w uDMA ∧ c < dmaCount b ∧ dmaOwned w b c = false ∧
      ((dmaChan w b c).state = 1 ∨ dmaRuns (dmaChan w b c) = true)) ∧
    (∃ (s w : State) (b : Bool) (c l : Nat), w = work s ∧ up w uDMA ∧ c < dmaCount b ∧ 1 ≤ l ∧ l ≤ 15) ∧
    (∃ (s w : State) (b : Bool) (c k : Nat), w = work s ∧ up w uDMA ∧ c < dmaCount b ∧ (dmaEng w b).run = none ∧
      dmaNext w b true = some k) ∧
    (∃ (s w : State) (b : Bool) (c k : Nat), w = work s ∧ up w uDMA ∧ c < dmaCount b ∧ (dmaEng w b).run = none ∧
      dmaNext w b true = none ∧ dmaNext w b false = some k) ∧
    (∃ (s w : State) (b : Bool) (c : Nat) (x : DmaChan) (bs : List Byte) (t : State), w = work s ∧ up w uDMA ∧ x =
      dmaChan w b c ∧ (dmaEng w b).run = some c ∧ x.fetched = false ∧ descPlace w x.cur = true ∧ fabRead (dmaReq b) c
      w x.cur 32 = (true, bs, t) ∧ descCode b c bs = 0 ∧ descOverlaps (dmaDesc bs) = false) ∧
    (∃ (s w : State) (b : Bool) (c : Nat) (x : DmaChan) (bs : List Byte) (t : State), w = work s ∧ up w uDMA ∧ x =
      dmaChan w b c ∧ (dmaEng w b).run = some c ∧ x.fetched = false ∧ descPlace w x.cur = true ∧ fabRead (dmaReq b) c
      w x.cur 32 = (true, bs, t) ∧ descCode b c bs = 0 ∧ descOverlaps (dmaDesc bs) = true) ∧
    (∃ (s w : State) (b : Bool) (c : Nat) (x : DmaChan), w = work s ∧ up w uDMA ∧ x = dmaChan w b c ∧ (dmaEng w b).run
      = some c ∧ x.fetched = false ∧ descPlace w x.cur = false) ∧
    (∃ (s w : State) (b : Bool) (c : Nat) (x : DmaChan) (t : State), w = work s ∧ up w uDMA ∧ x = dmaChan w b c ∧
      burstMove b c w = .ok t ∧ (dmaEng w b).run = some c ∧ burstLeft x = true ∧ ((dmaDesc x.desc).req = 0 ∨ credits w
      (dmaDesc x.desc).req ≠ 0)) ∧
    (∃ (s w : State) (b : Bool) (c : Nat) (x : DmaChan), w = work s ∧ up w uDMA ∧ x = dmaChan w b c ∧ (dmaEng w b).run
      = some c ∧ burstLeft x = true ∧ (dmaDesc x.desc).req ≠ 0 ∧ credits w (dmaDesc x.desc).req = 0) ∧
    (∃ (s w : State) (b : Bool) (c : Nat) (x : DmaChan) (t u : State), w = work s ∧ up w uDMA ∧ x = dmaChan w b c ∧
      ((dmaDesc x.desc).crcEn = true → fabWrite 3 (dmaReq b) c w (x.cur + 28) (bytesOf 4 (x.crc ^^^ 0xFFFFFFFF)) = .ok
      t) ∧ ((dmaDesc x.desc).crcEn = false → t = w) ∧ u = (if (dmaDesc x.desc).notify then raise 0x80 (bytesOf 1
      (dmaByte b c) ++ [0] ++ bytesOf 4 (x.cur / 32)) t else t) ∧ (dmaEng w b).run = some c ∧ x.fetched = true ∧
      burstLeft x = false) :=
  ⟨⟨live, _, true, 0, rfl, up_of (by decide +kernel), by decide +kernel⟩,
   ⟨dmaRuns_1, _, false, 15, 0, _, rfl, up_of (by decide +kernel), rfl, by decide +kernel⟩,
   ⟨dmaRuns_2, _, false, 15, rfl, up_of (by decide +kernel), by decide +kernel⟩,
   ⟨dmaRuns_3, _, false, 15, rfl, up_of (by decide +kernel), by decide +kernel⟩,
   ⟨live, _, false, 0, 15, rfl, up_of (by decide +kernel), by decide +kernel⟩,
   ⟨dmaIn none 3 { dmaChanZero with state := 1 }, _, false, 0, 3, rfl, up_of (by decide +kernel), by decide +kernel⟩,
   ⟨dmaRuns_3, _, false, 0, 15, rfl, up_of (by decide +kernel), by decide +kernel⟩,
   ⟨dmaRuns_7, _, false, 15, _, (fabRead (dmaReq false) 15 (work dmaRuns_7) (dmaChan (work dmaRuns_7) false 15).cur
     32).2.1, (fabRead (dmaReq false) 15 (work dmaRuns_7) (dmaChan (work dmaRuns_7) false 15).cur 32).2.2, rfl, up_of
     (by decide +kernel), rfl, by decide +kernel⟩,
   ⟨dmaRuns_8, _, false, 15, _, (fabRead (dmaReq false) 15 (work dmaRuns_8) (dmaChan (work dmaRuns_8) false 15).cur
     32).2.1, (fabRead (dmaReq false) 15 (work dmaRuns_8) (dmaChan (work dmaRuns_8) false 15).cur 32).2.2, rfl, up_of
     (by decide +kernel), rfl, by decide +kernel⟩,
   ⟨dmaRuns_9, _, false, 15, _, rfl, up_of (by decide +kernel), rfl, by decide +kernel⟩,
   ⟨dmaRuns_10, _, false, 15, _, okOr live (burstMove false 15 (work dmaRuns_10)), rfl, up_of (by decide +kernel),
     rfl, (ok_okOr _ _ (by decide +kernel)), by decide +kernel⟩,
   ⟨dmaRuns_11, _, false, 15, _, rfl, up_of (by decide +kernel), rfl, by decide +kernel⟩,
   ⟨dmaRuns_12, _, false, 15, _, (work dmaRuns_12), _, rfl, up_of (by decide +kernel), rfl,
     (fun h => absurd h (by decide +kernel)), (fun _ => rfl), rfl, by decide +kernel⟩⟩

theorem witness_PairingWorks :
    (∃ s w : State, w = work s ∧ up w uPAR ∧ paired w = true ∧ w.par.hbSent + 250000 ≤ monoNs w) ∧
    (∃ (s w : State) (t : Nat), w = work s ∧ up w uPAR ∧ w.par.hbAt = some t ∧ paired w = true ∧ w.par.hbLost = false
      ∧ t + 1000000 ≤ monoNs w) ∧
    (∃ s w : State, w = work s ∧ up w uPAR ∧ paired w = true ∧ w.par.healthSent + 100000000 ≤ monoNs w) ∧
    (∃ (s w : State) (ns : Nat), w = work s ∧ up w uPAR ∧ 100 ≤ ns) ∧
    (∃ s w : State, w = work s ∧ up w uPAR ∧ w.par.started + electNs w ≤ monoNs w ∧ w.par.leadAt = none ∧ w.par.barred
      = false) ∧
    (∃ (s w : State) (c : CutIn) (t u v : State), w = work s ∧ up w uPAR ∧ t =
      { w with mot := { w.mot with queue := [], sched := [] } } ∧ (newestSlot w = none → u = restoreHome (restoreTick
      w) t) ∧ (∀ k : Nat, newestSlot w = some k → restoreSlot (restoreTick w) k t = .ok u) ∧ v = solveAll (restoreTick
      w) { u with slv := { u.slv with built := false, prev := [] } } ∧ w.par.cutin = some c ∧ c.tick = none) ∧
    (∃ (s w : State) (c : CutIn) (k b claim : Nat) (t u : State), w = work s ∧ up w uPAR ∧ b = tickStart w k ∧ claim =
      w.start.epoch * 256 + ownRank w ∧ t = [uSLV, uLAN, uRED, uCOR, uMEA, uDRU].foldl (fun t u => modUnit u (fun x =>
      { x with next := max x.next b }) t) w ∧ u =
      { t with lan := { t.lan with bulk := [], objs := t.lan.objs.map (fun q => (q.1, { q.2 with head := (16 * b : Nat), zeroBelow := (16 * b : Nat), subs := [] })) }, mea := { t.mea with capNext := b } }
      ∧ w.par.cutin = some c ∧ c.tick = some k ∧ k ≤ nowTick w) ∧
    (∃ s w t : State, w = work s ∧ up w uPAR ∧ t = modPar (fun p => { p with snapTick := nowTick w }) w ∧ w.par.role =
      1 ∧ w.par.hbAt ≠ none ∧ w.par.hbLost = false ∧ w.par.snapTick + snapMs w ≤ nowTick w ∧ snapBusy w = true) ∧
    (∃ s w t : State, w = work s ∧ up w uPAR ∧ t = modPar (fun p => { p with snapTick := nowTick w }) w ∧ w.par.role =
      1 ∧ w.par.hbAt ≠ none ∧ w.par.hbLost = false ∧ w.par.snapTick + snapMs w ≤ nowTick w ∧ snapBusy w = false) ∧
    (∃ (s w : State) (a : Abdication), w = work s ∧ up w uPAR ∧ w.par.abd = some a ∧ w.par.role = 3 ∧ restartEn w =
      true ∧ a.began + 100000000 ≤ monoNs w) ∧
    (∃ s w : State, w = work s ∧ up w uPAR ∧ w.par.role = 1 ∧ partnerFit w = true) ∧
    (∃ s w : State, w = work s ∧ up w uPAR ∧ w.par.role = 1 ∧ partnerFit w = false) :=
  ⟨⟨atNs 250000 (pairUp id), _, rfl, up_of (by decide +kernel), by decide +kernel⟩,
   ⟨pairingWorks_1, _, 0, rfl, up_of (by decide +kernel), by decide +kernel⟩,
   ⟨pairingWorks_2, _, rfl, up_of (by decide +kernel), by decide +kernel⟩,
   ⟨live, _, 100, rfl, up_of (by decide +kernel), by decide +kernel⟩,
   ⟨atNs 1000000000 (pairUp id), _, rfl, up_of (by decide +kernel), by decide +kernel⟩,
   ⟨pairingWorks_5, _, ⟨0, 0, none⟩, _, restoreHome (restoreTick (work pairingWorks_5))
     ({ (work pairingWorks_5) with mot := { (work pairingWorks_5).mot with queue := [], sched := [] } }), _, rfl,
     up_of (by decide +kernel), rfl, (fun _ => rfl), (noSome (by decide +kernel)), rfl, by decide +kernel⟩,
   ⟨pairingWorks_6, _, ⟨0, 0, some 0⟩, 0, _, _, _, _, rfl, up_of (by decide +kernel), rfl, rfl, rfl, rfl,
     by decide +kernel⟩,
   ⟨pairingWorks_7, _, _, rfl, up_of (by decide +kernel), rfl, by decide +kernel⟩,
   ⟨pairingWorks_8, _, _, rfl, up_of (by decide +kernel), rfl, by decide +kernel⟩,
   ⟨pairingWorks_9, _, ⟨0, 0⟩, rfl, up_of (by decide +kernel), by decide +kernel⟩,
   ⟨pairingWorks_10, _, rfl, up_of (by decide +kernel), by decide +kernel⟩,
   ⟨pairUp (fun z => { z with role := 1 }), _, rfl, up_of (by decide +kernel), by decide +kernel⟩⟩

theorem witness_WearIsWatched :
    (∃ (s w : State) (i slack : Nat) (t : State), w = work s ∧ up w uHLT ∧ t = slackReport i slack w ∧ i < 160 ∧ slack
      < slackLow w ∧ (island t i).step < islandFloor w i ∧ (island t i).lastStep = none) ∧
    (∃ (s w : State) (i slack : Nat) (t : State) (k : Nat), w = work s ∧ up w uHLT ∧ t = slackReport i slack w ∧ i <
      160 ∧ (island t i).highSince = some k ∧ k + upSeconds w * 1000000000 ≤ monoNs w ∧ 0 < (island t i).step ∧
      islandFloor w i ≠ 0) ∧
    (∃ (s w : State) (i slack : Nat) (t : State) (k cls p : Nat), w = work s ∧ up w uHLT ∧ t = slackReport i slack w ∧
      i < 160 ∧ (island t i).lowSince = some k ∧ k + retireMs w * 1000000 ≤ monoNs w ∧ islandUnit i = some (cls, p)) ∧
    (∃ (s w : State) (b per : Nat), w = work s ∧ up w uHLT ∧ per = fld (actW w Reg.HLT_SELFTEST.base) 15 0 ∧ per ≠ 0 ∧
      inFollow w = true ∧ w.hlt.testing = none ∧ w.hlt.testLast + per * 1000000000 ≤ monoNs w ∧ ((List.range 80).map
      (fun (k : Nat) => (w.hlt.nextUnit + k) % 80)).find? (testable w) = some b) ∧
    (∃ (s w : State) (b : Nat), w = work s ∧ up w uHLT ∧ w.hlt.testing = some b ∧ w.hlt.testAt + 2000000000 ≤ monoNs
      w) :=
  ⟨⟨live, _, 159, 39, _, rfl, up_of (by decide +kernel), rfl, by decide +kernel⟩,
   ⟨wearIsWatched_1, _, 159, 120, _, 0, rfl, up_of (by decide +kernel), rfl, by decide +kernel⟩,
   ⟨wearIsWatched_2, _, 159, 39, _, 0, 3, 16, rfl, up_of (by decide +kernel), rfl, by decide +kernel⟩,
   ⟨wearIsWatched_3, _, 36, _, rfl, up_of (by decide +kernel), rfl, by decide +kernel⟩,
   ⟨wearIsWatched_4, _, 79, rfl, up_of (by decide +kernel), by decide +kernel⟩⟩

theorem witness_BlockAndTickIndexes :
    (∃ s : State, s.time.idx % tickLen s = 0) ∧
    (∃ (s : State) (x : Nat), extSmp s x % tickLen s = 0) ∧
    (∃ (s : State) (k j : Nat), j < tickBlocks s ∧ 0 ≤ ((k * tickLen s : Nat) : Int) + ofsAt s (k * tickLen s)) :=
  ⟨⟨atIdx 96 live, by decide +kernel⟩,
   ⟨live, 0, by decide +kernel⟩,
   ⟨live, 0, 0, by decide +kernel⟩⟩

theorem witness_MaximumFrameLength :
    (∃ (s w : State) (p m : Nat), w = work s ∧ m = fld (regW w (Reg.NET_MAX_FRAME.at p)) 13 0 ∧ m < 64) ∧
    (∃ (s w : State) (p m : Nat), w = work s ∧ m = fld (regW w (Reg.NET_MAX_FRAME.at p)) 13 0 ∧ 9600 < m) ∧
    (∃ (s w : State) (p m : Nat), w = work s ∧ m = fld (regW w (Reg.NET_MAX_FRAME.at p)) 13 0 ∧ 64 ≤ m ∧ m ≤ 9600) ∧
    (∃ (s w : State) (p m : Nat), w = work s ∧ m = fld (regW w (Reg.NET_MAX_FRAME.at p)) 13 0 ∧ p < 8) ∧
    (∃ (s w : State) (p m : Nat) (bs : List Byte) (low : Nat) (e : Nat × Nat × Nat), w = work s ∧ m = fld (regW w
      (Reg.NET_MAX_FRAME.at p)) 13 0 ∧ low = freeCells w - cellsGranted w e.2.2 (maxFrame w p + 1) ∧ running w = true
      ∧ unitPresent w uNET = true ∧ p < netPorts w ∧ netMode w p ≠ 0 ∧ (portSt w p).link = true ∧ frameCheck w p bs
      false = .inr e ∧ maxFrame w p < bs.length + 4) :=
  ⟨⟨maximumFrameLength_0, _, 7, _, rfl, rfl, by decide +kernel⟩,
   ⟨maximumFrameLength_1, _, 7, _, rfl, rfl, by decide +kernel⟩,
   ⟨maximumFrameLength_2, _, 7, _, rfl, rfl, by decide +kernel⟩,
   ⟨live, _, 7, _, rfl, rfl, by decide +kernel⟩,
   ⟨framesReceivedAndSent_3, _, 7, _, List.replicate 6 0xFF ++ List.replicate 55 0, _, (1, 255, 3), rfl, rfl, rfl,
     by decide +kernel⟩⟩

theorem witness_IllegalInstructionsFault :
    ∃ (s w : State) (n : Nat) (m : Instr), w = work s ∧ coreRuns w n = true ∧ druDecode (fetchWord w n) = none ∧ m ∈
      ([.add n, .sub n, .adds n, .subs n, .and n, .or n, .xor n, .shl n, .shr n, .asr n, .min n, .max n, .abs n, .neg
      n, .mul n, .cmp n, .mov n, .cls n, .addi n, .andi n, .ori n, .xori n, .shli n, .shri n, .asri n, .cmpi n, .movi
      n, .movhi n, .ld n, .ldh n, .ldb n, .ld24 n, .st n, .sth n, .stb n, .st24 n, .mac n, .msu n, .mpy n, .dmac n,
      .nop n, .movr n, .setr n, .rnd n, .clr n, .ldacc n, .addacc n, .drain n, .signal n, .halt n, .blkend n, .wait n,
      .ei n, .di n, .evt n, .br n, .call n, .ret n, .rti n, .jmp n, .rep n, .loop n] : List Instr) :=
  ⟨coreSequence_19, _, 15, .loop 15, rfl, by decide +kernel⟩

theorem witness_RndNarrowsAccumulators :
    (∃ (s w : State) (n k sat : Nat) (i : Word) (acc : BitVec 72) (v : Int) (q : Word × FlagSet), w = work s ∧ i =
      fetchWord w n ∧ acc = accOf (coreOf w n) (fld i 23 22) ∧ k = fld i 17 12 ∧ sat = fld i 11 10 ∧ v = (if k = 0
      then acc.toInt else (acc.toInt + 2 ^ (k - 1)) / 2 ^ k) ∧ q = accRound acc k sat ∧ druReady w n .rnd) ∧
    (∃ (s w : State) (n k sat : Nat) (i : Word) (acc : BitVec 72) (v : Int) (q : Word × FlagSet), w = work s ∧ i =
      fetchWord w n ∧ acc = accOf (coreOf w n) (fld i 23 22) ∧ k = fld i 17 12 ∧ v = (if k = 0 then acc.toInt else
      (acc.toInt + 2 ^ (k - 1)) / 2 ^ k) ∧ q = accRound acc k sat ∧ sat = 0 ∧ sat = fld i 11 10) ∧
    (∃ (s w : State) (n k sat : Nat) (i : Word) (acc : BitVec 72) (v : Int) (q : Word × FlagSet), w = work s ∧ i =
      fetchWord w n ∧ acc = accOf (coreOf w n) (fld i 23 22) ∧ k = fld i 17 12 ∧ v = (if k = 0 then acc.toInt else
      (acc.toInt + 2 ^ (k - 1)) / 2 ^ k) ∧ q = accRound acc k sat ∧ sat = 1 ∧ sat = fld i 11 10) ∧
    (∃ (s w : State) (n k sat : Nat) (i : Word) (acc : BitVec 72) (v : Int) (q : Word × FlagSet), w = work s ∧ i =
      fetchWord w n ∧ acc = accOf (coreOf w n) (fld i 23 22) ∧ k = fld i 17 12 ∧ v = (if k = 0 then acc.toInt else
      (acc.toInt + 2 ^ (k - 1)) / 2 ^ k) ∧ q = accRound acc k sat ∧ sat = 2 ∧ sat = fld i 11 10) ∧
    (∃ (s w : State) (n k sat : Nat) (i : Word) (acc : BitVec 72) (v : Int) (q : Word × FlagSet), w = work s ∧ i =
      fetchWord w n ∧ acc = accOf (coreOf w n) (fld i 23 22) ∧ k = fld i 17 12 ∧ v = (if k = 0 then acc.toInt else
      (acc.toInt + 2 ^ (k - 1)) / 2 ^ k) ∧ q = accRound acc k sat ∧ sat = 3 ∧ sat = fld i 11 10) :=
  ⟨⟨rndNarrowsAccumulators_0, _, 15, _, _, _, _, _, _, rfl, rfl, rfl, rfl, rfl, rfl, rfl, ready_of (by decide +kernel)⟩,
   ⟨rndNarrowsAccumulators_0, _, 15, _, _, _, _, _, _, rfl, rfl, rfl, rfl, rfl, rfl, rfl, by decide +kernel⟩,
   ⟨rndNarrowsAccumulators_2, _, 15, _, _, _, _, _, _, rfl, rfl, rfl, rfl, rfl, rfl, rfl, by decide +kernel⟩,
   ⟨rndNarrowsAccumulators_3, _, 15, _, _, _, _, _, _, rfl, rfl, rfl, rfl, rfl, rfl, rfl, by decide +kernel⟩,
   ⟨coreAccumulators_11, _, 15, _, _, _, _, _, _, rfl, rfl, rfl, rfl, rfl, rfl, rfl, by decide +kernel⟩⟩

theorem witness_AddressModes :
    (∃ (c : CoreSt) (an imm p k : Nat) (a o : Word) (m : Nat) (t : Int), a = aReg c an ∧ o = oReg c an ∧ (∀ j : Nat, m
      ≤ 2 ^ j → p ≤ 2 ^ j) ∧ t = (a.toNat % p : Nat) + o.toInt ∧ m = 0 ∧ imm < 2 ^ 17 ∧ m = (mReg c an).toNat ∧ p = 2
      ^ k ∧ m ≤ p) ∧
    (∃ (c : CoreSt) (an imm p k : Nat) (a o : Word) (m : Nat) (t : Int), a = aReg c an ∧ o = oReg c an ∧ m = (mReg c
      an).toNat ∧ (∀ j : Nat, m ≤ 2 ^ j → p ≤ 2 ^ j) ∧ t = (a.toNat % p : Nat) + o.toInt ∧ imm < 2 ^ 17 ∧ p = 2 ^ k ∧
      m ≤ p ∧ 0 < m ∧ m ≤ 2 ^ 18 ∧ o.toInt.natAbs ≤ m ∧ a.toNat % p < m) ∧
    (∃ (c : CoreSt) (an imm p k : Nat) (a o : Word) (m : Nat) (t : Int), a = aReg c an ∧ o = oReg c an ∧ m = (mReg c
      an).toNat ∧ (∀ j : Nat, m ≤ 2 ^ j → p ≤ 2 ^ j) ∧ t = (a.toNat % p : Nat) + o.toInt ∧ imm < 2 ^ 17 ∧ p = 2 ^ k ∧
      m ≤ p ∧ 0 < m ∧ (2 ^ 18 < m ∨ m < o.toInt.natAbs ∨ m ≤ a.toNat % p)) :=
  ⟨⟨coreZero, 7, 0x1FFFF, 1, 0, _, _, _, _, rfl, rfl, (fun j _ => Nat.one_le_two_pow), rfl, rfl, by decide +kernel⟩,
   ⟨{ coreZero with regs := [(23, 2), (31, 3), (35, 3)] }, 7, 0, 4, 2, _, _, _, _, rfl, rfl, rfl, modFour, rfl,
     by decide +kernel⟩,
   ⟨{ coreZero with regs := [(23, 3), (35, 3)] }, 7, 0, 4, 2, _, _, _, _, rfl, rfl, rfl, modFour, rfl,
     by decide +kernel⟩⟩

/-- Terms that are well formed, one for each constructor in its order. -/
theorem test_well_formed_1 :
    ([.read 0 0 0 false, .write 0 0 0 false 0, .modify 0 0 0 false 0 1 0, .burstRead 0 0 0 false 1 0,
      .burstWrite 0 0 0 false 1 0 [5], .commit 0 0 0 0 false, .cue 0 0 0 0 false, .snapSave 0 0 0 0 false,
      .snapRecall 0 0 0 0 false, .featureRequest 0 0 false 0 false, .restart 0 0 0 false,
      .hostWrite 0 false false 0 0, .hostRead 0 0, .commandTake, .responseWrite, .remoteCommandFrame 0,
      .eventFrameSend, .registerWrite 0 0, .sidxRead, .redLastRead, .timeRead, .gmIdRead, .offsetRead,
      .captureRead 0, .tagSubmit 0, .tagHeldRelease, .tagArrival 0, .commitTag 0, .route, .ramp 0,
      .migrationCopyStart, .migrate, .swap, .cueTag, .snapTag, .markTag 0, .epochTag 0, .portStart false,
      .portStop false, .streamStart, .streamStop, .linkStreamStart, .linkStreamStop, .runStart, .runStop,
      .ringStart, .ringStop, .pipelineBlock 0 ⟨false, [], [], [], [], [], [], [], []⟩] : List Instr).all wellFormed = true := by
  decide +kernel

/-- Terms that are well formed, one for each constructor in its order. -/
theorem test_well_formed_2 :
    ([.tickBoundary 0, .blockRelease [], .deadlineMiss 0 0, .timeStepDecide, .timeStep, .asrcLock 0 0,
      .asrcSettled 0, .asrcRangeRetry 0 0, .wallflowerEnter false 0, .oscDatagram 0, .oscScheduledEntry,
      .nativePayload 0, .ingestSubmit false 0 0, .motTick, .objectLost 0, .dsxSubmit 0, .descriptorAccept 0,
      .jobDispatch false 0, .jobComplete 0, .resultWrite 0, .solverCutoff, .slvRefresh 0, .geometryRetire 0 0,
      .laneWake 0, .sitoutStart, .sitoutSelftestEnd 0 false, .laneRetire 0 0, .swapPrepare, .swapLoad,
      .crossfadeEnd, .transitionEnd, .chargeReturn, .sliceRetire 0 0, .runBegin, .captureEnd 0, .runDone,
      .liveFrame, .delaySearch, .livePublish, .referenceEdge 0 0 0 0, .candidateLoss 0,
      .qualificationComplete 0, .lockAchieved, .holdMaxExpiry, .clkCtrlWrite 0, .candidateWrite 0 0 0,
      .dpllRetire 0, .syncReceive 0 0 0 0 0 0] : List Instr).all wellFormed = true := by
  decide +kernel

/-- Terms that are well formed, one for each constructor in its order. -/
theorem test_well_formed_3 :
    ([.announceReceive 0 0 0 0 0 0 0 0 0 0 0, .announceTimeout, .ptpPortReturn, .ppsSecWrite false 0,
      .triggerArm 0 0, .triggerFire 0, .captureEdge 0 false 0, .frameReceive 0 [] false false 0,
      .linkStateChange 0 false 0, .frameTransmit 0 0, .queueRead 0, .queueMark 0, .queueRewind 0,
      .queueRelease 0, .queueFlush 0, .txsGo 0, .queueEnChange 0 false, .rtpPacket 0, .aafPacket 0,
      .streamRangeRetry 0, .claimLapse false 0, .holdRamp false 0, .arpRequest 0, .igmpQuery 0,
      .linkUp 0 [] [], .linkDown 0 false, .linkFrameReceive 0 [] false 0, .audioFrame 0, .heartbeatReceive 0,
      .healthReceive 0, .snapshotSegment 0, .timeFrame 0 0 0, .clockFrame 0, .timeFrameSend 0,
      .clockFrameSend 0, .linkFrameTransmit 0, .shed 0, .restore 0, .widthAck 0, .shedTimeout 0,
      .spareMove 0 0 0, .portSlip false 0 false, .portOutOfRange false 0 0 0, .portRangeReturn false 0 0,
      .portClockLoss false 0, .portGlitch false 0, .portRateChange false 0 0, .portClockReturn false 0 0] : List Instr).all wellFormed = true := by
  decide +kernel

/-- Terms that are well formed, one for each constructor in its order. -/
theorem test_well_formed_4 :
    ([.portEnClear false 0, .portDataBegin false 0, .aesCsBlock 0 false (List.replicate 24 0), .mclkChange,
      .suppliesValid 0 0, .resetAssert, .resetRelease 0 0, .bistComplete ⟨[], 0, [], [], 0, 0, none⟩,
      .startWindowClose, .sectionLoad, .loadComplete, .add 0, .sub 0, .adds 0, .subs 0, .and 0, .or 0, .xor 0,
      .shl 0, .shr 0, .asr 0, .min 0, .max 0, .abs 0, .neg 0, .mul 0, .cmp 0, .mov 0, .cls 0, .addi 0,
      .andi 0, .ori 0, .xori 0, .shli 0, .shri 0, .asri 0, .cmpi 0, .movi 0, .movhi 0, .ld 0, .ldh 0, .ldb 0,
      .ld24 0, .st 0, .sth 0, .stb 0, .st24 0, .mac 0] : List Instr).all wellFormed = true := by
  decide +kernel

/-- Terms that are well formed, one for each constructor in its order. -/
theorem test_well_formed_5 :
    ([.msu 0, .mpy 0, .dmac 0, .nop 0, .movr 0, .setr 0, .rnd 0, .clr 0, .ldacc 0, .addacc 0, .drain 0, .signal 0,
      .halt 0, .blkend 0, .wait 0, .ei 0, .di 0, .evt 0, .br 0, .call 0, .ret 0, .rti 0, .jmp 0, .rep 0,
      .loop 0, .illegalInstruction 0, .interruptTake 0 0, .timerExpiry 0, .doorbell 0, .coreStart 0,
      .coreStop 0, .coreReset 0, .programLoadDone 0, .taskStart 0, .streamRunStart 0, .runOverrun 0,
      .taskWatchdog 0, .coreRetire 0 0, .bankPowerOn 0, .scratchPwrWrite 0, .sramScrubPass [],
      .panicEnter 0 0, .panicExit 0 0, .dramRefresh 0 0, .driftTrack 0, .selfRefreshEnter 0, .selfRefreshExit,
      .rowHammer 0 0 0 0 0] : List Instr).all wellFormed = true := by
  decide +kernel

/-- Terms that are well formed, one for each constructor in its order. -/
theorem test_well_formed_6 :
    ([.patrolScrubPass [] [], .tamper 0, .lcArm 0, .lcExecute 0, .lcArmExpiry, .lcFuseDone, .dmaGo false 0 0,
      .dmaStop false 0, .dmaReqAdd 0 0, .channelTake false, .descriptorFetch false, .dmaBurst false,
      .descriptorComplete false, .heartbeatSend, .heartbeatLoss, .healthSend, .yieldEdge 0, .election,
      .restoreComplete, .renderBegin, .snapshotTake, .abdicationRestart, .handover, .marginStepDown 0 0,
      .marginStepUp 0 0, .islandRetire 0 0, .retireWrite 0, .followSelftest, .unitRestart 0 0,
      .supplyOutOfRange 0 0 false, .supplyLoss 0, .overTemperature 0 0, .cooldownStart 0, .bypass false [],
      .idcode false [], .samplePreload false [], .extest false [], .syncTimeout, .timeFrameTimeout 0,
      .ptpMessageSend 0, .delayMessageReceive 0 0 0 0 0 0 0 0, .shaperCreditZero 0,
      .controlBlockReceive 0 0 0, .laneLockLoss 0 0 0, .spareCoreCopyEnd, .followSelftestEnd false 0] : List Instr).all wellFormed = true := by
  decide +kernel

/-- Terms that each fail one check of `wellFormed`, in the order of the checks. -/
theorem test_ill_formed_1 :
    ([.read 25 0 0 false, .read 0 (2 ^ 16) 0 false, .read 0 0 (2 ^ 40) false, .read 0 0 6 false,
      .write 25 0 0 false 0, .write 0 (2 ^ 16) 0 false 0, .write 0 0 (2 ^ 40) false 0, .write 0 0 6 false 0,
      .modify 25 0 0 false 0 1 0, .modify 0 (2 ^ 16) 0 false 0 1 0, .modify 0 0 (2 ^ 40) false 0 1 0,
      .modify 0 0 0 false 32 1 0, .modify 0 0 0 false 0 33 0, .modify 0 0 6 false 0 1 0,
      .modify 0 0 0 false 0 0 0, .burstRead 25 0 0 false 1 0, .burstRead 0 (2 ^ 16) 0 false 1 0,
      .burstRead 0 0 (2 ^ 40) false 1 0, .burstRead 0 0 0 false 4097 0, .burstRead 0 0 0 false 1 (2 ^ 32),
      .burstRead 0 0 6 false 1 0, .burstRead 0 0 0 false 0 0, .burstWrite 25 0 0 false 1 0 [5],
      .burstWrite 0 (2 ^ 16) 0 false 1 0 [5], .burstWrite 0 0 (2 ^ 40) false 1 0 [5],
      .burstWrite 0 0 0 false 4097 0 [5], .burstWrite 0 0 0 false 1 (2 ^ 32) [5],
      .burstWrite 0 0 6 false 1 0 [5], .burstWrite 0 0 0 false 1 0 [5, 6], .burstWrite 0 0 0 false 0 0 [],
      .commit 25 0 0 0 false, .commit 0 (2 ^ 16) 0 0 false, .commit 0 0 (2 ^ 64) 0 false,
      .commit 0 0 0 256 false, .cue 25 0 0 0 false, .cue 0 (2 ^ 16) 0 0 false, .cue 0 0 (2 ^ 64) 0 false,
      .cue 0 0 0 (2 ^ 24) false, .snapSave 25 0 0 0 false, .snapSave 0 (2 ^ 16) 0 0 false,
      .snapSave 0 0 (2 ^ 64) 0 false, .snapSave 0 0 0 (2 ^ 24) false, .snapRecall 25 0 0 0 false,
      .snapRecall 0 (2 ^ 16) 0 0 false, .snapRecall 0 0 (2 ^ 64) 0 false, .snapRecall 0 0 0 (2 ^ 24) false,
      .featureRequest 25 0 false 0 false, .featureRequest 0 (2 ^ 16) false 0 false] : List Instr).all (fun i => !wellFormed i) = true := by
  decide +kernel

/-- Terms that each fail one check of `wellFormed`, in the order of the checks. -/
theorem test_ill_formed_2 :
    ([.restart 25 0 0 false, .restart 0 (2 ^ 16) 0 false, .restart 0 0 4 false, .hostWrite (2 ^ 16) false false 0 0,
      .hostWrite 0 false false (2 ^ 16) 0, .hostWrite 0 false false 0 5, .hostRead (2 ^ 16) 0, .hostRead 0 4,
      .remoteCommandFrame 512, .registerWrite (2 ^ 40) 0, .registerWrite 6 0, .captureRead 16,
      .tagArrival 256, .commitTag 256, .ramp 256, .markTag 256, .epochTag 256,
      .pipelineBlock 256 ⟨false, [], [], [], [], [], [], [], []⟩, .tickBoundary 256, .deadlineMiss 4 0,
      .deadlineMiss 0 512, .asrcLock 2048 0, .asrcLock 0 400000, .asrcSettled 2048, .asrcRangeRetry 2048 0,
      .asrcRangeRetry 0 400000, .wallflowerEnter false 2048, .oscDatagram 512, .nativePayload 512,
      .ingestSubmit false 1024 0, .objectLost 1024, .descriptorAccept 5, .jobDispatch false 32,
      .jobComplete 17, .resultWrite 1024, .geometryRetire 17 0, .geometryRetire 0 5, .laneWake 36,
      .sitoutSelftestEnd 36 false, .laneRetire 36 0, .laneRetire 0 5, .sliceRetire 9 0, .sliceRetire 0 5,
      .captureEnd 16, .referenceEdge 8 0 0 0, .candidateLoss 8, .qualificationComplete 8,
      .candidateWrite 8 0 0] : List Instr).all (fun i => !wellFormed i) = true := by
  decide +kernel

/-- Terms that each fail one check of `wellFormed`, in the order of the checks. -/
theorem test_ill_formed_3 :
    ([.candidateWrite 0 4 0, .dpllRetire 5, .syncReceive (2 ^ 16) 0 0 0 0 0,
      .announceReceive 256 0 0 0 0 0 0 0 0 0 0, .triggerArm 32 0, .triggerFire 32, .captureEdge 32 false 0,
      .captureEdge 0 false 83334, .frameReceive 8 [] false false 0, .frameReceive 0 [] false false 83334,
      .linkStateChange 8 false 0, .linkStateChange 0 false 8, .frameTransmit 8 0, .queueRead 512,
      .queueMark 512, .queueRewind 512, .queueRelease 512, .queueFlush 512, .queueEnChange 512 false,
      .rtpPacket 512, .aafPacket 512, .streamRangeRetry 256, .claimLapse false 256, .holdRamp false 256,
      .arpRequest 512, .igmpQuery 512, .linkUp 8 [] [], .linkUp 0 [5] [], .linkUp 0 [] [5], .linkDown 8 false,
      .linkFrameReceive 8 [] false 0, .linkFrameReceive 0 [] false 83334, .audioFrame 512,
      .heartbeatReceive 8, .healthReceive 512, .snapshotSegment 512, .timeFrame 8 0 0, .clockFrame 8,
      .timeFrameSend 8, .clockFrameSend 8, .linkFrameTransmit 8, .shed 8, .restore 8, .widthAck 8,
      .shedTimeout 8, .spareMove 8 0 0, .spareMove 0 5 0, .spareMove 0 0 (2 ^ 10)] : List Instr).all (fun i => !wellFormed i) = true := by
  decide +kernel

/-- Terms that each fail one check of `wellFormed`, in the order of the checks. -/
theorem test_ill_formed_4 :
    ([.portSlip false 48 false, .portOutOfRange false 48 0 0, .portOutOfRange false 0 400000 0,
      .portRangeReturn false 48 0, .portClockLoss false 48, .portGlitch false 48, .portRateChange false 48 0,
      .portRateChange false 0 400000, .portClockReturn false 48 0, .portClockReturn false 0 400000,
      .portEnClear false 48, .portDataBegin false 48, .aesCsBlock 8 false (List.replicate 24 0),
      .aesCsBlock 0 false [], .suppliesValid 3 0, .suppliesValid 0 16, .resetRelease 3 0, .resetRelease 0 4,
      .add 16, .sub 16, .adds 16, .subs 16, .and 16, .or 16, .xor 16, .shl 16, .shr 16, .asr 16, .min 16,
      .max 16, .abs 16, .neg 16, .mul 16, .cmp 16, .mov 16, .cls 16, .addi 16, .andi 16, .ori 16, .xori 16,
      .shli 16, .shri 16, .asri 16, .cmpi 16, .movi 16, .movhi 16, .ld 16, .ldh 16] : List Instr).all (fun i => !wellFormed i) = true := by
  decide +kernel

/-- Terms that each fail one check of `wellFormed`, in the order of the checks. -/
theorem test_ill_formed_5 :
    ([.ldb 16, .ld24 16, .st 16, .sth 16, .stb 16, .st24 16, .mac 16, .msu 16, .mpy 16, .dmac 16, .nop 16, .movr 16,
      .setr 16, .rnd 16, .clr 16, .ldacc 16, .addacc 16, .drain 16, .signal 16, .halt 16, .blkend 16,
      .wait 16, .ei 16, .di 16, .evt 16, .br 16, .call 16, .ret 16, .rti 16, .jmp 16, .rep 16, .loop 16,
      .illegalInstruction 16, .interruptTake 16 0, .interruptTake 0 2, .timerExpiry 16, .coreStart 16,
      .coreStop 16, .coreReset 16, .programLoadDone 16, .taskStart 16, .streamRunStart 16, .runOverrun 16,
      .taskWatchdog 16, .coreRetire 17 0, .coreRetire 0 5, .bankPowerOn 15, .panicEnter 3 0] : List Instr).all (fun i => !wellFormed i) = true := by
  decide +kernel

/-- Terms that each fail one check of `wellFormed`, in the order of the checks. -/
theorem test_ill_formed_6 :
    ([.panicEnter 0 101, .panicExit 3 0, .panicExit 0 101, .dramRefresh 4 0, .dramRefresh 0 256, .driftTrack 4,
      .rowHammer 0 13 0 0 0, .rowHammer 0 0 256 0 0, .rowHammer 0 0 0 4 0, .rowHammer 0 0 0 0 (2 ^ 32),
      .dmaGo false 16 0, .dmaGo false 16 0, .dmaStop false 16, .dmaStop false 16, .dmaReqAdd 32 0,
      .marginStepDown 160 0, .marginStepDown 0 (2 ^ 16), .marginStepUp 160 0, .marginStepUp 0 (2 ^ 16),
      .islandRetire 160 0, .islandRetire 0 (2 ^ 16), .unitRestart 4 0, .supplyOutOfRange 12 0 false,
      .timeFrameTimeout 8, .ptpMessageSend 3, .delayMessageReceive 4 0 0 0 0 0 0 0,
      .delayMessageReceive 0 256 0 0 0 0 0 0, .shaperCreditZero 8, .controlBlockReceive 8 0 0,
      .controlBlockReceive 0 256 0, .controlBlockReceive 0 0 256, .laneLockLoss 8 0 0, .laneLockLoss 0 10 0,
      .followSelftestEnd false 17] : List Instr).all (fun i => !wellFormed i) = true := by
  decide +kernel

theorem test_dma_b_has_four_channels :
    wellFormed (.dmaGo true 4 0) = false ∧ wellFormed (.dmaGo true 3 0) = true := by decide +kernel

/-- Core 15 with an instruction and registers, by their codes (R466). -/
def coreWith (i : Word) (regs : List (Nat × Word)) : State := core i { coreZero with state := 2, regs := regs }

/-- What core 15 holds after a command. -/
def coreAfter (c : Instr) (s : State) : CoreSt := coreOf (afterNext (exec c s)) 15

/-- R469: `ADD D1, D2, D3` of 2^31 − 1 and 1 wraps to −2^31 with N and V, without Z and C. -/
theorem test_add_overflows :
    let c := coreAfter (.add 15) (coreWith 0x00091800 [(2, 0x7FFFFFFF), (3, 1)])
    dReg c 1 = 0x80000000 ∧ fld (srReg c) 3 0 = 0b1001 ∧ c.pc = 1 := by decide +kernel

/-- R469: C of `SUB` is 1 when no borrow occurs. -/
theorem test_sub_borrows :
    let c := coreAfter (.sub 15) (coreWith 0x00891800 [(2, 0), (3, 1)])
    let d := coreAfter (.sub 15) (coreWith 0x00891800 [(2, 1), (3, 1)])
    dReg c 1 = 0xFFFFFFFF ∧ fld (srReg c) 3 0 = 0b0001 ∧ dReg d 1 = 0 ∧ fld (srReg d) 3 0 = 0b0110 := by decide +kernel

/-- R469: `ADDS` saturates. -/
theorem test_adds_saturates :
    let c := coreAfter (.adds 15) (coreWith 0x01091800 [(2, 0x7FFFFFFF), (3, 0x7FFFFFFF)])
    dReg c 1 = 0x7FFFFFFF ∧ bit (srReg c) 3 = true := by decide +kernel

/-- R469: `CLS` counts the leading bits equal to the sign, less one. -/
theorem test_cls :
    dReg (coreAfter (.cls 15) (coreWith 0x08890000 [(2, 0xFFFFFFFF)])) 1 = 31 ∧
      dReg (coreAfter (.cls 15) (coreWith 0x08890000 [(2, 0x40000000)])) 1 = 0 := by decide +kernel

/-- R470: a constant is built by `MOVHI` with bits 31:15 and `ORI` with bits 14:0. -/
theorem test_constant_in_two_steps :
    dReg (coreAfter (.movhi 15) (coreWith 0x32200001 [])) 1 = 0x8000 ∧
      dReg (coreAfter (.ori 15) (coreWith 0x24220123 [(1, 0x8000)])) 1 = 0x8123 := by decide +kernel

/-- The spec's circular delay: 0x50260000 stores D0 at A4 = 0xCAFC, and A4 wraps to 0x8000 (R472). -/
theorem test_circular_delay_wraps :
    let s := afterNext (exec (.st 15) (coreWith 0x50260000 [(0, 0x11223344), (20, 0xCAFC), (28, 4), (32, 19200)]))
    aReg (coreOf s 15) 4 = 0x8000 ∧ rd32 s (coreWindow 15 + 0xCAFC) = 0x11223344 := by decide +kernel

/-- R475, R10: `RND D1, ACC0, 1` of −1 rounds half up to 0. -/
theorem test_rnd_half_up :
    let c := coreAfter (.rnd 15) (core 0xA3041400 { coreZero with state := 2, accs := [(0, -1)] })
    dReg c 1 = 0 ∧ bit (srReg c) 1 = true := by decide +kernel

/-- R445: a read of a word that is assigned answers with the word; of an address that is not, with status 1. -/
theorem test_read_answers :
    ((sourceOf (afterNext (exec (.read 16 7 0x1000 false) (put 0x1000 [1, 2, 3, 4] (takes 16 (cmd 1 7 0x1000 0 0))))) 16).rsps.map
      (fun r => (r.status, r.tag, r.data))) = [(0, 7, 0x04030201)] ∧
    ((sourceOf (afterNext (exec (.read 16 7 0xFFFFFFFFFC false) (takes 16 (cmd 1 7 0xFFFFFFFFFC 0 0)))) 16).rsps.map
      (fun r => r.status)) = [1] := by decide +kernel

/-- R442, R443: `MODIFY` writes bits 15:8 and leaves the rest of the word. -/
theorem test_modify_keeps_the_rest :
    rd32 (afterNext (exec (.modify 16 7 0x1000 false 8 8 0xAB)
      (put 0x1000 [1, 2, 3, 4] (takes 16 (cmd 3 7 0x1000 0x0708 0xAB))))) 0x1000 = 0x0403AB01 := by decide +kernel

/-- The spec's scene change: block and tick of sample 168,000,000,000,024 at 96 kHz. -/
theorem test_scene_change_indexes :
    nowBlock (atIdx 168000000000024 live) = 10500000000001 ∧ nowTick (atIdx 168000000000024 live) = 1750000000000 := by
  decide +kernel

/-- A step on an empty queue is one sample (log entry 2). -/
theorem test_idle_sample : (afterNext (step (atIdx 5 live))).time.idx = 6 := by decide +kernel

/-- R452: an event of seven bytes is two records; the second says that it goes on. -/
theorem test_event_in_two_records :
    let s := raise 0x10 [1, 2, 3, 4, 5, 6, 7] (withWords [(Reg.SYS_EVT_EN.at 0, 0xFFFFFFFF)] live)
    rd32 s (ctlBlock + 0x10) = 2 ∧ readBytes s evtRing 4 = [0x10, 0, 1, 2] ∧ readBytes s (evtRing + 16) 4 = [0x10, 1, 7, 0] := by
  decide +kernel

/-- The table gives no row bits: no word spells a command, and none is put in front. -/
theorem test_no_word_decodes : decodeTableWord 32 0x12345678 = none ∧ live.withFetchWord 32 0x12345678 = live := by
  decide +kernel


end Sys2Proof.Tests
end

section
/-! The scope family: words that the device sets (R22, R23), words that a command writes and reads (R15 to R21, R72,
R221, R308, R311), and commands that are refused or outside the contract (R4, R442, R443, R513). First what the shared
operations do on one aligned word, then the three obligations. -/

namespace Sys2Proof.Proofs

open Sys2Proof Sys2Proof.Machine Sys2Proof.Laws

/-! ### Words that the device sets: the other words -/

theorem regW_setF_other (a hi lo v : Nat) (s : State) (b : Nat) (h : b ≠ a) (h1 : a ≠ Reg.SYS_RENDER_RATE.base)
    (h2 : a ≠ Reg.FEA_ACCEPT_LO.base) : regW (setF a hi lo v s) b = regW s b :=
  regW_setW_other a _ s b h h1 h2

theorem regW_stick_other (a i : Nat) (s : State) (b : Nat) (h : b ≠ a) (h1 : a ≠ Reg.SYS_RENDER_RATE.base)
    (h2 : a ≠ Reg.FEA_ACCEPT_LO.base) : regW (stick a i s) b = regW s b :=
  regW_setF_other a i i 1 s b h h1 h2

theorem regW_countF_other (a hi lo n : Nat) (s : State) (b : Nat) (h : b ≠ a) (h1 : a ≠ Reg.SYS_RENDER_RATE.base)
    (h2 : a ≠ Reg.FEA_ACCEPT_LO.base) : regW (countF a hi lo n s) b = regW s b :=
  regW_setF_other a hi lo _ s b h h1 h2

/-! ### One aligned word over the fabric -/

theorem slice_all {α : Type} (l : List α) : slice l 0 l.length = l := by simp [slice]

theorem wordOf_ofBytes_bytesOf (v : Word) : wordOf (ofBytes (bytesOf 4 v.toNat)) = v := by
  have hv : v.toNat % 256 ^ 4 = v.toNat := Nat.mod_eq_of_lt v.isLt
  rw [ofBytes_bytesOf, hv, wordOf, BitVec.ofNat_toNat, BitVec.setWidth_eq]

theorem parts4_word (a : Nat) (h : a % 4 = 0) : parts4 a 4 = [a] := by
  have hn : (a + 4 - 1) / 4 + 1 - a / 4 = 1 := by omega
  have ha : a / 4 * 4 = a := by omega
  simp only [parts4, hn, List.range_one, List.map_cons, List.map_nil, Nat.add_zero, ha]

/-- A write of an aligned word is one write inside its 8-byte word. -/
theorem fabWriteWord_eq_writePart (path req inst : Nat) (s : State) (a : Nat) (v : Word) (h : a % 4 = 0) :
    fabWriteWord path req inst s a v = writePart path req inst a (bytesOf 4 v.toNat) s := by
  have hs : slice (bytesOf 4 v.toNat) 0 4 = bytesOf 4 v.toNat := slice_all _
  simp only [fabWriteWord, fabWrite, bytesOf_length, parts8_word a h, writeParts, Nat.sub_self, hs]
  cases writePart path req inst a (bytesOf 4 v.toNat) s <;> rfl

/-- A whole word is written as such, in a register block and in a table alike. -/
theorem writeWords_word (path : Nat) (blk : Bool) (a : Nat) (v : Word) (s : State) :
    writeWords path blk a (bytesOf 4 v.toNat) s [a] = writeWord path a v s := by
  have hp : slice (bytesOf 4 v.toNat) (max a a - a) (min (a + (bytesOf 4 v.toNat).length) (a + 4) - max a a) =
      bytesOf 4 v.toNat := by
    rw [bytesOf_length, max_self, Nat.sub_self, min_self, Nat.add_sub_cancel_left]
    exact slice_all _
  simp only [writeWords, hp]
  rw [if_pos (bytesOf_length ..), wordOf_ofBytes_bytesOf]
  cases writeWord path a v s <;> rfl

/-- A fabric write of a word of a register block or a table is that word's write. -/
theorem fabWriteWord_register (path req inst : Nat) (s : State) (a : Nat) (v : Word) (h : a % 4 = 0)
    (hp : fabPlace s a = .block ∨ fabPlace s a = .table) :
    fabWriteWord path req inst s a v = writeWord path a v s := by
  rw [fabWriteWord_eq_writePart _ _ _ _ _ _ h]
  rcases hp with hp | hp <;>
    simp only [writePart, hp, bytesOf_length, parts4_word a h, writeWords_word]

/-- A fabric write of a word of memory that meets something watched ends in the fault of that name. -/
theorem fabWriteWord_stopped (path req inst : Nat) {s : State} {a : Nat} {v : Word} {f : Fault} (h : a % 4 = 0)
    (hp : fabPlace s a = .mem) (hf : writeStop s a (bytesOf 4 v.toNat) = some f) :
    fabWriteWord path req inst s a v = .error f := by
  rw [fabWriteWord_eq_writePart _ _ _ _ _ _ h]
  simp only [writePart, hp, storePart, hf]

/-- An address of the register blocks and tables is no memory (R457). -/
theorem fabPlace_register_ne_mem (s : State) {a : Nat} (h1 : 0x100000 ≤ a) (h2 : a < druBase) : fabPlace s a ≠ .mem := by
  have hs : ¬ a < secBase := by unfold secBase; omega
  have hd : ¬ dramBase ≤ a := by unfold druBase at h2; unfold dramBase; omega
  unfold fabPlace
  rw [if_neg hs, if_neg (by omega), if_neg (by omega), if_neg hd]
  cases unitOf a with
  | none => simp
  | some u => dsimp only; split_ifs <;> simp

/-- The dispatcher holds up no write of memory. -/
theorem dsxWaits_of_place_mem {s : State} {a : Nat} (h : fabPlace s a = .mem) : dsxWaits s a = false := by
  have ha : a ≠ Reg.DSX_SUBMIT_W.at 3 := by
    rintro rfl
    exact fabPlace_register_ne_mem s (by decide) (by decide) h
  simp [dsxWaits, ha]

/-! ### One word accessed by a command (R443) -/

/-- A refused read reads nothing. -/
theorem cmdRead_refused {s : State} {a : Nat} (h : readStatus s a ≠ 0) : cmdRead s a = (readStatus s a, 0, s) :=
  if_pos h

/-- A word of the secure region written by the host in DEVELOP (R513). -/
theorem cmdWrite_secure {src : Nat} {s : State} {a : Nat} (v : Word) (h : readStatus s a = 3)
    (hk : hostKeys s src = true) : cmdWrite src a v s = .ok (0, secHostWrite a v s) :=
  if_pos ⟨h, hk⟩

/-- Any other refused write writes nothing. -/
theorem cmdWrite_refused {src : Nat} {s : State} {a : Nat} (v : Word) (h : readStatus s a ≠ 0)
    (hk : ¬ (readStatus s a = 3 ∧ hostKeys s src = true)) : cmdWrite src a v s = .ok (readStatus s a, s) := by
  unfold cmdWrite
  rw [if_neg hk, if_pos h]

/-- A write of an address that answers is the fabric's. -/
theorem cmdWrite_error {src : Nat} {s : State} {a : Nat} {v : Word} {f : Fault} (h : readStatus s a = 0)
    (hf : fabWriteWord 3 10 0 s a v = .error f) : cmdWrite src a v s = .error f := by
  simp [cmdWrite, h, hf]

theorem hostKeys_iff (s : State) (src : Nat) : hostKeys s src = true ↔ src = 0 ∧ s.fuse.life = 1 := by
  simp [hostKeys]

/-! ### A plain write, by access type (R15 to R17, R20, R22) -/

section plainWrite

variable {r : RegSpec} {i a : Nat} {v : Word} {s : State}

theorem plainWrite_readOnly (h : r.acc = .ro ∨ r.acc = .wo) : plainWrite r i a v s = .ok s := by
  rcases h with h | h <;> simp only [plainWrite, h]

theorem plainWrite_clears (h : r.acc = .w1c) :
    plainWrite r i a v s = .ok (setW a (regW s a &&& ~~~ (v &&& fieldsMask r)) s) := by
  simp only [plainWrite, h]

/-- A word that is written: what a read returns takes every field, what acts takes those that need not wait. -/
theorem plainWrite_stores (h : r.acc = .rw)
    (hf : regW s a &&& classMask r .frozen = v &&& classMask r .frozen ∨ frozenNow s r i = false) :
    plainWrite r i a v s = .ok { s with words := {
      wr := tabSet a (mergeMask (fieldsMask r) (regW s a) v) s.words.wr
      act := tabSet a (mergeMask (if running s then classMask r .frozen else classMask r .frozen ||| classMask r .live)
        (actW s a) v) s.words.act
      dirtyL := if running s = true ∧ classMask r .live ≠ 0 then setAdd a s.words.dirtyL else s.words.dirtyL
      dirtyS := if classMask r .staged ≠ 0 then setAdd a s.words.dirtyS else s.words.dirtyS } } := by
  have hn : ¬ (regW s a &&& classMask r .frozen ≠ v &&& classMask r .frozen ∧ frozenNow s r i = true) := by
    rintro ⟨hne, hz⟩
    rcases hf with he | he
    · exact hne he
    · simp [he] at hz
  simp only [plainWrite, h]
  rw [if_neg hn]

theorem plainWrite_frozen (h : r.acc = .rw) (hne : regW s a &&& classMask r .frozen ≠ v &&& classMask r .frozen)
    (hz : frozenNow s r i = true) : plainWrite r i a v s = .error .frozenField := by
  simp only [plainWrite, h]
  rw [if_pos ⟨hne, hz⟩]

end plainWrite

/-! ### Rows -/

theorem exec_registerWrite (a : Nat) (v : Word) (s : State) :
    exec (.registerWrite a v) s = runE (fun t =>
      if cmdsOn t && assigned t a && (liveSpec t a).isSome then fabWriteWord 3 10 0 t a v else .ok t) s := rfl

/-- Two functions that agree on the state a step starts from give the same outcome. -/
theorem runE_congr {f g : State → Except Fault State} {s w : State} (hw : w = work s) (h : f w = g w) :
    runE f s = runE g s := by
  subst hw
  unfold work at h
  unfold runE
  rw [h]

/-- A row behind a condition does its work where the condition holds. -/
theorem run_when_on {c : State → Bool} {f : State → State} {s w : State} (hw : w = work s) (hc : c w = true) :
    run (fun t => when (c t) f t) s = leaves s (f w) :=
  run_leaves hw (by rw [hc, when_true])

/-- The row of a register write, on a present word without behaviour of its own. -/
theorem registerWrite_plain {s w : State} {a i j : Nat} {v : Word} {r : RegSpec} (hw : w = work s) (h4 : a % 4 = 0)
    (hon : cmdsOn w = true) (has : assigned w a = true) (hl : liveSpec w a = some (r, i, j))
    (hp : fabPlace w a = .block ∨ fabPlace w a = .table) (hww : writeWord 3 a v w = plainWrite r i a v w) :
    exec (.registerWrite a v) s = runE (plainWrite r i a v) s := by
  rw [exec_registerWrite]
  refine runE_congr hw ?_
  rw [if_pos (by simp [hon, has, hl]), fabWriteWord_register _ _ _ _ _ _ h4 hp, hww]

/-- Word 0 of a capture queue read: the oldest entry leaves the queue, its other words are latched (R311). -/
theorem captureRead_latches {c : Nat} {w : State} {q : List (List Word)} {h : Option Nat}
    (hx : tabGet ⟨[], none⟩ w.tim.caps c = (⟨q, h⟩ : CapSt)) :
    (captureRead c w).2 = setW (Reg.TIM_CAPQ1.at c) ((q.headD [0, 0, 0, 0]).getD 1 0)
      (setW (Reg.TIM_CAPQ2.at c) ((q.headD [0, 0, 0, 0]).getD 2 0)
        (setW (Reg.TIM_CAPQ3.at c) ((q.headD [0, 0, 0, 0]).getD 3 0)
          (modTim (fun m => { m with caps := tabSet c ⟨q.tail, h⟩ m.caps }) w))) := by
  simp only [captureRead, hx]

/-! ### Commands that begin (R442) -/

section commands

variable {s : State} {src tag a : Nat} {noresp : Bool}

theorem cmdREAD_refused (hc : cmdReady s src (fun r => recIs 1 tag noresp r && r.addr == a) = true) (h4 : a % 4 = 0)
    (h : readStatus s a ≠ 0) :
    cmdREAD src tag a noresp s = .ok (finishOne src 1 tag noresp (readStatus s a) 0 s) := by
  simp [cmdREAD, hc, h4, cmdRead_refused h, h]

theorem cmdREAD_unaligned (hc : cmdReady s src (fun r => recIs 1 tag noresp r && r.addr == a) = true)
    (h4 : a % 4 ≠ 0) : cmdREAD src tag a noresp s = .error .unalignedAddr := by
  simp [cmdREAD, hc, h4]

/-- A WRITE that begins does what the write of its word does, and is answered with that write's status. -/
theorem cmdWRITE_begins {v : Word}
    (hc : cmdReady s src (fun r => recIs 2 tag noresp r && r.addr == a && r.data == v.toNat) = true)
    (hd : dsxWaits s a = false) (h4 : a % 4 = 0) :
    cmdWRITE src tag a noresp v s =
      (cmdWrite src a v s).map (fun p => finishOne src 2 tag noresp p.1 0 p.2) := by
  simp only [cmdWRITE, hc, hd, h4]
  cases cmdWrite src a v s <;> rfl

theorem cmdWRITE_refused {v : Word}
    (hc : cmdReady s src (fun r => recIs 2 tag noresp r && r.addr == a && r.data == v.toNat) = true)
    (hd : dsxWaits s a = false) (h4 : a % 4 = 0) (h : readStatus s a ≠ 0) :
    cmdWRITE src tag a noresp v s = .ok (
      if readStatus s a = 3 ∧ src = 0 ∧ s.fuse.life = 1 then finishOne src 2 tag noresp 0 0 (secHostWrite a v s)
      else finishOne src 2 tag noresp (readStatus s a) 0 s) := by
  rw [cmdWRITE_begins hc hd h4]
  simp only [← hostKeys_iff]
  split_ifs with hk
  · simp only [cmdWrite_secure v hk.1 hk.2, Except.map]
  · simp only [cmdWrite_refused v h hk, Except.map]

theorem cmdMODIFY_refused {lsb width : Nat} {v : Word}
    (hc : cmdReady s src (fun r => recIs 3 tag noresp r && r.addr == a && r.count % 32 == lsb &&
      r.count / 256 % 32 + 1 == width && r.data == v.toNat) = true)
    (hd : dsxWaits s a = false) (h4 : a % 4 = 0) (h : readStatus s a ≠ 0) :
    cmdMODIFY src tag a noresp lsb width v s = .ok (finishOne src 3 tag noresp (readStatus s a) 0 s) := by
  simp [cmdMODIFY, hc, hd, h4, cmdRead_refused h, h]

theorem cmdBurstRead_fault {n buf : Nat} {f : Fault}
    (hc : cmdReady s src (fun r => recIs 4 tag noresp r && r.addr == a && r.count == n && (src != 0 || r.data == buf)) = true)
    (hf : burstFault src a n buf = some f) : cmdBurstRead src tag a noresp n buf s = .error f := by
  simp only [cmdBurstRead, hc, hf]
  rfl

end commands

/-! ### The obligations -/

/-- Settles O8: a word that the device sets, a sticky bit and a counter each change their own word, and of it their own
bits. -/
theorem deviceWordsChangeAlone : Obligations.DeviceWordsChangeAlone := by
  intro s a b hi lo n i v _ hhi hi32
  refine ⟨regW_setW_same a v s, actW_setW_same a v s, ?other, ?_, ?_, fld_countF a hi lo n s hhi,
    fun j hj => bit_countF a hi lo n s j hhi hj⟩
  case other =>
    intro hab h1 h2
    exact ⟨regW_setW_other a v s b hab.symm h1 h2, actW_setW_other a v s b hab.symm h1 h2,
      regW_stick_other a i s b hab.symm h1 h2, regW_countF_other a hi lo n s b hab.symm h1 h2⟩
  · rw [bit_stick a i i s hi32, if_pos rfl]
  · intro j hj
    rw [bit_stick a i j s hi32, if_neg hj]

/-- Settles O18: a register write of a plain word is `plainWrite` of it, and a read that latches is its own function. -/
theorem registersStoreAndLatch : Obligations.RegistersStoreAndLatch := by
  refine ⟨?writes, ?reads⟩
  case writes =>
    intro s w a i j v r hw h4 hon has hl hp hww
    rw [registerWrite_plain hw h4 hon has hl hp hww]
    exact ⟨fun h => runE_leaves hw (plainWrite_readOnly h), fun h => runE_leaves hw (plainWrite_clears h),
      fun h hf => runE_leaves hw (plainWrite_stores h hf), fun h hne hz => runE_fault hw (plainWrite_frozen h hne hz)⟩
  case reads =>
    intro s w hw hon
    refine ⟨run_when_on hw hon, run_when_on hw hon, run_when_on hw hon, run_when_on hw hon, run_when_on hw hon, ?capture⟩
    case capture =>
      intro c e q h hc hx he
      have hgo : (cmdsOn w && decide (c < 16)) = true := by simp [hon, hc]
      rw [he, ← captureRead_latches hx]
      exact run_when_on (c := fun t => cmdsOn t && decide (c < 16)) hw hgo

/-- Settles O13: a refused access ends before the fabric; an access outside the contract ends in its fault. -/
theorem commandsRefusedAndFaults : Obligations.CommandsRefusedAndFaults := by
  refine ⟨?refused, ?faults⟩
  case refused =>
    intro s w src tag a noresp v st hw h4 hst hne
    subst hst
    refine ⟨fun hc => runE_leaves hw (cmdREAD_refused hc h4 hne), fun hc hd => ?_,
      fun lsb width hc hd => runE_leaves hw (cmdMODIFY_refused hc hd h4 hne)⟩
    rw [← apply_ite (leaves s)]
    exact runE_leaves hw (cmdWRITE_refused hc hd h4 hne)
  case faults =>
    intro s w src tag a n buf noresp f hw
    refine ⟨fun h4 hc => runE_fault hw (cmdREAD_unaligned hc h4),
      fun hf hc => runE_fault hw (cmdBurstRead_fault hc hf), fun v h4 hst hp hf hc => runE_fault hw ?_⟩
    rw [cmdWRITE_begins hc (dsxWaits_of_place_mem hp) h4, cmdWrite_error hst (fabWriteWord_stopped 3 10 0 h4 hp hf)]
    rfl

end Sys2Proof.Proofs
end

section
/-! What an idle sample leaves alone: the render rate, and the time but for its own moving on (R42, R43). The time lemmas go
through what follows at a block boundary and the end of a tick: captures, link lanes, clocks, PTP, ports and queues. -/

namespace Sys2Proof.Proofs

open Sys2Proof Sys2Proof.Machine Sys2Proof.Laws

/-! ### The time (R42): work behind a condition and over a list, words and events -/

@[simp] theorem when_time (c : Bool) (f : State → State) (s : State) :
    (when c f s).time = if c then (f s).time else s.time := apply_ite State.time _ _ _

/-- Work over a list keeps the time where each part of it does. -/
theorem foldl_time {α : Type} {f : State → α → State} (hf : ∀ t a, (f t a).time = t.time) (l : List α) (s : State) :
    (l.foldl f s).time = s.time := by
  induction l generalizing s with
  | nil => rfl
  | cons a l ih => rw [List.foldl_cons, ih, hf]

@[simp] theorem stick_time (a i : Nat) (s : State) : (stick a i s).time = s.time := rfl
@[simp] theorem count_time (a : Nat) (s : State) : (count a s).time = s.time := rfl
@[simp] theorem raise_keeps_time (code : Nat) (data : List Byte) (s : State) : (raise code data s).time = s.time :=
  raise_time code data s

/-! ### Events told at the end of a tick and of a second (R174, R446, R526) -/

@[simp] theorem lateFlush_time (s : State) : (lateFlush s).time = s.time := by unfold lateFlush; split <;> simp
@[simp] theorem ueFlush_time (s : State) : (ueFlush s).time = s.time := by unfold ueFlush; split <;> simp
@[simp] theorem authFlush_time (s : State) : (authFlush s).time = s.time := by unfold authFlush; split <;> simp
@[simp] theorem secondEnd_time (s : State) : (secondEnd s).time = s.time := rfl

/-! ### Captures, clock outputs and time pins (R296, R305, R308) -/

@[simp] theorem captureOn_time (falling : Bool) (q : Nat) (s : State) (c : Nat) :
    (captureOn falling q s c).time = s.time := by
  unfold captureOn
  dsimp only
  rw [apply_ite State.time]
  simp

@[simp] theorem captureEdge_time (src : Nat) (falling : Bool) (q : Nat) (s : State) :
    (captureEdge src falling q s).time = s.time := by
  unfold captureEdge
  split
  · rfl
  · exact foldl_time (captureOn_time falling q) _ s

@[simp] theorem clockEdge_time (n : Nat) (s : State) (e : Bool × Nat) : (clockEdge n s e).time = s.time := by simp [clockEdge]

@[simp] theorem clockOuts_time (s : State) : (clockOuts s).time = s.time := by
  unfold clockOuts
  exact foldl_time (fun t n => foldl_time (clockEdge_time n) (clockEdges s n) t) _ s

@[simp] theorem pinDrive_time (p : Nat) (high : Bool) (q : Nat) (s : State) : (pinDrive p high q s).time = s.time := by
  unfold pinDrive
  split <;> simp

@[simp] theorem pinConfig_time (old v : Word) (s : State) : (pinConfig old v s).time = s.time := by
  unfold pinConfig
  refine foldl_time (fun t p => ?_) _ s
  dsimp only
  split_ifs <;> simp

/-! ### Lanes of the links (R382, R383) -/

@[simp] theorem linkShow_time (n : Nat) (s : State) : (linkShow n s).time = s.time := rfl

@[simp] theorem widthBegin_time (n : Nat) (c : WidthChange) (s : State) : (widthBegin n c s).time = s.time := by
  unfold widthBegin
  split <;> simp

@[simp] theorem moveDone_time (n : Nat) (s : State) : (moveDone n s).time = s.time := by
  unfold moveDone
  split
  · split <;> simp
  · simp

@[simp] theorem laneMoveEnd_time (s : State) (n : Nat) : (laneMoveEnd s n).time = s.time := by
  unfold laneMoveEnd
  split <;> simp

@[simp] theorem laneMovesEnd_time (s : State) : (laneMovesEnd s).time = s.time :=
  foldl_time laneMoveEnd_time _ s

/-! ### Reference candidates and the DPLL (R278 to R295) -/

@[simp] theorem candShow_time (c : Nat) (s : State) : (candShow c s).time = s.time := rfl
@[simp] theorem candsShow_time (s : State) : (candsShow s).time = s.time :=
  foldl_time (fun t c => candShow_time c t) _ s
@[simp] theorem clkShow_time (s : State) : (clkShow s).time = s.time := by simp [clkShow]
@[simp] theorem clkFreq_time (v : Int) (s : State) : (clkFreq v s).time = s.time := rfl

@[simp] theorem lockSpan_time (s : State) : (lockSpan s).time = s.time := by
  unfold lockSpan
  split <;> rfl

@[simp] theorem clkGo_time (state : Nat) (sel tgt : Option Nat) (redirect : Bool) (s : State) :
    (clkGo state sel tgt redirect s).time = s.time := by simp [clkGo]

@[simp] theorem enterHold_time (s : State) : (enterHold s).time = s.time := by simp [enterHold]

@[simp] theorem takeTarget_time (c : Nat) (redirect : Bool) (s : State) : (takeTarget c redirect s).time = s.time := by
  simp [takeTarget]

@[simp] theorem clkSelect_time (s : State) : (clkSelect s).time = s.time := by
  unfold clkSelect
  dsimp only
  split
  · split
    · simp
    · split_ifs <;> simp
  · split_ifs
    · split <;> simp
    · split
      · split_ifs <;> simp
      · simp

@[simp] theorem candHist_time (c mask : Nat) (s : State) : (candHist c mask s).time = s.time := by simp [candHist]

@[simp] theorem gmSet_time (gm : Nat) (s : State) : (gmSet gm s).time = s.time := by
  unfold gmSet
  split <;> simp

@[simp] theorem sourceCheck_time (changed : Bool) (s : State) : (sourceCheck changed s).time = s.time := by
  unfold sourceCheck
  dsimp only
  split
  · rfl
  · split <;> simp

@[simp] theorem candChanged_time (s : State) : (candChanged s).time = s.time := by simp [candChanged]

@[simp] theorem candGo_time (c state : Nat) (s : State) : (candGo c state s).time = s.time := by simp [candGo]

@[simp] theorem candActs_time (c i : Nat) (old new : Word) (s : State) : (candActs c i old new s).time = s.time := by
  unfold candActs
  split
  · rfl
  · rw [candGo_time]
    split <;> simp

/-! ### PTP (R297 to R299) -/

@[simp] theorem candWait_time (c : Nat) (s : State) : (candWait c s).time = s.time := by
  unfold candWait
  split <;> simp

@[simp] theorem candsFresh_time (cs : List Nat) (s : State) : (candsFresh cs s).time = s.time := by
  unfold candsFresh
  refine foldl_time (fun _ _ => ?_) cs s
  rfl

@[simp] theorem ptpShow_time (s : State) : (ptpShow s).time = s.time := rfl
@[simp] theorem ptpApart_time (s : State) : (ptpApart s).time = s.time := rfl

@[simp] theorem ptpGo_time (st : Nat) (s : State) : (ptpGo st s).time = s.time := by
  unfold ptpGo
  dsimp only
  rw [ptpShow_time]
  split
  · exact foldl_time (fun t c => candWait_time c t) _ _
  · rfl

@[simp] theorem ptpListen_time (port : Nat) (s : State) : (ptpListen port s).time = s.time := by simp [ptpListen]

@[simp] theorem ptpEnable_time (s : State) : (ptpEnable s).time = s.time := by
  unfold ptpEnable
  split <;> simp

@[simp] theorem gmFollow_time (gm cls : Nat) (s : State) : (gmFollow gm cls s).time = s.time := by
  unfold gmFollow
  dsimp only
  split
  · split_ifs <;> simp
  · split_ifs <;> simp

@[simp] theorem bmca_time (s : State) : (bmca s).time = s.time := by
  unfold bmca
  dsimp only
  split
  · split <;> simp
  · split_ifs <;> simp

@[simp] theorem ptpRerun_time (s : State) : (ptpRerun s).time = s.time := by
  unfold ptpRerun
  split <;> simp

@[simp] theorem ptpLink_time (p : Nat) (up : Bool) (s : State) : (ptpLink p up s).time = s.time := by
  unfold ptpLink
  dsimp only
  split_ifs <;> simp

/-! ### Ports, queues and their cells (R315, R322 to R330) -/

@[simp] theorem queueFlush_time (q : Nat) (s : State) : (queueFlush q s).time = s.time := rfl
@[simp] theorem queueEn_time (q : Nat) (s : State) : (queueEn q s).time = s.time := rfl
@[simp] theorem queueSwitch_time (q : Nat) (s : State) : (queueSwitch q s).time = s.time := rfl
@[simp] theorem txDiscard_time (p : Nat) (s : State) : (txDiscard p s).time = s.time := by
  unfold txDiscard
  refine foldl_time (fun _ _ => ?_) _ s
  rfl
@[simp] theorem txRelease_time (p : Nat) (x : Sending) (s : State) : (txRelease p x s).time = s.time := by simp [txRelease]
@[simp] theorem netUp_time (p rate : Nat) (s : State) : (netUp p rate s).time = s.time := rfl

@[simp] theorem netDown_time (p : Nat) (s : State) : (netDown p s).time = s.time := by
  unfold netDown
  dsimp only
  split <;> simp

@[simp] theorem netLink_time (p : Nat) (up : Bool) (report : Nat) (s : State) : (netLink p up report s).time = s.time := by
  unfold netLink
  split
  · rfl
  · split
    · simp
    · split
      · split <;> simp
      · rfl

@[simp] theorem portLink_time (p : Nat) (up : Bool) (report : Nat) (s : State) :
    (portLink p up report s).time = s.time := by
  unfold portLink
  dsimp only
  split <;> simp

@[simp] theorem cellsRest_time (s : State) : (cellsRest s).time = s.time := by
  unfold cellsRest
  split <;> rfl

/-! ### L fields that begin to act at a block boundary (R15) -/

@[simp] theorem liveFx_time (a : Nat) (old : Word) (s : State) : (liveFx a old s).time = s.time := by
  unfold liveFx
  split
  · rfl
  · dsimp only
    split_ifs <;> simp

@[simp] theorem liveWord_time (s : State) (a : Nat) : (liveWord s a).time = s.time := by
  unfold liveWord
  split <;> simp

@[simp] theorem boundaryLive_time (s : State) : (boundaryLive s).time = s.time :=
  foldl_time liveWord_time _ _

/-! ### What leaves the render rate alone (R72, R424) -/

/-- An event told only where there is something to tell keeps the rate. -/
theorem raise_unless_rate (c : Prop) [Decidable c] (code : Nat) (data : List Byte) {s t : State}
    (ht : rateCode t = rateCode s) : rateCode (if c then s else raise code data t) = rateCode s := by
  split
  · rfl
  · rw [raise_rate, ht]

theorem lateFlush_rate (s : State) : rateCode (lateFlush s) = rateCode s := raise_unless_rate _ _ _ rfl
theorem ueFlush_rate (s : State) : rateCode (ueFlush s) = rateCode s := raise_unless_rate _ _ _ rfl
theorem authFlush_rate (s : State) : rateCode (authFlush s) = rateCode s := raise_unless_rate _ _ _ rfl

theorem modTim_rate (f : TimSt → TimSt) (s : State) : rateCode (modTim f s) = rateCode s := rfl

/-- Work over a list keeps the rate where each part of it does. -/
theorem foldl_rate {α : Type} {f : State → α → State} (hf : ∀ t a, rateCode (f t a) = rateCode t) (l : List α) (s : State) :
    rateCode (l.foldl f s) = rateCode s := by
  induction l generalizing s with
  | nil => rfl
  | cons a l ih => rw [List.foldl_cons, ih, hf]

theorem captureOn_rate (falling : Bool) (q : Nat) (s : State) (c : Nat) :
    rateCode (captureOn falling q s c) = rateCode s := by
  have hdrop : rateCode (stick Reg.TIM_STAT.base 4 (count Reg.TIM_CAP_DROP_CNT.base s)) = rateCode s :=
    (rateCode_setW _ _ _ (by decide) (by decide)).trans (rateCode_setW _ _ _ (by decide) (by decide))
  unfold captureOn
  dsimp only
  rw [apply_ite rateCode, hdrop, when, apply_ite rateCode, raise_rate, modTim_rate, ite_self, ite_self]

theorem captureEdge_rate (src : Nat) (falling : Bool) (q : Nat) (s : State) :
    rateCode (captureEdge src falling q s) = rateCode s := by
  unfold captureEdge
  split
  · rfl
  · exact foldl_rate (captureOn_rate falling q) _ s

theorem clockEdge_rate (n : Nat) (s : State) (e : Bool × Nat) : rateCode (clockEdge n s e) = rateCode s := by
  rw [clockEdge, captureEdge_rate]
  rfl

theorem clockOuts_rate (s : State) : rateCode (clockOuts s) = rateCode s := by
  unfold clockOuts
  exact foldl_rate (fun t n => foldl_rate (clockEdge_rate n) _ t) _ s

end Sys2Proof.Proofs
end

section
/-! The family of samples, blocks, ticks and tags: tags inserted, arriving and acting (R50 to R73), block release and missed
deadlines (R60, R61), steps of the time scale (R62, R63), block and tick indexes (R44), and the media clock (R42, R43). -/

namespace Sys2Proof.Proofs

open Sys2Proof Sys2Proof.Machine Sys2Proof.Laws

/-! ### Commands that insert a tag (R69, R442, R443) -/

section tagCommands

variable {s : State} {src op tag : Nat} {noresp : Bool} {p : CmdRec → Bool} {g : TagRec}

theorem cmdTag_inserts (hc : cmdReady s src (fun r => recIs op tag noresp r && p r) = true) (hh : s.heldTags = []) :
    cmdTag src op tag noresp p g s = finishOne src op tag noresp 0 0 (injectFrom (some src) g s) := by
  simp [cmdTag, hc, hh]

theorem cmdTag_waits (hh : s.heldTags ≠ []) : cmdTag src op tag noresp p g s = s := by
  simp [cmdTag, hh]

theorem cmdCommit_begins {target unit : Nat}
    (hc : cmdReady s src (fun r => recIs 6 tag noresp r && (recTarget r == target && r.data / 2 ^ 24 == unit)) = true) :
    cmdCommit src tag target unit noresp s =
      if unit ≠ 0xFF ∧ (!unitPresent s unit ∨ !honoursType unit tCOMMIT) then finishOne src 6 tag noresp 1 0 s
      else if s.heldTags ≠ [] then s
      else finishOne src 6 tag noresp 0 0 (injectFrom (some src) (mkTag tCOMMIT unit 0xFF 0 target) s) := by
  unfold cmdCommit
  split_ifs with hu hh
  · exact if_pos hc
  · exact cmdTag_waits hh
  · exact cmdTag_inserts hc (not_not.1 hh)

end tagCommands

/-! ### Tags at the injector and at a unit (R53 to R57, R261) -/

/-- The record that the tag registers hold once the last of them is written (R53). -/
theorem submitW3_eq (w3 : Word) (s : State) :
    submitW3 w3 s =
      if s.heldTags ≠ [] then count Reg.SYS_TAG_DROP_CNT.base (setW Reg.SYS_TAG_W3.base w3 s)
      else submitTag (tagOfWords (regW s Reg.SYS_TAG_W0.base) (regW s Reg.SYS_TAG_W1.base)
        (regW s Reg.SYS_TAG_W2.base) w3) (setW Reg.SYS_TAG_W3.base w3 s) := by
  have hr : ∀ a : Nat, a ≠ Reg.SYS_TAG_W3.base → regW (setW Reg.SYS_TAG_W3.base w3 s) a = regW s a :=
    fun a ha => regW_setW_other _ w3 s a ha (by decide) (by decide)
  simp only [submitW3, hr Reg.SYS_TAG_W0.base (by decide), hr Reg.SYS_TAG_W1.base (by decide),
    hr Reg.SYS_TAG_W2.base (by decide)]

theorem heldRelease_first {s : State} {h : HeldTag} {t : List HeldTag} (hf : heldFirst s [] s.heldTags = some (h, t)) :
    heldRelease s = modUnit h.unit (fun x => { x with transit := x.transit ++ [h.tag] }) { s with heldTags := t } := by
  simp only [heldRelease, hf]

/-- The tag at the head of a running unit's stream arrives, where the row describes it. -/
theorem tagArrive_head {q : TagRec → Bool} {u : Nat} {s t : State} {g : TagRec} (hr : running s = true)
    (ht : takeTransit u (sysClock 1 u s) = some (g, t)) (hq : q g = true) :
    tagArrive q u s = pastBegun u (takeTag u g) t := by
  simp [tagArrive, hr, ht, hq]

/-- The types without work of their own on arrival (R55, R56). -/
theorem takeTag_plain {u : Nat} {g : TagRec} {t : State}
    (h : g.typ = tMARK ∨ g.typ = tEPOCH ∧ bit g.payload 1 = false ∨ g.typ = tCUE ∨ g.typ = tSTOP) :
    takeTag u g t = arrivePlain u g [] t := by
  rcases h with h | ⟨h, hb⟩ | h | h
  · simp [takeTag, h]
  · simp [takeTag, h, hb]
  · simp [takeTag, h]
  · simp [takeTag, h]

/-- A claim change is judged at the output side (R65). -/
theorem takeTag_claim {u : Nat} {g : TagRec} {t : State} (h : g.typ = tEPOCH) (hb : bit g.payload 1 = true)
    (hu : u ∈ [uMST, uLNK, uTDM, uAES]) : takeTag u g t = arriveClaim u g t := by
  have hc : [uMST, uLNK, uTDM, uAES].contains u = true := List.contains_iff_mem.2 hu
  simp only [takeTag, h, hb, hc]
  rfl

/-! ### Tags that act (R51, R58) -/

/-- The row of a tag does what its first due tag does, where it describes that tag. -/
theorem tagRow_acts {s w t : State} {u : Nat} {q : PendTag → Bool} {p : PendTag} (hw : w = work s)
    (hr : running w = true) (hd : dueFirst w u = some p) (hq : q p = true) (ha : tagAct u p (openBlock u w) = t) :
    run (tagRow u q) s = leaves s t :=
  run_leaves hw ((tagRow_due hr hd hq).trans ha)

/-- The row of a tag of one type. -/
theorem typeRow_acts {s w t : State} {u k : Nat} {p : PendTag} (hw : w = work s) (hr : running w = true)
    (hd : dueFirst w u = some p) (hk : p.tag.typ = k) (ha : tagAct u p (openBlock u w) = t) :
    run (tagRow u (fun p => p.tag.typ == k)) s = leaves s t :=
  tagRow_acts hw hr hd (beq_iff_eq.2 hk) ha

/-- The row of a tag that starts or stops serial ports. -/
theorem portRow_acts {s w t : State} {aes : Bool} {k : Nat} {p : PendTag} (hw : w = work s) (hr : running w = true)
    (hd : dueFirst w (serUnit aes) = some p) (hk : p.tag.typ = k) (hp : aes = true ∨ bit p.tag.payload 0 = false)
    (ha : tagAct (serUnit aes) p (openBlock (serUnit aes) w) = t) :
    run (tagRow (serUnit aes) (fun p => p.tag.typ == k && (aes || !bit p.tag.payload 0))) s = leaves s t :=
  tagRow_acts hw hr hd (by simpa [hk] using hp) ha

/-- The row of a tag that starts or stops rings. -/
theorem ringRow_acts {s w t : State} {k : Nat} {p : PendTag} (hw : w = work s) (hr : running w = true)
    (hd : dueFirst w uTDM = some p) (hk : p.tag.typ = k) (hb : bit p.tag.payload 0 = true)
    (ha : tagAct uTDM p (openBlock uTDM w) = t) : run (openRow uTDM (ringTag k)) s = leaves s t :=
  run_leaves hw ((openRow_due hr hd (by simp [ringTag, hk, hb])).trans ha)

section tagAct

variable {u : Nat} {p : PendTag} {s : State}

/-! COMMIT, MARK, EPOCH and SWAP act by their type alone, at any unit that honours them (R51). -/

theorem tagAct_commit (h : p.tag.typ = tCOMMIT) : tagAct u p s = commitAct u p s := by simp [tagAct, h]
theorem tagAct_mark (h : p.tag.typ = tMARK) : tagAct u p s = markAct u p s := by simp [tagAct, h]
theorem tagAct_epoch (h : p.tag.typ = tEPOCH) : tagAct u p s = epochAct u p s := by simp [tagAct, h]
theorem tagAct_swap (h : p.tag.typ = tSWAP) : tagAct u p s = swapAct s := by simp [tagAct, h]

theorem tagAct_rte_route (h : p.tag.typ = tROUTE) :
    tagAct uRTE p s = routeAct false (unitSt s uRTE).next p.snap (removePend uRTE p s) := by
  simp [tagAct, h, show (tROUTE == tRAMP) = false from rfl]

theorem tagAct_rte_ramp (h : p.tag.typ = tRAMP) :
    tagAct uRTE p s = routeAct true (unitSt s uRTE).next p.snap (removePend uRTE p s) := by simp [tagAct, h]

theorem tagAct_inc_ramp (h : p.tag.typ = tRAMP) : tagAct uINC p s = incRamp p.snap (removePend uINC p s) := by
  simp [tagAct, h]

theorem tagAct_cor_ramp (h : p.tag.typ = tRAMP) : tagAct uCOR p s = corRamp p.snap (removePend uCOR p s) := by
  simp [tagAct, h]

theorem tagAct_lan_migrate (h : p.tag.typ = tMIGRATE) :
    tagAct uLAN p s = migrateAct p.tag.payload (removePend uLAN p s) := by simp [tagAct, h]

theorem tagAct_ser (aes : Bool) (h : p.tag.typ = tSTART ∨ p.tag.typ = tSTOP) :
    tagAct (serUnit aes) p s =
      serialTag aes (unitSt s (serUnit aes)).next p.tag (removePend (serUnit aes) p s) := by
  rcases h with h | h <;> cases aes <;> simp [tagAct, h, serUnit]

theorem tagAct_mst (h : p.tag.typ = tSTART ∨ p.tag.typ = tSTOP) :
    tagAct uMST p s = txRefresh (unitSt s uMST).next
      (rxRefresh false (streamTag false p.tag (removePend uMST p s))) := by
  rcases h with h | h <;> simp [tagAct, h]

theorem tagAct_lnk (h : p.tag.typ = tSTART ∨ p.tag.typ = tSTOP) :
    tagAct uLNK p s = lnkTxRefresh (unitSt s uLNK).next
      (rxRefresh true (streamTag true p.tag (removePend uLNK p s))) := by
  rcases h with h | h <;> simp [tagAct, h]

theorem tagAct_mea_start (h : p.tag.typ = tSTART) : tagAct uMEA p s = runBegin p.tag.inst (removePend uMEA p s) := by
  simp [tagAct, h]

theorem tagAct_mea_stop (h : p.tag.typ = tSTOP) : tagAct uMEA p s = runStop p.tag.inst (removePend uMEA p s) := by
  simp [tagAct, h]

end tagAct

theorem serialTag_rings_start {b : Nat} {g : TagRec} {s : State} (hb : bit g.payload 0 = true) (h : g.typ = tSTART) :
    serialTag false b g s = (ringNamed g).foldl (fun t r => ringStart b r t) s := by simp [serialTag, hb, h]

theorem serialTag_rings_stop {b : Nat} {g : TagRec} {s : State} (hb : bit g.payload 0 = true) (h : g.typ = tSTOP) :
    serialTag false b g s = (ringNamed g).foldl (fun t r => ringStop b r t) s := by simp [serialTag, hb, h]

/-! ### Released blocks, missed deadlines (R60, R61) -/

theorem blockRelease_releases {errs : List (Nat × Nat)} {s : State} (hr : running s = true)
    (hi : inputsIn false uRED (unitSt s uRED).next s = true) (hn : renders s (unitSt s uRED).next = true) :
    blockRelease errs s = blockDone uRED (redRelease (unitSt s uRED).next errs (beginBlock uRED s)) := by
  simp [blockRelease, hr, hi, hn]

/-- Seven blocks behind, the next block of an output is counted, told and sent as zeros (R61). -/
theorem deadlineMiss_late {kind number : Nat} {s : State} (hr : running s = true) (h : outOfKind kind s + 7 ≤ nowBlock s) :
    deadlineMiss kind number s =
      let b := outOfKind kind s
      let t := raise 0x03 (bytesOf 1 kind ++ bytesOf 1 number ++ bytesOf 4 (extBlk s b)) (count Reg.HLT_DEADLINE_MISS_CNT.base s)
      modPar (fun p => { p with
          missTicks := if p.missTicks.contains (tickOfBlock s b) then p.missTicks else tickOfBlock s b :: p.missTicks })
        { t with ser := { t.ser with missed := (kind, number, b) :: t.ser.missed } } :=
  if_neg (by simp [hr, h])

theorem deadlineMiss_inTime {kind number : Nat} {s : State} (h : nowBlock s < outOfKind kind s + 7) :
    deadlineMiss kind number s = s := if_pos (.inr h)

/-! ### Steps of the time scale (R62, R63, R300) -/

/-- A step that is due, of no tick: it is done with. -/
theorem stepDecide_zero {s : State} (hd : s.tim.stepDue = true) (hw : s.time.stepWaits = false) (h0 : stepTicks s = 0) :
    stepDecide s = { modTim (fun x => { x with stepDue := false }) s with time := { s.time with haveTime := true } } := by
  simp [stepDecide, hd, hw, h0]

theorem stepDecide_inserts {s : State} (hd : s.tim.stepDue = true) (hw : s.time.stepWaits = false) (h0 : stepTicks s ≠ 0) :
    stepDecide s = modClk (fun x => { x with pullRest := x.pullRest ||
        (decide (s.clk.state = 2) && decide (s.clk.sel = timeSource s)) })
      (inject (mkTag tEPOCH 0xFF 0xFF 1 (nowTick s + 3)) { modTim (fun x => { x with stepDue := false }) s with
        time := { s.time with
          haveTime := true
          steps := (nowTick s + 3, ofsTicks s s.time.idx + stepTicks s) :: s.time.steps
          stepWaits := true } }) := by
  simp [stepDecide, hd, hw, h0]

/-- Before the tick it names, a decided step has no effect (R62). -/
theorem timeStep_early {s : State} {k : Nat} {ofs : Int} {before : List (Nat × Int)}
    (hs : s.time.steps = (k, ofs) :: before) (hx : (s.time.idx : Int) < k * tickLen s) : timeStep s = s := by
  simp [timeStep, hs, hx]

/-- At its tick a decided step moves time by the ticks between the offset before and its own (R62, R63). -/
theorem timeStep_acts {s : State} {k : Nat} {ofs : Int} {before : List (Nat × Int)} (hr : running s = true)
    (hw : s.time.stepWaits = true) (hs : s.time.steps = (k, ofs) :: before) (hx : (k * tickLen s : Int) ≤ s.time.idx) :
    timeStep s =
      let x : Int := k * tickLen s
      let was : Int := (before.head?.map (·.2)).getD 0 * tickLen s
      let on : Int := ofs * tickLen s
      let now := (((s.time.sec * subPerSec + s.time.sub : Nat) : Int) + (on - was) * (subPerSample s : Nat)).toNat
      phasesStep (ofs - (before.head?.map (·.2)).getD 0) (replaceRx (trigsStep (on - was) (stick Reg.TIM_STAT.base 0
        (raise 0x02 (bytesOf 8 (x + was).toNat ++ bytesOf 8 (x + on).toNat) { s with time := { s.time with
          sec := now / subPerSec, sub := now % subPerSec, stepWaits := false } })))) := by
  simp only [timeStep, hs]
  exact if_neg (by simp [hr, hw, hx])

/-! ### Sample indexes (R42, R62) -/

theorem extSmp_before {s : State} {y : Nat} (h : ∀ p ∈ s.time.steps, y < p.1 * tickLen s) : extSmp s y = y := by
  have hn : s.time.steps.find? (fun p => decide (p.1 * tickLen s ≤ y)) = none :=
    List.find?_eq_none.2 (fun p hp => by simpa using h p hp)
  simp [extSmp, ofsAt, ofsTicks, hn]

theorem extSmp_newest {s : State} {y : Nat} {p : Nat × Int} {ps : List (Nat × Int)} (hs : s.time.steps = p :: ps)
    (h : p.1 * tickLen s ≤ y) : extSmp s y = ((y : Int) + p.2 * tickLen s).toNat := by
  simp [extSmp, ofsAt, ofsTicks, hs, h]

/-! ### Block and tick indexes (R13, R44) -/

theorem rateCode_cases (s : State) : rateCode s = 0 ∨ rateCode s = 1 ∨ rateCode s = 2 := by
  unfold rateCode
  dsimp only
  split <;> omega

theorem tickBlocks_pos (s : State) : 0 < tickBlocks s := by simp [tickBlocks]

theorem tickLen_pos (s : State) : 0 < tickLen s := by simp [tickLen]

/-- A tick holds whole blocks (R13). -/
theorem tickLen_eq_blocks (s : State) : tickLen s = 16 * tickBlocks s := by
  unfold tickLen tickBlocks
  omega

/-- A tick is 1 ms long (R13). -/
theorem tickLen_ms (s : State) : tickLen s * 1000 = rateHz s := by
  unfold tickLen rateHz
  omega

/-- What divides a tick into blocks divides a sample into ticks. -/
theorem div_tickLen (s : State) (x : Nat) : x / tickLen s = x / 16 / tickBlocks s := by
  rw [tickLen_eq_blocks, Nat.div_div_eq_div_mul]

theorem block_boundary_of_tick {s : State} {x : Nat} (h : x % tickLen s = 0) : x % 16 = 0 := by
  rw [tickLen_eq_blocks] at h
  exact Nat.mod_eq_zero_of_dvd ((Nat.dvd_mul_right 16 _).trans (Nat.dvd_of_mod_eq_zero h))

/-- A number moved by a whole number of spans of `n` lies that many spans on; below zero both stop at zero. -/
theorem toNat_add_mul_div (x : Nat) (o : Int) {n : Nat} (hn : 0 < n) :
    ((x : Int) + o * n).toNat / n = (((x / n : Nat) : Int) + o).toNat := by
  have h : ((x / n : Nat) : Int) + o = ((x : Int) + o * n) / n := by
    rw [Int.add_mul_ediv_right _ _ (by omega), Int.natCast_ediv]
  rw [h]
  rcases Int.le_total 0 ((x : Int) + o * n) with hz | hz
  · obtain ⟨m, hm⟩ := Int.eq_ofNat_of_zero_le hz
    rw [hm, ← Int.natCast_ediv, Int.toNat_natCast, Int.toNat_natCast]
  · rw [Int.toNat_of_nonpos hz, Int.toNat_of_nonpos (Int.ediv_nonpos_of_nonpos_of_neg hz (by omega)), Nat.zero_div]

/-- The offset is one throughout a tick (R62). -/
theorem ofsTicks_congr {s : State} {x y : Nat} (h : x / tickLen s = y / tickLen s) : ofsTicks s x = ofsTicks s y := by
  have hp : ∀ p : Nat × Int, (p.1 * tickLen s ≤ x) = (p.1 * tickLen s ≤ y) := fun p => by
    rw [← Nat.le_div_iff_mul_le (tickLen_pos s), ← Nat.le_div_iff_mul_le (tickLen_pos s), h]
  simp only [ofsTicks, hp]

/-- The tick index of a sample is its tick counted, moved by the offset (R44). -/
theorem extSmp_div_tick (s : State) (x : Nat) : extSmp s x / tickLen s = (((x / tickLen s : Nat) : Int) + ofsTicks s x).toNat :=
  toNat_add_mul_div x (ofsTicks s x) (tickLen_pos s)

/-- The block index of a sample is its block counted, moved by the offset in blocks (R44). -/
theorem extSmp_div_block (s : State) (x : Nat) :
    extSmp s x / 16 = (((x / 16 : Nat) : Int) + ofsTicks s x * tickBlocks s).toNat := by
  have ho : ofsAt s x = ofsTicks s x * tickBlocks s * (16 : Nat) := by
    rw [ofsAt, tickLen_eq_blocks]
    push_cast
    ring
  rw [extSmp, ho, toNat_add_mul_div x _ (by decide)]

theorem extTick_eq (s : State) (k : Nat) : extTick s k = ((k : Int) + ofsTicks s (k * tickLen s)).toNat := by
  rw [extTick, extSmp_div_tick, Nat.mul_div_cancel _ (tickLen_pos s)]

theorem extBlk_eq (s : State) (b : Nat) : extBlk s b = ((b : Int) + ofsTicks s (16 * b) * tickBlocks s).toNat := by
  rw [extBlk, extSmp_div_block, Nat.mul_div_cancel_left _ (by decide)]

theorem extTick_of_sample (s : State) (x : Nat) : extTick s (x / tickLen s) = extSmp s x / tickLen s := by
  rw [extTick_eq, extSmp_div_tick, ofsTicks_congr (Nat.mul_div_cancel _ (tickLen_pos s))]

theorem extBlk_of_sample (s : State) (x : Nat) : extBlk s (x / 16) = extSmp s x / 16 := by
  have h : 16 * (x / 16) / tickLen s = x / tickLen s := by
    rw [div_tickLen, div_tickLen, Nat.mul_div_cancel_left _ (by decide)]
  rw [extBlk_eq, extSmp_div_block, ofsTicks_congr h]

/-- The blocks of a tick keep their places in it under the offset, where the tick's index is not below zero (R44). -/
theorem extBlk_in_tick {s : State} {k j : Nat} (hj : j < tickBlocks s)
    (h0 : 0 ≤ ((k * tickLen s : Nat) : Int) + ofsAt s (k * tickLen s)) :
    extBlk s (tickStart s k + j) = extTick s k * tickBlocks s + j := by
  have ht : 16 * (tickStart s k + j) / tickLen s = k * tickLen s / tickLen s := by
    rw [div_tickLen, Nat.mul_div_cancel_left _ (by decide), Nat.mul_div_cancel _ (tickLen_pos s), tickStart,
      Nat.add_comm, Nat.add_mul_div_right _ _ (tickBlocks_pos s), Nat.div_eq_of_lt hj, Nat.zero_add]
  obtain ⟨n, hn⟩ : ∃ n : Nat, (k : Int) + ofsTicks s (k * tickLen s) = n := by
    refine Int.eq_ofNat_of_zero_le (nonneg_of_mul_nonneg_left (b := (tickLen s : Int)) ?_ ?_)
    · rw [add_mul]; exact_mod_cast h0
    · exact_mod_cast tickLen_pos s
  have hb : ((tickStart s k + j : Nat) :
    Int) + ofsTicks s (k * tickLen s) * tickBlocks s = (n * tickBlocks s + j : Nat) := by
    push_cast
    rw [← hn, tickStart]
    push_cast
    ring
  rw [extBlk_eq, ofsTicks_congr ht, extTick_eq, hn, hb, Int.toNat_natCast, Int.toNat_natCast]

/-! ### The media clock (R42, R43) -/

/-- The events of a tick that ends, where one ends with the present sample. -/
def tickFlush (s : State) : State :=
  if (s.time.idx + 1) % tickLen s = 0 then authFlush (ueFlush (lateFlush s)) else s

theorem tickFlush_time (s : State) : (tickFlush s).time = s.time := by
  unfold tickFlush
  split <;> simp

theorem tickFlush_rate (s : State) : rateCode (tickFlush s) = rateCode s := by
  unfold tickFlush
  split
  · rw [authFlush_rate, ueFlush_rate, lateFlush_rate]
  · rfl

/-- Time moves on by one sample of the rate, from the time that the state holds. -/
theorem timeOn_congr {s t : State} (ht : t.time = s.time) (hr : rateCode t = rateCode s) : timeOn t = timeOn s := by
  simp only [timeOn, subPerSample, rateHz, ht, hr]

theorem mediaSample_time_unpowered {s : State} (h : s.start.supplies = false) : (mediaSample s).time = s.time := by
  simp [mediaSample, h]

theorem mediaSample_time_waiting {s : State} (h : s.start.supplies = true) (hr : running s = false) :
    (mediaSample s).time = { s.time with mono := s.time.mono + subPerSample s } := by
  simp [mediaSample, h, hr]

/-- What else a running device does with a sample leaves the time to the clock (R42, R43). -/
theorem mediaSample_time_running {s : State} (h : s.start.supplies = true) (hr : running s = true) :
    (mediaSample s).time = timeOn s := by
  have h0 : timeOn (clockOuts (tickFlush s)) = timeOn s :=
    timeOn_congr (by rw [clockOuts_time, tickFlush_time]) (by rw [clockOuts_rate, tickFlush_rate])
  unfold mediaSample
  rw [if_neg (by simp [h]), if_neg (by simp [hr]), ← tickFlush]
  dsimp only
  split_ifs <;> simp [h0]

theorem subPerSec_pos : 0 < subPerSec := by decide

/-- The instant of TAI time, in units of time, moves on by a sample (R42). -/
theorem timeOn_instant (s : State) :
    (timeOn s).sec * subPerSec + (timeOn s).sub = s.time.sec * subPerSec + s.time.sub + subPerSample s := by
  have h := Nat.div_add_mod (s.time.sub + subPerSample s) subPerSec
  simp only [timeOn, Nat.add_mul]
  rw [Nat.mul_comm] at h
  omega

theorem timeOn_sub_lt (s : State) : (timeOn s).sub < subPerSec := Nat.mod_lt _ subPerSec_pos

/-! ### The obligations -/

/-- Settles O2: a step on an empty queue is one sample, which moves the time on as the clock does. -/
theorem idleStepIsOneSample : Obligations.IdleStepIsOneSample := by
  rintro s w rfl hp
  refine ⟨settle s (mediaSample (work s)), by simp only [step, hp]; rfl, rfl, hp, fun h => ?_, fun h hr => ?_, fun h hr => ?_⟩
  · exact mediaSample_time_unpowered h
  · exact mediaSample_time_waiting h hr
  · rw [settle_time, mediaSample_time_running h hr]
    exact ⟨rfl, rfl, timeOn_instant (work s), timeOn_sub_lt (work s)⟩

/-- Settles O56: blocks and ticks cut the count of samples alike, and the offset of the time scale is whole ticks. -/
theorem blockAndTickIndexes : Obligations.BlockAndTickIndexes := by
  intro s
  refine ⟨rfl, ?rates, rfl, tickLen_ms s, tickLen_eq_blocks s, block_boundary_of_tick, ?inTick, ?now,
    fun x => ⟨extBlk_of_sample s x, extTick_of_sample s x, block_boundary_of_tick⟩, fun k j => extBlk_in_tick⟩
  case rates => rcases rateCode_cases s with h | h | h <;> simp [rateHz, tickLen, tickBlocks, h]
  case inTick =>
    intro b
    have hp := tickBlocks_pos s
    have hd : tickBlocks s * (b / tickBlocks s) + b % tickBlocks s = b := Nat.div_add_mod b _
    have hm := Nat.mod_lt b hp
    rw [tickOfBlock, Nat.mul_comm]
    omega
  case now => exact (div_tickLen s _).symm

/-- Settles O14: the four commands insert their tag where nothing is held. -/
theorem tagCommandsInsert : Obligations.TagCommandsInsert := by
  intro s w src tag target k noresp hw
  refine ⟨fun hc => ?_, fun hh => ⟨fun hc => ?_, fun hc => ?_, fun hc => ?_⟩⟩
  · rw [← apply_ite (leaves s), ← apply_ite (leaves s)]
    exact run_leaves hw (cmdCommit_begins hc)
  · exact run_leaves hw (cmdTag_inserts hc hh)
  · exact run_leaves hw (cmdTag_inserts hc hh)
  · exact run_leaves hw (cmdTag_inserts hc hh)

/-- Settles O19: a record submitted, a copy on its way or held, a held tag released, and a tag that arrives. -/
theorem tagsEnterTheStream : Obligations.TagsEnterTheStream := by
  refine ⟨fun s w w3 hw => ⟨?submit, ?copy, ?release⟩, ?arrive⟩
  case submit =>
    intro hon g x hx hg
    subst hx hg
    have hrun : exec (.tagSubmit w3) s = leaves s (submitW3 w3 w) := run_when_on hw hon
    rw [hrun, submitW3_eq]
    refine ⟨fun hh hb => ?_, fun hd => ?_⟩
    · simp [hh, submitTag, hb]
    · by_cases hh : w.heldTags = []
      · simp [hh, submitTag, hd.resolve_left (not_not.2 hh)]
      · simp [hh]
  case copy => exact fun src g u => ⟨fun h => by simp [injectTo, h], fun h => by simp [injectTo, h]⟩
  case release => exact fun h t hf => run_leaves hw (heldRelease_first hf)
  case arrive =>
    intro s w t u g hw hr ht
    refine ⟨run_leaves hw (tagArrive_head hr ht rfl), fun hu hg => ?_, takeTag_plain, takeTag_claim⟩
    subst hu
    exact run_leaves hw (tagArrive_head hr ht (by simp [hg]))

/-- Settles O20: the row of each type acts on the first due tag as `tagAct` does with a tag of that type. -/
theorem dueTagsAct : Obligations.DueTagsAct := by
  intro s w u p hw hr hd
  refine ⟨?commit, ?mark, ?epoch, ?route, ?ramp, ?migrate, ?swap⟩
  case commit => exact fun h => typeRow_acts hw hr hd h (tagAct_commit h)
  case mark => exact fun h => typeRow_acts hw hr hd h (tagAct_mark h)
  case epoch => exact fun h => typeRow_acts hw hr hd h (tagAct_epoch h)
  case route => rintro h rfl; exact typeRow_acts hw hr hd h (tagAct_rte_route h)
  case ramp =>
    refine fun h => ⟨?_, ?_, ?_⟩
    · rintro rfl; exact typeRow_acts hw hr hd h (tagAct_rte_ramp h)
    · rintro rfl; exact typeRow_acts hw hr hd h (tagAct_inc_ramp h)
    · rintro rfl; exact typeRow_acts hw hr hd h (tagAct_cor_ramp h)
  case migrate => rintro h rfl; exact typeRow_acts hw hr hd h (tagAct_lan_migrate h)
  case swap => rintro h rfl; exact typeRow_acts hw hr hd h (tagAct_swap h)

/-- Settles O21: START and STOP act at the unit that they reach as `tagAct` does there. -/
theorem startStopTagsAct : Obligations.StartStopTagsAct := by
  intro s w u p hw hr hd
  refine ⟨?ports, ?rings, ?streams, ?links, ?runs⟩
  case ports =>
    rintro aes rfl hp
    exact ⟨fun h => portRow_acts hw hr hd h hp (tagAct_ser aes (.inl h)),
      fun h => portRow_acts hw hr hd h hp (tagAct_ser aes (.inr h))⟩
  case rings =>
    rintro rfl hb
    exact ⟨fun h => ringRow_acts hw hr hd h hb ((tagAct_ser false (.inl h)).trans (serialTag_rings_start hb h)),
      fun h => ringRow_acts hw hr hd h hb ((tagAct_ser false (.inr h)).trans (serialTag_rings_stop hb h))⟩
  case streams =>
    rintro rfl
    exact ⟨fun h => typeRow_acts hw hr hd h (tagAct_mst (.inl h)), fun h => typeRow_acts hw hr hd h (tagAct_mst (.inr h))⟩
  case links =>
    rintro rfl
    exact ⟨fun h => typeRow_acts hw hr hd h (tagAct_lnk (.inl h)), fun h => typeRow_acts hw hr hd h (tagAct_lnk (.inr h))⟩
  case runs =>
    rintro rfl
    exact ⟨fun h => typeRow_acts hw hr hd h (tagAct_mea_start h), fun h => typeRow_acts hw hr hd h (tagAct_mea_stop h)⟩

/-- Settles O24: blocks released, deadlines missed, and steps of the time scale decided, taken and counted. -/
theorem releaseDeadlineTimeStep : Obligations.ReleaseDeadlineTimeStep := by
  refine ⟨fun s w hw hr => ⟨?release, ?late, ?inTime⟩, fun s w hw hr => ⟨?decide, ?act, ?scale⟩⟩
  case release => exact fun errs hi hn => run_leaves hw (blockRelease_releases hr hi hn)
  case late =>
    rintro kind number b t rfl h rfl
    exact run_leaves hw (deadlineMiss_late hr h)
  case inTime => exact fun kind number h => run_leaves hw (deadlineMiss_inTime h)
  case decide =>
    rintro t hp hd hwait rfl
    have hrow : exec .timeStepDecide s = leaves s (stepDecide w) := run_leaves hw (whenUp_up ⟨hr, hp⟩ stepDecide)
    rw [hrow]
    refine ⟨fun h0 => congrArg (leaves s) (stepDecide_zero hd hwait h0), ?_⟩
    rintro k h0 rfl
    exact congrArg (leaves s) (stepDecide_inserts hd hwait h0)
  case act =>
    rintro k now ofs x on was before hs rfl rfl rfl rfl hwait
    exact ⟨fun hx => run_leaves hw (timeStep_acts hr hwait hs hx), fun hx => run_leaves hw (timeStep_early hs hx)⟩
  case scale => exact fun y => ⟨rfl, extSmp_before, fun p ps hs h => extSmp_newest hs h⟩

end Sys2Proof.Proofs
end

section
/-! The family of input conditioning: the converters' lock and settling (R79, R81, R83), and the entry of silent channels
and outputs into the wallflower state (R85, R247). -/

namespace Sys2Proof.Proofs

open Sys2Proof Sys2Proof.Machine Sys2Proof.Laws

/-! ### A converter's lock (R79, R81, R83) -/

section converter

variable {c rate : Nat} {s : State}

/-- The range decides between the lock (R81 step 2) and the range fault (R83). -/
theorem asrcLock_takes (ha : (chanSt s c).hasAsrc = true)
    (hl : (chanSt s c).lock = .measuring ∨ (chanSt s c).lock = .outOfRange) :
    asrcLock c rate s =
      if rate < 32000 ∨ 216000 < rate then
        incFault 1 c (chanBit c 3 true (chanBit c 0 false
          (modChan c (fun y => { y with lock := .outOfRange }) (setF (Reg.INCS1.at c) 17 0 rate s))))
      else
        chanBit c 3 false (chanBit c 1 true (chanBit c 0 true
          (modChan c (fun y => { y with lock := .unsettled (settleLen s (fld (actW s (Reg.INCH1.at c)) 2 1)) })
            (setF (Reg.INCS1.at c) 17 0 rate s)))) := by
  refine if_neg ?_
  simpa [ha, ← or_iff_not_imp_left] using hl

theorem asrcSettled_ends (hl : (chanSt s c).lock = .unsettled 0) :
    asrcSettled c s = chanBit c 1 false (modChan c (fun y =>
      { y with lock := .settled, rampIn := if bit (actW s (Reg.INCH1.at c)) 3 then 0 else 256 }) s) := by
  unfold asrcSettled
  simp only [hl]

/-- The first measurement (R81) and each later try (R83) take a ratio alike. -/
theorem measuredRows_leave {w t : State} (hw : w = work s) (hu : up w uINC)
    (h : (chanSt w c).lock = .measuring ∨ (chanSt w c).lock = .outOfRange → asrcLock c rate w = t) :
    ((chanSt w c).lock = .measuring → exec (.asrcLock c rate) s = leaves s t) ∧
      ((chanSt w c).lock = .outOfRange → exec (.asrcRangeRetry c rate) s = leaves s t) := by
  constructor
  · intro hl
    refine run_leaves hw ((whenUp_up hu _).trans ?_)
    rw [hl]
    exact h (.inl hl)
  · intro hl
    refine run_leaves hw ((whenUp_up hu _).trans ?_)
    rw [hl]
    exact h (.inr hl)

end converter

/-! ### The wallflower state (R85, R247) -/

theorem chanWallEnter_quiet {n : Nat} {s : State} (h0 : actF s (Reg.INCH3.at n) 15 0 ≠ 0) (ht : tickLen s ≠ 0)
    (hq : actF s (Reg.INCH3.at n) 15 0 * tickLen s ≤ (chanSt s n).quiet) (ha : (chanSt s n).wall = .active) :
    chanWallEnter n s = modChan n (fun y => { y with wall := .ramping 0 }) s :=
  if_pos ⟨Nat.mul_ne_zero h0 ht, hq, ha⟩

theorem outWallEnter_quiet {n : Nat} {s : State} (h0 : actF s (Reg.COUT5.at n) 15 0 ≠ 0) (ht : tickLen s ≠ 0)
    (hq : actF s (Reg.COUT5.at n) 15 0 * tickLen s ≤ (corOut s n).quiet) (ha : (corOut s n).wall = .active) :
    outWallEnter n s = modOut n (fun y => { y with wall := .ramping 0 }) s :=
  if_pos ⟨Nat.mul_ne_zero h0 ht, hq, ha⟩

/-! ### The obligation -/

/-- Settles O25: a measured ratio locks or is out of range, settling ends, and what stays quiet for its hold begins the
ramp to rest. -/
theorem inputsLockAndRest : Obligations.InputsLockAndRest := by
  refine ⟨fun s w c rate hw hu ha => ⟨?inRange, ?outOfRange, ?settled⟩, fun s w n hw => ⟨?channel, ?output⟩⟩
  case inRange =>
    rintro t rfl hmin hmax
    exact measuredRows_leave hw hu fun hl => (asrcLock_takes ha hl).trans (if_neg (by omega))
  case outOfRange =>
    rintro t rfl hr
    exact measuredRows_leave hw hu fun hl => (asrcLock_takes ha hl).trans (if_pos hr)
  case settled => exact fun hl => run_leaves hw ((whenUp_up hu _).trans (asrcSettled_ends hl))
  case channel =>
    exact fun hu h0 hq ht hl => run_leaves hw ((whenUp_up hu _).trans (chanWallEnter_quiet h0 ht hq hl))
  case output =>
    exact fun hu h0 hq ht hl => run_leaves hw ((whenUp_up hu _).trans (outWallEnter_quiet h0 ht hq hl))

end Sys2Proof.Proofs
end

section
/-! The family of object motion: samples that reach the motion engine (R105 to R113), its tick and lost objects (R116, R126),
and descriptors offered and accepted (R181, R187, R188, R190). -/

namespace Sys2Proof.Proofs

open Sys2Proof Sys2Proof.Machine Sys2Proof.Laws

/-! ### Datagrams taken from a queue (R105, R109, R111) -/

section datagrams

variable {s w t : State} {q : Nat} {pre bs : List Byte}

/-- A UDP datagram of a queue with CONSUMER 3 leaves it, and is read where OSC is on and it is to the device. -/
theorem oscRow_takes {d : Udp} (hw : w = work s) (hu : up w uMOT) (hc : consume 3 q w = some (pre, bs, t))
    (hd : udpOf bs = some d) :
    exec (.oscDatagram q) s = leaves s
      (when (actB t Reg.MOT_CTRL.base 0 && toDevice t d.dst d.dport (actF t Reg.MOT_OSC_PORT.base 15 0))
        (oscDatagram d.payload) t) := by
  refine run_leaves hw ((whenUp_up hu _).trans ?_)
  simp only [hc, hd]

/-- A UDP datagram of a queue with CONSUMER 4 leaves it, and is read where native UDP is on and it is to the device. -/
theorem nativeRow_takes_udp {d : Udp} (hw : w = work s) (hu : up w uMOT) (hl : takeLink 2 q w = none)
    (hc : consume 4 q w = some (pre, bs, t)) (hd : udpOf bs = some d) :
    exec (.nativePayload q) s = leaves s
      (when (actB t Reg.MOT_CTRL.base 1 && toDevice t d.dst d.dport (actF t Reg.MOT_NATIVE_PORT.base 15 0))
        (nativePayload d.payload) t) := by
  refine run_leaves hw ((whenUp_up hu _).trans ?_)
  simp only [hl, hc, hd]

/-- The payload of an OBJECT frame of a link needs neither enable nor address. -/
theorem nativeRow_takes_link {n c : Nat} (hw : w = work s) (hu : up w uMOT) (hl : takeLink 2 q w = some (n, bs, c, t)) :
    exec (.nativePayload q) s = leaves s (nativePayload (lfPayload bs) t) := by
  refine run_leaves hw ((whenUp_up hu _).trans ?_)
  simp only [hl]

end datagrams

/-! ### The ingest window (R108) -/

theorem ingestSubmit_absent {path n : Nat} {v : Word} {s : State} (h : objCount s ≤ n) : ingestSubmit path n v s = s :=
  if_pos h

theorem ingestSubmit_present {path n : Nat} {v : Word} {s : State} (h : n < objCount s) :
    ingestSubmit path n v s = ingest path (arrival s)
      (sampleOfWords n (fld v 5 0) (fld (regW s (Reg.INGEST5.at n)) 1 0)
        ((List.range 5).map (fun k => regW s (Reg.INGEST.at n k)))) (setW (Reg.INGEST7.at n) (v &&& 0x3F) s) :=
  if_neg (Nat.not_le.2 h)

/-! ### Native payloads (R113) -/

/-- The sender that a native payload names has sent a payload with this SEQ or a later one. -/
def seqHeard (s : State) (p : List Byte) : Prop :=
  ∃ x : Sender, s.mot.senders.find? (fun x => x.id == getLE p 4 4) = some x ∧ getLE p 8 8 ≤ x.seq

theorem not_seqHeard {s : State} {p : List Byte}
    (h : ∀ x : Sender, s.mot.senders.find? (fun x => x.id == getLE p 4 4) = some x → x.seq < getLE p 8 8) :
    ¬ seqHeard s p :=
  fun ⟨x, hx, hle⟩ => Nat.not_le.2 (h x hx) hle

/-- A native payload breaks a rule of R113. -/
def nativeBroken (s : State) (p : List Byte) : Prop :=
  p.length < 32 ∨ getLE p 0 2 ≠ 1 ∨ getLE p 2 1 = 0 ∨ p.length ≠ 32 + 32 * getLE p 2 1 ∨ seqHeard s p

theorem nativePayload_broken {s : State} {p : List Byte} (h : nativeBroken s p) :
    nativePayload p s = count Reg.MOT_NATIVE_BAD_CNT.base s := by
  refine if_pos (h.imp_right (Or.imp_right (Or.imp_right (Or.imp_right ?_))))
  rintro ⟨x, hx, hle⟩
  simp only [hx, hle, decide_true]

theorem nativePayload_kept {s : State} {p : List Byte} (h : ¬ nativeBroken s p) :
    nativePayload p s = (List.range (getLE p 2 1)).foldl (fun t k => nativeRecord (getLE p 3 1 % 2 == 1)
      (getLE p 16 8) (slice p (32 + 32 * k) 32) t) { s with mot := heardFrom s.mot (getLE p 4 4) (getLE p 8 8) } := by
  refine if_neg fun hb => h (hb.imp_right (Or.imp_right (Or.imp_right (Or.imp_right fun ho => ?_))))
  cases hf : s.mot.senders.find? (fun x => x.id == getLE p 4 4) with
  | none => simp [hf] at ho
  | some x => exact ⟨x, hf, by simpa [hf] using ho⟩

/-! ### The rows of the motion engine (R116, R126) -/

theorem motTickRow_begins {s w : State} (hw : w = work s) (hu : up w uMOT) (ht : tickOpen w uMOT = true) :
    exec .motTick s = leaves s (beginBlock uMOT w) :=
  run_leaves hw ((whenUp_up hu _).trans (if_pos ht))

theorem objectLostRow_loses {s w : State} {n : Nat} (hw : w = work s) (hu : up w uMOT) (hn : n < objCount w)
    (hl : lossDue w w.mot.nextTick n = true) : exec (.objectLost n) s = leaves s (loseObj n w) :=
  run_leaves hw ((whenUp_up hu _).trans (if_pos (by simp [hn, hl])))

/-! ### Descriptors (R187, R188, R190) -/

theorem dsxSubmit_free {w3 : Word} {s : State} (h : dsxBusy s = false) :
    dsxSubmit w3 s = offerHold (descOfWords 3 (regW s (Reg.DSX_SUBMIT_W.at 0)) (regW s (Reg.DSX_SUBMIT_W.at 1))
      (regW s (Reg.DSX_SUBMIT_W.at 2)) w3) (setW (Reg.DSX_SUBMIT_W.at 3) w3 s) :=
  if_neg (by simp [h])

theorem dsxSubmit_busy {w3 : Word} {s : State} (h : dsxBusy s = true) :
    dsxSubmit w3 s = count Reg.DSX_BAD_CNT.base s :=
  if_pos h

/-- The pending job of the lowest object leaves its slot unless it is refused again. -/
theorem acceptMot_offers {s : State} {n : Nat} {x : ObjSt} {d : Desc}
    (hf : s.mot.objs.find? (fun p => p.2.slot.isSome) = some (n, x)) (hd : x.slot = some d) :
    acceptMot s = if (offer d s).1 = .refused then (offer d s).2
      else modObj n (fun y => { y with slot := none }) (offer d s).2 := by
  simp only [acceptMot, hf, hd]

/-- The oldest descriptor that a source holds leaves it unless it is refused again. -/
theorem acceptHeld_offers {s : State} {src : Nat} {d : Desc} {t : List Desc} (hh : tabGet [] s.dsx.held src = d :: t) :
    acceptHeld src s = if (offer d s).1 = .refused then (offer d s).2
      else { (offer d s).2 with dsx := { (offer d s).2.dsx with held := tabSet src t (offer d s).2.dsx.held } } := by
  simp only [acceptHeld, hh]

/-! ### The obligations -/

/-- Settles O26: each way by which samples reach the motion engine, and the native payloads kept and counted. -/
theorem motionIsIngested : Obligations.MotionIsIngested := by
  refine ⟨fun s w q hw hu => ⟨?osc, ?scheduled, ?native, ?link, ?absent, ?present⟩,
    fun w p => ⟨nativePayload_broken, ?kept⟩⟩
  case osc =>
    rintro pre bs t d hc hd mine rfl
    exact oscRow_takes hw hu hc hd
  case scheduled =>
    rintro due rfl
    exact run_leaves hw (whenUp_up hu oscScheduled)
  case native =>
    rintro pre bs t d hl hc hd mine rfl
    exact nativeRow_takes_udp hw hu hl hc hd
  case link => exact fun n c bs t hl => nativeRow_takes_link hw hu hl
  case absent => exact fun core n v hn => run_leaves hw ((whenUp_up hu _).trans (ingestSubmit_absent hn))
  case present => exact fun core n v hn => run_leaves hw ((whenUp_up hu _).trans (ingestSubmit_present hn))
  case kept =>
    intro h32 hver hn hlen hseq
    refine nativePayload_kept ?_
    rintro (h | h | h | h | h)
    · omega
    · exact h hver
    · exact hn h
    · exact h hlen
    · exact not_seqHeard hseq h

/-- Settles O27: the tick begun at its boundary, an object lost, a descriptor submitted, and one accepted from MOT or from
what a source holds. -/
theorem motionAndDescriptors : Obligations.MotionAndDescriptors := by
  refine ⟨fun s w hw hu => ⟨motTickRow_begins hw hu, fun n hn hl => objectLostRow_loses hw hu hn hl⟩,
    fun s w hw hu => ⟨fun w3 => ⟨?free, ?busy⟩, ?mot, ?held⟩⟩
  case free => exact fun hb => run_leaves hw ((whenUp_up hu _).trans (dsxSubmit_free hb))
  case busy => exact fun hb => run_leaves hw ((whenUp_up hu _).trans (dsxSubmit_busy hb))
  case mot => exact fun n x d hf hd => run_leaves hw ((whenUp_up hu _).trans ((if_pos rfl).trans (acceptMot_offers hf hd)))
  case held =>
    exact fun src d t h0 hh => run_leaves hw ((whenUp_up hu _).trans ((if_neg h0).trans (acceptHeld_offers hh)))

end Sys2Proof.Proofs
end

section
/-! The family of the dispatcher: jobs taken and completed (R182, R184, R486), results written to the shadow tables (R173,
R174, R195), the solver's cutoff and refresh (R70, R173, R177), and geometry units retired (R189, R569). -/

namespace Sys2Proof.Proofs

open Sys2Proof Sys2Proof.Machine Sys2Proof.Laws

/-! ### Jobs taken and completed (R182, R184, R486) -/

section jobs

variable {s w : State} {e : Nat} {j : Job}

theorem jobDispatch_solver (hp : pickJob s 0 e = some j) :
    jobDispatch 0 e s = if slvReached s j.desc.arg = true then runSolver j (engineNo s 0 e) s else s := by
  simp only [jobDispatch, hp]
  rfl

/-- The logical geometry unit that is idle takes its job, which waits for the solver to begin its tick. -/
theorem dispatchRow_solver (hw : w = work s) (hu : up w uDSX) (hi : engineIdle w 0 e = true) (hf : inFollow w = false)
    (hp : pickJob w 0 e = some j) :
    exec (.jobDispatch false e) s =
      leaves s (if slvReached w j.desc.arg = true then runSolver j (engineNo w 0 e) w else w) := by
  refine run_leaves hw ((whenUp_up hu _).trans (Eq.trans ?_ (jobDispatch_solver hp)))
  simp [hi, hf]

/-- The task core that is idle takes its job, and its program is loaded. -/
theorem dispatchRow_task (hw : w = work s) (hu : up w uDSX) (hi : engineIdle w 1 e = true) (hf : inFollow w = false)
    (hp : pickJob w 1 e = some j) :
    exec (.jobDispatch true e) s = leaves s (coreLoad e j.desc.entry (setJob { j with pos := .running e } w)) := by
  refine run_leaves hw ((whenUp_up hu _).trans ?_)
  simp [hi, hf, hp, taskDispatch]

theorem jobComplete_running {kind : Nat}
    (hj : s.dsx.jobs.find? (fun j => j.desc.kind == kind && decide (j.pos = .running e)) = some j) :
    jobComplete kind e s = completeJob j s := by
  simp only [jobComplete, hj]

end jobs

/-! ### Results written to the shadow tables (R173, R174, R195) -/

section results

variable {s : State} {obj : Nat} {r : SolveRes}

/-- The shadow table holds a result of the object for a later tick (R174). -/
def laterWritten (s : State) (obj : Nat) (r : SolveRes) : Prop :=
  ∃ old : SolveRes, tabFind? obj s.slv.shadow = some old ∧ r.tick < old.tick

theorem not_laterWritten (h : ∀ old : SolveRes, tabFind? obj s.slv.shadow = some old → old.tick ≤ r.tick) :
    ¬ laterWritten s obj r :=
  fun ⟨old, hf, hlt⟩ => Nat.not_le.2 hlt (h old hf)

/-- A result taken from those that wait, and counted and marked where it is late (R174). -/
def takeResult (r : SolveRes) (s : State) : State :=
  let taken : State := { s with slv := { s.slv with results := s.slv.results.erase r } }
  if resultLate s r = true then stick Reg.SLV_STAT.base 1 (count Reg.SLV_LATE_JOB_CNT.base
    { taken with slv := { taken.slv with lateCount := taken.slv.lateCount + 1 } }) else taken

/-- A result written to the windows and the shadow table of its object (R195). -/
def putResult (obj tick : Nat) (r : SolveRes) (s : State) : State :=
  let shown := writeWindow Reg.LSHL.base Reg.LSHH0.base obj tick r s
  { shown with slv := { shown.slv with shadow := tabSet obj r shown.slv.shadow } }

theorem resultWrite_superseded (hr : s.slv.results.find? (fun r => r.obj == obj && resultReady s r) = some r)
    (hc : commitOnWay s = false) (hl : laterWritten s obj r) : resultWrite obj s = takeResult r s := by
  obtain ⟨old, hf, hlt⟩ := hl
  simp [resultWrite, takeResult, hr, hc, hf, hlt]

theorem resultWrite_newest (hr : s.slv.results.find? (fun r => r.obj == obj && resultReady s r) = some r)
    (hc : commitOnWay s = false) (hl : ¬ laterWritten s obj r) :
    resultWrite obj s = putResult obj (resultTick s r) r (takeResult r s) := by
  cases hf : tabFind? obj s.slv.shadow with
  | none => simp [resultWrite, putResult, takeResult, hr, hc, hf]
  | some old =>
    have hle : ¬ r.tick < old.tick := fun hlt => hl ⟨old, hf, hlt⟩
    simp [resultWrite, putResult, takeResult, hr, hc, hf, hle]

end results

/-! ### The cutoff (R70, R173) -/

theorem solverCutoff_due {s : State} (hl : (unitSt s uSLV).next % tickBlocks s = tickBlocks s - 1)
    (hc : s.slv.cutoff ≠ some (tickOfBlock s (unitSt s uSLV).next)) :
    solverCutoff s = inject (mkTag tCOMMIT uLAN 0xFF 0 (tickOfBlock s (unitSt s uSLV).next + 1))
      { s with slv := { s.slv with cutoff := some (tickOfBlock s (unitSt s uSLV).next) } } :=
  if_neg (not_or.2 ⟨not_not.2 hl, hc⟩)

/-! ### Retirement of a unit (R189, R569) -/

section retirement

variable {s w t : State} {cls inst cause : Nat}

theorem hltRetire_now (hr : retirable s cls inst = true) (hq : s.hlt.waiting.any (fun x => x.cls == cls) = false)
    (hb : retireBusy s cls inst = false) : hltRetire cls inst cause s = retireUnit cls inst cause s := by
  simp only [hltRetire, hr, hq, hb, Bool.not_true, Bool.or_self, Bool.false_eq_true, if_false]

theorem hltRetire_waits (hr : retirable s cls inst = true)
    (hn : s.hlt.waiting.any (fun x => x.cls == cls && x.inst == inst) = false)
    (hb : s.hlt.waiting.any (fun x => x.cls == cls) = true ∨ retireBusy s cls inst = true) :
    hltRetire cls inst cause s = { s with hlt := { s.hlt with waiting := s.hlt.waiting ++ [⟨cls, inst, cause⟩] } } := by
  simp only [hltRetire, hr, hn, Bool.or_eq_true_iff.2 hb, Bool.not_true, Bool.false_eq_true, if_false, if_true]
  rfl

/-- The row of a retirement asks for it with the cause that it names. -/
theorem retireRow_asks {u : Nat} (hw : w = work s) (hu : up w u) (hc : cause < 5) (ht : hltRetire cls inst cause w = t) :
    run (whenUp u (hltRetire cls inst (cause % 5))) s = leaves s t := by
  rw [Nat.mod_eq_of_lt hc]
  exact run_leaves hw ((whenUp_up hu _).trans ht)

end retirement

/-! ### The obligation -/

/-- Settles O28: jobs dispatched and completed, a result written or superseded, the cutoff, a refresh asked for, and the
retirement of a geometry unit now or in its turn. -/
theorem jobsResultsAndCutoff : Obligations.JobsResultsAndCutoff := by
  refine ⟨fun s w e j hw hu => ⟨dispatchRow_solver hw hu, dispatchRow_task hw hu, ?complete⟩,
    fun s w obj r hw hu hr hc => ?result, fun s w hw => ⟨?cutoff, ?refresh, ?retire⟩⟩
  case complete => exact fun hj => run_leaves hw ((whenUp_up hu _).trans (jobComplete_running hj))
  case result =>
    rintro x rfl y rfl
    constructor
    · rintro z rfl hle
      exact run_leaves hw ((whenUp_up hu _).trans (resultWrite_newest hr hc (not_laterWritten hle)))
    · exact fun old hf hlt => run_leaves hw ((whenUp_up hu _).trans (resultWrite_superseded hr hc ⟨old, hf, hlt⟩))
  case cutoff =>
    exact fun hu hrd hl hc => run_leaves hw ((whenUp_up hu _).trans ((if_pos hrd).trans (solverCutoff_due hl hc)))
  case refresh => exact fun v hu => run_leaves hw (whenUp_up hu _)
  case retire =>
    exact fun g cause hu hc hr => ⟨fun hq hb => retireRow_asks hw hu hc (hltRetire_now hr hq hb),
      fun hn hb => retireRow_asks hw hu hc (hltRetire_waits hr hn hb)⟩

end Sys2Proof.Proofs
end

section
/-! The family of the render lanes: the copies of migrations (R212, R213), blocks of the pipeline and tick boundaries (R32, R44,
R45), lanes that wake (R207), and sit-outs begun and ended (R215, R216). -/

namespace Sys2Proof.Proofs

open Sys2Proof Sys2Proof.Machine Sys2Proof.Laws

/-! ### Blocks of the pipeline (R32, R45) -/

theorem unitSt_modUnit_same (u : Nat) (f : UnitSt → UnitSt) (s : State) : unitSt (modUnit u f s) u = f (unitSt s u) := by
  simp only [unitSt, modUnit, tabGet_tabMod, if_true]

/-- A unit that has done its block has yet to begin the next. -/
theorem unitSt_blockDone (u : Nat) (s : State) :
    unitSt (blockDone u s) u = { unitSt s u with next := (unitSt s u).next + 1, begun := false } :=
  unitSt_modUnit_same ..

section pipeline

variable {u : Nat} {x : BlockIn} {s : State}

theorem pipelineBlock_in (hr : running s = true) (ht : honoursTags u = true) (hs : u ≠ uSYS) (hp : unitPresent s u = true)
    (hx : x.out = false) (hi : inputsIn false u (unitSt s u).next s = true) :
    pipelineBlock u x s = blockDone u (inSide u x (unitSt s u).next
      (x.sram.foldl (engineErr false u (unitSt s u).next) (beginBlock u s))) := by
  simp [pipelineBlock, sideNext, hr, ht, hs, hp, hx, hi]

theorem pipelineBlock_out (hr : running s = true) (ht : honoursTags u = true) (hs : u ≠ uSYS) (hp : unitPresent s u = true)
    (hx : x.out = true) (ho : hasOut u = true) (hi : inputsIn true u (sideNext true u s) s = true) :
    pipelineBlock u x s = outSide u x (sideNext true u s)
      (x.sram.foldl (engineErr true u (sideNext true u s)) (if u = uRTE then s else claimTakes (sideNext true u s) s)) := by
  simp [pipelineBlock, hr, ht, hs, hp, hx, ho, hi]

end pipeline

/-! ### Tick boundaries (R44) -/

section tickBoundary

variable {u : Nat} {s : State}

theorem tickBoundary_begins (hr : running s = true) (hp : unitPresent s u = true) (ht : honoursTags u = true)
    (ho : tickOpen s u = true) : tickBoundary u s = beginBlock u s := by
  simp [tickBoundary, hr, hp, ht, ho]

/-- A unit beside the block stream that has yet to act in this tick does its own work and marks the tick. -/
theorem tickBoundary_beside (hr : running s = true) (hp : unitPresent s u = true) (ht : honoursTags u = false)
    (hd : (unitSt s u).tickDone ≠ some (nowTick s)) :
    tickBoundary u s =
      let marked := modUnit u (fun x => { x with tickDone := some (nowTick s) }) s
      if u = uPAR then abdTest marked else if u = uHLT then hltTick marked else if u = uCLK then clkTick marked else s := by
  simp [tickBoundary, hr, hp, ht, hd]

end tickBoundary

/-! ### Lanes that wake (R207) -/

theorem laneWake_wakes {p : Nat} {s : State} (hg : (laneSt s p).gated = true)
    (hb : bringsSound s p (unitSt s uLAN).next = true ∨ mayGate s p = false) :
    laneWake p s = modLane p (fun l => { l with gated := false }) s :=
  if_pos (by simpa [hg] using hb)

/-! ### Sit-outs (R215, R216) -/

/-- The rotation begins a sit-out now (R215). -/
def sitOutDue (s : State) : Prop :=
  accepted s 14 = true ∧ actB s Reg.LAN_ROTATE.base 0 = true ∧ s.lan.lastStart + sitPeriod s ≤ nowTick s ∧
    (s.lan.sits.filter (fun x => !x.retire)).length < sitConc s

/-- The lane whose turn it is to sit out (R215). -/
def sitOutNext (s : State) : Option Nat :=
  minBy (sitOrder s)
    ((lanesIn s .active).filter (fun p => !(s.lan.sits.any (fun x => x.lane == p || (x.spare == p && !x.testing)))))

/-- The time of this sit-out is taken: the next is due a period later. -/
def sitOutTimed (s : State) : State := { s with lan := { s.lan with lastStart := nowTick s } }

section sitOut

variable {s : State} {l p : Nat} {ps : List Nat}

theorem sitOutStart_spare (hd : sitOutDue s) (hl : sitOutNext s = some l) (hp : freeSpares s = p :: ps) :
    sitOutStart s = handOver l p false (sitOutTimed s) := by
  obtain ⟨haccepted, hon, hperiod, hconc⟩ := hd
  unfold sitOutNext at hl
  simp [sitOutStart, sitOutTimed, haccepted, hon, hperiod, hconc, hl, hp]

theorem sitOutStart_noSpare (hd : sitOutDue s) (hl : sitOutNext s = some l) (hp : freeSpares s = []) :
    sitOutStart s = raise 0x18 (bytesOf 1 l ++ [0xFF, 3]) (stick Reg.LAN_STAT.base 4 (sitOutTimed s)) := by
  obtain ⟨haccepted, hon, hperiod, hconc⟩ := hd
  unfold sitOutNext at hl
  simp [sitOutStart, sitOutTimed, haccepted, hon, hperiod, hconc, hl, hp]

end sitOut

/-- The row of a lane's self-test shows the result once the lane has sat out its time. -/
theorem sitoutEndRow_done {s w : State} {n : Nat} {x : SitOut} (pass : Bool) (hw : w = work s) (hu : up w uLAN)
    (hx : sitDone w n = some x) :
    exec (.sitoutSelftestEnd n pass) s =
      leaves s (testResult n pass (if pass then sitPassed x w else retired 0 x.lane 2 true true (sitFailed x w))) := by
  refine run_leaves hw ((whenUp_up hu _).trans ?_)
  simp only [hx]

/-! ### The obligations -/

/-- Settles O23: copies begun, a block done on either side of a unit, and the work of a unit at a tick boundary. -/
theorem blocksAndTicksAdvance : Obligations.BlocksAndTicksAdvance := by
  refine ⟨?copies, fun s w u x hw hr ht hs hp => ⟨?input, ?output, ?next⟩, fun s w u hw hr hp => ⟨?begins, ?beside⟩⟩
  case copies => exact fun s w hw hr => run_when_on hw hr
  case input => exact fun hx hi => run_leaves hw (pipelineBlock_in hr ht hs hp hx hi)
  case output => exact fun hx ho hi => run_leaves hw (pipelineBlock_out hr ht hs hp hx ho hi)
  case next => exact fun t => by simp only [unitSt_blockDone, and_self]
  case begins => exact fun ht ho => run_leaves hw (tickBoundary_begins hr hp ht ho)
  case beside =>
    intro ht hd
    have hrow := run_leaves hw (tickBoundary_beside hr hp ht hd)
    refine ⟨?_, ?_, ?_⟩ <;> (rintro rfl; exact hrow)

/-- Settles O29: a lane that wakes, the retirement of a lane or a slice now or in its turn, and a sit-out begun with a spare
or without one and ended either way. -/
theorem lanesWakeSitOutRetire : Obligations.LanesWakeSitOutRetire := by
  refine ⟨fun s w n cause hw hc => ⟨?wake, ?lane, ?laneWaits, ?slice⟩, fun s w hw hu => ⟨?start, ?testEnd⟩⟩
  case wake => exact fun hu hg hb => run_leaves hw ((whenUp_up hu _).trans (laneWake_wakes hg hb))
  case lane => exact fun hu hr hq hb => retireRow_asks hw hu hc (hltRetire_now hr hq hb)
  case laneWaits => exact fun hu hr hn hb => retireRow_asks hw hu hc (hltRetire_waits hr hn hb)
  case slice =>
    exact fun hu hr => ⟨fun hq hb => retireRow_asks hw hu hc (hltRetire_now hr hq hb),
      fun hn hb => retireRow_asks hw hu hc (hltRetire_waits hr hn hb)⟩
  case start =>
    rintro l p ps haccepted hon hperiod hconc t rfl hl
    have hd : sitOutDue w := ⟨haccepted, hon, hperiod, hconc⟩
    exact ⟨fun hp => run_leaves hw ((whenUp_up hu _).trans (sitOutStart_spare hd hl hp)),
      fun hp => run_leaves hw ((whenUp_up hu _).trans (sitOutStart_noSpare hd hl hp))⟩
  case testEnd =>
    exact fun n x hx => ⟨sitoutEndRow_done true hw hu hx, sitoutEndRow_done false hw hu hx⟩

end Sys2Proof.Proofs
end

section
/-! The family of the correction engine: the steps of a filter swap and its batches (R242, R243, R245), the end of a filter's
transition (R244), and charges returned to the pool (R233). -/

namespace Sys2Proof.Proofs

open Sys2Proof Sys2Proof.Machine Sys2Proof.Laws

/-- A row of a unit that is up leaves what its function makes of the state. -/
theorem upRow_leaves {u : Nat} {f : State → State} {s w t : State} (hw : w = work s) (hu : up w u) (h : f w = t) :
    run (whenUp u f) s = leaves s t :=
  run_leaves hw ((whenUp_up hu f).trans h)

/-! ### The swap in progress (R242, R243, R245) -/

/-- The outputs of a batch deliver the new filter alone (R243). -/
def batchFaded (x : SwapRec) (s : State) : State :=
  x.cur.foldl (fun u o => modOut o (fun z => { z with xfade := none }) u) s

/-- The first batch slot after a batch: the end of its crossfade plus two ticks (R245). -/
def slotAfter (x : SwapRec) : Nat := x.start + x.xf + 3

/-- A swap whose next batch `c` waits for its slot, with the batches `cs` after it (R241). -/
def batchNext (x : SwapRec) (c : List Nat) (cs : List (List Nat)) (y : SwapRec) : SwapRec :=
  { y with payload := batchPayload x.payload c, start := slotAfter x, batch := y.batch + 1, cur := c, rest := cs
           phase := .waiting, fresh := [] }

/-- The state once the swap at the head has faded its last batch: the swaps `xs` remain. -/
def swapGone (x : SwapRec) (xs : List SwapRec) (s : State) : State :=
  { batchFaded x s with cor := { (batchFaded x s).cor with slot := slotAfter x, swaps := xs } }

section swap

variable {s : State} {x : SwapRec} {xs : List SwapRec}

theorem swapPrepare_waiting (hs : s.cor.swaps = x :: xs) (hp : x.phase = .waiting) (hb : x.start ≤ corTickNow s + 2)
    (hslot : s.cor.slot ≤ corTickNow s + 2) :
    swapPrepare s = modHead (fun y => { y with phase := .prepared, prepTick := corTickNow s }) s := by
  simp only [swapPrepare, hs, hp, hb, hslot, and_self, if_true]

theorem swapLoad_prepared (hs : s.cor.swaps = x :: xs) (hp : x.phase = .prepared) (ht : x.prepTick < corTickNow s) :
    swapLoad s = modHead (fun y => { y with phase := .loaded }) (x.cur.foldl (loadOne x.set) s) := by
  simp only [swapLoad, hs, hp, ht, and_self, if_true]

/-- The test by which `crossfadeEnd` leaves a swap alone fails once its crossfade is over. -/
theorem fadeRuns_false {tick : Nat} (hp : x.phase = .fading) (hf : x.start + x.xf + 1 ≤ tick) :
    (decide (x.phase ≠ .fading) || decide (tick < x.start + x.xf + 1)) = false := by
  simpa [hp] using hf

theorem crossfadeEnd_nextBatch {c : List Nat} {cs : List (List Nat)} (hs : s.cor.swaps = x :: xs) (hp : x.phase = .fading)
    (hf : x.start + x.xf + 1 ≤ corTickNow s) (hr : x.rest = c :: cs) :
    crossfadeEnd s = inject (mkTag tSWAP uCOR 0xFF (batchPayload x.payload c).toNat (slotAfter x))
      (modHead (batchNext x c cs) { batchFaded x s with cor := { (batchFaded x s).cor with slot := slotAfter x } }) := by
  simp only [crossfadeEnd, hs, hr, fadeRuns_false hp hf, Bool.false_eq_true, if_false]
  rfl

theorem crossfadeEnd_lastBatch (hs : s.cor.swaps = x :: xs) (hp : x.phase = .fading)
    (hf : x.start + x.xf + 1 ≤ corTickNow s) (hr : x.rest = []) :
    crossfadeEnd s = swapQueued (unitSt (swapGone x xs s) uCOR).pend.length
      (raise 0x1B (bytesOf 1 x.set ++ bytesOf 1 2 ++ bytesOf 1 0 ++ bytesOf 2 0) (swapGone x xs s)) := by
  simp only [crossfadeEnd, hs, hr, fadeRuns_false hp hf, Bool.false_eq_true, if_false]
  rfl

end swap

/-! ### Transitions and charges (R233, R244) -/

/-- How many of an output's newest filters still serve at sample `n`: the live one, the one it fades from, and each up to the
last whose old input has yet to leave its far tail (R244). -/
def filtersServing (s : State) (n : Nat) (q : Nat × CorOut) : Nat :=
  (q.2.filts.zip q.2.filts.tail).zipIdx.foldl (fun m p =>
    if decide (n < oldReach s (sliceOf s q.1) p.1.1.2 p.1.2.1) || (p.2 == 0 && q.2.xfade.isSome) then p.2 + 2 else m) 1

theorem transitionEnd_keeps_serving (s : State) :
    transitionEnd s = { s with cor := { s.cor with
      outs := s.cor.outs.map (fun q => (q.1, corKeep q.2 (filtersServing s (16 * (unitSt s uCOR).next) q))) } } := rfl

/-- The charges of an output that are still held at sample `n` (R233). -/
def chargesHeld (n : Nat) (x : CorOut) : CorOut := { x with charges := x.charges.filter (fun c => decide (n < c.2)) }

theorem chargeReturn_keeps_held (s : State) :
    chargeReturn s = { s with cor := { s.cor with
      outs := s.cor.outs.map (fun q => (q.1, chargesHeld (16 * (unitSt s uCOR).next) q.2)) } } := rfl

/-! ### The obligation -/

/-- Settles O30: the head of the swaps prepared, loaded, and gone on to its next batch or ended once it has faded; old
filters that leave and charges that return. -/
theorem filtersSwapAndEnd : Obligations.FiltersSwapAndEnd := by
  refine ⟨fun s w x xs hw hu hs => ⟨?prepare, ?load, ?fadeEnd⟩, fun s w hw hu => ⟨?transition, ?charge⟩⟩
  case prepare => exact fun hp hb hslot => upRow_leaves hw hu (swapPrepare_waiting hs hp hb hslot)
  case load => exact fun hp ht => upRow_leaves hw hu (swapLoad_prepared hs hp ht)
  case fadeEnd =>
    rintro t rfl hp hf
    refine ⟨fun c cs hr => upRow_leaves hw hu (crossfadeEnd_nextBatch hs hp hf hr), ?_⟩
    rintro hr u rfl
    exact upRow_leaves hw hu (crossfadeEnd_lastBatch hs hp hf hr)
  case transition =>
    rintro n keep rfl rfl
    exact upRow_leaves hw hu (transitionEnd_keeps_serving w)
  case charge => exact upRow_leaves hw hu (chargeReturn_keeps_held w)

end Sys2Proof.Proofs
end

section
/-! The family of the measurement engine: runs whose capture ends and whose results are written (R264, R265), and live
estimation's frames, delay searches and publications (R268 to R270). -/

namespace Sys2Proof.Proofs

open Sys2Proof Sys2Proof.Machine Sys2Proof.Laws

/-! ### Runs (R264, R265) -/

/-- The head run's results written, its samples given up and DONE shown; the runs `ks` remain in the queue (R264, R265). -/
def runResults (k : Nat) (ks : List Nat) (s : State) : State :=
  runShow k 4 0 (count (Reg.RUNS1.at k) (modRun k (fun x => { x with caps := [] })
    ((runChans (meaRun s k)).zipIdx.foldl (runResultWrite (meaRun s k)) { s with mea := { s.mea with queue := ks } })))

section runs

variable {s : State} {k : Nat} {ks : List Nat}

theorem captureEnd_full (hs : (meaRun s k).state = 2) (hc : runCapture (meaRun s k) ≤ (meaRun s k).taken) :
    captureEnd k s = runState k 3 { s with mea := { s.mea with queue := s.mea.queue ++ [k] } } := by
  have hrest : ¬ ((meaRun s k).state ≠ 2 ∨ (meaRun s k).taken < runCapture (meaRun s k)) := by omega
  simp only [captureEnd, if_neg hrest]

theorem runDone_uncorrectable {a : Nat} {as : List Nat} (hq : s.mea.queue = k :: ks)
    (hue : ueIn s (runWork (meaRun s k)) (workNeed (meaRun s k)) = a :: as) :
    runDone s = runFail k 7 (reportDramUe 1 6 0 a { s with mea := { s.mea with queue := ks } }) := by
  simp only [runDone, hq, hue]

theorem runDone_results (hq : s.mea.queue = k :: ks)
    (hue : ueIn s (runWork (meaRun s k)) (workNeed (meaRun s k)) = []) :
    runDone s = if bit (recW (meaRun s k).cfg 14) 0 = true then meaTask ((meaRun s k).cfg.drop 10) (runResults k ks s)
      else runResults k ks s := by
  simp only [runDone, hq, hue]
  rfl

end runs

/-! ### Live estimation (R268 to R270) -/

/-- What a pair's search makes of the lag it found: the first is taken, and so is a later one, with the averages restarted
and EV_MEA_DELAY raised where it moved by more than 64 samples (R269). -/
def lagTaken (p : Nat) (old : Option Int) (lag : Int) (u : State) : State :=
  if old.isSome = true ∧ 64 * 256 < (lag - old.getD 0).natAbs then
    raise 0x1E (bytesOf 1 p ++ [0] ++ bytesOf 4 (lowBits 32 (old.getD 0)) ++ bytesOf 4 (lowBits 32 lag))
      (modPair p (fun x => { x with lag := some lag, sxx := [], syy := [], sxy := [], h := [], frames := 0 }) u)
  else modPair p (fun x => { x with lag := some lag }) u

/-- The search of pair `p` ends: it is dated, and its lag is taken, or the search counts as one without a lag (R269). -/
def searchOutcome (p : Nat) (s : State) : Option Int → State
  | none => count Reg.MEA_NODELAY_CNT.base (modPair p (fun x => { x with searched := some (monoSec s) }) s)
  | some lag => lagTaken p (pairSt s p).lag lag (modPair p (fun x => { x with searched := some (monoSec s) }) s)

/-- The ticks between publications: PUBLISH, where 0 means 1000 (R274). -/
def publishEvery (s : State) : Nat :=
  if actF s Reg.MEA_LIVE_CTRL.base 15 0 = 0 then 1000 else actF s Reg.MEA_LIVE_CTRL.base 15 0

/-- Every enabled pair's estimate written and EV_MEA_LIVE raised; the other copy is next (R270). -/
def livePublished (s : State) : State :=
  raise 0x1F (bytesOf 1 s.mea.copy ++ bytesOf 2 (enabledPairs s).length)
    ((enabledPairs s).foldl
      (pairPublish (addrOf (actW s Reg.MEA_LIVE_BASE_LO.base) (actW s Reg.MEA_LIVE_BASE_HI.base)) s.mea.copy)
      { s with mea := { s.mea with lastPub := nowTick s, copy := 1 - s.mea.copy } })

section live

variable {s : State} (hl : liveOn s = true)
include hl

theorem liveFrames_due (hd : s.mea.lastFrame + liveFft s / 2 ≤ 16 * s.mea.capNext) :
    liveFrames s = (livePairs s).foldl pairFrame
      { s with mea := { s.mea with lastFrame := 16 * s.mea.capNext / (liveFft s / 2) * (liveFft s / 2) } } := by
  simp [liveFrames, hl, Nat.not_lt.2 hd]

theorem delaySearch_pair {p : Nat} (hp : searchPair s = some p) :
    delaySearch s = searchOutcome p s
      (lagOf s (tabGet ⟨[], []⟩ s.mea.refs (pairOut s p)).smp (tabGet ⟨[], []⟩ s.mea.mics (pairMic s p)).smp) := by
  simp only [delaySearch, hp, hl, Bool.not_true, Bool.false_eq_true, if_false]
  generalize lagOf s _ _ = found
  cases found with
  | none => rfl
  | some lag => cases hold : (pairSt s p).lag <;> simp [searchOutcome, lagTaken, hold]

theorem livePublish_due (hd : s.mea.lastPub + publishEvery s ≤ nowTick s) :
    livePublish s = if actB s Reg.MEA_LIVE_CTRL.base 30 = true
      then meaTask ((List.range 4).map (fun i => actW s (Reg.MEA_LIVE_TASK.at i))) (livePublished s)
      else livePublished s := by
  have hrest : (!liveOn s || decide (nowTick s < s.mea.lastPub + publishEvery s)) = false := by simpa [hl] using hd
  exact if_neg (Bool.eq_false_iff.1 hrest)

end live

/-! ### The obligation -/

/-- Settles O31: a full capture queued, the head run failed or written, and live estimation's frame, search and
publication. -/
theorem measurementRuns : Obligations.MeasurementRuns := by
  refine ⟨fun s w hw hu => ⟨?capture, fun k ks hq => ⟨?uncorrectable, ?results⟩⟩,
    fun s w hw hu hl => ⟨?frame, ?search, ?publish⟩⟩
  case capture => exact fun k hs hc => upRow_leaves hw hu (captureEnd_full hs hc)
  case uncorrectable => exact fun a as hue => upRow_leaves hw hu (runDone_uncorrectable hq hue)
  case results =>
    rintro t hue rfl
    exact upRow_leaves hw hu (runDone_results hq hue)
  case frame => exact fun hd => upRow_leaves hw hu (liveFrames_due hl hd)
  case search =>
    rintro p u hp rfl
    exact upRow_leaves hw hu (delaySearch_pair hl hp)
  case publish =>
    rintro every base t rfl rfl hd rfl
    exact upRow_leaves hw hu (livePublish_due hl hd)

end Sys2Proof.Proofs
end

section
/-! The family of the clocks: reference candidates that qualify and are lost (R279 to R283), and the selector, its lock, its
holdover and the retirement of a DPLL (R285 to R295). -/

namespace Sys2Proof.Proofs

open Sys2Proof Sys2Proof.Machine Sys2Proof.Laws

/-! ### The candidates' own states: what the selector and the time source leave alone -/

theorem raise_clk (code : Nat) (data : List Byte) (s : State) : (raise code data s).clk = s.clk := by
  obtain ⟨⟨p, w, y, h⟩, -⟩ := raise_ex code data s; rw [h]

@[simp] theorem raise_cands (code : Nat) (data : List Byte) (s : State) : (raise code data s).clk.cands = s.clk.cands :=
  congrArg ClkSt.cands (raise_clk code data s)
@[simp] theorem stick_cands (a i : Nat) (s : State) : (stick a i s).clk.cands = s.clk.cands := rfl
@[simp] theorem count_cands (a : Nat) (s : State) : (count a s).clk.cands = s.clk.cands := rfl
@[simp] theorem when_cands (c : Bool) (f : State → State) (s : State) :
    (when c f s).clk.cands = if c then (f s).clk.cands else s.clk.cands := apply_ite (fun t : State => t.clk.cands) _ _ _

@[simp] theorem candsShow_clk (s : State) : (candsShow s).clk = s.clk :=
  List.foldlRecOn (motive := fun t : State => t.clk = s.clk) (List.range 8) _ rfl fun _ ht _ _ => ht
@[simp] theorem clkShow_cands (s : State) : (clkShow s).clk.cands = s.clk.cands := by simp [clkShow]
@[simp] theorem clkFreq_cands (v : Int) (s : State) : (clkFreq v s).clk.cands = s.clk.cands := rfl

@[simp] theorem lockSpan_cands (s : State) : (lockSpan s).clk.cands = s.clk.cands := by
  unfold lockSpan
  split <;> rfl

@[simp] theorem clkGo_cands (state : Nat) (sel tgt : Option Nat) (redirect : Bool) (s : State) :
    (clkGo state sel tgt redirect s).clk.cands = s.clk.cands := by simp [clkGo, modClk]

@[simp] theorem enterHold_cands (s : State) : (enterHold s).clk.cands = s.clk.cands := by simp [enterHold]

@[simp] theorem takeTarget_cands (c : Nat) (redirect : Bool) (s : State) :
    (takeTarget c redirect s).clk.cands = s.clk.cands := by simp [takeTarget, modClk]

@[simp] theorem clkSelect_cands (s : State) : (clkSelect s).clk.cands = s.clk.cands := by
  unfold clkSelect
  dsimp only
  split
  · split
    · simp
    · split_ifs <;> simp [modClk]
  · split_ifs
    · split <;> simp
    · split
      · split_ifs <;> simp
      · simp

@[simp] theorem gmSet_cands (gm : Nat) (s : State) : (gmSet gm s).clk.cands = s.clk.cands := by
  unfold gmSet
  split <;> simp

@[simp] theorem sourceCheck_cands (changed : Bool) (s : State) : (sourceCheck changed s).clk.cands = s.clk.cands := by
  unfold sourceCheck
  dsimp only
  split
  · rfl
  · split <;> simp

theorem cand_modCand_same (c : Nat) (f : CandSt → CandSt) (s : State) : cand (modCand c f s) c = f (cand s c) := by
  simp [cand, modCand, tabGet_tabMod]

/-- A candidate that enters a state keeps the rate that it is expected at. -/
theorem cand_candGo_rate (c state : Nat) (s : State) : (cand (candGo c state s) c).rate = (cand s c).rate := by
  have hkeep (f : CandSt → CandSt) : cand (candChanged (modCand c f s)) c = f (cand s c) := by
    rw [← cand_modCand_same c f s]
    simp only [cand, candChanged, sourceCheck_cands, clkSelect_cands]
  rw [candGo, hkeep]

/-- A rate that a candidate already has need not be written with its period. -/
theorem modCand_rate_again {c r now : Nat} {ps : List Nat} {s : State} (h : (cand s c).rate = r) :
    modCand c (fun y => { y with rate := r, periods := ps, last := now }) s =
      modCand c (fun y => { y with periods := ps, last := now }) s := by
  subst h
  rfl

/-! ### Edges of word clock and AES3 candidates (R279 to R282) -/

/-- A candidate's first period, of the rate `r`, taken: it qualifies at that rate (R280, R282). -/
def edgeStarted (c period r : Nat) (s : State) : State :=
  modCand c (fun y => { y with rate := r, periods := [period], last := monoNs s })
    (candGo c 2 (modCand c (fun y => { y with rate := r, shown := hertz period }) s))

/-- A period taken with the ones before it, and their mean shown (R282, R307). -/
def edgeCounted (c period : Nat) (s : State) : State :=
  let ps := (period :: (cand s c).periods).take 64
  modCand c (fun y => { y with periods := ps, shown := hertz (ps.foldl (· + ·) 0 / ps.length), last := monoNs s }) s

section edges

variable {s : State} {c period : Nat} {e freq : Int}

/-- The test by which `edgeSeen` leaves an edge alone fails for a word clock or AES3 candidate that is on. -/
theorem edge_not_ignored (ht : candType s c = 2 ∨ candType s c = 3) (hp : period ≠ 0) (h0 : (cand s c).state ≠ 0) :
    ¬ ((cand s c).state = 0 ∨ (!(candType s c == 2 || candType s c == 3 || candType s c == 4)) = true ∨ period = 0) := by
  rcases ht with ht | ht <;> simp [ht, hp, h0]

theorem edgeSeen_starts {r : Nat} (ht : candType s c = 2 ∨ candType s c = 3) (hp : period ≠ 0)
    (hs : (cand s c).state = 1 ∨ (cand s c).state = 4) (hr : supportedRate s c period = some r) :
    edgeSeen c period e freq s =
      phaseSeen c (edgePhase (edgeStarted c period r s) c e) freq false (edgeStarted c period r s) := by
  have hrate : edgeStarted c period r s = modCand c (fun y => { y with periods := [period], last := monoNs s })
      (candGo c 2 (modCand c (fun y => { y with rate := r, shown := hertz period }) s)) :=
    modCand_rate_again (by rw [cand_candGo_rate, cand_modCand_same])
  rw [hrate]
  simp only [edgeSeen, if_neg (edge_not_ignored ht hp (by omega)), if_pos hs, hr]

theorem edgeSeen_unsupported (ht : candType s c = 2 ∨ candType s c = 3) (hp : period ≠ 0)
    (hs : (cand s c).state = 1 ∨ (cand s c).state = 4) (hr : supportedRate s c period = none) :
    edgeSeen c period e freq s =
      candShow c (modCand c (fun y => { y with shown := hertz period, last := monoNs s }) s) := by
  simp only [edgeSeen, if_neg (edge_not_ignored ht hp (by omega)), if_pos hs, hr]

section watched

variable {q : Nat} (ht : candType s c = 2 ∨ candType s c = 3) (hp : period ≠ 0)
  (hs : (cand s c).state = 2 ∨ (cand s c).state = 3) (hq : q = 1000000000000 / max 1 (cand s c).rate)
include ht hp hs hq

theorem edgeSeen_glitch (hg : q < 8 * (max q period - min q period)) :
    edgeSeen c period e freq s = candGlitch c
      (count Reg.CLK_GLITCH_CNT.base (modCand c (fun y => { y with last := monoNs s }) s)) := by
  subst hq
  simp only [edgeSeen, if_neg (edge_not_ignored ht hp (by omega)),
    if_neg (show ¬ ((cand s c).state = 1 ∨ (cand s c).state = 4) by omega), if_pos hg]

/-- A period within its bounds, of fewer than the 64 that a change of rate is judged by. -/
theorem edgeSeen_counts (hg : 8 * (max q period - min q period) ≤ q)
    (hl : ((period :: (cand s c).periods).take 64).length < 64) :
    edgeSeen c period e freq s = phaseSeen c (edgePhase (edgeCounted c period s) c e) freq false
      (candShow c (edgeCounted c period s)) := by
  subst hq
  have hfew (p : Prop) : ¬ (((period :: (cand s c).periods).take 64).length = 64 ∧ p) := fun h => hl.ne h.1
  simp only [edgeSeen, edgeCounted, if_neg (edge_not_ignored ht hp (by omega)),
    if_neg (show ¬ ((cand s c).state = 1 ∨ (cand s c).state = 4) by omega), if_neg (Nat.not_lt.2 hg), if_neg (hfew _)]

end watched

/-- An edge of a candidate other than a 1PPS is seen by that candidate alone. -/
theorem referenceEdgeRow_sees {w t : State} (hw : w = work s) (hu : up w uCLK) (hc : c < 8)
    (ht : candType w c = 2 ∨ candType w c = 3) (h : edgeSeen c period e freq w = t) :
    exec (.referenceEdge c period e freq) s = leaves s t := by
  refine upRow_leaves hw hu ?_
  rw [if_neg (Nat.not_le.2 hc), if_pos (show candType w c ≠ 4 by omega), h]

/-- A 1PPS edge is seen by every 1PPS candidate, between the second that it takes and the one that it passes (R301). -/
theorem referenceEdgeRow_pps {w : State} (hw : w = work s) (hu : up w uCLK) (hc : c < 8) (hf : firstPps w = some c)
    (ht : candType w c = 4) :
    exec (.referenceEdge c period e freq) s = leaves s (ppsOn ((ppsCands (ppsTake w)).foldl
      (fun u k => edgeSeen k period e freq u) (ppsTake w))) := by
  refine upRow_leaves hw hu ?_
  rw [if_neg (Nat.not_le.2 hc), if_neg (not_not.2 ht), if_pos hf]
  rfl

end edges

/-! ### Loss and qualification (R280, R282) -/

/-- A row that acts behind a condition on its operands, of a unit that is up. -/
theorem guardedRow_leaves {u : Nat} {b : Bool} {f : State → State} {s w t : State} (hw : w = work s) (hu : up w u)
    (hb : b = true) (h : f w = t) : run (whenUp u (fun x => when b f x)) s = leaves s t :=
  upRow_leaves hw hu (by rw [hb, when_true, h])

section candidates

variable {s : State} {c : Nat}

theorem candLoss_due (ht : candType s c = 2 ∨ candType s c = 3 ∨ candType s c = 4)
    (hd : (cand s c).last * (cand s c).rate + 3000000000 ≤ monoNs s * (cand s c).rate) : candLoss c s = candLose c s :=
  if_pos ⟨ht, hd⟩

theorem qualDone_due (hs : (cand s c).state = 2) (hd : (cand s c).since + candQual s c * 1000000 ≤ monoNs s) :
    qualDone c s = candGo c 3 s :=
  if_pos ⟨hs, hd⟩

theorem candLose_present (h : 2 ≤ (cand s c).state) : candLose c s = candGo c 1 (candHist c 1 s) :=
  if_neg (Nat.not_lt.2 h)

/-! ### A write to a candidate's record (R285, R307) -/

/-- Word `i` of a candidate's record changes its EN, TYPE, INST or NOMINAL from `old` to `new` (R285). -/
def candRestarts (i : Nat) (old new : Word) : Prop :=
  (i = 0 ∧ old &&& 0x800F00FF ≠ new &&& 0x800F00FF) ∨ (i = 3 ∧ old ≠ new)

theorem not_candRestarts {i : Nat} {old new : Word}
    (h : i = 1 ∨ i = 2 ∨ (i = 0 ∧ old &&& 0x800F00FF = new &&& 0x800F00FF) ∨ (i = 3 ∧ old = new)) :
    ¬ candRestarts i old new := by
  rintro (⟨rfl, hne⟩ | ⟨rfl, hne⟩) <;> exact hne (by simpa using h)

theorem candActs_keeps {i : Nat} {old new : Word} (h : ¬ candRestarts i old new) : candActs c i old new s = s := by
  refine if_pos ?_
  rw [Bool.not_eq_true', decide_eq_false_iff_not]
  exact h

theorem candActs_restarts {i : Nat} {old new : Word} (h : candRestarts i old new) :
    candActs c i old new s = candGo c (if candUsable s c = false then 0 else if candType s c = 5 then 3 else 1)
      (if s.clk.sel = some c then candHist c 1 s else s) := by
  refine (if_neg ?_).trans (by simp only [Bool.not_eq_true'])
  rw [Bool.not_eq_true', decide_eq_false_iff_not, not_not]
  exact h

/-- The row of a write to a candidate's record sets the word, and it acts. -/
theorem candidateWriteRow_acts {i : Nat} {v : Word} {w t : State} (hw : w = work s) (hu : up w uCLK) (hc : c < 8)
    (hi : i < 4) (h : candActs c i (actW w (Reg.CLK_CAND0.at c + 4 * i)) (v &&& candMask i)
      (setW (Reg.CLK_CAND0.at c + 4 * i) (v &&& candMask i) w) = t) :
    exec (.candidateWrite c i v) s = leaves s t :=
  guardedRow_leaves hw hu (decide_eq_true ⟨hc, hi⟩) h

end candidates

/-! ### The DPLL: its lock and its holdover (R287, R288, R291) -/

section dpll

variable {s : State}

theorem lockAchieved_held {t : Nat} (ht : s.clk.inSince = some t) (hs : s.clk.state = 1 ∨ s.clk.state = 4)
    (hd : t + 1000000000 ≤ monoNs s) :
    lockAchieved s = modClk (fun k => { k with integ := (cand s (s.clk.sel.getD 0)).freq * 2 ^ 32 })
      (clkGo 2 s.clk.sel none false s) := by
  simp only [lockAchieved, ht, hs, hd, and_self, if_true]

/-- HOLD_MAX has passed in holdover, and the FREE candidate `f` can be selected (R287). -/
def holdMaxPassed (f : Nat) (s : State) : Prop :=
  s.clk.state = 3 ∧ actF s Reg.CLK_CTRL.base 31 16 ≠ 0 ∧
    s.clk.holdSince + actF s Reg.CLK_CTRL.base 31 16 * 1000000000 ≤ monoNs s ∧ freeCand s = some f

/-- The pull back to nominal begins (R287). -/
def pullBegun (s : State) : State := modClk (fun k => { k with pullFree := true }) s

theorem holdExpiry_pulls {f : Nat} (h : holdMaxPassed f s) :
    holdExpiry s = if s.clk.freq = 0 then pullTick (pullBegun s) else pullBegun s := by
  obtain ⟨hs, hmax, hd, hf⟩ := h
  exact if_pos ⟨hs, hmax, hd, by rw [hf]; rfl⟩

theorem toward0_zero (d : Nat) : toward0 d 0 = 0 := by
  have hlow : ¬ (0 : Int) < -(d : Int) := by omega
  have hhigh : ¬ (d : Int) < 0 := by omega
  simp only [toward0, clampI, if_neg hlow, if_neg hhigh, sub_self]

/-- A pull whose frequency is nominal already ends in FREE. -/
theorem pullTick_nominal {f : Nat} (hp : s.clk.pullFree = true) (h0 : s.clk.freq = 0) (hf : freeCand s = some f) :
    pullTick s = clkGo 0 (some f) none false (clkFreq 0 s) := by
  simp only [pullTick, hp, hf, h0, toward0_zero, Bool.not_true, Bool.false_eq_true, if_false, if_true]

end dpll

/-! ### The obligation -/

/-- Settles O32: edges that start, disturb or keep up a candidate's qualification, its end and its loss; the DPLL's lock, the
end of its holdover, writes that act on either, and a DPLL's retirement now or in its turn. -/
theorem clockCandidatesAndSelection : Obligations.ClockCandidatesAndSelection := by
  refine ⟨fun s w c hw hu hc => ⟨?starts, ?watched, ?pps, ?loss, ?qualified, candLose_present⟩,
    fun s w hw hu => ⟨?lock, ?hold, ?ctrl, ?record, ?retire⟩⟩
  case starts =>
    rintro period r e f t ht hp hs
    refine ⟨?_, fun hr => referenceEdgeRow_sees hw hu hc ht (edgeSeen_unsupported ht hp hs hr)⟩
    rintro hr rfl
    exact referenceEdgeRow_sees hw hu hc ht (edgeSeen_starts ht hp hs hr)
  case watched =>
    rintro period q e f ht hp hs hq
    refine ⟨fun hg => referenceEdgeRow_sees hw hu hc ht (edgeSeen_glitch ht hp hs hq hg), ?_⟩
    rintro ps t rfl rfl hg hl
    exact referenceEdgeRow_sees hw hu hc ht (edgeSeen_counts ht hp hs hq hg hl)
  case pps => exact fun period e f hf ht => referenceEdgeRow_pps hw hu hc hf ht
  case loss => exact fun ht hd => guardedRow_leaves hw hu (decide_eq_true hc) (candLoss_due ht hd)
  case qualified => exact fun hs hd => guardedRow_leaves hw hu (decide_eq_true hc) (qualDone_due hs hd)
  case lock => exact fun t ht hs hd => upRow_leaves hw hu (lockAchieved_held ht hs hd)
  case hold =>
    rintro f h t rfl hmax hs hd hf rfl
    have hpull := holdExpiry_pulls ⟨hs, hmax, hd, hf⟩
    refine ⟨fun hne => upRow_leaves hw hu (hpull.trans (if_neg hne)), fun h0 hfree => upRow_leaves hw hu ?_⟩
    exact hpull.trans ((if_pos h0).trans (pullTick_nominal rfl h0 hfree))
  case ctrl => exact fun v => upRow_leaves hw hu rfl
  case record =>
    rintro c i a v x hc hi rfl rfl t rfl
    exact ⟨fun hk => candidateWriteRow_acts hw hu hc hi (candActs_keeps (not_candRestarts hk)),
      fun hr => candidateWriteRow_acts hw hu hc hi (candActs_restarts hr)⟩
  case retire =>
    exact fun cause hcause hr => ⟨fun hq hb => retireRow_asks hw hu hcause (hltRetire_now hr hq hb),
      fun hn hb => retireRow_asks hw hu hcause (hltRetire_waits hr hn hb)⟩

end Sys2Proof.Proofs
end

section
/-! The family of PTP: messages received (R297 to R299), time-outs of PTP and of link time (R283, R378), and the messages
that the device sends of its own accord (R298). -/

namespace Sys2Proof.Proofs

open Sys2Proof Sys2Proof.Machine Sys2Proof.Laws

/-! ### Messages received (R297 to R299) -/

section received

variable {s : State} (hon : ptpOn s = true)
include hon

/-- A Sync from the master, at an interval that PTP accepts. -/
theorem syncReceive_offset {hd : Nat} {t1 t2 corr pred freq : Int} {t : State} (hdom : hd % 256 = ptpDomain s)
    (hm : s.tim.master ≠ none) (hlow : 7812500 ≤ syncNs hd) (hhigh : syncNs hd ≤ 2000000000)
    (ht : t = ptpGo 9 (modTim (fun x => { x with syncDiff := quantFx t2 - t1 - corr }) s)) :
    syncReceive hd t1 t2 corr pred freq s = (ptpCands t).foldl
      (candOffset (quantFx t2 - t1 - corr - s.tim.meanDelay - asymmetry s) pred freq (syncNs hd)) t := by
  subst ht
  refine if_neg ?_
  simpa [hon, hdom, hm] using ⟨hlow, hhigh⟩

/-- An Announce of another clock: its data set replaces the one that its sender sent before, and the best master is found. -/
theorem announce_qualified {m : Master} (hsteps : m.steps < 255) (hsender : m.sender ≠ Config.clockIdentity % 2 ^ 64)
    (hlow : 125000000 ≤ m.interval) (hhigh : m.interval ≤ 8000000000) :
    announce (ptpDomain s) m s = bmca (modTim (fun t => { t with
      masters := (t.masters.filter (fun o => o.sender != m.sender)) ++ [{ m with heard := monoNs s }] }) s) := by
  refine if_neg ?_
  simpa [hon] using ⟨⟨⟨hsteps, hsender⟩, hlow⟩, hhigh⟩

section delay

variable {t1 t2 t3 t4 corr ratio : Int}

/-- The test by which `delayMessage` leaves a message alone fails for one of the device's own domain. -/
theorem ptpMessage_not_ignored : ¬ (!ptpOn s || ptpDomain s != ptpDomain s) = true := by simp [hon]

theorem delayMessage_request (hp : ptpP2P s = false) (hs : s.tim.portState = 6) :
    delayMessage 0 (ptpDomain s) t1 t2 t3 t4 corr ratio s = sendPtp s.tim.port 9 false [quantFx t4] s := by
  refine (if_neg (ptpMessage_not_ignored hon)).trans (if_pos ?_)
  simp [hs, hp]

theorem delayMessage_response {sent : Int} (hx : tabFind? 1 s.tim.txStamp = some sent) (hp : ptpP2P s = false)
    (hs : s.tim.portState = 8 ∨ s.tim.portState = 9) :
    delayMessage 1 (ptpDomain s) t1 t2 t3 t4 corr ratio s = meanDelay ((s.tim.syncDiff + (t4 - sent - corr)) / 2)
      (modTim (fun t => { t with txStamp := tabErase 1 t.txStamp }) s) := by
  refine (if_neg (ptpMessage_not_ignored hon)).trans ?_
  simp only [hx, hs, hp, Bool.not_false, and_self, if_true]

theorem delayMessage_peerRequest (hp : ptpP2P s = true) :
    delayMessage 2 (ptpDomain s) t1 t2 t3 t4 corr ratio s = sendPtp s.tim.port 3 false [quantFx t2] s :=
  (if_neg (ptpMessage_not_ignored hon)).trans (if_pos hp)

/-- A response of the peer gives the neighbour's rate and the mean delay; under the profile 2 the peer is capable. -/
theorem delayMessage_peerResponse {sent : Int} {x : State} (hx : tabFind? 2 s.tim.txStamp = some sent)
    (hp : ptpP2P s = true)
    (hd : x = modTim (fun t => { t with neighRate := ratio, txStamp := tabErase 2 t.txStamp })
      (meanDelay (((quantFx t4 - sent) * ratio / 2 ^ 32 - (t3 - t2) - corr) / 2) s)) :
    delayMessage 3 (ptpDomain s) t1 t2 t3 t4 corr ratio s =
      if ptpProfile s = 2 then setF Reg.TIM_PTP_STAT.base 7 7 1 x else x := by
  refine (if_neg (ptpMessage_not_ignored hon)).trans ?_
  simp only [hx, hp, hd, if_true]

end delay
end received

/-! ### Time-outs (R283, R298, R378) -/

section timeouts

variable {s : State}

theorem announceTimeout_master {m : Master} (hon : ptpOn s = true) (hm : s.tim.master = some m)
    (hh : masterHeard s m = false) :
    announceTimeout s = bmca (ptpLost (count Reg.TIM_ANN_TIMEOUT_CNT.base s)) := by
  simp only [announceTimeout, hon, hm, hh, Bool.not_true, Bool.false_eq_true, if_false]

theorem syncTimeout_due {c : Nat} (hon : ptpOn s = true) (hc : c ∈ ptpCands s) (hs : 2 ≤ (cand s c).state)
    (hd : (cand s c).last + 3 * (cand s c).interval ≤ monoNs s) : syncTimeout s = ptpLost s :=
  if_pos ⟨hon, List.any_eq_true.2 ⟨c, hc, by simp [hs, hd]⟩⟩

theorem ptpReturn_due {t : Nat} (hon : ptpOn s = true) (ht : s.tim.portBack = some t)
    (hd : t + 2000000000 ≤ monoNs s) : ptpReturn s = ptpListen (ptpPort s) s := by
  simp only [ptpReturn, ht, hon, hd, and_self, if_true]

theorem timeTimeout_due {n : Nat} (hl : (linkSt s n).up = true) (hd : (linkSt s n).heard + 3 * timeInt s n ≤ monoNs s) :
    timeTimeout n s = (linkCands s n).foldl (fun t c => candLose c t) s :=
  if_pos ⟨hl, hd⟩

end timeouts

/-! ### Messages sent (R298, R299) -/

/-- A message of logInterval `log` that was last sent at `last`, 0 for never, may be sent (R298). -/
def sendDue (s : State) (last log : Nat) : Prop := last = 0 ∨ last + logInterval log ≤ monoNs s

section sent

variable {s : State} (hon : ptpOn s = true)
include hon

theorem ptpSend_sync (hs : s.tim.portState = 6)
    (hd : sendDue s s.tim.sentSync (fld (actW s Reg.TIM_PTP_CFG.base) 19 16)) :
    ptpSend 0 s = sendPtp s.tim.port 0 false [] (modTim (fun t => { t with sentSync := max 1 (monoNs s) }) s) := by
  refine (if_neg (by simp [hon])).trans (if_pos ⟨hs, ?_⟩)
  simpa [sendDue] using hd

theorem ptpSend_announce (hs : s.tim.portState = 6)
    (hd : sendDue s s.tim.sentAnn (fld (actW s Reg.TIM_PTP_CFG.base) 23 20)) :
    ptpSend 1 s = setF Reg.TIM_PTP_STAT.base 31 16 (ownMaster s).utc (sendPtp s.tim.port 11 false
      ([(ownMaster s).prio1, (ownMaster s).cls, (ownMaster s).acc, (ownMaster s).var, (ownMaster s).prio2, (ownMaster s).gm,
        (ownMaster s).utc].map (fun v => (v : Int))) (modTim (fun t => { t with sentAnn := max 1 (monoNs s) }) s)) := by
  refine (if_neg (by simp [hon])).trans (if_pos ⟨hs, ?_⟩)
  simpa [sendDue] using hd

theorem ptpSend_peerDelay (hp : ptpP2P s = true) :
    ptpSend 2 s = sendPtp s.tim.port 2 false [] (modTim (fun t => { t with sentDelay := max 1 (monoNs s) }) s) :=
  (if_neg (by simp [hon])).trans (if_pos hp)

theorem ptpSend_delay (hp : ptpP2P s = false) (hs : s.tim.portState = 8 ∨ s.tim.portState = 9) :
    ptpSend 2 s =
      sendPtp s.tim.port 1 (ptpHybrid s) [] (modTim (fun t => { t with sentDelay := max 1 (monoNs s) }) s) :=
  (if_neg (by simp [hon])).trans ((if_neg (by simp [hp])).trans (if_pos hs))

end sent

/-- A message whose time counts is stamped as its first byte leaves, and its follow-up is sent (R299). -/
theorem ptpStart_stamps {p ofs k sa : Nat} {u : Bool} {f : List Int} {t : Int} {s x : State} (hk : k ≤ 3)
    (ht : t = (timeFx s + (ofs * 16384 : Nat)) / 16384 * 16384)
    (hx : x = modTim (fun m => { m with txStamp := tabSet k t m.txStamp }) s) :
    ptpStart p ofs (some (.ptp p k u sa f)) s =
      if k = 0 then sendPtp p 8 false [t] x else if k = 3 then sendPtp p 10 false [t] x else x := by
  subst hx ht
  exact if_neg (Nat.not_lt.2 hk)

/-! ### The obligation -/

/-- Settles O33: what each message of the device's own domain does, what each time-out does, and what PTP sends when its
time has come. -/
theorem ptpInstanceActs : Obligations.PtpInstanceActs := by
  refine ⟨fun s w hw hu hon => ⟨?sync, ?announce, ?delay⟩,
    fun s w hw hu => ⟨?annTimeout, ?syncTimeout, ?portReturn, ?send, ?stamp, ?timeFrame⟩⟩
  case sync =>
    rintro hd iv t1 t2 corr pred freq t hdom rfl hm hlow hhigh ht
    exact upRow_leaves hw hu (syncReceive_offset hon hdom hm hlow hhigh ht)
  case announce =>
    exact fun p1 cl ac va p2 gm st sd ut iv hsteps hlow hhigh hsender =>
      upRow_leaves hw hu (announce_qualified hon hsteps hsender hlow hhigh)
  case delay =>
    refine fun t1 t2 t3 t4 corr ratio => ⟨fun hp hs => upRow_leaves hw hu (delayMessage_request hon hp hs),
      fun sent hx hp hs => upRow_leaves hw hu (delayMessage_response hon hx hp hs),
      fun hp => ⟨upRow_leaves hw hu (delayMessage_peerRequest hon hp), ?_⟩⟩
    exact fun sent x hx hd => upRow_leaves hw hu (delayMessage_peerResponse hon hx hp hd)
  case annTimeout => exact fun m hon hm hh => upRow_leaves hw hu (announceTimeout_master hon hm hh)
  case syncTimeout => exact fun c hon hc hs hd => upRow_leaves hw hu (syncTimeout_due hon hc hs hd)
  case portReturn => exact fun t hon ht hd => upRow_leaves hw hu (ptpReturn_due hon ht hd)
  case send =>
    rintro cfg rfl hon
    refine ⟨fun hs => ⟨fun hd => upRow_leaves hw hu (ptpSend_sync hon hs hd), ?_⟩,
      fun hp => upRow_leaves hw hu (ptpSend_peerDelay hon hp),
      fun hp hs => upRow_leaves hw hu (ptpSend_delay hon hp hs)⟩
    rintro o rfl hd
    exact upRow_leaves hw hu (ptpSend_announce hon hs hd)
  case stamp => exact fun p ofs k sa u f t x => ptpStart_stamps
  case timeFrame => exact fun n hp hl hd => upRow_leaves hw ⟨hu.1, hp⟩ (timeTimeout_due hl hd)

end Sys2Proof.Proofs
end

section
/-! The family of seconds, triggers and captures (R301 to R305). -/

namespace Sys2Proof.Proofs

open Sys2Proof Sys2Proof.Machine Sys2Proof.Laws

/-! ### A word whose new value waits (R301) -/

/-- A word written that does not act yet. -/
def writeWaits (a : Nat) (v : Word) (s : State) : State :=
  { s with words := { s.words with wr := tabSet a v s.words.wr } }

theorem regW_writeWaits (a : Nat) (v : Word) (s : State) (b : Nat) :
    regW (writeWaits a v s) b = if b = a then v else regW s b := by
  have hfind : tabFind? b (writeWaits a v s).words.wr = if b = a then some v else tabFind? b s.words.wr :=
    tabFind_tabSet a v s.words.wr b
  unfold regW
  rw [hfind]
  by_cases h : b = a
  · simp only [if_pos h]
  · simp only [if_neg h]
    rfl

/-- A write of either word of `TIM_PPS_SEC`: both are taken together at the next edge. -/
theorem ppsWrite_waits {hi : Bool} {v l u : Word} {s : State} (hl : l = if hi then regW s Reg.TIM_PPS_SEC_LO.base else v)
    (hu : u = if hi then v else regW s Reg.TIM_PPS_SEC_HI.base) :
    ppsWrite hi v s = modTim (fun t => { t with ppsWait := some (fld l 31 0 + 2 ^ 32 * fld u 31 0, monoNs s) })
      (writeWaits (if hi then Reg.TIM_PPS_SEC_HI.base else Reg.TIM_PPS_SEC_LO.base) v s) := by
  have hlow : regW (writeWaits (if hi then Reg.TIM_PPS_SEC_HI.base else Reg.TIM_PPS_SEC_LO.base) v s)
      Reg.TIM_PPS_SEC_LO.base = l := by
    rw [regW_writeWaits, hl]
    cases hi <;> rfl
  have hhigh : regW (writeWaits (if hi then Reg.TIM_PPS_SEC_HI.base else Reg.TIM_PPS_SEC_LO.base) v s)
      Reg.TIM_PPS_SEC_HI.base = u := by
    rw [regW_writeWaits, hu]
    cases hi <;> rfl
  rw [← hlow, ← hhigh]
  rfl

/-! ### Triggers (R302 to R304) -/

section triggers

variable {s : State} {i : Nat} {v : Word}

theorem trigWrite_disarms (hv : bit v 0 = false) : trigWrite i v s =
    modTrig i (fun _ => trigZero) (setW (Reg.TIM_TRIG3.at i) (v &&& fieldsMask Reg.TIM_TRIG3) s) :=
  if_pos (by rw [hv]; rfl)

theorem trigWrite_armed (hv : bit v 0 = true) (ha : (trig s i).armed = true) :
    trigWrite i v s = setW (Reg.TIM_TRIG3.at i) (v &&& fieldsMask Reg.TIM_TRIG3) s :=
  (if_neg (by simp [hv])).trans (if_pos ha)

/-- Arming takes the record's words as they stand; a point that has passed is late, and one that has come fires. -/
theorem trigWrite_arms {t : State} {x : TrigSt} (ht : t = setW (Reg.TIM_TRIG3.at i) (v &&& fieldsMask Reg.TIM_TRIG3) s)
    (hx : x = ⟨true, fld (regW t (Reg.TIM_TRIG0.at i)) 31 0 + 2 ^ 32 * fld (regW t (Reg.TIM_TRIG1.at i)) 31 0,
      fld (regW t (Reg.TIM_TRIG2.at i)) 31 0, v, (List.range 4).map (fun k => regW t (Reg.TIM_TRIGREC.at i k)),
      0, false, false⟩) (hv : bit v 0 = true) (ha : (trig s i).armed = false) :
    trigWrite i v s = trigFire i (trigLate i (modTrig i (fun _ => trigReady x) t)) := by
  subst ht hx
  exact (if_neg (by simp [hv])).trans (if_neg (by simp [ha]))

theorem trigFire_armed (ha : (trig s i).armed = true) : trigFire i s = trigNext i (trigDue i s) := if_pos ha

end triggers

/-! ### Captures (R305) -/

theorem captureEdge_source {src q : Nat} {falling : Bool} {s : State} (h : src < 22) :
    captureEdge src falling q s = ((List.range 16).filter (captures s src falling)).foldl (captureOn falling q) s :=
  if_neg (Nat.not_le.2 h)

/-! ### The obligation -/

/-- Settles O34: a second written, a trigger disarmed, kept, armed and fired, and an edge captured. -/
theorem triggersAndCaptures : Obligations.TriggersAndCaptures := by
  refine fun s w hw hu => ⟨?second, fun i v hi => ⟨?disarm, ?keep, ?arm, ?fire⟩, ?capture⟩
  case second => exact fun high v l u hl hh => upRow_leaves hw hu (ppsWrite_waits hl hh)
  case disarm => exact fun hv => guardedRow_leaves hw hu (decide_eq_true hi) (trigWrite_disarms hv)
  case keep => exact fun hv ha => guardedRow_leaves hw hu (decide_eq_true hi) (trigWrite_armed hv ha)
  case arm =>
    exact fun t x ht hx hv ha => guardedRow_leaves hw hu (decide_eq_true hi) (trigWrite_arms ht hx hv ha)
  case fire => exact fun ha => guardedRow_leaves hw hu (decide_eq_true hi) (trigFire_armed ha)
  case capture => exact fun src q falling hsrc => upRow_leaves hw hu (captureEdge_source hsrc)

end Sys2Proof.Proofs
end

section
/-! The family of the Ethernet ports: frames received (R316 to R324), links that fall and rise (R312, R315), frames sent
and the credits that hold them back (R333, R334). -/

namespace Sys2Proof.Proofs

open Sys2Proof Sys2Proof.Machine Sys2Proof.Laws

/-- A row of a port that exists leaves what its function makes of the state. -/
theorem netRow_leaves {p : Nat} {f : State → State} {s w t : State} (hw : w = work s) (hu : up w uNET)
    (hp : p < netPorts w) (h : f w = t) :
    run (whenUp uNET (fun x => when (decide (p < netPorts x)) f x)) s = leaves s t :=
  upRow_leaves hw hu (by rw [decide_eq_true hp, when_true, h])

/-! ### Frames received (R316 to R324) -/

/-- What is left of a frame discarded after queue `n` had taken cells for it: the fewest free cells (R328). -/
def cellsTaken (p n : Nat) (bs : List Byte) (s : State) : State :=
  poolLow (freeCells s - cellsGranted s n (min (bs.length + 4) (maxFrame s p + 1))) s

section received

variable {s : State} {p q k e n : Nat} {bs : List Byte} {code fcs : Bool} (hm : netMode s p ≠ 0)
  (hl : (portSt s p).link = true)
include hm hl

/-- The test by which `frameReceive` leaves a frame alone fails on a port that is on and whose link is up. -/
theorem port_receives : ¬ (netMode s p = 0 ∨ (!(portSt s p).link) = true) := by simp [hm, hl]

/-- A code error is counted and shown, whatever the other checks find; a frame that would have had a queue has taken
cells. -/
theorem frameReceive_codeError {low : State} (hc : frameCheck s p bs code = .inl 1)
    (htaken : ∀ k e n : Nat, frameCheck s p bs false = .inr (k, e, n) → low = cellsTaken p n bs s)
    (hnone : ∀ k : Nat, frameCheck s p bs false = .inl k → low = s) :
    frameReceive p bs code fcs q s = stick (Reg.NET_HIST.at p) 0 (count (Reg.NET_PCS_ERR_CNT.at p) low) := by
  refine (if_neg (port_receives hm hl)).trans ?_
  cases hf : frameCheck s p bs false with
  | inl k => simp only [hc, hnone k hf]
  | inr x => simp only [hc, htaken _ _ _ hf, cellsTaken]

theorem frameReceive_runt (hc : frameCheck s p bs code = .inl 2) :
    frameReceive p bs code fcs q s = count (Reg.NET_RUNT_CNT.at p) s :=
  (if_neg (port_receives hm hl)).trans (by simp only [hc])

theorem frameReceive_filtered (hc : frameCheck s p bs code = .inl 3) :
    frameReceive p bs code fcs q s = count (Reg.NET_FILTER_CNT.at p) s :=
  (if_neg (port_receives hm hl)).trans (by simp only [hc])

section steered

variable (hc : frameCheck s p bs code = .inr (k, e, n))
include hc

theorem frameReceive_giant (h : maxFrame s p < bs.length + 4) :
    frameReceive p bs code fcs q s = count (Reg.NET_GIANT_CNT.at p) (cellsTaken p n bs s) := by
  refine (if_neg (port_receives hm hl)).trans ?_
  simp only [hc, if_pos h, cellsTaken]

theorem frameReceive_badFcs (h : bs.length + 4 ≤ maxFrame s p) (hf : fcs = true) :
    frameReceive p bs code fcs q s = count (Reg.NET_FCS_CNT.at p) (cellsTaken p n bs s) := by
  refine (if_neg (port_receives hm hl)).trans ?_
  simp only [hc, if_neg (Nat.not_lt.2 h), if_pos hf, cellsTaken]

/-- A sound frame goes to its queue behind the 32 bytes that describe it (R323), and is counted where the queue
had the cells for it. -/
theorem frameReceive_stores {pre : List Byte} (h : bs.length + 4 ≤ maxFrame s p) (hf : fcs = false)
    (hpre : pre = prefixOf (bs.length + 4) p (1 + frameFlags bs) (frameTci s p bs) e s q) :
    frameReceive p bs code fcs q s = if (storeFrame n pre bs (bs.length + 4) s).1
      then count (Reg.NET_RX_OK_CNT.at p) (storeFrame n pre bs (bs.length + 4) s).2
      else (storeFrame n pre bs (bs.length + 4) s).2 := by
  subst hf hpre
  refine (if_neg (port_receives hm hl)).trans ?_
  simp only [hc, if_neg (Nat.not_lt.2 h), Bool.false_eq_true, if_false]

end steered
end received

/-! ### Links (R312, R315, R593) -/

theorem portSt_modPort_same (p : Nat) (f : PortSt → PortSt) (s : State) :
    portSt (modPort p f s) p = f (portSt s p) := by
  simp [portSt, modPort, tabGet_tabMod]

theorem portSt_congr {s t : State} (h : t.net.ports = s.net.ports) (p : Nat) : portSt t p = portSt s p := by
  simp only [portSt, h]

theorem portSt_raise (code : Nat) (data : List Byte) (s : State) (p : Nat) :
    portSt (raise code data s) p = portSt s p := by
  obtain ⟨⟨o, w, y, h⟩, -⟩ := raise_ex code data s
  exact portSt_congr (by rw [h]) p

/-- Queues cleared of what waits leave the ports as they are. -/
theorem portSt_txDiscard (p : Nat) (s : State) (k : Nat) : portSt (txDiscard p s) k = portSt s k := by
  refine portSt_congr ?_ k
  exact List.foldlRecOn (motive := fun t : State => t.net.ports = s.net.ports) (txWaiting s p) _ rfl fun _ ht _ _ => ht

theorem netDown_link (p : Nat) (s : State) : (portSt (netDown p s) p).link = false := by
  unfold netDown
  dsimp only
  rw [portSt_raise]
  exact congrArg PortSt.link ((portSt_txDiscard p _ p).trans (portSt_modPort_same p _ _))

theorem netUp_link (p rate : Nat) (s : State) : (portSt (netUp p rate s) p).link = true :=
  congrArg PortSt.link (portSt_modPort_same p _ s)

/-- PTP notes a link that rises without touching the ports (R298). -/
theorem portSt_ptpLink_up (p : Nat) (s : State) (k : Nat) : portSt (ptpLink p true s) k = portSt s k := by
  unfold ptpLink
  split <;> rfl

section links

variable {s : State} {p r k : Nat} (hp : p < netPorts s)
include hp

theorem portLink_falls (hl : (portSt s p).link = true) : portLink p false r s = ptpLink p false (netDown p s) := by
  have hn : netLink p false r s = netDown p s := (if_neg (by simp [hp, hl])).trans (if_pos rfl)
  unfold portLink
  simp [hn, netDown_link, hl]

theorem netLink_rises (hl : (portSt s p).link = false) (hr : netRate s p r = some k) :
    netLink p true r s = if netRef s = true then netUp p k s else s := by
  refine (if_neg (by simp [hp, hl])).trans ((if_neg (by decide)).trans ?_)
  simp only [hr]

theorem portLink_rises (hl : (portSt s p).link = false) (hr : netRate s p r = some k) (href : netRef s = true) :
    portLink p true r s = ptpLink p true (netUp p k s) := by
  have hn : netLink p true r s = netUp p k s := (netLink_rises hp hl hr).trans (if_pos href)
  unfold portLink
  simp [hn, netUp_link, hl]

theorem portLink_noReference (hl : (portSt s p).link = false) (hr : netRate s p r = some k) (href : netRef s = false) :
    portLink p true r s = s := by
  have hn : netLink p true r s = s := (netLink_rises hp hl hr).trans (if_neg (by simp [href]))
  unfold portLink
  simp [hn]

end links

/-- The row of a link: streams report their groups on a port that has come up (R343). -/
theorem linkRow_leaves {p r : Nat} {rises : Bool} {s w u t : State} (hw : w = work s) (hu : up w uNET)
    (hp : p < netPorts w) (h : portLink p rises r w = u)
    (ht : when ((portSt u p).link && !(portSt w p).link) (igmpPort p) u = t) :
    exec (.linkStateChange p rises r) s = leaves s t :=
  netRow_leaves hw hu hp (by rw [h, ht])

/-! ### Frames sent (R333, R334) -/

section sending

variable {s : State} {p n : Nat}

theorem frameTransmit_down (hp : p < netPorts s) (hl : (portSt s p).link = false) :
    frameTransmit p n s = txDiscard p s :=
  (if_neg (Nat.not_le.2 hp)).trans (if_pos (by rw [hl]; rfl))

theorem frameTransmit_ends {x : Sending} (hp : p < netPorts s) (hl : (portSt s p).link = true)
    (hx : (portSt s p).sending = some x) :
    frameTransmit p n s = txPick p (txStop s p x) (n / 2 ^ 32) (txEnd p x s) := by
  simp only [frameTransmit, if_neg (Nat.not_le.2 hp), hl, hx, Bool.not_true, Bool.false_eq_true, if_false]

theorem frameTransmit_idle (hp : p < netPorts s) (hl : (portSt s p).link = true) (hx : (portSt s p).sending = none) :
    frameTransmit p n s =
      txPick p (now10 s + 25 * (n / 2 ^ 32)) (n / 2 ^ 32) (creditIdle p (n % 2 ^ 32 * 100) s) := by
  simp only [frameTransmit, if_neg (Nat.not_le.2 hp), hl, hx, Bool.not_true, Bool.false_eq_true, if_false]

theorem txPick_starts {c q t0 ofs : Nat} (h : nextTx s p = some (c, q)) : txPick p t0 ofs s = txStart p c q t0 ofs s := by
  simp only [txPick, h]

theorem txPick_none {t0 ofs : Nat} (h : nextTx s p = none) : txPick p t0 ofs s = s := by
  simp only [txPick, h]

/-! ### The shaped classes (R333) -/

/-- Of the shaped classes, the only one that a test holds of. -/
theorem filter_shaped {f : Nat → Bool} {c : Nat} (hc : c = 1 ∨ c = 2) (hf : f c = true)
    (ho : ∀ k : Nat, k = 1 ∨ k = 2 → k ≠ c → f k = false) : [1, 2].filter f = [c] := by
  rcases hc with rfl | rfl
  · simp [List.filter, hf, ho 2 (.inr rfl) (by decide)]
  · simp [List.filter, hf, ho 1 (.inl rfl) (by decide)]

/-- The 10 ps in which a class's credit rises back to 0. -/
def creditDue (s : State) (p c : Nat) : Nat :=
  ((-(creditOf s p c)).toNat + idleSlope s p c - 1) / max 1 (idleSlope s p c)

/-- The one class that waits for its credit starts its frame once the credit is back at 0. -/
theorem shaperZero_waits {c : Nat} (hl : (portSt s p).link = true) (hx : (portSt s p).sending = none)
    (hn : nextTx s p = none) (hc : c = 1 ∨ c = 2) (hw : classWaiting s p c ≠ []) (hneg : creditOf s p c < 0)
    (ho : ∀ k : Nat, k = 1 ∨ k = 2 → k ≠ c → classWaiting s p k = []) :
    shaperZero p s = txPick p (now10 s) 0 (setCredit p c 0 (creditIdle p (creditDue s p c) s)) := by
  have hwait : [1, 2].filter (fun k => classWaiting s p k != [] && decide (creditOf s p k < 0)) = [c] :=
    filter_shaped hc (by simp [hw, hneg]) (fun k hk hne => by simp [ho k hk hne])
  refine (if_neg (by simp [hl, hx, hn])).trans ?_
  simp only [hwait, minBy, creditDue]

end sending

/-! ### The obligation -/

/-- Settles O35: what each check makes of a received frame and how a sound one is stored; a link that falls or rises; the
next frame of a port, and a class that waits for its credit. -/
theorem framesReceivedAndSent : Obligations.FramesReceivedAndSent := by
  refine ⟨fun s w p q bs code fcs hw hu hp hm hl => ⟨?codeError, ?runt, ?filtered,
      fun k e n hc => ⟨?giant, ?badFcs, ?stored⟩⟩,
    fun s w p hw hu hp => ⟨?falls, ?rises, ?sends,
      fun t t0 ofs => ⟨fun c q => txPick_starts, txPick_none⟩, ?down, ?shaper⟩⟩
  case codeError =>
    exact fun low hc htaken hnone => netRow_leaves hw hu hp (frameReceive_codeError hm hl hc htaken hnone)
  case runt => exact fun hc => netRow_leaves hw hu hp (frameReceive_runt hm hl hc)
  case filtered => exact fun hc => netRow_leaves hw hu hp (frameReceive_filtered hm hl hc)
  case giant => exact fun h => netRow_leaves hw hu hp (frameReceive_giant hm hl hc h)
  case badFcs => exact fun h hf => netRow_leaves hw hu hp (frameReceive_badFcs hm hl hc h hf)
  case stored => exact fun pre hpre h hf => netRow_leaves hw hu hp (frameReceive_stores hm hl hc h hf hpre)
  case falls =>
    rintro r t hup rfl
    exact linkRow_leaves hw hu hp (portLink_falls hp hup) (by rw [hup, Bool.not_true, Bool.and_false]; rfl)
  case rises =>
    refine fun r k hdown hr => ⟨fun href => linkRow_leaves hw hu hp (portLink_rises hp hdown hr href) ?_,
      fun href => linkRow_leaves hw hu hp (portLink_noReference hp hdown hr href) (by rw [hdown]; rfl)⟩
    rw [portSt_ptpLink_up, netUp_link, hdown]
    rfl
  case sends =>
    exact fun n hup => ⟨fun x hx => netRow_leaves hw hu hp (frameTransmit_ends hp hup hx),
      fun hx => netRow_leaves hw hu hp (frameTransmit_idle hp hup hx)⟩
  case down => exact fun n hdown => netRow_leaves hw hu hp (frameTransmit_down hp hdown)
  case shaper =>
    rintro c d hup hx hn rfl hc hwait hneg ho
    exact netRow_leaves hw hu hp (shaperZero_waits hup hx hn hc hwait hneg ho)

end Sys2Proof.Proofs
end

section
/-! The family of the frame queues: their operations (R326, R340), frames that the controller sends (R332), and queues
that are enabled or disabled (R330). -/

namespace Sys2Proof.Proofs

open Sys2Proof Sys2Proof.Machine Sys2Proof.Laws

/-! ### Operations (R326, R340) -/

section operations

variable {s : State} {q : Nat}

theorem queueOp_read (ha : opAllowed s q = true) : queueOp 1 q s = opRead q s := if_pos ⟨rfl, ha⟩

/-- An operation that exists, on a queue that the controller may not work. -/
theorem queueKeep_refused {op : Nat} (hop : 1 ≤ op ∧ op ≤ 5) (ha : opAllowed s q = false) :
    queueKeep op q s = opResult 4 0 s :=
  (if_neg (by omega)).trans (if_pos (by rw [ha]; rfl))

theorem queueOp_read_refused (ha : opAllowed s q = false) : queueOp 1 q s = .ok (opResult 4 0 s) :=
  (if_neg (by simp [ha])).trans (congrArg Except.ok (queueKeep_refused (by decide) ha))

section allowed

variable (ha : opAllowed s q = true)
include ha

theorem queueKeep_mark : queueKeep 2 q s = opResult 0 0 (queueMark q s) :=
  (if_neg (by decide)).trans (if_neg (by simp [ha]))
theorem queueKeep_rewind : queueKeep 3 q s = opResult 0 0 (queueRewind q s) :=
  (if_neg (by decide)).trans (if_neg (by simp [ha]))
theorem queueKeep_release : queueKeep 4 q s = opResult 0 0 (queueRelease q s) :=
  (if_neg (by decide)).trans (if_neg (by simp [ha]))
theorem queueKeep_flush : queueKeep 5 q s = opResult 0 0 (queueFlush q s) :=
  (if_neg (by decide)).trans (if_neg (by simp [ha]))

end allowed

theorem opRead_empty (h : (queueSt s q).frames[(queueSt s q).read]? = none) : opRead q s = .ok (opResult 1 0 s) := by
  simp only [opRead, h]

theorem exec_queueRead (q : Nat) (s : State) : exec (.queueRead q) s =
    runE (fun t => if running t && unitPresent t uQMG then queueOp 1 q t else .ok t) s := rfl

theorem queueReadRow_leaves {w t : State} (hw : w = work s) (hu : up w uQMG) (h : queueOp 1 q w = .ok t) :
    exec (.queueRead q) s = leaves s t := by
  rw [exec_queueRead]
  exact runE_leaves hw ((if_pos (by simp [hu.1, hu.2])).trans h)

end operations

/-! ### Frames that the controller sends (R331, R332) -/

section sent

variable {s w t : State} {v : Word}

theorem txsBad_iff : txsBad v s = true ↔ qEn s (fld v 8 0) = true ∧ qTx s (fld v 8 0) = true ∧
    (fld (regW s Reg.QMG_TXS_LEN.base) 13 0 < 60 ∨ 9596 < fld (regW s Reg.QMG_TXS_LEN.base) 13 0) := by
  simp [txsBad, and_assoc]

/-- No frame is taken for a queue that is off or receives. -/
theorem txsGo_noQueue (h : qEn s (fld v 8 0) = false ∨ qTx s (fld v 8 0) = false) :
    txsGo v s = setN Reg.QMG_TXS_STAT.base (4 * 2 ^ 16) s :=
  if_pos (by rcases h with h | h <;> simp [h])

/-- The frame is read from memory and enqueued; what memory could not give is not sent. -/
theorem txsGo_sends {a n : Nat} {ok : Bool} {bs : List Byte} (he : qEn s (fld v 8 0) = true)
    (ht : qTx s (fld v 8 0) = true) (hn : n = fld (regW s Reg.QMG_TXS_LEN.base) 13 0)
    (ha : a = fld (regW s Reg.QMG_TXS_ADDR_LO.base) 31 0 + 2 ^ 32 * fld (regW s Reg.QMG_TXS_ADDR_HI.base) 7 0)
    (hr : fabRead 10 0 s a n = (ok, bs, t)) :
    txsGo v s = if ok = false then setN Reg.QMG_TXS_STAT.base (2 * 2 ^ 16) t
      else setN Reg.QMG_TXS_STAT.base ((if (enqueueFrame (fld v 8 0) bs t).1 then 0 else 1) * 2 ^ 16)
        (enqueueFrame (fld v 8 0) bs t).2 := by
  subst hn ha
  simp only [txsGo, he, ht, hr, Bool.not_true, Bool.or_self, Bool.false_eq_true, if_false]
  cases ok <;> rfl

theorem exec_txsGo (v : Word) (s : State) : exec (.txsGo v) s =
    runE (fun t => if !(running t && unitPresent t uQMG) then .ok t
      else if txsBad v t then .error .badLength else .ok (txsGo v t)) s := rfl

theorem txsGoRow_leaves (hw : w = work s) (hu : up w uQMG) (hb : txsBad v w ≠ true) (h : txsGo v w = t) :
    exec (.txsGo v) s = leaves s t := by
  rw [exec_txsGo]
  exact runE_leaves hw ((if_neg (by simp [hu.1, hu.2])).trans ((if_neg hb).trans (congrArg Except.ok h)))

theorem txsGoRow_fault (hw : w = work s) (hu : up w uQMG) (hb : txsBad v w = true) :
    exec (.txsGo v) s = .fault .badLength := by
  rw [exec_txsGo]
  exact runE_fault hw ((if_neg (by simp [hu.1, hu.2])).trans (if_pos hb))

end sent

/-! ### The records of the queues in the map (R337, R458) -/

section map

variable {a i : Nat} {r : RegSpec}

/-- A description whose elements all stand below an address does not hold it. -/
theorem specAt_beyond (hs : 0 < r.s1) (h : r.base + r.n1 * r.s1 ≤ a) : specAt a r = none := by
  have ho : r.n1 ≤ (a - r.base) / r.s1 := (Nat.le_div_iff_mul_le hs).2 (by omega)
  refine (if_neg (by omega)).trans (if_neg ?_)
  rintro ⟨hi, -⟩
  omega

theorem specAt_element (hs : 0 < r.s1) (hi : i < r.n1) (hj : 0 < r.n2) : specAt (r.at i) r = some (i, 0) := by
  have ho : r.at i - r.base = i * r.s1 := by simp [RegSpec.at]
  refine (if_neg (by simp [RegSpec.at])).trans ?_
  simp [ho, Nat.mul_div_cancel i hs, hi, hj]

/-- Descriptions that do not hold an address are passed over. -/
theorem findSpecIn_append {l₁ : List RegSpec} (l₂ : List RegSpec) (h : ∀ r ∈ l₁, specAt a r = none) :
    findSpecIn a (l₁ ++ l₂) = findSpecIn a l₂ := by
  induction l₁ with
  | nil => rfl
  | cons r l₁ ih =>
    obtain ⟨hr, hl⟩ := List.forall_mem_cons.1 h
    simp only [List.cons_append, findSpecIn, hr, ih hl]

end map

section record

variable {q : Nat} (hq : q < 512)
include hq

theorem queueRecord_addr : Reg.QUEUE0.base ≤ Reg.QUEUE0.at q ∧ Reg.QUEUE0.at q < Reg.QUEUE0.base + 0x2000 := by
  simp only [RegSpec.at, Reg.QUEUE0]
  omega

/-- The table window of the queues is the first that does not end below their records. -/
theorem unitOf_queueRecord : unitOf (Reg.QUEUE0.at q) = some uQMG := by
  obtain ⟨hlow, hhigh⟩ := queueRecord_addr hq
  have hends : ∀ x ∈ windows.take 27, x.1 + x.2.1 ≤ Reg.QUEUE0.base := by decide
  have hfind : windows.find? (fun x => decide (x.1 ≤ Reg.QUEUE0.at q) && decide (Reg.QUEUE0.at q < x.1 + x.2.1)) =
      some (Reg.QUEUE0.base, 0x2000, uQMG) := by
    refine List.find?_eq_some_iff_append.2 ⟨by simp [hlow, hhigh], windows.take 27, windows.drop 28, rfl, ?_⟩
    intro x hx
    have := hends x hx
    simp only [Bool.not_eq_true', Bool.and_eq_false_iff, decide_eq_false_iff_not]
    omega
  have hreg : ¬ (0x10000000 ≤ Reg.QUEUE0.at q ∧ Reg.QUEUE0.at q < 0x101E0000) := by
    have hbase : Reg.QUEUE0.base = 0x40D00000 := rfl
    omega
  unfold unitOf
  rw [if_neg hreg, hfind]

/-- The registers of the queue manager listed before the records of the queues stand below them. -/
theorem findSpec_queueRecord : findSpec (Reg.QUEUE0.at q) = some (Reg.QUEUE0, q, 0) := by
  obtain ⟨hlow, -⟩ := queueRecord_addr hq
  have hbelow : ∀ r ∈ regMapQmg.take 16, 0 < r.s1 ∧ r.base + r.n1 * r.s1 ≤ Reg.QUEUE0.base := by decide
  have hskip : ∀ r ∈ regMapQmg.take 16, specAt (Reg.QUEUE0.at q) r = none := fun r hr =>
    specAt_beyond (hbelow r hr).1 ((hbelow r hr).2.trans hlow)
  have hmap : unitMap uQMG = regMapQmg.take 16 ++ Reg.QUEUE0 :: regMapQmg.drop 17 := rfl
  have hself : specAt (Reg.QUEUE0.at q) Reg.QUEUE0 = some (q, 0) := specAt_element (by decide) hq (by decide)
  simp only [findSpec, unitOf_queueRecord hq, hmap, findSpecIn_append _ hskip, findSpecIn, hself]

end record

/-! ### EN of a queue (R330) -/

theorem exec_queueEnChange (q : Nat) (en : Bool) (s : State) : exec (.queueEnChange q en) s = runE (fun t =>
    if running t ∧ unitPresent t uQMG ∧ q < 512 then
      writeWord 3 (Reg.QUEUE0.at q) (putFld (regW t (Reg.QUEUE0.at q)) 31 31 (if en then 1 else 0)) t
    else .ok t) s := rfl

section enable

variable {q : Nat} (hq : q < 512)
include hq

/-- Word 0 of a queue's record has no behaviour of its own as it is written: EN is an L field (R15). -/
theorem writeWord_queueRecord {path j : Nat} {v : Word} {r : RegSpec} {s : State}
    (hl : liveSpec s (Reg.QUEUE0.at q) = some (r, q, j)) (hb : r.base = Reg.QUEUE0.base) :
    writeWord path (Reg.QUEUE0.at q) v s = plainWrite r q (Reg.QUEUE0.at q) v s := by
  obtain ⟨hlow, -⟩ := queueRecord_addr hq
  have hbase : Reg.QUEUE0.base = 0x40D00000 := rfl
  have hdma : dmaOf (Reg.QUEUE0.at q) = none := (if_neg (by omega)).trans (if_neg (by omega))
  have hset : ¬ (Reg.QUEUE0.base = Reg.COR_SET_BASE_LO.base ∨ Reg.QUEUE0.base = Reg.COR_SET_BASE_HI.base) := by decide
  have hsubmit : ¬ Reg.QUEUE0.base = Reg.DSX_SUBMIT_W.base := by decide
  simp (disch := decide) only [writeWord, hl, hb, hdma, if_neg, hset, hsubmit, false_and]

theorem queueEnRow_leaves {en : Bool} {s w t : State} (hw : w = work s) (hu : up w uQMG)
    (h : writeWord 3 (Reg.QUEUE0.at q) (putFld (regW w (Reg.QUEUE0.at q)) 31 31 (if en then 1 else 0)) w = .ok t) :
    exec (.queueEnChange q en) s = leaves s t := by
  rw [exec_queueEnChange]
  exact runE_leaves hw ((if_pos ⟨hu.1, hu.2, hq⟩).trans h)

/-- A new EN that begins to act switches its queue. -/
theorem liveFx_queueEn {old : Word} {s : State} (h : bit old 31 ≠ actB s (Reg.QUEUE0.at q) 31) :
    liveFx (Reg.QUEUE0.at q) old s = queueSwitch q s := by
  have hne : ¬ (old = actW s (Reg.QUEUE0.at q) ∧ Reg.QUEUE0.base ≠ Reg.CLK_CTRL.base) :=
    fun he => h (congrArg (bit · 31) he.1)
  have hbit : (bit old 31 != bit (actW s (Reg.QUEUE0.at q)) 31) = true := bne_iff_ne.2 h
  unfold liveFx
  simp only [findSpec_queueRecord hq, if_neg hne]
  simp (disch := decide) only [if_neg, if_true, hbit, when_true]

end enable

/-- A queue switched is empty: nothing linked, read, marked or held. -/
theorem queueSt_queueSwitch (q : Nat) (s : State) : queueSt (queueSwitch q s) q = queueZero :=
  (tabGet_tabMod queueZero q (fun _ => queueZero) s.net.queues q).trans (if_pos rfl)

/-! ### The obligation -/

/-- Settles O36: the operations of a queue that may be done and of one that may not, a frame sent by `QMG_TXS_GO`, and EN
written, acting, and clearing its queue. -/
theorem queuesWork : Obligations.QueuesWork := by
  refine ⟨fun s w q hw hu => ⟨fun ha => ⟨?read, opRead_empty, ?mark, ?rewind, ?release, ?flush⟩, ?refused⟩,
    fun s w v hw hu => ⟨?send, ?enable, fun q old hq => liveFx_queueEn hq, ?empty⟩⟩
  case read => exact fun t h => queueReadRow_leaves hw hu ((queueOp_read ha).trans h)
  case mark => exact upRow_leaves hw hu (queueKeep_mark ha)
  case rewind => exact upRow_leaves hw hu (queueKeep_rewind ha)
  case release => exact upRow_leaves hw hu (queueKeep_release ha)
  case flush => exact upRow_leaves hw hu (queueKeep_flush ha)
  case refused =>
    rintro ha c (rfl | rfl | rfl | rfl | rfl)
    · exact queueReadRow_leaves hw hu (queueOp_read_refused ha)
    all_goals exact upRow_leaves hw hu (queueKeep_refused (by decide) ha)
  case send =>
    rintro a n q rfl hn haddr
    refine ⟨fun ok bs t he ht hlow hhigh hr => txsGoRow_leaves hw hu ?_ (txsGo_sends he ht hn haddr hr),
      fun he ht hlen => txsGoRow_fault hw hu (txsBad_iff.2 ⟨he, ht, hn ▸ hlen⟩),
      fun h => txsGoRow_leaves hw hu ?_ (txsGo_noQueue h)⟩
    · rw [Ne, txsBad_iff]
      omega
    · rw [Ne, txsBad_iff]
      rcases h with h | h <;> simp [h]
  case enable =>
    rintro q a j en r t hq rfl hl hb h
    exact queueEnRow_leaves hq hw hu ((writeWord_queueRecord hq hl hb).trans h)
  case empty => exact fun q hq => congrArg QueueSt.frames (queueSt_queueSwitch q w)

end Sys2Proof.Proofs
end

section
/-! The family of the media streams: packets taken by receive streams (R347, R349, R350), retries, claims and holds (R360,
R362, R363), and ARP and IGMP answered (R343). -/

namespace Sys2Proof.Proofs

open Sys2Proof Sys2Proof.Machine Sys2Proof.Laws

/-! ### RTP packets (R347) -/

/-- What stream `k` takes of a datagram: its RTP packet, where it reads as one that matches the stream's record. -/
def rtpTakes (s : State) (u : Udp) (k : Nat) : Option (Nat × RtpParts) :=
  match rtpParts (extId (rxW0 false s k)) u.payload with
  | some r => if rtpMatch s k u r then some (k, r) else none
  | none => none

theorem rtpTakes_match {s : State} {u : Udp} {k : Nat} {r : RtpParts}
    (hr : rtpParts (extId (rxW0 false s k)) u.payload = some r) (hm : rtpMatch s k u r = true) :
    rtpTakes s u k = some (k, r) := by
  simp only [rtpTakes, hr, if_pos hm]

theorem rtpTakes_noMatch {s : State} {u : Udp} {k : Nat}
    (h : ∀ r : RtpParts, rtpParts (extId (rxW0 false s k)) u.payload = some r → rtpMatch s k u r = false) :
    rtpTakes s u k = none := by
  unfold rtpTakes
  cases hr : rtpParts (extId (rxW0 false s k)) u.payload with
  | none => rfl
  | some r => exact if_neg (by simp [h r hr])

section rtp

variable {s t : State} {q k : Nat} {l : List Nat} {f : FrameRec} {pre bs : List Byte}
  (hf : (queueSt s q).frames[(queueSt s q).read]? = some f) (hc : consume 1 q s = some (pre, bs, t))
  (he : etherType (f.bytes.drop 32) ≠ 0x22F0)
include hf hc he

theorem rtpPacket_noStream (hk : rxOfQueue s q = []) : rtpPacket q s = rxBadAny t := by
  simp only [rtpPacket, hf, if_neg he, hc, hk]

theorem rtpPacket_noDatagram (hk : rxOfQueue s q = k :: l) (hu : udpOf bs = none) :
    rtpPacket q s = rxBadPkt k t := by
  simp only [rtpPacket, hf, if_neg he, hc, hk, hu]

/-- A datagram is placed in the first stream that takes its packet, or counted on the first stream of the queue. -/
theorem rtpPacket_datagram {u : Udp} (hk : rxOfQueue s q = k :: l) (hu : udpOf bs = some u) :
    rtpPacket q s = ((k :: l).findSome? (rtpTakes s u)).elim (rxBadPkt k t)
      (fun x => rtpPlace x.1 q (beAt pre 2 1) f.cells x.2 t) := by
  simp only [rtpPacket, hf, if_neg he, hc, hk, hu]
  change (match (k :: l).findSome? (rtpTakes s u) with
    | some (k, r) => rtpPlace k q (beAt pre 2 1) f.cells r t
    | none => rxBadPkt k t) = _
  cases (k :: l).findSome? (rtpTakes s u) <;> rfl

theorem rtpPacket_untaken {u : Udp} (hk : rxOfQueue s q = k :: l) (hu : udpOf bs = some u)
    (h : ∀ n ∈ k :: l, rtpTakes s u n = none) : rtpPacket q s = rxBadPkt k t := by
  rw [rtpPacket_datagram hf hc he hk hu, List.findSome?_eq_none_iff.2 h]
  rfl

theorem rtpPacket_taken {u : Udp} {l₁ l₂ : List Nat} {r : RtpParts} (hk : rxOfQueue s q = l₁ ++ k :: l₂)
    (hu : udpOf bs = some u) (h : ∀ n ∈ l₁, rtpTakes s u n = none) (ht : rtpTakes s u k = some (k, r)) :
    rtpPacket q s = rtpPlace k q (beAt pre 2 1) f.cells r t := by
  have hfirst : (rxOfQueue s q).findSome? (rtpTakes s u) = some (k, r) :=
    List.findSome?_eq_some_iff.2 ⟨l₁, k, l₂, hk, ht, h⟩
  cases hq : rxOfQueue s q with
  | nil => simp [hq] at hfirst
  | cons k₀ l => rw [rtpPacket_datagram hf hc he hq hu, ← hq, hfirst, Option.elim_some]

end rtp

/-! ### AAF packets (R347, R349, R350) -/

section aaf

variable {s t : State} {q k : Nat} {f : FrameRec} {pre bs p : List Byte}
  (hf : (queueSt s q).frames[(queueSt s q).read]? = some f) (hc : consume 1 q s = some (pre, bs, t))
  (he : etherType (f.bytes.drop 32) = 0x22F0) (hp : p = bs.drop ((vlanOf bs).2 + 2))
include hf hc he

theorem aafPacket_noStream (hk : rxOfQueue s q = []) : aafPacket q s = rxBadAny t := by
  simp only [aafPacket, hf, if_neg (not_not.2 he), hc, hk, List.find?_nil]

include hp

theorem aafPacket_untaken {l : List Nat} (hk : rxOfQueue s q = k :: l) (h : ∀ n ∈ k :: l, aafMatch s n p = false) :
    aafPacket q s = rxBadPkt k t := by
  subst hp
  have hnone : (k :: l).find? (fun n => aafMatch s n (bs.drop ((vlanOf bs).2 + 2))) = none :=
    List.find?_eq_none.2 fun n hn => by simp [h n hn]
  simp only [aafPacket, hf, if_neg (not_not.2 he), hc, hk, hnone]

/-- The first stream that matches takes the packet; one that takes claims drops it, as AAF carries none. -/
theorem aafPacket_taken {l₁ l₂ : List Nat} (hk : rxOfQueue s q = l₁ ++ k :: l₂)
    (h : ∀ n ∈ l₁, aafMatch s n p = false) (hm : aafMatch s k p = true) :
    aafPacket q s = if rxClaimEn false s k then t
      else placePkt false k (rxRate s k) (rxPtime s k) (unitSt s uMST).next
        ⟨aafIndex s k (beAt p 12 4), deinterleave (rxChans s k) (rxPtime s k) (rxBytes s k) (p.drop 24), 0, 0, false,
          false, q, f.cells, some (beAt p 12 4)⟩ (legSeen k (beAt pre 2 1) none t) := by
  subst hp
  have hfirst : (rxOfQueue s q).find? (fun n => aafMatch s n (bs.drop ((vlanOf bs).2 + 2))) = some k :=
    List.find?_eq_some_iff_append.2 ⟨hm, l₁, l₂, hk, fun n hn => by simp [h n hn]⟩
  simp only [aafPacket, hf, if_neg (not_not.2 he), hc, hfirst]

end aaf

/-! ### Retries and holds (R360, R363) -/

section recovery

variable {s : State} {k : Nat} {x : RxSt}

theorem rangeRetry_due {t : Nat} (hx : rxOf false s k = some x) (hr : x.range = some t)
    (ht : t + 1000000000 ≤ monoNs s) :
    rangeRetry k s = rxShow false k 1 (rxMod false k (fun y => { y with range := none, slips := [], ever := false })
      ((slipMembers s k).foldl (fun u m => rxMod false m (fun y =>
        { y with delta := 0, slipTo := 0, slipPos := 0, leads := [] }) u) s)) := by
  simp only [rangeRetry, hx, hr, if_pos ht]

theorem holdRamp_due {lnk : Bool} (hx : rxOf lnk s k = some x) (hc : rxClaimEn lnk s k = true) (hr : x.ramp = none)
    (hg : x.fs / 20 ≤ x.gap.getD 0) : holdRamp lnk k s = rxMod lnk k (fun y => { y with ramp := some 0 }) s := by
  have hdue : rxClaimEn lnk s k = true ∧ x.ramp.isNone = true ∧ x.fs / 20 ≤ x.gap.getD 0 :=
    ⟨hc, Option.isNone_iff_eq_none.2 hr, hg⟩
  simp only [holdRamp, hx, if_pos hdue]

end recovery

/-! ### ARP and IGMP (R343) -/

/-- The frame that answers the ARP packet `a`, tagged as the request was. -/
def arpReply (s : State) (port ip : Nat) (tag : Option Nat) (a : List Byte) : List Byte :=
  ethHeader (beAt a 8 6) (daEntry s port 0) tag 0x0806 ++
    bytesBE 2 1 ++ bytesBE 2 0x0800 ++ bytesBE 1 6 ++ bytesBE 1 4 ++ bytesBE 2 2 ++ bytesBE 6 (daEntry s port 0) ++
    bytesBE 4 ip ++ slice a 8 6 ++ slice a 14 4

/-- A stream's answer to a query for group `grp` on a port where it has joined: its group, with its source if any. -/
def igmpAnswer (port grp : Nat) (u : State) (k : Nat) : State :=
  if joined u k port ∧ (grp = 0 ∨ grp = fld (actW u (Reg.MRX2.at k)) 31 0) then
    sendOwn port (igmpReport u port (if fld (actW u (Reg.MRX3.at k)) 31 0 = 0 then 2 else 1)
      (fld (actW u (Reg.MRX2.at k)) 31 0)
      (if fld (actW u (Reg.MRX3.at k)) 31 0 = 0 then [] else [fld (actW u (Reg.MRX3.at k)) 31 0])) none u
  else u

section control

variable {s t : State} {q : Nat} {f : FrameRec} {pre bs : List Byte}
  (hf : (queueSt s q).frames[(queueSt s q).read]? = some f) (hc : consume 6 q s = some (pre, bs, t))
include hf hc

section arp

variable {port ip : Nat} {a : List Byte} (he : etherType (f.bytes.drop 32) = 0x0806) (hport : port = beAt pre 2 1)
  (ha : a = bs.drop ((vlanOf bs).2 + 2)) (hip : ip = fld (actW s (Reg.MST_PORT_IP.at port)) 31 0)
include he hport ha hip

theorem arpRequest_ignored (h : ip = 0 ∨ beAt a 24 4 ≠ ip) : arpRequest q s = t := by
  subst hport ha hip
  simp only [arpRequest, hf, if_neg (not_not.2 he), hc]
  exact if_pos (.inr (.inr (.inr h)))

theorem arpRequest_answered (hhw : beAt a 0 2 = 1) (hproto : beAt a 2 2 = 0x0800) (hop : beAt a 6 2 = 1) (h0 : ip ≠ 0)
    (htarget : beAt a 24 4 = ip) :
    arpRequest q s = sendOwn port (arpReply s port ip (vlanOf bs).1 a) none (count Reg.MST_ARP_CNT.base t) := by
  subst hport ha hip
  simp only [arpRequest, hf, if_neg (not_not.2 he), hc]
  exact if_neg (by simp only [hhw, hproto, hop, h0, htarget, ne_eq, not_true_eq_false, or_self, not_false_eq_true])

end arp

section igmp

variable (he : etherType (f.bytes.drop 32) ≠ 0x0806)
include he

theorem igmpQuery_none (h : queryGroup bs = none) : igmpQuery q s = t := by
  simp only [igmpQuery, hf, if_neg he, hc, h]

theorem igmpQuery_answered {grp : Nat} (h : queryGroup bs = some grp) :
    igmpQuery q s = (listed t 0x40E00000 64 256).foldl (igmpAnswer (beAt pre 2 1) grp) t := by
  simp only [igmpQuery, hf, if_neg he, hc, h]
  rfl

end igmp
end control

/-! ### The obligation -/

/-- Settles O37: RTP and AAF packets taken by the first stream that matches or counted, a retry, claims that lapse, a hold
that fades, and ARP and IGMP answered. -/
theorem streamsReceive : Obligations.StreamsReceive := by
  refine ⟨?packets, fun s w k x hw => ⟨?retry, fun lnk hu => ⟨?lapse, ?hold⟩⟩,
    fun s w t q f pre bs hw hu hf hc => ⟨?arp, fun he => ⟨?noQuery, ?query⟩⟩⟩
  case packets =>
    rintro s w t q ks f pre bs hw hu rfl hf hc
    refine ⟨fun he => ⟨fun hk => upRow_leaves hw hu (rtpPacket_noStream hf hc he hk),
        fun hd k l hk => upRow_leaves hw hu (rtpPacket_noDatagram hf hc he hk hd), fun u hd => ⟨?rtpTaken, ?rtpUntaken⟩⟩,
      fun he p hp => ⟨fun hk => upRow_leaves hw hu (aafPacket_noStream hf hc he hk),
        fun l₁ l₂ k hk h hm => upRow_leaves hw hu (aafPacket_taken hf hc he hp hk h hm),
        fun k l hk h => upRow_leaves hw hu (aafPacket_untaken hf hc he hp hk (hk ▸ h))⟩⟩
    case rtpTaken =>
      exact fun l₁ l₂ k r hk h hr hm => upRow_leaves hw hu (rtpPacket_taken hf hc he hk hd
        (fun n hn => rtpTakes_noMatch fun r' => h n r' hn) (rtpTakes_match hr hm))
    case rtpUntaken =>
      exact fun k l hk h => upRow_leaves hw hu (rtpPacket_untaken hf hc he hk hd
        fun n hn => rtpTakes_noMatch fun r => h n r (hk ▸ hn))
  case retry => exact fun hu hx t hr ht => upRow_leaves hw hu (rangeRetry_due hx hr ht)
  case lapse => exact upRow_leaves hw hu rfl
  case hold => exact fun hx hc hr hg => upRow_leaves hw hu (holdRamp_due hx hc hr hg)
  case arp =>
    exact fun port ip a he hport ha hip =>
      ⟨fun hhw hproto hop h0 htarget =>
        upRow_leaves hw hu (arpRequest_answered hf hc he hport ha hip hhw hproto hop h0 htarget),
      fun h => upRow_leaves hw hu (arpRequest_ignored hf hc he hport ha hip h)⟩
  case noQuery => exact fun h => upRow_leaves hw hu (igmpQuery_none hf hc he h)
  case query =>
    rintro port grp h rfl
    exact upRow_leaves hw hu (igmpQuery_answered hf hc he h)

end Sys2Proof.Proofs
end

section
/-! The family of the whole machine: a step and its queue (R442), what every command keeps (R457, R502, R515, R516), the
state after reset (R410, R579), and the rows that rest until the device runs (R411, R423). -/

namespace Sys2Proof.Proofs

open Sys2Proof Sys2Proof.Machine Sys2Proof.Laws

/-! ### What every command keeps -/

/-- The outcome of a command on `s`: that of a function of the state, settled; of one that may program fuses; or what a
lost supply leaves. -/
inductive StepShape (s : State) : Host.Outcome State Fault Refusal → Prop where
  | run (f : State → State) : StepShape s (run f s)
  | runE (f : State → Except Fault State) : StepShape s (runE f s)
  | fault (r : Fault) : StepShape s (.fault r)
  | unpowered : StepShape s (.next (unpowered s))

theorem execSupplyLoss_shape (us : Nat) (s : State) : StepShape s (execSupplyLoss us s) := by
  unfold execSupplyLoss
  split_ifs <;> constructor

/-- Every command but the end of a life-cycle transition (R516) has one of the four shapes. -/
theorem exec_shape (c : Instr) (hc : c ≠ .lcFuseDone) (s : State) : StepShape s (exec c s) := by
  cases c with
  | lcFuseDone => exact absurd rfl hc
  | supplyLoss us => exact execSupplyLoss_shape us s
  | _ => unfold exec; constructor

theorem StepShape.keeps {s t : State} {o : Host.Outcome State Fault Refusal} (h : StepShape s o) (ho : o = .next t) :
    t.pending = s.pending ∧ t.fuse = s.fuse := by
  cases h with
  | run f => rw [run_next ho]; exact ⟨rfl, rfl⟩
  | runE f => obtain ⟨u, -, rfl⟩ := runE_next ho; exact ⟨rfl, rfl⟩
  | fault r => cases ho
  | unpowered => cases ho; exact ⟨rfl, rfl⟩

theorem StepShape.sound {s t : State} {o : Host.Outcome State Fault Refusal} (h : StepShape s o) (hs : Sound s)
    (ho : o = .next t) : Sound t := by
  cases h with
  | run f => rw [run_next ho]; exact settle_sound s _ hs
  | runE f => obtain ⟨u, -, rfl⟩ := runE_next ho; exact settle_sound s u hs
  | fault r => cases ho
  | unpowered => cases ho; exact ⟨wf_nil, rfl⟩

/-- The end of a life-cycle transition changes fuses, of all that a command keeps. -/
theorem exec_lcFuseDone_next {s t : State} (h : exec .lcFuseDone s = .next t) :
    t = { settle s (whenOn lcFuse (work s)) with fuse := (whenOn lcFuse (work s)).fuse } := runFuse_next h

theorem exec_sound {c : Instr} {s t : State} (hs : Sound s) (h : exec c s = .next t) : Sound t := by
  by_cases hc : c = .lcFuseDone
  · subst hc
    rw [exec_lcFuseDone_next h]
    exact settle_sound s (whenOn lcFuse (work s)) hs
  · exact (exec_shape c hc s).sound hs h

/-! ### Rows at rest (R411, R423) -/

section stopped

variable {s : State} (hr : running s = false)
include hr

theorem whenUp_stopped (u : Nat) (f : State → State) : whenUp u f s = s := whenUp_down (by simp [up, hr]) f

theorem tagRow_stopped (u : Nat) (q : PendTag → Bool) : tagRow u q s = s := if_pos (by simp [hr])

theorem openRow_stopped (u : Nat) (q : PendTag → Bool) : openRow u q s = s := if_pos (by simp [hr])

theorem tagArrive_stopped (q : TagRec → Bool) (u : Nat) : tagArrive q u s = s := if_pos (by simp [hr])

theorem pipelineBlock_stopped (u : Nat) (x : BlockIn) : pipelineBlock u x s = s := if_pos (by simp [hr])

theorem tickBoundary_stopped (u : Nat) : tickBoundary u s = s := if_pos (by simp [hr])

theorem blockRelease_stopped (errs : List (Nat × Nat)) : blockRelease errs s = s := if_pos (by simp [hr])

theorem deadlineMiss_stopped (kind number : Nat) : deadlineMiss kind number s = s := if_pos (by simp [hr])

theorem dmaUp_stopped (f : State → Except Fault State) : dmaUp f s = .ok s := if_neg (by simp [hr])

end stopped

/-! ### The obligations -/

/-- Settles O1: a step with a command at the front of the queue is that command's, with the queue's rest waiting. -/
theorem stepTakesFrontCommand : Obligations.StepTakesFrontCommand := by
  intro s c rest h
  unfold step
  rw [h]

/-- Settles O3: every command has a shape that keeps the queue, and all but one the fuses. -/
theorem commandsKeepQueueAndFuses : Obligations.CommandsKeepQueueAndFuses := by
  intro c s t h
  by_cases hc : c = .lcFuseDone
  · subst hc
    rw [exec_lcFuseDone_next h]
    exact ⟨rfl, fun hne => absurd rfl hne⟩
  · obtain ⟨hq, hf⟩ := (exec_shape c hc s).keeps h
    exact ⟨hq, fun _ => hf⟩

/-- Settles O4: a command or a sample ends by settling what it stored into memory in canonical form. -/
theorem soundIsKept : Obligations.SoundIsKept := by
  intro s t hs h
  cases hp : s.pending with
  | nil =>
    have hi : idle s = .next t := by rw [← h]; simp only [step, hp]
    rw [run_next hi]
    exact settle_sound s _ hs
  | cons c rest =>
    rw [stepTakesFrontCommand s c rest hp] at h
    exact exec_sound (s := { s with pending := rest }) hs h

/-- Settles O5: the state after reset lists no byte, no word and no command. -/
theorem resetIsSound : Obligations.ResetIsSound :=
  ⟨⟨wf_nil, rfl⟩, rfl, rfl, rfl, rfl, fun _ => ⟨rfl, rfl⟩, fun _ => rfl, fun _ _ => ⟨rfl, rfl⟩⟩

/-- Settles O6: each of the rows is behind the running device. -/
theorem rowsRestUntilRunning : Obligations.RowsRestUntilRunning := by
  intro c s w hw hc hr
  cases c <;> rcases hc with ⟨⟩ <;> unfold exec
  case tagArrival u => exact run_leaves hw (tagArrive_stopped hr _ u)
  case runStart => exact run_leaves hw (tagArrive_stopped hr _ uMEA)
  case pipelineBlock u x => exact run_leaves hw (pipelineBlock_stopped hr u x)
  case tickBoundary u => exact run_leaves hw (tickBoundary_stopped hr u)
  case blockRelease errs => exact run_leaves hw (blockRelease_stopped hr errs)
  case deadlineMiss k n => exact run_leaves hw (deadlineMiss_stopped hr k n)
  case migrationCopyStart => exact run_leaves hw (by rw [hr, when_false])
  case queueRead q => exact runE_leaves hw (if_neg (by simp [hr]))
  case txsGo v => exact runE_leaves hw (if_pos (by simp [hr]))
  case heartbeatReceive l => exact runE_leaves hw (if_neg (by simp [hr]))
  case streamRunStart n => exact runE_leaves hw (if_pos (by simp [hr]))
  case descriptorFetch b => exact runE_leaves hw (dmaUp_stopped hr (descFetch b))
  case ringStart | ringStop => exact run_leaves hw (openRow_stopped hr _ _)
  case commitTag | route | ramp | migrate | swap | markTag | epochTag | portStart | portStop | streamStart | streamStop |
      linkStreamStart | linkStreamStop | runStop | runBegin => exact run_leaves hw (tagRow_stopped hr _ _)
  all_goals exact run_leaves hw (whenUp_stopped hr _ _)

end Sys2Proof.Proofs
end

section
/-! The family of memory and the commands that reach it: events (R452), the byte memory (R457, R502), words read and
written (R442, R443), bursts (R444), and what else a write of a word changes (R495). -/

namespace Sys2Proof.Proofs

open Sys2Proof Sys2Proof.Machine Sys2Proof.Laws

/-! ### Accesses of scratchpad -/

theorem dramWake_scratch {a : Nat} (h : a < dramBase) (s : State) : dramWake a s = s := if_neg (by omega)

theorem dramWake_twice (a : Nat) (s : State) : dramWake a (dramWake a s) = dramWake a s := by
  unfold dramWake
  split_ifs <;> rfl

theorem copyOf_scratch {a : Nat} (h : a < druBase) (s : State) (n : Nat) : copyOf s a n = none := by
  unfold copyOf
  cases s.dru.leaving with
  | none => rfl
  | some c => exact if_neg (by omega)

/-- A write that meets no uncorrectable word stores its bytes. -/
theorem writePlain_clean {s : State} {a : Nat} {bs : List Byte} (h : ueIn s a bs.length = []) :
    writePlain s a bs = storeBytes s a bs := by
  simp only [writePlain, h, List.foldl_nil]

theorem writeMem_scratch {s : State} {a : Nat} {bs : List Byte} (ha : a < druBase) (h : ueIn s a bs.length = []) :
    writeMem s a bs = storeBytes s a bs := by
  simp only [writeMem, copyOf_scratch ha, writePlain_clean h]

theorem storeMem_scratch {s : State} {a : Nat} {bs : List Byte} (req inst : Nat) (ha : a < druBase)
    (h : ueIn s a bs.length = []) : storeMem req inst s a bs = storeBytes s a bs := by
  have hd : a < dramBase := lt_trans ha (by decide)
  simp only [storeMem, h, List.filter_nil, List.foldl_nil, dramWake_scratch hd, writeMem_scratch ha h]

/-- A store leaves the error state of words below DRAM as it was. -/
theorem ueAt_storeBytes {w : Nat} (h : w < dramBase) (s : State) (a : Nat) (bs : List Byte) :
    ueAt (storeBytes s a bs) w = ueAt s w := by
  have hd : ¬ dramBase ≤ w := by omega
  rw [storeBytes_eq]
  simp [ueAt, hd]

theorem ueIn_storeBytes {b n : Nat} (h : b + n ≤ dramBase) (s : State) (a : Nat) (bs : List Byte) :
    ueIn (storeBytes s a bs) b n = ueIn s b n := by
  unfold ueIn
  split_ifs with hn
  · rfl
  · refine List.filter_congr fun w hw => ueAt_storeBytes ?_ s a bs
    obtain ⟨k, hk, rfl⟩ := List.mem_map.1 hw
    have := List.mem_range.1 hk
    unfold word8 at *
    omega

/-- Scratchpad is always assigned (R457). -/
theorem readStatus_scratch {a : Nat} (h : a < secBase) (s : State) : readStatus s a = 0 := by
  have ha : a < 0x100000 := lt_trans h (by decide)
  simp [readStatus, assigned, ha, not_le.2 h]

theorem fabPlace_storeBytes {b : Nat} (h : b < secBase) (s : State) (a : Nat) (bs : List Byte) :
    fabPlace (storeBytes s a bs) b = fabPlace s b := by
  have hbank : bankState (storeBytes s a bs) 5 (b / 0x10000) = bankState s 5 (b / 0x10000) := by
    rw [storeBytes_eq]
    rfl
  simp only [fabPlace, if_pos h, hbank]

theorem codeRuns_scratch {a : Nat} (h : a < druBase) (s : State) : codeRuns s a = false := by
  simp [codeRuns, not_le.2 h]

/-- A store leaves a word of scratchpad as plain as it was, where only code is watched. -/
theorem plainMemory_storeBytes {s : State} {b : Nat} (hb : b + 4 ≤ secBase) (hu : unguarded s = true)
    (h : plainMemory s b) (a : Nat) (bs : List Byte) : plainMemory (storeBytes s a bs) b := by
  have hs : b < secBase := by omega
  have hdru : b < druBase := lt_trans hs (by decide)
  have hdram : b + 4 ≤ dramBase := le_trans hb (by decide)
  obtain ⟨-, hp, -, he⟩ := h
  refine ⟨readStatus_scratch hs _, (fabPlace_storeBytes hs s a bs).trans hp, ?_, (ueIn_storeBytes hdram s a bs).trans he⟩
  rw [watched_unguarded ((unguarded_storeBytes s a bs).trans hu), codeRuns_scratch hdru]

theorem storeBytes_append (s : State) (a : Nat) (xs ys : List Byte) :
    storeBytes s a (xs ++ ys) = storeBytes (storeBytes s a xs) (a + xs.length) ys := by
  induction xs generalizing s a with
  | nil => rfl
  | cons x xs ih => simp only [List.cons_append, storeBytes, ih, List.length_cons, Nat.add_assoc, Nat.add_comm 1]

/-! ### READ, WRITE and MODIFY of a word of plain memory (R442, R443) -/

section word

variable {s : State} {src tag a : Nat} {noresp : Bool} (h4 : a % 4 = 0) (h : plainMemory s a)
include h4 h

theorem cmdREAD_mem (hc : cmdReady s src (fun r => recIs 1 tag noresp r && r.addr == a) = true) :
    cmdREAD src tag a noresp s = .ok (finishOne src 1 tag noresp 0 (rd32 s a) (dramWake a s)) := by
  simp [cmdREAD, hc, h4, cmdRead_mem s a h4 h, wordOf_rd32]

theorem cmdWRITE_mem {v : Word}
    (hc : cmdReady s src (fun r => recIs 2 tag noresp r && r.addr == a && r.data == v.toNat) = true) :
    cmdWRITE src tag a noresp v s =
      .ok (finishOne src 2 tag noresp 0 0 (writeMem (dramWake a s) a (bytesOf 4 v.toNat))) := by
  rw [cmdWRITE_begins hc (dsxWaits_mem h) h4, cmdWrite_mem src s a v h4 h]
  rfl

theorem cmdMODIFY_mem {lsb width : Nat} {v : Word}
    (hc : cmdReady s src (fun r => recIs 3 tag noresp r && r.addr == a && r.count % 32 == lsb &&
      r.count / 256 % 32 + 1 == width && r.data == v.toNat) = true) :
    cmdMODIFY src tag a noresp lsb width v s =
      .ok (finishOne src 3 tag noresp 0 (rd32 s a) (writeMem (dramWake a s) a
        (bytesOf 4 (mergeMask (wordOf ((2 ^ width - 1) * 2 ^ lsb)) (wordOf (rd32 s a)) (v <<< lsb)).toNat))) := by
  have hw := fabWriteWord_mem (dramWake a s) a
    (mergeMask (wordOf ((2 ^ width - 1) * 2 ^ lsb)) (wordOf (rd32 s a)) (v <<< lsb)) h4 (plainMemory_dramWake h)
  rw [dramWake_twice] at hw
  simp [cmdMODIFY, hc, dsxWaits_mem h, h4, cmdRead_mem s a h4 h, hw, wordOf_rd32]

end word

/-! ### Bursts over scratchpad (R444) -/

theorem burstValues_succ (s : State) (a n : Nat) :
    burstValues s a (n + 1) = wordOf (rd32 s a) :: burstValues s (a + 4) n := by
  have hk (k : Nat) : a + 4 * (k + 1) = a + 4 + 4 * k := by omega
  simp [burstValues, List.range_succ_eq_map, Function.comp_def, hk]

theorem burstValues_length (s : State) (a n : Nat) : (burstValues s a n).length = n := by simp [burstValues]

/-- The words of a burst but the first one. -/
theorem plainMemory_tail {s : State} {a n : Nat} (h : ∀ k : Nat, k < n + 1 → plainMemory s (a + 4 * k)) (k : Nat)
    (hk : k < n) : plainMemory s (a + 4 + 4 * k) := by
  have := h (k + 1) (by omega)
  rwa [Nat.mul_add, Nat.mul_one, Nat.add_comm (4 * k), ← Nat.add_assoc] at this

theorem burstWords_mem {s : State} {a n : Nat} (h4 : a % 4 = 0) (ha : a + 4 * n ≤ secBase)
    (h : ∀ k : Nat, k < n → plainMemory s (a + 4 * k)) : burstWords n a s = (0, burstValues s a n, s) := by
  induction n generalizing a with
  | zero => rfl
  | succ n ih =>
    have hr : cmdRead s a = (0, wordOf (rd32 s a), s) := by
      rw [cmdRead_mem s a h4 (h 0 (by omega)), dramWake_scratch (lt_of_lt_of_le (by omega) (by decide : secBase ≤ dramBase))]
    have ht := ih (a := a + 4) (by omega) (by omega) (plainMemory_tail h)
    simp [burstWords, hr, ht, burstValues_succ]

theorem burstStore_mem {s : State} {a : Nat} {ws : List Word} (src : Nat) (h4 : a % 4 = 0)
    (ha : a + 4 * ws.length ≤ secBase) (hu : unguarded s = true)
    (h : ∀ k : Nat, k < ws.length → plainMemory s (a + 4 * k)) :
    burstStore src a ws s = .ok (0, ws.length, storeBytes s a (ws.flatMap (fun v => bytesOf 4 v.toNat))) := by
  induction ws generalizing s a with
  | nil => rfl
  | cons v ws ih =>
    rw [List.length_cons] at ha h
    have hd : a < druBase := lt_of_lt_of_le (by omega) (by decide : secBase ≤ druBase)
    have h0 := h 0 (by omega)
    have hw : cmdWrite src a v s = .ok (0, storeBytes s a (bytesOf 4 v.toNat)) := by
      rw [cmdWrite_mem src s a v h4 h0, dramWake_scratch (lt_trans hd (by decide)),
        writeMem_scratch hd (by rw [bytesOf_length]; exact h0.2.2.2)]
    have ht := ih (s := storeBytes s a (bytesOf 4 v.toNat)) (a := a + 4) (by omega) (by omega)
      ((unguarded_storeBytes ..).trans hu)
      (fun k hk => plainMemory_storeBytes (by omega) hu (plainMemory_tail h k hk) _ _)
    simp only [burstStore, hw, ht, ne_eq, not_true_eq_false, if_false, List.length_cons, List.flatMap_cons,
      storeBytes_append, bytesOf_length]

theorem aligned_of_burstFault {src a n buf : Nat} (h : burstFault src a n buf = none) : a % 4 = 0 := by
  by_contra h4
  simp [burstFault, h4] at h

theorem buffer_of_burstFault {a n buf : Nat} (h : burstFault 0 a n buf = none) : buf + 4 * n ≤ 0x20000 := by
  unfold burstFault at h
  split_ifs at h with h1 h2 h3
  simp [bufferInside] at h3
  exact h3.2

theorem burstSecret_scratch {a n : Nat} (h : a + 4 * n ≤ secBase) : burstSecret a n = false := by
  have : ¬ secBase < a + 4 * n := by omega
  simp [burstSecret, this]

section burst

variable {s : State} {src tag a n buf : Nat} {noresp : Bool} (hf : burstFault src a n buf = none)
  (ha : a + 4 * n ≤ secBase) (h : ∀ k : Nat, k < n → plainMemory s (a + 4 * k))
include hf ha h

theorem cmdBurstRead_mem (hc : cmdReady s src (fun r => recIs 4 tag noresp r && r.addr == a && r.count == n &&
      (src != 0 || r.data == buf)) = true) :
    cmdBurstRead src tag a noresp n buf s = .ok (
      if src = 0 then finish src noresp ⟨4, 0, tag, n, 0, []⟩
        (storeMem 10 0 s buf ((burstValues s a n).flatMap (fun v => bytesOf 4 v.toNat)))
      else finish src noresp ⟨4, 0, tag, n, 0, burstValues s a n⟩ s) := by
  simp only [cmdBurstRead, hc, hf, burstSecret_scratch ha, burstWords_mem (aligned_of_burstFault hf) ha h,
    burstValues_length]
  split_ifs <;> simp_all

theorem cmdBurstWrite_mem {ws : List Word} (hu : unguarded s = true) (hn : (burstData src n buf ws s).length = n)
    (hc : cmdReady s src (fun r => recIs 5 tag noresp r && r.addr == a && r.count == n &&
      (if src = 0 then r.data == buf else r.words == ws)) = true) :
    cmdBurstWrite src tag a noresp n buf ws s = .ok (finish src noresp ⟨5, 0, tag, n, 0, []⟩
      (storeBytes s a ((burstData src n buf ws s).flatMap (fun v => bytesOf 4 v.toNat)))) := by
  have hst := burstStore_mem (s := s) (ws := burstData src n buf ws s) src (aligned_of_burstFault hf)
    (by rw [hn]; exact ha) hu (by rw [hn]; exact h)
  rw [hn] at hst
  simp [cmdBurstWrite, hc, hf, burstSecret_scratch ha, hst]

end burst

/-- A frame's burst write writes its data records. -/
theorem burstData_frame {src n buf : Nat} {ws : List Word} (s : State) (h : 1 ≤ src) (hl : ws.length = n) :
    burstData src n buf ws s = ws := by
  subst hl
  unfold burstData
  rw [if_neg (by omega)]
  apply List.ext_getElem
  · simp
  · intro i h1 h2
    simp [List.getD_eq_getElem?_getD, h2]

/-! ### Counterexamples -/

/-- A device whose write of `SYS_EVT_EN`[0] waits for the block boundary: a read returns the new word, all ones, while the
old word, zero, still acts (R15). -/
def enablePending : State :=
  { State.reset with words := { State.reset.words with
      wr := [(Reg.SYS_EVT_EN.at 0, 0xFFFFFFFF)], act := [(Reg.SYS_EVT_EN.at 0, 0)] } }

/-- A device with its core 0 leaving: the spare holds the whole copy (R495), in which the 8-byte word at its start is
uncorrectable and lists a byte in its upper half. -/
def copyUncorrectable : State :=
  { State.reset with
    start := { State.reset.start with supplies := true, stage := 6 }
    words := { State.reset.words with wr := [(0x10010118, 8)], act := [(0x10010118, 8)] }
    dru := { State.reset.dru with phys := [(0, 0)], spare := some 16, leaving := some 0, copied := true }
    ue := [druBase + 0x1000000]
    mem := [(druBase + 0x1000004, 1)] }

theorem copyUncorrectable_sound : Sound copyUncorrectable := ⟨by decide, rfl⟩

theorem copyUncorrectable_plain : plainMemory (work copyUncorrectable) druBase :=
  ⟨by decide, by decide, by decide, by decide⟩

theorem copyUncorrectable_ready : cmdReady (work copyUncorrectable) 0
    (fun r => recIs 2 0 false r && r.addr == druBase && r.data == (0 : Word).toNat) = true := by decide

/-- The write of the first word of the leaving core zeroes the other half of the copy's word. -/
theorem copyUncorrectable_written :
    tabFind? (druBase + 0x1000004) (writeMem (work copyUncorrectable) druBase (bytesOf 4 (0 : Word).toNat)).post = some 0 := by
  decide

/-! ### The obligations -/

/-- Refutes O7: events go by the word of `SYS_EVT_EN` that acts, not by the word that a read returns; while a write waits
for the block boundary the two differ, and here the event leaves no trace though the word read enables it. -/
theorem not_eventsAreRecorded : ¬ Obligations.EventsAreRecorded := by
  intro h
  obtain ⟨-, hon, -⟩ := h enablePending 0 0 1 [] (eventRecords enablePending 0 []) rfl rfl (by decide)
  obtain ⟨hfits, -⟩ := hon (by decide)
  obtain ⟨hwr, -⟩ := hfits (by decide)
  have hoff : raise 0 [] enablePending = enablePending := if_neg (by decide)
  rw [hoff] at hwr
  exact absurd hwr (by decide)

/-- Settles O9: a memory in canonical form is what reading it gives. -/
theorem memoryIsByteAddressed : Obligations.MemoryIsByteAddressed := by
  intro m m' a v hm
  refine ⟨wf_memWrite m a v hm, ?_, fun b hb => ?_, fun hm' hr => mem_ext hm hm' hr⟩
  · rw [memRead_memWrite, if_pos rfl]
  · rw [memRead_memWrite, if_neg hb]

/-- Settles O11: the three commands on a word of plain memory. -/
theorem wordCommandsAnswer : Obligations.WordCommandsAnswer :=
  ⟨fun _ _ _ _ _ _ hw hc h4 h => runE_leaves hw (cmdREAD_mem h4 h hc),
    fun _ _ _ _ _ _ _ hw h4 h => ⟨fun hc => runE_leaves hw (cmdWRITE_mem h4 h hc),
      fun _ _ hc => runE_leaves hw (cmdMODIFY_mem h4 h hc)⟩⟩

/-- Settles O12: each word of a burst is a word of plain memory. -/
theorem burstsMoveWords : Obligations.BurstsMoveWords := by
  refine ⟨fun s w src tag a n buf noresp hw hs hf ha h => ⟨fun hc => ?read, fun ws hl hu hc => ?write⟩,
    fun s w tag a n buf noresp hw hf ha h hb => ⟨fun hc => ?hostRead, fun ws hu hc => ?hostWrite⟩⟩
  case read =>
    refine runE_leaves hw ((cmdBurstRead_mem hf ha h hc).trans ?_)
    rw [if_neg (by omega)]
  case write =>
    have hd := burstData_frame (buf := buf) w hs hl
    refine runE_leaves hw ((cmdBurstWrite_mem hf ha h hu (by rw [hd, hl]) hc).trans ?_)
    rw [hd]
  case hostRead =>
    have hlen : ((burstValues w a n).flatMap (fun v => bytesOf 4 v.toNat)).length = 4 * n := by
      simp [List.length_flatMap, bytesOf_length, burstValues_length, Nat.mul_comm]
    have hbuf : buf < druBase := lt_of_le_of_lt (Nat.le_of_add_right_le (buffer_of_burstFault hf)) (by decide)
    refine runE_leaves hw ((cmdBurstRead_mem hf ha h hc).trans ?_)
    rw [if_pos rfl, storeMem_scratch 10 0 hbuf (by rw [hlen]; exact hb)]
  case hostWrite =>
    exact runE_leaves hw (cmdBurstWrite_mem hf ha h hu (burstValues_length w buf n) hc)

/-- Refutes O10: WRITE of a word in a leaving core's memory goes to the spare's copy too, where it takes an uncorrectable
8-byte word out; the half of that word beside the four bytes written then reads as zero. -/
theorem not_storesAreLocal : ¬ Obligations.StoresAreLocal := by
  intro h
  obtain ⟨-, hwrite, -⟩ := h copyUncorrectable (work copyUncorrectable) 0 0 druBase false 0 rfl copyUncorrectable_sound
    (by decide) (by decide) copyUncorrectable_plain
  obtain ⟨t, ht, -, hlocal⟩ := hwrite copyUncorrectable_ready
  have hb := hlocal (druBase + 0x1000004) (.inr (by decide)) (fun c hc => ?copy)
  case copy =>
    have : c = druBase + 0x1000000 := (Option.some.inj hc).symm
    exact .inr (by omega)
  have hrow : exec (.write 0 0 druBase false 0) copyUncorrectable = leaves copyUncorrectable
      (finishOne 0 2 0 false 0 0 (writeMem (work copyUncorrectable) druBase (bytesOf 4 (0 : Word).toNat))) :=
    runE_leaves rfl (cmdWRITE_mem (by decide) copyUncorrectable_plain copyUncorrectable_ready)
  rw [hrow] at ht
  rw [leaves_next ht, memRead_settle, finishOne_post _ _ _ _ _ _ _ (by decide), copyUncorrectable_written] at hb
  exact absurd hb (by decide)

end Sys2Proof.Proofs
end

section
/-! The family of control: FEATURE_REQUEST and RESTART (R410, R427, R431, R442), the host's pins (R435, R437, R450), command
and response rings (R439, R440), and CUE and SNAP tags at SYS (R455, R456). -/

namespace Sys2Proof.Proofs

open Sys2Proof Sys2Proof.Machine Sys2Proof.Laws

/-! ### FEATURE_REQUEST and RESTART -/

section requests

variable {s : State} {src tag : Nat} {noresp : Bool}

theorem cmdFeature_window {close : Bool} {req : Word} (hc : cmdReady s src (fun r =>
      recIs 10 tag noresp r && r.data == req.toNat && Nat.testBit r.count 0 == close) = true) (h : s.start.stage = 3) :
    cmdFeature src tag noresp req close s = finishOne src 10 tag noresp 0 (regW s Reg.FEA_OFFER_LO.base).toNat
      (storeBytes (storeBytes s 32 (bytesOf 8 req.toNat)) 40 (bytesOf 4 (if close then 3 else 1))) := by
  simp only [cmdFeature, hc, h]
  rfl

theorem cmdFeature_closed {close : Bool} {req : Word} (hc : cmdReady s src (fun r =>
      recIs 10 tag noresp r && r.data == req.toNat && Nat.testBit r.count 0 == close) = true) (h : s.start.stage ≠ 3) :
    cmdFeature src tag noresp req close s =
      finishOne src 10 tag noresp 0 (regW s Reg.FEA_ACCEPT_LO.base).toNat s := by
  simp only [cmdFeature, hc, h]
  rfl

theorem cmdRestart_host {slot : Nat} (hc : cmdReady s 0 (fun r => recIs 11 tag noresp r && r.count % 4 == slot) = true) :
    cmdRestart 0 tag slot noresp s = startBegin 2 (if slot = 1 then some 0 else if slot = 2 then some 1 else none) s := by
  simp only [cmdRestart, hc]
  rfl

theorem cmdRestart_frame {slot q : Nat} {c : ReplyCtx} {cs : List ReplyCtx}
    (hc : cmdReady s src (fun r => recIs 11 tag noresp r && r.count % 4 == slot) = true) (h0 : src ≠ 0)
    (hr : (sourceOf s src).reply = c :: cs) (hq : q = if src ≤ 16 then 512 + c.port else linkRspQueue s (src - 17)) :
    cmdRestart src tag slot noresp s =
      startBegin 2 (if slot = 1 then some 0 else if slot = 2 then some 1 else none)
        (sendLast q (queueSt s q).frames.length (finish src noresp ⟨11, 0, tag, 1, 0, []⟩
          (modSource src (fun x => { x with taken := x.taken.zipIdx.map (fun q =>
            if 0 < q.2 ∧ q.2 < c.left then { q.1 with flags := q.1.flags % cmdDiscard + cmdDiscard } else q.1) }) s))) := by
  subst hq
  simp only [cmdRestart, hc, hr, if_neg h0, List.head?_cons, Option.map_some, Option.getD_some]
  rfl

end requests

/-! ### The host's pins -/

/-- A step that leaves every byte as it was has changed no descriptor. -/
theorem chainsDiffer_bytes {s t : State} (h : ∀ a n : Nat, readBytes t a n = readBytes s a n) : chainsDiffer s t = false := by
  simp [chainsDiffer, h]

theorem chainsDiffer_noChain {s t : State} (h : chainDescs s = []) : chainsDiffer s t = false := by
  simp [chainsDiffer, h]

theorem exec_hostWrite (half d c : Nat) (lo hi : Bool) (s : State) : exec (.hostWrite half lo hi d c) s =
    runE (fun t => if !powered t then .ok t
      else if chainsDiffer t (hostWrite half lo hi d c t) then .error .chainChanged
      else .ok (hostWrite half lo hi d c t)) s := rfl

/-- A host write of a powered part that changes no descriptor does what `hostWrite` does. -/
theorem hostWriteRow_leaves {half d c : Nat} {lo hi : Bool} {s w t : State} (hw : w = work s) (hp : powered w = true)
    (ht : hostWrite half lo hi d c w = t) (hd : chainsDiffer w t = false) :
    exec (.hostWrite half lo hi d c) s = leaves s t := by
  subst ht
  rw [exec_hostWrite]
  refine runE_leaves hw ?_
  simp only [hp, hd]
  rfl

theorem hostReadRow_leaves {half c : Nat} {s w t : State} (hw : w = work s) (hp : powered w = true)
    (ht : hostRead half c w = t) : exec (.hostRead half c) s = leaves s t := by
  subst ht
  exact run_when_on hw hp

section pins

variable {s : State} {k d : Nat} {lo hi : Bool} (hk : k < 2 ^ 15)
include hk

/-- The lower halfword of a write is held (R435). -/
theorem hostWrite_lower (c : Nat) : hostWrite (2 * k) lo hi d c s =
    modSys (fun x => { x with hbusy := hostWarned c, wrLatch := some (2 * k, d % 2 ^ 16,
      ((if lo then 1 else 0) + if hi then 2 else 0)) }) s := by
  have hh : 2 * k % 2 ^ 16 = 2 * k := by omega
  have he : 2 * k % 2 = 0 := by omega
  simp only [hostWrite, hh, he]
  rfl

/-- The upper one stores both, where the halfword takes a write (R427, R435). -/
theorem hostWrite_upper {d0 l0 : Nat} (hl : s.sys.wrLatch = some (2 * k, d0, l0))
    (hz : s.start.stage = 2 → 2 * k + 1 < 16 ∨ 22 ≤ 2 * k + 1) :
    hostWrite (2 * k + 1) lo hi d 0 s =
      storeLanes (2 * (2 * k + 1)) d ((if lo then 1 else 0) + (if hi then 2 else 0))
        (storeLanes (2 * (2 * k)) d0 l0 (modSys (fun x => { x with hbusy := false, wrLatch := none }) s)) := by
  have hh : (2 * k + 1) % 2 ^ 16 = 2 * k + 1 := by omega
  have ho : (2 * k + 1) % 2 ≠ 0 := by omega
  have hkept : (s.start.stage == 2 && decide (16 ≤ 2 * k + 1 ∧ 2 * k + 1 < 22)) = false := by
    by_contra hne
    simp only [Bool.not_eq_false, Bool.and_eq_true, beq_iff_eq, decide_eq_true_eq] at hne
    have := hz hne.1
    omega
  simp only [hostWrite, hh, ho, hl, if_false, hkept]
  rfl

/-- The words of the driver's request take no write before the window opens (R427). -/
theorem hostWrite_kept (hs : s.start.stage = 2) (h1 : 16 ≤ 2 * k + 1) (h2 : 2 * k + 1 < 22) :
    hostWrite (2 * k + 1) lo hi d 0 s = modSys (fun x => { x with hbusy := false, wrLatch := none }) s := by
  have hh : (2 * k + 1) % 2 ^ 16 = 2 * k + 1 := by omega
  have ho : (2 * k + 1) % 2 ≠ 0 := by omega
  have hkept : (s.start.stage == 2 && decide (16 ≤ 2 * k + 1 ∧ 2 * k + 1 < 22)) = true := by simp [hs, h1, h2]
  simp only [hostWrite, hh, ho, if_false, hkept]
  rfl

/-- A read of the lower halfword takes the word once (R435). -/
theorem hostRead_lower (hu : ueIn s (4 * k) 4 = []) : hostRead (2 * k) 0 s =
    modSys (fun x => { x with hbusy := false, hd := rd32 s (4 * k) % 2 ^ 16, rdLatch := some (2 * k + 1, rd32 s (4 * k) / 2 ^ 16) }) s := by
  have hh : 2 * k % 2 ^ 16 = 2 * k := by omega
  have he : 2 * k % 2 = 0 := by omega
  have ha : 2 * k / 2 * 4 = 4 * k := by omega
  have hd : 4 * k < dramBase := lt_trans (by omega : 4 * k < 2 ^ 17) (by decide)
  have hu' : ueIn (modSys (fun x => { x with hbusy := hostWarned 0 }) s) (4 * k) 4 = [] := hu
  simp only [hostRead, hh, he, ha, loadMem, hu', dramWake_scratch hd]
  rfl

/-- A read of the upper halfword gives the half that was kept (R435). -/
theorem hostRead_upper {v : Nat} (hl : s.sys.rdLatch = some (2 * k + 1, v)) :
    hostRead (2 * k + 1) 0 s = modSys (fun x => { x with hbusy := false, hd := v, rdLatch := none }) s := by
  have hh : (2 * k + 1) % 2 ^ 16 = 2 * k + 1 := by omega
  have ho : (2 * k + 1) % 2 ≠ 0 := by omega
  simp only [hostRead, hh, ho, hl, if_false, if_true]
  rfl

end pins

theorem hirqLow_iff {s : State} (hp : powered s = true) : hirqLow s = true ↔ s.start.stage = 3 ∨
    ((rd32 s (ctlBlock + 0x28)).testBit 0 = true ∧ rd32 s (ctlBlock + 0x08) ≠ rd32 s (ctlBlock + 0x0C)) ∨
    ((rd32 s (ctlBlock + 0x28)).testBit 1 = true ∧ rd32 s (ctlBlock + 0x20) ≠ rd32 s (ctlBlock + 0x24)) := by
  simp [hirqLow, hp, or_assoc]

/-! ### CUE and SNAP tags at SYS -/

section tags

variable {s : State} {t : SnapTab} {k tick : Nat} (ht : (snapTab s).1 = some t)
include ht

/-- A cue beyond the table's (R456). -/
theorem cueAct_absent (hk : k ≠ 0xFFFF) (h : t.cues ≤ k) :
    cueAct k tick s = .ok (raise 0x05 (bytesOf 2 0xFFFF ++ bytesOf 4 (extTick (snapTab s).2 tick)) (snapTab s).2) := by
  simp only [cueAct, if_neg hk, ht, if_pos h]

/-- A cue in the table: its recall, its records, its COMMIT (R456). -/
theorem cueAct_done {ok : Bool} {c : List Byte} {y z v : State} (hk : k ≠ 0xFFFF) (h : k < t.cues)
    (hr : fabRead 10 0 (snapTab s).2 (t.base + 16 + 16 * t.snaps + 16 * k) 16 = (ok, c, y))
    (hz : getLE c 0 2 = 0xFFFF ∧ z = y ∨ ∃ (area : Nat) (as : List Nat) (q : State), getLE c 0 2 ≠ 0xFFFF ∧
      snapEntry t (getLE c 0 2) y = (some (area, as), q) ∧ recallWords as area q = .ok z)
    (hv : applyRecords (getLE c 2 2) (getLE c 4 5) z = .ok v) :
    cueAct k tick s = .ok (raise 0x05 (bytesOf 2 k ++ bytesOf 4 (extTick v tick))
      (setN Reg.SYS_CUE_POS.base k (commitAll tick v))) := by
  have hk' : ¬ t.cues ≤ k := by omega
  rcases hz with ⟨hs, rfl⟩ | ⟨area, as, q, hs, he, hw⟩
  · simp only [cueAct, if_neg hk, ht, if_neg hk', hr, if_pos hs, hv]
  · simp only [cueAct, if_neg hk, ht, if_neg hk', hr, if_neg hs, he, hw, hv]

variable {area : Nat} {as : List Nat} (he : (snapEntry t k (snapTab s).2).1 = some (area, as))
include he

/-- A snapshot saved into its area (R455). -/
theorem snapSave_done {u : State} (hb : as.any (snapBars (snapEntry t k (snapTab s).2).2) = false)
    (hf : fabWrite 3 10 0 (wordValues as (snapEntry t k (snapTab s).2).2).2 area
      (wordValues as (snapEntry t k (snapTab s).2).2).1 = .ok u) :
    snapSave k tick s = .ok (snapEvent k 0 tick u) := by
  simp only [snapSave, ht, he, hb, hf]
  rfl

/-- A snapshot recalled, with its COMMIT (R455). -/
theorem snapRecall_done {u : State} (hr : recallWords as area (snapEntry t k (snapTab s).2).2 = .ok u) :
    snapRecall k tick s = .ok (snapEvent k 1 tick (commitAll tick u)) := by
  simp only [snapRecall, ht, he, hr]

end tags

theorem cueTag_acts {s : State} {p : PendTag} (hr : running s = true)
    (hp : (unitSt s uSYS).pend.find? (fun q => q.tag.typ == tCUE) = some p) :
    cueTag s = cueAct (fld p.tag.payload 15 0) (tagTick s p) (removePend uSYS p s) := by
  simp only [cueTag, hp, hr, if_true]

theorem snapTag_acts {s : State} {p : PendTag} (hr : running s = true)
    (hp : (unitSt s uSYS).pend.find? (fun q => q.tag.typ == tSNAP &&
      ((bit q.tag.payload 16 && !bit q.tag.payload 17) || decide (q.block ≤ nowBlock s))) = some p)
    (h17 : bit p.tag.payload 17 = false) (hs : p.snap = []) :
    snapTag s = (if bit p.tag.payload 16 then snapRecall else snapSave) (fld p.tag.payload 15 0) (tagTick s p)
      (removePend uSYS p s) := by
  cases h16 : bit p.tag.payload 16 <;> simp [snapTag, hp, hr, h17, hs, h16]

/-! ### Counterexample -/

/-- A device whose DRAM is in self-refresh. -/
def refreshing : State := { State.reset with drc := { State.reset.drc with selfRefresh := true } }

/-! ### The obligations -/

/-- Settles O15: the request goes to the identity area in the window only; a restart follows the answer of a remote source. -/
theorem featureRequestAndRestart : Obligations.FeatureRequestAndRestart := by
  refine ⟨fun s w src tag noresp close req hw hc => ⟨fun h => ?_, fun h => ?_⟩,
    fun s w src tag slot noresp hw hc => ⟨?host, fun c cs q h0 hr hq => ?frame⟩⟩
  · exact run_leaves hw (cmdFeature_window hc h)
  · exact run_leaves hw (cmdFeature_closed hc h)
  case host =>
    rintro rfl
    exact run_leaves hw (cmdRestart_host hc)
  case frame => exact run_leaves hw (cmdRestart_frame hc h0 hr hq)

/-- Settles O16: the latches of the host's pins and the causes of HIRQ_N. -/
theorem hostPinsAccess : Obligations.HostPinsAccess := by
  intro s w k d c lo hi hw hp hk
  refine ⟨?lower, fun d0 l0 hl hch hz => ?upper, fun hs h1 h2 => ?kept, fun hu => ?readLower, fun v hv => ?readUpper,
    hirqLow_iff hp⟩
  case lower => exact hostWriteRow_leaves hw hp (hostWrite_lower hk c) (chainsDiffer_bytes fun _ _ => rfl)
  case upper => exact hostWriteRow_leaves hw hp (hostWrite_upper hk hl hz) (chainsDiffer_noChain hch)
  case kept => exact hostWriteRow_leaves hw hp (hostWrite_kept hk hs h1 h2) (chainsDiffer_bytes fun _ _ => rfl)
  case readLower => exact hostReadRow_leaves hw hp (hostRead_lower hk hu)
  case readUpper => exact hostReadRow_leaves hw hp (hostRead_upper hk hv)

/-- Refutes O17: a read of DRAM ends self-refresh (R524), so that it does not leave the state as it was. -/
theorem not_ringsAndRemoteFrames : ¬ Obligations.RingsAndRemoteFrames := by
  rintro ⟨h, -⟩
  obtain ⟨-, hload, -⟩ := h refreshing (work refreshing) rfl
  have hw : (loadMem 10 0 (work refreshing) dramBase 0).2.2.drc.selfRefresh = true :=
    congrArg (fun r => r.2.2.drc.selfRefresh) (hload dramBase 0 rfl)
  exact absurd hw (by decide)

/-- Settles O22: a cue and a snapshot each go by the table that SYS_SNAP_BASE names. -/
theorem cueAndSnapTagsAct : Obligations.CueAndSnapTagsAct := by
  rintro s w p t k hw hr ht rfl hk
  refine ⟨fun hp => ?cue, fun area as hp h17 hs he => ⟨fun u h16 hb hf => ?save, fun u h16 hrec => ?recalled⟩⟩
  case cue =>
    rintro x rfl
    exact ⟨fun h => runE_leaves hw ((cueTag_acts hr hp).trans (cueAct_absent ht hk h)),
      fun ok c y z v h hread hz hv => runE_leaves hw ((cueTag_acts hr hp).trans (cueAct_done ht hk h hread hz hv))⟩
  case save =>
    refine runE_leaves hw ((snapTag_acts hr hp h17 hs).trans ?_)
    rw [h16]
    exact snapSave_done ht he hb hf
  case recalled =>
    refine runE_leaves hw ((snapTag_acts hr hp h17 hs).trans ?_)
    rw [h16]
    exact snapRecall_done ht he hrec

end Sys2Proof.Proofs
end

section
/-! The family of the Zwildo links: links come up, go down and change width (R370, R380 to R383), frames are checked and
sent (R373 to R379), and what each frame does (R375 to R378, R551, R555, R558). -/

namespace Sys2Proof.Proofs

open Sys2Proof Sys2Proof.Machine Sys2Proof.Laws

/-- A row of a link that exists leaves what its function makes of the state. -/
theorem onLinkRow_leaves {n : Nat} {f : State → State} {s w t : State} (hw : w = work s) (hu : up w uLNK)
    (hn : n < linkCount w) (h : f w = t) : run (onLink n f) s = leaves s t :=
  run_leaves hw ((onLink_up hu hn f).trans h)

/-! ### Up and down (R370, R593) -/

section upAndDown

variable {s : State} {n : Nat}

theorem linkUp_noRef {rx tx : List Nat} (h : linkRef s n = false) : linkUp n rx tx s = s := by
  simp [linkUp, h]

theorem linkUp_comesUp {rx tx rr : List Nat} (he : lnkEn s n = true) (hd : (linkSt s n).up = false)
    (ht : usableLanes tx [] ≠ 0)
    (hrr : rr = (rx.foldl (fun l k => setAdd k l) (linkSt s n).rxRetired).filter (fun k => decide (k < 5)))
    (hr : usableLanes rr [] ≠ 0) (href : linkRef s n = true) :
    linkUp n rx tx s = linkShow n (modLink n (fun x => { x with
      up := true, rxRetired := rr, txRetired := tx, dead := [], txDead := [], rxMove := none, txMove := none,
      change := none, lowRun := 0, sent := 0, load := 0
      rxWidth := widthCap (usableLanes rr []), txWidth := widthCap (usableLanes tx []), timeSent := 0, clockSent := 0
      heard := monoNs s }) s) := by
  subst hrr
  refine if_neg ?_
  simp [he, hd, ht, hr, href]

variable (hup : (linkSt s n).up = true)
include hup

theorem linkDown_falls {cut : Bool} {t : State} (ht : t = raise 0x2C (bytesOf 1 n ++ bytesOf 1 0)
      (stick (Reg.LNK_HIST.at n) 0 (pcsErr n (if cut then 1 else 0) (linkShow n (modLink n (fun x => { x with
        up := false, change := none, rxWidth := 0, txWidth := 0, direct := [], rxMove := none, txMove := none,
        rxRetired := match x.rxMove with | some k => setAdd k x.rxRetired | none => x.rxRetired }) s))))) :
    linkDown n cut s = linkDiscard n ((linkCands t n).foldl (fun u c => candLose c u) t) := by
  subst ht
  exact if_neg (by simp [hup])

/-- A receive lane of the map that loses lock (R383). -/
theorem laneLost_receive {lane frames : Nat} {t : State} (hl : lane < 5) (hm : laneInMap s n lane = true)
    (ht : t = modLink n (fun x => { x with dead := setAdd lane x.dead }) s) :
    laneLost n lane frames s =
      when (usableLanes (linkSt t n).rxRetired (linkSt t n).dead == 0) (linkDown n false) (pcsErr n frames t) := by
  subst ht
  rw [laneLost, if_pos hl]
  exact if_neg (by simp [hup, hm])

/-- A transmit lane of the map that loses lock at the partner (R383). -/
theorem laneLost_transmit {lane frames : Nat} {t : State}
    (ht : t = modLink n (fun x => { x with txDead := setAdd lane x.txDead }) s)
    (hr : (linkSt s n).txRetired.contains lane = false) (hd : (linkSt s n).txDead.contains lane = false)
    (h4 : lane = 4 → (linkSt s n).txRetired ≠ []) :
    laneLost n (lane + 5) frames s =
      if txCap t n = 0 then linkDown n false t
      else if (linkSt t n).change.isNone ∧ txCap t n < (linkSt t n).txWidth then widthGo n (txCap t n) false t
      else t := by
  subst ht
  rw [laneLost, if_neg (by omega), Nat.add_sub_cancel]
  refine if_neg ?_
  simp only [hup, hr, hd, Bool.not_true, Bool.or_false, Bool.false_or, Bool.and_eq_true, beq_iff_eq]
  exact fun h => h4 h.1 h.2

end upAndDown

/-! ### Control blocks (R381 to R383) -/

section blocks

variable {s : State} {n : Nat} (hup : (linkSt s n).up = true)
include hup

theorem controlBlock_width {code : Nat} (arg : Nat) (hc : code = 0x51 ∨ code = 0x52) :
    controlBlock n code arg s = widthTake n code arg s := by
  rcases hc with rfl | rfl <;> simp [controlBlock, hup]

theorem controlBlock_spareMove (arg : Nat) : controlBlock n 0x53 arg s = spareAsked n arg s := by
  simp [controlBlock, hup]

theorem controlBlock_spareAck : controlBlock n 0x54 0x53 s = spareSwitch n s := by
  simp [controlBlock, hup]

/-- The ACK that a width change waits for ends it; any other changes nothing. -/
theorem controlBlock_widthAck {c : WidthChange} (arg : Nat) (hc : widthSent s n = some c) :
    controlBlock n 0x54 arg s = when (arg == (if c.restore then 0x52 else 0x51)) (widthAck n) s := by
  by_cases h : arg = 0x53
  · have hne : (arg == (if c.restore then 0x52 else 0x51)) = false := by
      subst h
      split_ifs <;> rfl
    rw [hne, h, controlBlock_spareAck hup]
    unfold spareSwitch
    rw [hc]
    cases (linkSt s n).txMove <;> rfl
  · simp [controlBlock, hup, h, hc]

end blocks

theorem widthTake_answers {s : State} {n arg : Nat} (code : Nat) (h : arg = 1 ∨ arg = 2 ∨ arg = 4) :
    widthTake n code arg s = emit (.ctl n 0x54 code) (linkShow n (modLink n (fun x => { x with rxWidth := arg }) s)) :=
  if_pos h

theorem widthTake_other {s : State} {n arg : Nat} (code : Nat) (h1 : arg ≠ 1) (h2 : arg ≠ 2) (h4 : arg ≠ 4) :
    widthTake n code arg s = s := if_neg (by omega)

theorem spareAsked_takes {s : State} {n arg : Nat} (h : arg < 4) (hr : (linkSt s n).txRetired = []) :
    spareAsked n arg s = linkShow n (modLink n (fun x => { x with txMove := some arg }) s) := if_pos ⟨h, hr⟩

theorem spareAsked_refuses {s : State} {n arg : Nat} (h : 4 ≤ arg ∨ (linkSt s n).txRetired ≠ []) :
    spareAsked n arg s = s := if_neg (by rintro ⟨h1, h2⟩; rcases h with h | h <;> [omega; exact h h2])

theorem spareSwitch_moves {s : State} {n k : Nat} (hm : (linkSt s n).txMove = some k) (hc : widthSent s n = none) :
    spareSwitch n s = moveDone n (modLink n (fun x => { x with
      txMove := none, txRetired := setAdd k x.txRetired, txDead := setDel k x.txDead }) s) := by
  simp only [spareSwitch, hm, hc]

/-! ### Widths (R380, R382, R383) -/

section widths

variable {s : State} {n : Nat}

theorem widthGo_begins (k : Nat) (r : Bool) (h : laneMoving s n = false) :
    widthGo n k r s = linkShow n (emit (.ctl n (if r then 0x52 else 0x51) k)
      (modLink n (fun x => { x with change := some ⟨k, r, monoNs s, false, false⟩ }) s)) := by
  simp [widthGo, widthBegin, h]

theorem widthGo_waits (k : Nat) (r : Bool) (h : laneMoving s n = true) :
    widthGo n k r s = linkShow n (modLink n (fun x => { x with change := some ⟨k, r, 0, false, true⟩ }) s) := by
  simp [widthGo, widthBegin, h]

theorem linkShed_capFell (hup : (linkSt s n).up = true) (hc : (linkSt s n).change = none)
    (h : txCap s n < (linkSt s n).txWidth) : linkShed n s = widthGo n (txCap s n) false s :=
  if_pos (by simp [hup, hc, h])

theorem linkShed_lowLoad (hup : (linkSt s n).up = true) (hc : (linkSt s n).change = none)
    (h : (linkSt s n).txWidth ≤ txCap s n) (he : bit (lnkCfg s n) 2 = true) (hw : 1 < (linkSt s n).txWidth)
    (hl : shedHold s n ≤ (linkSt s n).lowRun) : linkShed n s = widthGo n ((linkSt s n).txWidth / 2) false s :=
  (if_neg (by simp [h])).trans (if_pos (by simp [hup, hc, he, hw, hl]))

section restores

variable (hup : (linkSt s n).up = true)
  (hl : loadOver (linkSt s n).txWidth (linkSt s n).load (restorePct s n) = true)
include hup hl

theorem linkRestore_begins (hc : (linkSt s n).change = none) (h : (linkSt s n).txWidth < txCap s n) :
    linkRestore n s = widthGo n (txCap s n) true s := by
  simp [linkRestore, hup, hl, hc, h]

theorem linkRestore_waits {c : WidthChange} (hc : (linkSt s n).change = some c) (hr : c.restore = false) :
    linkRestore n s = modLink n (fun x => { x with change := some { c with thenRestore := true } }) s := by
  simp [linkRestore, hup, hl, hc, hr]

end restores

section sent

variable {c : WidthChange} (hc : widthSent s n = some c)
include hc

theorem widthAck_takes {t : State} (ht : t = count (Reg.LNK_WIDTH_CNT.at n)
      (modLink n (fun x => { x with change := none, txWidth := c.width, lowRun := 0 }) s)) :
    widthAck n s = if txCap t n < c.width then widthGo n (txCap t n) false t else widthNext n c t := by
  subst ht
  simp only [widthAck, hc]

theorem shedTimeout_early (h : monoNs s < c.sent + 10000) : shedTimeout n s = s := by
  simp only [shedTimeout, hc, if_pos h]

theorem shedTimeout_late (h : c.sent + 10000 ≤ monoNs s) :
    shedTimeout n s = widthNext n c (stick (Reg.LNK_HIST.at n) 4
      (count (Reg.LNK_SHED_FAIL_CNT.at n) (modLink n (fun x => { x with change := none }) s))) := by
  simp only [shedTimeout, hc, if_neg (not_lt.2 h)]

end sent

theorem widthNext_restores {c : WidthChange} (h : c.thenRestore = true) (hw : (linkSt s n).txWidth < txCap s n) :
    widthNext n c s = widthGo n (txCap s n) true s := if_pos ⟨h, hw⟩

theorem widthNext_stays {c : WidthChange} (h : c.thenRestore = false ∨ txCap s n ≤ (linkSt s n).txWidth) :
    widthNext n c s = linkShow n s := by
  refine if_neg ?_
  rintro ⟨h1, h2⟩
  rcases h with h | h
  · simp [h] at h1
  · omega

section replace

variable {lane : Nat} (hup : (linkSt s n).up = true) (hm : laneMoving s n = false) (hc : (linkSt s n).change = none)
  (hl : laneInMap s n lane = true)
include hup hm hc hl

theorem laneReplace_spare (hr : (linkSt s n).rxRetired = []) : laneReplace n lane s =
    (true, linkShow n (emit (.ctl n 0x53 lane) (modLink n (fun y => { y with rxMove := some lane }) s))) := by
  simp [laneReplace, hup, hm, hc, hl, hr]

theorem laneReplace_noSpare (hr : (linkSt s n).rxRetired ≠ []) :
    laneReplace n lane s = (false, stick (Reg.LNK_HIST.at n) 3 s) := by
  simp [laneReplace, hup, hm, hc, hl, hr]

end replace

theorem laneMoveEnd_moves {k : Nat} (h : (linkSt s n).rxMove = some k) :
    laneMoveEnd s n = moveDone n (raise 0x2D (bytesOf 1 n ++ bytesOf 1 k)
      (stick (Reg.LNK_HIST.at n) 2 (count (Reg.LNK_SPARE_CNT.at n) (emit (.ctl n 0x54 0x53) (modLink n (fun y => { y with
        rxMove := none, rxRetired := setAdd k y.rxRetired, dead := setDel k y.dead }) s))))) := by
  simp only [laneMoveEnd, h]

/-- A lane's margin as read: it is shown, and a weak lane asks for its retirement (R383, R569). -/
theorem spareMoveRow_leaves {w : State} {lane margin : Nat} (hw : w = work s) (hu : up w uLNK) (hn : n < linkCount w)
    (hl : lane < 5) : exec (.spareMove n lane margin) s = leaves s
      (if weakLane w n margin then hltRetire 5 (n * 8 + lane) 0 (laneMargin n lane margin w) else laneMargin n lane margin w) :=
  onLinkRow_leaves hw hu hn (by simp [hl])

end widths

/-! ### Frames received (R373, R374) -/

section receive

variable {s : State} {n q : Nat} {bs : List Byte} {code : Bool} (hup : (linkSt s n).up = true)
include hup

theorem linkReceive_codeError (h : linkCheck s n bs code = 1) : linkReceive n bs code q s = pcsErr n 1
    (if 2 ≤ linkCheck s n bs false ∧ linkCheck s n bs false ≤ 4 then s
      else linkCells n (lfType bs) (min bs.length 8225) s) := by
  simp [linkReceive, hup, h]

theorem linkReceive_runt (h : linkCheck s n bs code = 2) :
    linkReceive n bs code q s = count (Reg.LNK_RUNT_CNT.at n) s := by
  simp [linkReceive, hup, h]

theorem linkReceive_bad (h : linkCheck s n bs code = 3 ∨ linkCheck s n bs code = 4) :
    linkReceive n bs code q s = count (Reg.LNK_BAD_CNT.at n) s := by
  rcases h with h | h <;> simp [linkReceive, hup, h]

theorem linkReceive_giant (h : linkCheck s n bs code = 5) :
    linkReceive n bs code q s = count (Reg.LNK_GIANT_CNT.at n) (linkCells n (lfType bs) 8225 s) := by
  simp [linkReceive, hup, h]

theorem linkReceive_misaligned (h : linkCheck s n bs code = 6) :
    linkReceive n bs code q s = count (Reg.LNK_ALIGN_CNT.at n) (linkCells n (lfType bs) bs.length s) := by
  simp [linkReceive, hup, h]

theorem linkReceive_badCrc (h : linkCheck s n bs code = 7) :
    linkReceive n bs code q s = count (Reg.LNK_CRC_CNT.at n) (linkCells n (lfType bs) bs.length s) := by
  simp [linkReceive, hup, h]

section good

variable (h : linkCheck s n bs code = 0)
include h

theorem linkReceive_direct (hq : linkQueue s n (lfType bs) = none) : linkReceive n bs code q s =
    count (Reg.LNK_RX_OK_CNT.at n) (modLink n (fun x =>
      { x with inbox := x.inbox ++ [(lfType bs, bs, stampNow s + (q * 16384 : Nat))] }) s) := by
  simp [linkReceive, hup, h, hq]

theorem linkReceive_noCell {k : Nat} (hq : linkQueue s n (lfType bs) = some k) (hk : qEn s k = false ∨ qTx s k = true) :
    linkReceive n bs code q s = noCell k s := by
  rcases hk with hk | hk <;> simp [linkReceive, hup, h, hq, hk]

theorem linkReceive_stored {k : Nat} {ok : Bool} {t : State} (hq : linkQueue s n (lfType bs) = some k)
    (he : qEn s k = true) (ht : qTx s k = false)
    (hs : storeFrame k (prefixOf bs.length (8 + n) 1 0 0xFF s q) (bs.take (bs.length - 4)) bs.length s = (ok, t)) :
    linkReceive n bs code q s = if ok then count (Reg.LNK_RX_OK_CNT.at n) t else t := by
  simp [linkReceive, hup, h, hq, he, ht, hs]

end good
end receive

/-! ### Frames sent (R376, R378, R379) -/

section send

variable {s : State} {n : Nat} (hup : (linkSt s n).up = true)
include hup

theorem timeSend_due {tx rx : Int} {p : List Byte} (he : lnkTimeEn s n = true)
    (hd : (linkSt s n).timeSent = 0 ∨ (linkSt s n).timeSent + timeInt s n ≤ monoNs s)
    (hx : (linkSt s n).echo.getD (0, 0) = (tx, rx))
    (hp : p = List.replicate 16 0 ++ stampBytes tx ++ stampBytes rx ++ bytesOf 1
        ((if (timeSource s).isSome || s.tim.portState == 6 then 1 else 0) + if (linkSt s n).echo.isSome then 2 else 0) ++
      bytesOf 1 (scaleNow s) ++ bytesOf 8 s.tim.gmId ++ bytesOf 1 (fld (regW s Reg.TIM_PTP_STAT.base) 15 8) ++
      List.replicate 5 0) :
    timeSend n s = sendDirect n 7 p (modLink n (fun y => { y with timeSent := max 1 (monoNs s) }) s) := by
  subst hp
  have hdue : (decide ((linkSt s n).timeSent = 0) || decide ((linkSt s n).timeSent + timeInt s n ≤ monoNs s)) = true := by
    simpa using hd
  simp only [timeSend, hup, he, hdue, hx]
  rfl

theorem clockSend_due (he : lnkTimeEn s n = true)
    (hd : (linkSt s n).clockSent = 0 ∨ (linkSt s n).clockSent + 100000000 ≤ monoNs s ∨
      (linkSt s n).clockState ≠ some s.clk.state) :
    clockSend n s = sendDirect n 8
      (bytesOf 4 (fld (regW s Reg.CLK_STAT.base) 15 0) ++ bytesOf 4 (regW s Reg.CLK_FREQ.base).toNat ++
        bytesOf 4 (regW s Reg.CLK_PHASE.base).toNat ++ List.replicate 20 0)
      (modLink n (fun y => { y with clockSent := max 1 (monoNs s), clockState := some s.clk.state }) s) := by
  have hdue : (decide ((linkSt s n).clockSent = 0) || decide ((linkSt s n).clockSent + 100000000 ≤ monoNs s) ||
      (linkSt s n).clockState != some s.clk.state) = true := by
    simpa [or_assoc] using hd
  simp only [clockSend, hup, he, hdue]
  rfl

end send

section transmit

variable {s : State} {n : Nat} (hn : n < linkCount s)
include hn

theorem linkTransmit_down (h : (linkSt s n).up = false) : linkTransmit n s = linkDiscard n s := by
  simp [linkTransmit, not_le.2 hn, h]

variable (hup : (linkSt s n).up = true)
include hup

/-- While a width change waits for its ACK no frame goes out (R382). -/
theorem linkTransmit_changing (h : widthSent s n ≠ none) : linkTransmit n s = s := by
  simp [linkTransmit, not_le.2 hn, hup, Option.isSome_iff_ne_none.2 h]

variable (hc : widthSent s n = none)
include hc

/-- The link's own frames come first (R379). -/
theorem linkTransmit_direct {f : Nat × List Byte}
    (hf : [5, 7, 8].findSome? (fun k => (linkSt s n).direct.find? (fun f => f.1 == k)) = some f) :
    linkTransmit n s =
      linkWire n (if f.1 = 7 then stampTime s f.2 else f.2) (modLink n (fun y => { y with direct := y.direct.erase f }) s) := by
  simp only [linkTransmit, if_neg (not_le.2 hn), hup, hc, hf]
  rfl

/-- Then one frame of the highest class that waits (R379). -/
theorem linkTransmit_queued {c q : Nat} {f : FrameRec} {rest : List FrameRec}
    (hd : [5, 7, 8].findSome? (fun k => (linkSt s n).direct.find? (fun f => f.1 == k)) = none)
    (hq : [1, 2, 0].findSome? (fun c => (linkNext s n c).map (fun q => (c, q))) = some (c, q))
    (hf : (queueSt s q).frames = f :: rest) :
    linkTransmit n s = linkWire n (f.bytes.drop 32) (modLink n (fun y => { y with served := tabSet c q y.served })
      (modQueue q (fun y => { y with frames := rest, read := y.read - 1, mark := y.mark - 1 }) s)) := by
  simp only [linkTransmit, if_neg (not_le.2 hn), hup, hc, hd, hq, hf]
  rfl

end transmit

/-- The highest class that waits: 1, then 2, then 0 (R379). -/
theorem linkNext_first {s : State} {n c q : Nat} (hq : linkNext s n c = some q)
    (hc : c = 1 ∨ (linkNext s n 1 = none ∧ (c = 2 ∨ (linkNext s n 2 = none ∧ c = 0)))) :
    [1, 2, 0].findSome? (fun c => (linkNext s n c).map (fun q => (c, q))) = some (c, q) := by
  rcases hc with rfl | ⟨h1, rfl | ⟨h2, rfl⟩⟩
  · simp [hq]
  · simp [hq, h1]
  · simp [hq, h1, h2]

/-! ### What a frame does (R375 to R378) -/

section audio

variable {s t : State} {n q c chans fs k : Nat} {bs : List Byte} {x : RxSt} {smp : List (List Int)}

/-- An AUDIO frame placed in its stream, where the stream takes it (R375). -/
theorem audioFrame_placed (ht : takeLink 1 q s = some (n, bs, c, t)) (hk : k = n * 32 + lfId bs % 32)
    (hx : rxOf true t k = some x) (hs : x.stopped = false) (hr : lfId bs / 32 % 4 ≠ 3)
    (hch : chans = lfId bs / 256 % 64 + 1) (hl : lfPaylen bs = 48 * chans)
    (hfs : fs = if lfId bs / 32 % 4 = 0 then 48000 else if lfId bs / 32 % 4 = 1 then 96000 else 192000)
    (hsmp : smp = (List.range chans).map (fun c => (List.range 16).map (fun j =>
      signed 24 (getLE (lfPayload bs) ((j * chans + c) * 3) 3)))) {ok : Bool} {u : State}
    (hu : (if rxClaimEn true t k then claimSeen true k (lfClaim bs) t else (true, t)) = (ok, u)) :
    audioFrame q s = if ok then placePkt true k fs 16 (unitSt s uLNK).next
        ⟨(lfSidx bs : Int), smp, if rxClaimEn true t k then lfClaim bs else 0, lfTdata bs, Nat.testBit (lfVf bs) 4,
          Nat.testBit (lfVf bs) 5, q, c, none⟩ (rxMod true k (fun y => { y with fs := fs }) u)
      else u := by
  have hrate : lfId bs / 32 % 4 = 0 ∧ fs = 48000 ∨ lfId bs / 32 % 4 = 1 ∧ fs = 96000 ∨
      lfId bs / 32 % 4 = 2 ∧ fs = 192000 := by
    split_ifs at hfs <;> omega
  have hgo : ¬ (x.stopped = true ∨ lfId bs / 32 % 4 = 3 ∨ lfPaylen bs ≠ 48 * (lfId bs / 256 % 64 + 1)) := by
    simp [hs, hr, hl, hch]
  subst hk hsmp hch
  simp only [audioFrame, ht, hx, if_neg hgo, hu]
  rcases hrate with ⟨h, rfl⟩ | ⟨h, rfl⟩ | ⟨h, rfl⟩ <;> simp only [h] <;> cases ok <;> rfl

end audio

section pairing

variable {s t : State} {n : Nat} {bs : List Byte} (hp : paired s = true) (hn : (pairLinks s).contains n = true)
  (hl : 32 ≤ (lfPayload bs).length)
include hp hn hl

theorem healthReceive_takes {q c : Nat} (ht : takeLink 4 q s = some (n, bs, c, t)) :
    healthReceive q s = modPar (fun x =>
      { x with healthAt := some (monoNs s), pCriteria := getLE (lfPayload bs) 20 4 }) t := by
  have hm : n ∈ pairLinks s := by simpa using hn
  simp only [healthReceive, ht]
  exact if_neg (by simp [hp, hm, not_lt.2 hl])

variable {e : Int} (ht : takeInbox n 5 s = some (bs, e, t))
include ht

theorem ranksEqual_iff : ranksEqual n s = true ↔ getLE (lfPayload bs) 1 1 = ownRank s := by
  have hm : n ∈ pairLinks s := by simpa using hn
  simp [ranksEqual, ht, hp, hm, hl]

/-- A heartbeat of a partner that is not lost, to a device that is no LEAD, without a request to yield (R551 to R554). -/
theorem heartbeatReceive_plain (hlost : s.par.hbLost = false) (hy : getLE (lfPayload bs) 2 1 % 2 = 0)
    (hr : s.par.role ≠ 1) :
    heartbeatReceive n s = modPar (fun x => { x with
      hbAt := some (monoNs s), hbLost := false, hbMissed := 0, pRole := getLE (lfPayload bs) 0 1 % 4
      pRank := getLE (lfPayload bs) 1 1, pSnap := getLE (lfPayload bs) 16 4, pYield := false
      leadAt := if getLE (lfPayload bs) 0 1 % 4 = 1 then some (monoNs s) else x.leadAt
      leadSnap := if getLE (lfPayload bs) 0 1 % 4 = 1 then some (getLE (lfPayload bs) 16 4) else x.leadSnap
      barred := x.barred ||
        !(getLE (lfPayload bs) 0 1 % 4 == 2 && decide (getLE (lfPayload bs) 1 1 < ownRank s)) })
      (seeEpoch (getLE (lfPayload bs) 4 3) (hbMisses t)) := by
  have hm : n ∈ pairLinks s := by simpa using hn
  have hgo : ¬ ((!paired s) = true ∨ (!(pairLinks s).contains n) = true ∨ (lfPayload bs).length < 32) := by
    simp [hp, hm, not_lt.2 hl]
  have hyb : (getLE (lfPayload bs) 2 1 % 2 == 1) = false := by simp [hy]
  simp only [heartbeatReceive, ht, if_neg hgo, hlost, when_false, hr, false_and, if_false, hyb]
  rfl

end pairing

theorem exec_heartbeatReceive (n : Nat) (s : State) : exec (.heartbeatReceive n) s = runE (fun t =>
    if running t ∧ unitPresent t uPAR ∧ unitPresent t uLNK ∧ n < linkCount t then
      (if ranksEqual n t then .error .equalRanks else .ok (heartbeatReceive n t)) else .ok t) s := rfl

section time

variable {s t u : State} {n : Nat} {bs : List Byte} {e pr fr : Int} (ht : takeInbox n 7 s = some (bs, e, t))
  (hu : u = modLink n (fun x => { x with echo := some (stampOf (lfPayload bs) 0, e) }) t)
include ht hu

theorem timeFrame_invalid (h : getLE (lfPayload bs) 48 1 % 4 ≠ 3) : timeFrame n pr fr s = u := by
  subst hu
  simp only [timeFrame, ht, if_pos h]

/-- What a valid TIME frame makes of a candidate of its link (R378). -/
def timeSeen (ph pr fr : Int) (t : State) (c : Nat) : State :=
  if decide (655360000 < (-ph - pr).natAbs) && !(cand t c).fresh && decide (2 ≤ (cand t c).state) &&
      decide ((cand t c).state ≤ 3) then candGlitch c t
  else phaseSeen c ph fr (cand t c).fresh (
    if (cand t c).state = 1 ∨ (cand t c).state = 4 then
      modCand c (fun y => { y with fresh := false }) (candGo c 2 (modCand c (fun y => { y with fresh := false }) t))
    else modCand c (fun y => { y with fresh := false }) t)

theorem timeFrame_valid {v : State} {d ph : Int} (h : getLE (lfPayload bs) 48 1 % 4 = 3)
    (hv : v = linkGmSeen n (getLE (lfPayload bs) 50 8) (modLink n (fun x => { x with heard := monoNs s }) u))
    (hd : d = ((e - stampOf (lfPayload bs) 16) - (stampOf (lfPayload bs) 0 - stampOf (lfPayload bs) 32)) / 2)
    (hph : ph = stampOf (lfPayload bs) 0 + d - e + sfld (actW s (Reg.LNK_ASYM.at n)) 31 0 * 256) :
    timeFrame n pr fr s = (linkCands v n).foldl (timeSeen ph pr fr) v := by
  subst hu hv hd hph
  simp only [timeFrame, ht, h, ne_eq, not_true_eq_false, if_false]
  rfl

end time

section timeSeen

variable {v : State} {c : Nat} {ph pr fr : Int}

theorem timeSeen_glitch (hg : 655360000 < (-ph - pr).natAbs) (hf : (cand v c).fresh = false)
    (hs : (cand v c).state = 2 ∨ (cand v c).state = 3) : timeSeen ph pr fr v c = candGlitch c v := by
  refine if_pos ?_
  rcases hs with hs | hs <;> simp [hg, hf, hs]

theorem timeSeen_phase (hg : (-ph - pr).natAbs ≤ 655360000 ∨ (cand v c).fresh = true)
    (hs : (cand v c).state = 2 ∨ (cand v c).state = 3) : timeSeen ph pr fr v c =
      phaseSeen c ph fr (cand v c).fresh (modCand c (fun y => { y with fresh := false }) v) := by
  have hn : ¬ ((cand v c).state = 1 ∨ (cand v c).state = 4) := by omega
  unfold timeSeen
  rw [if_neg hn, if_neg]
  rcases hg with hg | hg
  · simp [not_lt.2 hg]
  · simp [hg]

theorem timeSeen_qualifies (hs : (cand v c).state = 1 ∨ (cand v c).state = 4) : timeSeen ph pr fr v c =
    phaseSeen c ph fr (cand v c).fresh (modCand c (fun y => { y with fresh := false })
      (candGo c 2 (modCand c (fun y => { y with fresh := false }) v))) := by
  unfold timeSeen
  rw [if_pos hs, if_neg]
  rcases hs with hs | hs <;> simp [hs]

end timeSeen

theorem clockFrame_shown {s t : State} {n : Nat} {bs : List Byte} {e : Int} (ht : takeInbox n 8 s = some (bs, e, t)) :
    clockFrame n s = setN (Reg.LNK_PEER_CLK.at n) (getLE (lfPayload bs) 0 4) t := by
  simp only [clockFrame, ht]

/-! ### Snapshot segments (R377, R558) -/

theorem exec_snapshotSegment (q : Nat) (s : State) : exec (.snapshotSegment q) s = runE (fun t =>
    if running t ∧ unitPresent t uPAR ∧ unitPresent t uLNK then snapshotSegment q t else .ok t) s := rfl

section segments

variable {s t : State} {n c q : Nat} {bs p : List Byte} (ht : takeLink 3 q s = some (n, bs, c, t)) (hb : p = lfPayload bs)
  (hp : paired s = true) (hr : s.par.role = 2) (hn : (pairLinks s).contains n = true) (hl : 16 ≤ p.length)
include ht hb hp hr hn hl

/-- A slot opened by the first segment of a snapshot. -/
def slotOpened (k seq total : Nat) (t : State) : State :=
  modPar (fun x => { x with filling := some k }) (modSlot k (fun _ => ⟨false, seq, total, 0⟩) t)

/-- A segment that a FOLLOW takes from its partner goes by its offset and the slot being filled. -/
theorem snapshotSegment_takes : snapshotSegment q s =
    match t.par.filling with
    | some f =>
      if getLE p 4 4 = 0 then
        slotTake (nextSlot t) (getLE p 0 4) (getLE p 4 4) (getLE p 8 4) ((lfVf bs).testBit 6) (p.drop 16)
          (slotOpened (nextSlot t) (getLE p 0 4) (getLE p 8 4) (slotBad f (slotOf t f).seq (slotOf t f).total t))
      else slotTake f (getLE p 0 4) (getLE p 4 4) (getLE p 8 4) ((lfVf bs).testBit 6) (p.drop 16) t
    | none =>
      if getLE p 4 4 = 0 then
        slotTake (nextSlot t) (getLE p 0 4) (getLE p 4 4) (getLE p 8 4) ((lfVf bs).testBit 6) (p.drop 16)
          (slotOpened (nextSlot t) (getLE p 0 4) (getLE p 8 4) t)
      else if (slotOf t (nextSlot t)).seq = getLE p 0 4 then .ok t
      else .ok (slotBad (nextSlot t) (getLE p 0 4) (getLE p 8 4) t) := by
  subst hb
  have hm : n ∈ pairLinks s := by simpa using hn
  have hgo : ¬ ((!paired s) = true ∨ s.par.role ≠ 2 ∨ (!(pairLinks s).contains n) = true ∨ (lfPayload bs).length < 16) := by
    simp [hp, hr, hm, not_lt.2 hl]
  simp only [snapshotSegment, ht, if_neg hgo]
  rfl

end segments

/-! ### The obligations -/

/-- Settles O38: links up and down, lanes lost, control blocks, and each step of a width change. -/
theorem linksAndTheirWidth : Obligations.LinksAndTheirWidth := by
  refine ⟨fun s w n hw hu hn => ⟨fun rx tx he hd ht rr hrr hr => ⟨?noRef, ?comesUp⟩,
      fun hup => ⟨?down, fun lane frames t hl => ⟨?receive, ?transmit⟩, fun code arg hc => ⟨?width, ?widthBad⟩,
        fun arg => ⟨?spare, ?noSpare⟩, ?switch, fun arg c hc => ⟨?ack, ?otherAck⟩⟩⟩,
    fun s w n hw hu hn => ⟨fun hup hc => ⟨?capFell, ?lowLoad⟩, fun k r t => ⟨widthGo_begins k r, widthGo_waits k r⟩,
      fun hup hl => ⟨?restores, ?restoreWaits⟩, fun c hc => ⟨?acked, ?early, ?late⟩,
      fun c t => ⟨widthNext_restores, widthNext_stays⟩,
      fun lane hup hm hc hl => ⟨laneReplace_spare hup hm hc hl, laneReplace_noSpare hup hm hc hl⟩,
      fun k => laneMoveEnd_moves, fun lane margin hl => ⟨?weak, ?strong⟩⟩⟩
  case noRef => exact fun h => onLinkRow_leaves hw hu hn (linkUp_noRef h)
  case comesUp => exact fun h => onLinkRow_leaves hw hu hn (linkUp_comesUp he hd ht hrr hr h)
  case down => exact fun cut t h => onLinkRow_leaves hw hu hn (linkDown_falls hup h)
  case receive =>
    intro ht hm
    have h := laneLost_receive (frames := frames) hup hl hm ht
    exact ⟨fun h0 => onLinkRow_leaves hw hu hn (h.trans (by rw [beq_false_of_ne h0, when_false])),
      fun h0 => onLinkRow_leaves hw hu hn (h.trans (by rw [h0]; rfl))⟩
  case transmit =>
    intro ht hr hd h4
    have h := laneLost_transmit (frames := frames) hup ht hr hd h4
    refine ⟨fun h0 => onLinkRow_leaves hw hu hn (h.trans (if_pos h0)), fun h0 hc hlt => ?_, fun h0 hc => ?_⟩
    · exact onLinkRow_leaves hw hu hn (h.trans ((if_neg h0).trans (if_pos ⟨by rw [hc]; rfl, hlt⟩)))
    · refine onLinkRow_leaves hw hu hn (h.trans ((if_neg h0).trans (if_neg ?_)))
      rintro ⟨h1, h2⟩
      rcases hc with hc | hc
      · exact hc (Option.isNone_iff_eq_none.1 h1)
      · omega
  case width =>
    exact fun h => onLinkRow_leaves hw hu hn ((controlBlock_width hup arg hc).trans (widthTake_answers code h))
  case widthBad =>
    exact fun h1 h2 h4 => onLinkRow_leaves hw hu hn ((controlBlock_width hup arg hc).trans (widthTake_other code h1 h2 h4))
  case spare =>
    exact fun h hr => onLinkRow_leaves hw hu hn ((controlBlock_spareMove hup arg).trans (spareAsked_takes h hr))
  case noSpare =>
    exact fun h => onLinkRow_leaves hw hu hn ((controlBlock_spareMove hup arg).trans (spareAsked_refuses h))
  case switch =>
    exact fun k hm hc => onLinkRow_leaves hw hu hn ((controlBlock_spareAck hup).trans (spareSwitch_moves hm hc))
  case ack =>
    exact fun h => onLinkRow_leaves hw hu hn ((controlBlock_widthAck hup arg hc).trans (by rw [h, beq_self_eq_true, when_true]))
  case otherAck =>
    exact fun h => onLinkRow_leaves hw hu hn ((controlBlock_widthAck hup arg hc).trans (by rw [beq_false_of_ne h, when_false]))
  case capFell => exact fun h => onLinkRow_leaves hw hu hn (linkShed_capFell hup hc h)
  case lowLoad => exact fun h he h1 hl => onLinkRow_leaves hw hu hn (linkShed_lowLoad hup hc h he h1 hl)
  case restores => exact fun hc h => onLinkRow_leaves hw hu hn (linkRestore_begins hup hl hc h)
  case restoreWaits => exact fun c hc hr => onLinkRow_leaves hw hu hn (linkRestore_waits hup hl hc hr)
  case acked => exact fun t ht => onLinkRow_leaves hw hu hn (widthAck_takes hc ht)
  case early => exact fun h => onLinkRow_leaves hw hu hn (shedTimeout_early hc h)
  case late => exact fun h => onLinkRow_leaves hw hu hn (shedTimeout_late hc h)
  case weak => exact fun h => (spareMoveRow_leaves hw hu hn hl).trans (by rw [h]; rfl)
  case strong => exact fun h => (spareMoveRow_leaves hw hu hn hl).trans (by rw [h]; rfl)

/-- Settles O39: each check of a received frame in turn, and the order in which a link sends. -/
theorem linkFramesPass : Obligations.LinkFramesPass := by
  refine ⟨fun s w n q bs code hw hu hn hup => ⟨?codeError, ?runt, ?bad, ?giant, ?misaligned, ?badCrc,
      fun h => ⟨?direct, fun k hq => ⟨?noCell, ?stored⟩⟩⟩,
    fun s w n hw hu hn => ⟨?time, ?clock, ?down, fun b b' k t hk hb => ?wire, ?changing, fun hup hc goes hg => ?sends⟩⟩
  case codeError => exact fun h => onLinkRow_leaves hw hu hn (linkReceive_codeError hup h)
  case runt => exact fun h => onLinkRow_leaves hw hu hn (linkReceive_runt hup h)
  case bad => exact fun h => onLinkRow_leaves hw hu hn (linkReceive_bad hup h)
  case giant => exact fun h => onLinkRow_leaves hw hu hn (linkReceive_giant hup h)
  case misaligned => exact fun h => onLinkRow_leaves hw hu hn (linkReceive_misaligned hup h)
  case badCrc => exact fun h => onLinkRow_leaves hw hu hn (linkReceive_badCrc hup h)
  case direct => exact fun hq => onLinkRow_leaves hw hu hn (linkReceive_direct hup h hq)
  case noCell => exact fun hk => onLinkRow_leaves hw hu hn (linkReceive_noCell hup h hq hk)
  case stored => exact fun ok t he ht hs => onLinkRow_leaves hw hu hn (linkReceive_stored hup h hq he ht hs)
  case time => exact fun hup he hd tx rx p hx hp => onLinkRow_leaves hw hu hn (timeSend_due hup he hd hx hp)
  case clock => exact fun hup he hd => onLinkRow_leaves hw hu hn (clockSend_due hup he hd)
  case down => exact fun h => onLinkRow_leaves hw hu hn (congrArg (snapSend snapSegs) (linkTransmit_down hn h))
  case wire =>
    subst hk hb
    rfl
  case changing =>
    exact fun hup h => onLinkRow_leaves hw hu hn (congrArg (snapSend snapSegs) (linkTransmit_changing hn hup h))
  case sends =>
    subst hg
    have own {f : Nat × List Byte} (hf : [5, 7, 8].findSome? (fun k => (linkSt w n).direct.find? (fun f => f.1 == k)) = some f) :
        exec (.linkFrameTransmit n) s = leaves s (snapSend snapSegs (linkWire n (if f.1 = 7 then stampTime w f.2 else f.2)
          (modLink n (fun y => { y with direct := y.direct.erase f }) w))) :=
      onLinkRow_leaves hw hu hn (congrArg (snapSend snapSegs) (linkTransmit_direct hn hup hc hf))
    refine ⟨fun b h5 => ?heartbeat, fun h5 => ⟨fun b h7 => ?time, fun h7 => ⟨fun b h8 => ?clock,
      fun h8 c q f rest body hq hclass hf hbody => ?queued⟩⟩⟩
    case heartbeat => exact own (by simp [h5])
    case time => exact own (by simp [h5, h7])
    case clock => exact own (by simp [h5, h7, h8])
    case queued =>
      subst hbody
      exact onLinkRow_leaves hw hu hn (congrArg (snapSend snapSegs) (linkTransmit_queued hn hup hc
        (by simp [h5, h7, h8]) (linkNext_first hq hclass) hf))

/-- Settles O40: what each type of frame does, and the segments of a pairing snapshot. -/
theorem linkFramesAndSegmentsAct : Obligations.LinkFramesAndSegmentsAct := by
  refine ⟨fun s w t n q bs hw hu => ⟨?audio, ?health, fun hn => ⟨?heartbeat, ?time, ?clock⟩⟩,
    fun s w t u n c q bs p hw hu hpar ht hb hp hr hl hlen => ?segments⟩
  case audio =>
    intro k c chans x fs smp ht hk hx hs hr hch hl hfs hsmp
    refine ⟨fun he => ?_, fun ok u he hcl => ?_⟩
    · have h := audioFrame_placed ht hk hx hs hr hch hl hfs hsmp (ok := true) (u := t) (by rw [he, if_neg Bool.false_ne_true])
      rw [he] at h
      exact upRow_leaves hw hu h
    · have h := audioFrame_placed ht hk hx hs hr hch hl hfs hsmp (ok := ok) (u := u) (by rw [he]; exact hcl)
      rw [he] at h
      exact upRow_leaves hw hu h
  case health =>
    exact fun c hpar ht hp hl hlen =>
      upRow_leaves hw ⟨hu.1, hpar⟩ ((whenUp_up hu _).trans (healthReceive_takes hp hl hlen ht))
  case heartbeat =>
    intro e hpar ht hp hl hlen hlost
    have hgo : running w = true ∧ unitPresent w uPAR = true ∧ unitPresent w uLNK = true ∧ n < linkCount w :=
      ⟨hu.1, hpar, hu.2, hn⟩
    rw [exec_heartbeatReceive]
    refine ⟨fun he => runE_fault hw ?_, fun he hy hr => runE_leaves hw ?_⟩
    · rw [if_pos hgo, if_pos ((ranksEqual_iff hp hl hlen ht).2 he)]
    · rw [if_pos hgo, if_neg (fun h => he ((ranksEqual_iff hp hl hlen ht).1 h)),
        heartbeatReceive_plain hp hl hlen ht hlost hy hr]
  case time =>
    intro e pr fr u ht hu'
    refine ⟨fun h => onLinkRow_leaves hw hu hn (timeFrame_invalid ht hu' h), fun v h hv => ⟨fun hc => ?_,
      fun c d ph hc hd hph => ?_⟩⟩
    · have := timeFrame_valid (pr := pr) (fr := fr) ht hu' h hv rfl rfl
      rw [hc] at this
      exact onLinkRow_leaves hw hu hn this
    · have one := timeFrame_valid (pr := pr) (fr := fr) ht hu' h hv hd hph
      rw [hc] at one
      exact ⟨fun hg hf hs => onLinkRow_leaves hw hu hn (one.trans (timeSeen_glitch hg hf hs)),
        fun hg hs => onLinkRow_leaves hw hu hn (one.trans (timeSeen_phase hg hs)),
        fun hs => onLinkRow_leaves hw hu hn (one.trans (timeSeen_qualifies hs))⟩
  case clock => exact fun e ht => onLinkRow_leaves hw hu hn (clockFrame_shown ht)
  case segments =>
    have row {v : State} (h : snapshotSegment q w = .ok v) : exec (.snapshotSegment q) s = leaves s v := by
      rw [exec_snapshotSegment]
      exact runE_leaves hw ((if_pos ⟨hu.1, hpar, hu.2⟩).trans h)
    have htake := snapshotSegment_takes ht hb hp hr hl hlen
    refine ⟨fun h0 hf hslot => row ?_, fun f v h0 hf hv hslot => row ?_, fun f h0 hf hslot => row ?_,
      fun h0 hf hseq => row ?_⟩
    · rw [htake, hf]
      simp only [h0, if_true]
      exact hslot
    · subst hv
      rw [htake, hf]
      simp only [h0, if_true]
      exact hslot
    · rw [htake, hf]
      simp only [if_neg h0]
      exact hslot
    · rw [htake, hf]
      simp only [if_neg h0, if_neg hseq]

end Sys2Proof.Proofs
end

section
/-! The family of the serial audio ports (R81, R391, R395 to R400). -/

namespace Sys2Proof.Proofs

open Sys2Proof Sys2Proof.Machine Sys2Proof.Laws

/-- A row of a serial port that exists leaves what its function makes of the state. -/
theorem onPortRow_leaves {aes : Bool} {p : Nat} {f : State → State} {s w t : State} (hw : w = work s)
    (hu : up w (serUnit aes)) (hp : p < serCount aes w) (h : f w = t) : run (onPort aes p f) s = leaves s t :=
  run_leaves hw ((onPort_up hu hp f).trans h)

/-! ### Clocks of slave ports (R395 to R397) -/

section slave

variable {aes : Bool} {p : Nat} {s : State}

theorem serRangeReturn_returns {ppm : Int} (h4 : (serOf aes s p).state = 4) (hppm : ppm.natAbs ≤ slipPpm aes s p)
    (ht : (serOf aes s p).rangeAt + 1000000000 ≤ monoNs s) :
    serRangeReturn aes p ppm s =
      serReturn aes p (setN (serPpm aes p) (lowBits 32 ppm) (serMod aes p (fun y => { y with ppm := ppm }) s)) :=
  if_pos ⟨h4, hppm, ht⟩

theorem serClockReturn_returns {rate : Nat} (h3 : (serOf aes s p).state = 3) (hk : rateKnown rate = true)
    (hm : rateMoved (serOf aes s p).rate rate = false) :
    serClockReturn aes p rate s = serSource aes p (serReturn aes p (setF (serStat aes p) 31 14 rate s)) :=
  if_pos ⟨h3, hk, by simp [hm]⟩

variable (hsl : serSlave aes s p = true)
include hsl

theorem serSlip_slips (ahead : Bool) (h2 : (serOf aes s p).state = 2) (hr : serRendered s (serOf aes s p).rate = true) :
    serSlip aes p ahead s = stick (serHist aes p) 2 (count (serSlipCnt aes p)
      (serMod aes p (fun y => { y with slip := y.slip + if ahead then 1 else -1 }) s)) :=
  if_pos ⟨hsl, h2, hr⟩

theorem serLose_loses {f : PortFlow} (hst : (serOf aes s p).state = 1 ∨ (serOf aes s p).state = 2 ∨ (serOf aes s p).state = 4)
    (hf : f = if serRxOn aes s p = true ∧ (serOf aes s p).flow ≠ .mute then .rampOut else .mute) :
    serLose aes p s = serClkEvent aes p (stick (serHist aes p) 0 (count (serLostCnt aes p)
      (serShow aes p 3 (serMod aes p (fun y => { y with flow := f }) s)))) := by
  have hflow : (if serRxOn aes s p then (if (serOf aes s p).flow = .mute then PortFlow.mute else .rampOut) else .mute) = f := by
    subst hf
    cases serRxOn aes s p <;> by_cases h : (serOf aes s p).flow = .mute <;> simp [h]
  refine (if_pos ⟨hsl, hst⟩).trans ?_
  rw [← hflow]

theorem serGlitch_lost (h3 : (serOf aes s p).state = 3) : serGlitch aes p s = count (serGlitchCnt aes p) s :=
  if_pos ⟨hsl, h3⟩

theorem serGlitch_repeats {recent : List Nat} {t u : State}
    (hst : (serOf aes s p).state = 1 ∨ (serOf aes s p).state = 2 ∨ (serOf aes s p).state = 4)
    (hr : recent = monoNs s :: (serOf aes s p).glitches.filter (fun t => decide (monoNs s < t + 1000000000)))
    (ht : t = serMod aes p (fun y => { y with glitches := recent }) s)
    (hu : u = count (serGlitchCnt aes p) (if serRxOn aes s p = true ∧ (serOf aes s p).state = 2 then
      serKeep aes p 0 (serOf aes s p).newest t else t)) :
    serGlitch aes p s = if 3 ≤ recent.length then serLose aes p u else u := by
  subst hr ht hu
  have h3 : ¬ (serSlave aes s p = true ∧ (serOf aes s p).state = 3) := fun h => by omega
  refine (if_neg h3).trans ((if_pos ⟨hsl, hst⟩).trans ?_)
  simp only [when, Bool.and_eq_true, beq_iff_eq]

theorem serRateChange_follows {rate : Nat} {t u : State} (h1 : 1 ≤ (serOf aes s p).state) (h4 : (serOf aes s p).state ≤ 4)
    (hm : rateMoved (serOf aes s p).rate rate = true)
    (ht3 : (serOf aes s p).state = 3 → rateMoved (fld (regW s (serStat aes p)) 31 14) rate = true)
    (ht : t = raise (if aes then 0x34 else 0x31) (bytesOf 1 p ++ [0] ++ bytesOf 4 rate)
      (stick (serHist aes p) 1 (setF (serStat aes p) 31 14 rate s)))
    (hu : u = if serCode aes s p = 0 then serMod aes p (fun y => { y with rate := rateNear rate }) t else serLose aes p t) :
    serRateChange aes p rate s =
      ((chansOfPort aes u p).filter (fun c => (chanSt u c).hasAsrc)).foldl (fun v c => relock c v) u := by
  subst ht hu
  refine if_pos ⟨hsl, h1, h4, hm, ?_⟩
  by_cases h3 : (serOf aes s p).state = 3
  · simp [ht3 h3]
  · simp [h3]

end slave

/-! ### Ports out of range (R396) -/

section range

variable {aes : Bool} {p rate : Nat} {ppm : Int} {s t u : State}

theorem serOutOfRange_leaves
    (hu : u = setN (serPpm aes p) (lowBits 32 ppm) (serMod aes p (fun y =>
      { y with ppm := ppm, rangeAt := if slipPpm aes t p < ppm.natAbs then monoNs t else y.rangeAt }) t))
    (hfar : slipPpm aes t p < ppm.natAbs) (hst : (serOf aes t p).state = 1 ∨ (serOf aes t p).state = 2)
    (hr : serRendered t (serOf aes t p).rate = true) (hsl : serSlave aes t p = true) :
    serOutOfRange aes p ppm t = serClkEvent aes p (stick (serHist aes p) 3
      (serShow aes p 4 (serMod aes p (fun y => { y with flow := .rampOut }) u))) := by
  subst hu
  exact if_pos ⟨hsl, hst, hr, hfar⟩

theorem serOutOfRange_stays
    (hu : u = setN (serPpm aes p) (lowBits 32 ppm) (serMod aes p (fun y =>
      { y with ppm := ppm, rangeAt := if slipPpm aes t p < ppm.natAbs then monoNs t else y.rangeAt }) t))
    (hnear : ppm.natAbs ≤ slipPpm aes t p) : serOutOfRange aes p ppm t = u := by
  subst hu
  refine if_neg ?_
  rintro ⟨-, -, -, hfar⟩
  exact absurd hfar (not_lt.2 hnear)

/-- A measured port is shown, and then judged (R396). -/
theorem portOutOfRangeRow_leaves {w v : State} (hw : w = work s) (hup : up w (serUnit aes)) (hp : p < serCount aes w)
    (hsl : serSlave aes w p = true) (h : serOutOfRange aes p ppm (serMeasured aes p rate ppm w) = v) :
    exec (.portOutOfRange aes p rate ppm) s = leaves s v :=
  onPortRow_leaves hw hup hp (by rw [hsl, when_true, h])

end range

/-! ### Enables, data and MCLK (R391, R398) -/

theorem exec_portEnClear (aes : Bool) (p : Nat) (s : State) : exec (.portEnClear aes p) s = runE (fun t =>
    if running t ∧ unitPresent t (serUnit aes) ∧ p < serCount aes t then
      writeWord 3 (if aes then Reg.AES_CFG.at p else Reg.TDM_CFG.at p)
        (putFld (regW t (if aes then Reg.AES_CFG.at p else Reg.TDM_CFG.at p)) 31 31 0) t
    else .ok t) s := rfl

theorem mclkChange_emits {s : State} {new : Nat} {hz : Nat → Nat → Nat} (hnew : new = actF s Reg.TDM_MCLK.base 17 0)
    (hhz : ∀ v m : Nat, hz v m = mclkHz (v / 8 ^ m % 8)) :
    mclkChange s = (List.range 6).foldl (fun t m =>
      if hz new m = hz s.ser.mclk m then t else emit (.mclk m (hz new m)) t) { s with ser := { s.ser with mclk := new } } := by
  subst hnew
  obtain rfl : hz = fun v m => mclkHz (v / 8 ^ m % 8) := funext fun v => funext (hhz v)
  simp only [mclkChange, when, bne_iff_ne, ne_eq, ite_not]

/-! ### Channel status (R400) -/

section channelStatus

variable {p : Nat} {sub : Bool} {bs : List Byte} {s : State} (hrx : serRxOn true s p = true) (hl : bs.length = 24)
include hrx hl

theorem aesCs_badCrc (hpro : (nth 0 bs 0).toNat % 2 = 1) (h0 : (nth 0 bs 23).toNat ≠ 0)
    (hc : (nth 0 bs 23).toNat ≠ csCrc bs) : aesCs p sub bs s = count (Reg.AES_CS_CRC_CNT.at p) s := by
  have hgo : (!serRxOn true s p || bs.length != 24) = false := by rw [hrx, hl]; rfl
  have hbad : ((nth 0 bs 0).toNat % 2 == 1 && (nth 0 bs 23).toNat != 0 && (nth 0 bs 23).toNat != csCrc bs) = true := by
    rw [Bool.and_eq_true, Bool.and_eq_true, beq_iff_eq, bne_iff_ne, bne_iff_ne]
    exact ⟨⟨hpro, h0⟩, hc⟩
  simp only [aesCs, hgo, hbad, Bool.false_eq_true, if_false, if_true]

theorem aesCs_stands (hok : (nth 0 bs 0).toNat % 2 = 0 ∨ (nth 0 bs 23).toNat = 0 ∨ (nth 0 bs 23).toNat = csCrc bs)
    {old : List Byte} {t u : State} {n : Nat}
    (hold : old = (List.range 6).flatMap (fun k => bytesOf 4 (fld (regW s (if sub then Reg.AES_CS_RXB.at p k
      else Reg.AES_CS_RXA.at p k)) 31 0)))
    (ht : t = (List.range 6).foldl (fun t k => setN (if sub then Reg.AES_CS_RXB.at p k else Reg.AES_CS_RXA.at p k)
      (getLE bs (4 * k) 4) t) s)
    (hn : n = if fld (regW t (Reg.AES_CS_RXA.at p 0)) 7 0 / 2 % 2 == 1 || fld (regW t (Reg.AES_CS_RXB.at p 0)) 7 0 / 2 % 2 == 1
      then 1 else 0)
    (hu : u = setF (Reg.AES_STAT.at p) 6 6 n (setF (Reg.AES_STAT.at p) 5 5 (if (nth 0 bs 0).toNat % 2 = 1 then 0 else 1)
      (setF (Reg.AES_STAT.at p) 4 4 1 t))) :
    aesCs p sub bs s = if old = bs ∧ bit (regW s (Reg.AES_STAT.at p)) 4 = true then u
      else raise 0x35 (bytesOf 1 p ++ bytesOf 1 (if sub then 1 else 0)) (stick (Reg.AES_HIST.at p) 5 u) := by
  subst hu hn ht hold
  have hcrc : ((nth 0 bs 0).toNat % 2 == 1 && (nth 0 bs 23).toNat != 0 && (nth 0 bs 23).toNat != csCrc bs) = false := by
    rw [← Bool.not_eq_true, Bool.and_eq_true, Bool.and_eq_true, beq_iff_eq, bne_iff_ne, bne_iff_ne]
    rintro ⟨⟨hpro, h0⟩, hc⟩
    rcases hok with h | h | h
    · omega
    · exact h0 h
    · exact hc h
  have hgo : (!serRxOn true s p || bs.length != 24) = false := by rw [hrx, hl]; rfl
  simp only [aesCs, hgo, hcrc, Bool.false_eq_true, if_false, if_true, beq_iff_eq]

end channelStatus

/-! ### The obligation -/

/-- Settles O41: slips, range, lost clocks, glitches and rates of slave ports; enables, data, MCLK and channel status. -/
theorem serialPortsFollow : Obligations.SerialPortsFollow := by
  refine ⟨fun s w aes p hw hu hp hsl => ⟨?slip, fun rate ppm t u ht hu' => ⟨?leaves, ?stays⟩, ?inRange, ?lost, ?returns⟩,
    fun s w aes p hw hu hp hsl => ⟨?glitchLost, ?glitch, ?rate⟩,
    fun s w aes p hw hu hp => ⟨fun a t ha hwr => ?enable, ?data, ?mclk⟩,
    fun s w p sub bs hw hu hp hrx hl => ⟨?badCrc, ?stands⟩⟩
  case slip => exact fun ahead h2 hr => onPortRow_leaves hw hu hp (serSlip_slips hsl ahead h2 hr)
  case leaves =>
    subst ht
    exact fun hfar hst hr hsl' => portOutOfRangeRow_leaves hw hu hp hsl (serOutOfRange_leaves hu' hfar hst hr hsl')
  case stays =>
    subst ht
    exact fun hnear => portOutOfRangeRow_leaves hw hu hp hsl (serOutOfRange_stays hu' hnear)
  case inRange => exact fun ppm h4 hppm ht => onPortRow_leaves hw hu hp (serRangeReturn_returns h4 hppm ht)
  case lost => exact fun hst f hf => onPortRow_leaves hw hu hp (serLose_loses hsl hst hf)
  case returns => exact fun rate h3 hk hm => onPortRow_leaves hw hu hp (serClockReturn_returns h3 hk hm)
  case glitchLost => exact fun h3 => onPortRow_leaves hw hu hp (serGlitch_lost hsl h3)
  case glitch => exact fun recent t hst hr ht u hu' => onPortRow_leaves hw hu hp (serGlitch_repeats hsl hst hr ht hu')
  case rate =>
    exact fun rate t u h1 h4 hm h3 ht hu' => onPortRow_leaves hw hu hp (serRateChange_follows hsl h1 h4 hm h3 ht hu')
  case enable =>
    subst ha
    rw [exec_portEnClear]
    exact runE_leaves hw ((if_pos ⟨hu.1, hu.2, hp⟩).trans hwr)
  case data => exact fun h2 h2' => onPortRow_leaves hw hu hp (if_pos ⟨h2, h2'⟩)
  case mclk =>
    rintro rfl new hz hnew hhz
    exact upRow_leaves hw hu (mclkChange_emits hnew hhz)
  case badCrc => exact fun hpro h0 hc => onPortRow_leaves (aes := true) hw hu hp (aesCs_badCrc hrx hl hpro h0 hc)
  case stands =>
    exact fun hok old t u n hold ht hn hu' =>
      onPortRow_leaves (aes := true) hw hu hp (aesCs_stands hrx hl hok hold ht hn hu')

end Sys2Proof.Proofs
end

section
/-! The families of starts, supplies and heat, and of the test access port (R410 to R432, R578, R584, R590, R598,
R600). -/

namespace Sys2Proof.Proofs

open Sys2Proof Sys2Proof.Machine Sys2Proof.Laws

/-! ### Supplies and reset (R410, R579) -/

theorem suppliesValid_starts {img pins : Nat} {s t : State} (hs : s.start.supplies = false)
    (ht : t = straps img (pins % 4) { s with
      start := { s.start with supplies := true, refs := pins / 4 % 4 }, time := { s.time with mono := 0 }
      sec := { s.sec with executing := none, latched := [], tampered := false } }) :
    suppliesValid img pins s =
      if s.start.resetLow then modStart (fun x => { x with epoch := 0 }) t else startBegin 0 none t := by
  subst ht
  exact if_neg (by simp [hs])

theorem resetAssert_falls {s : State} (h : s.start.resetLow = false) : resetAssert s =
    modStart (fun x => { x with resetLow := true }) (if s.start.supplies then resetMachine s else s) :=
  if_neg (by simp [h])

theorem resetRelease_rises {img rank : Nat} {s : State} (h : s.start.resetLow = true) : resetRelease img rank s =
    if s.start.supplies then startBegin (if s.start.epoch = 0 then 0 else 1) none
      (straps img rank (modStart (fun x => { x with resetLow := false }) s))
    else modStart (fun x => { x with resetLow := false }) s := by
  refine (if_neg (by simp [h])).trans ?_
  cases s.start.supplies <;> rfl

/-! ### Unit restarts, ranges of supplies and heat (R578, R584, R590, R600) -/

theorem unitRestart_restarts {u ms : Nat} {s : State} (hr : running s = true) (hms : 50 ≤ ms) (hu : u ≤ 3)
    (hp : u = 3 → unitPresent s uMEA = true) {t : State}
    (ht : t = setN Reg.HLT_UNIT_LAST.base u (count Reg.HLT_UNIT_RESTART_CNT.base s)) :
    unitRestart u ms s = if u = 0 then restartCmd t else if u = 3 then restartMea t else restartDma (u == 2) t := by
  subst ht
  refine if_neg ?_
  rintro (h | h | h | ⟨h, h'⟩)
  · rw [hr] at h; exact absurd h (by decide)
  · omega
  · omega
  · rw [hp h] at h'; exact absurd h' (by decide)

theorem supplyRange_reports {m ns : Nat} {s : State} (hr : running s = true) (hm : m ≤ 11) (hns : 1000 ≤ ns)
    (hc : s.hlt.supplies.contains m = false) :
    supplyRange m ns true s = raise 0x9B (bytesOf 1 m) (stick Reg.HLT_STAT.base 4
      (modHlt (fun h => { h with supplies := setAdd m h.supplies }) s)) := by
  have hgo : ¬ ((!running s) = true ∨ 11 < m) := by rw [hr]; simpa using hm
  have hnew : ¬ (ns < 1000 ∨ s.hlt.supplies.contains m = true) := by rw [hc]; simpa using hns
  exact (if_neg hgo).trans ((if_neg (by decide)).trans (if_neg hnew))

theorem execSupplyLoss_unpowers {us : Nat} {s : State} (hs : s.start.supplies = true) (hus : 10 ≤ us)
    (he : s.sec.executing = none) : execSupplyLoss us s = .next (unpowered s) :=
  (if_neg (by rw [hs]; simpa using hus)).trans (if_neg (by rw [he]; decide))

theorem execSupplyLoss_faults {us : Nat} {s : State} (hs : s.start.supplies = true) (hus : 10 ≤ us)
    (he : s.sec.executing.isSome = true) : execSupplyLoss us s = .fault .lcCutShort :=
  (if_neg (by rw [hs]; simpa using hus)).trans (if_pos he)

theorem overTemperature_stops {tj : Int} {us : Nat} {s : State} (hs : s.start.supplies = true) (hj : 125 * 256 < tj)
    (hus : 1000 ≤ us) (hh : s.start.hot = false) : overTemperature tj us s =
      modStart (fun x => { x with hot := true }) (resetMachine (modHlt (fun h => { h with tj := tj }) s)) :=
  if_pos ⟨hs, hj, hus, by rw [hh]; rfl⟩

theorem cooldownStart_starts {tj : Int} {s : State} (hh : s.start.hot = true) (hj : tj < 105 * 256)
    (hl : s.start.resetLow = false) :
    cooldownStart tj s = startBegin 3 none (modHlt (fun h => { h with tj := tj }) s) := by
  have hgo : ¬ ((!s.start.hot) = true ∨ 105 * 256 ≤ tj) := by rw [hh]; simpa using hj
  exact (if_neg hgo).trans (if_neg (by rw [hl]; decide))

/-- Settles O42: supplies and reset, restarts of units, ranges and losses of supplies, and heat. -/
theorem suppliesResetUnits : Obligations.SuppliesResetUnits := by
  refine ⟨fun s w img rank hw => ⟨?valid, ?assert, ?release⟩,
    fun s w hw => ⟨?restart, ?range, ?loss, ?hot, ?cool⟩⟩
  case valid =>
    subst hw
    exact fun pins hs t ht => run_leaves rfl (suppliesValid_starts (s := work s) hs ht)
  case assert =>
    subst hw
    exact fun h => run_leaves rfl (resetAssert_falls (s := work s) h)
  case release =>
    subst hw
    exact fun h => run_leaves rfl (resetRelease_rises (s := work s) h)
  case restart => exact fun u ms hr hms hu hp t ht => run_leaves hw (unitRestart_restarts hr hms hu hp ht)
  case range => exact fun m ns hr hm hns hc => run_leaves hw (supplyRange_reports hr hm hns hc)
  case loss => exact fun us hs hus => ⟨execSupplyLoss_unpowers hs hus, execSupplyLoss_faults hs hus⟩
  case hot => exact fun tj us hs hj hus hh => run_leaves hw (overTemperature_stops hs hj hus hh)
  case cool => exact fun tj hh hj hl => run_leaves hw (cooldownStart_starts hh hj hl)

/-! ### The stages of a start (R411 to R428) -/

section stages

variable {s : State}

/-- A row of the start acts in its stage alone. -/
theorem inStage {n : Nat} (hp : powered s = true) (hst : s.start.stage = n) :
    ¬ ((!powered s) = true ∨ s.start.stage ≠ n) := by
  rw [hp, hst]; simp

variable (hp : powered s = true)
include hp

section bist

variable {x : BistIn} {t : State} (hst : s.start.stage = 2)
include hst

theorem bistComplete_small (hf : x.flashMib < 64) : bistComplete x s = .error .smallFlash :=
  (if_neg (inStage hp hst)).trans (if_pos hf)

variable (ht : t = x.bad.foldl bistFail (wearScan (flashShow (modStart (fun y =>
        { y with flashMib := min 256 x.flashMib, slotA := x.slotA, slotB := x.slotB }) (strapsTake x.straps s)))))
  (hf : 64 ≤ x.flashMib)
include ht hf

theorem bistComplete_dramFails (hx : 4 ≤ x.speed) : bistComplete x s = .ok (stageGo 9 (slotShow t)) := by
  subst ht
  exact (if_neg (inStage hp hst)).trans ((if_neg (by omega)).trans (if_pos hx))

theorem bistComplete_selects (hx : x.speed < 4) : bistComplete x s = .ok (imageSelect
    ((rowsDue (dramReady x.speed x.fitted t)).foldl rowRepair (dramReady x.speed x.fitted t))) := by
  subst ht
  exact (if_neg (inStage hp hst)).trans ((if_neg (by omega)).trans (if_neg (by omega)))

end bist

theorem windowClose_closes {req v : Nat} (hst : s.start.stage = 3) (hv : v = rd32 s 40 % 2)
    (hreq : req = if v = 1 then rdN s 8 32 else 2 ^ 64 - 1) :
    windowClose s = stageGo 4 (modStart (fun x => { x with loading := true }) (acceptForm
      (setF Reg.FEA_STAT.base 1 1 v (setN Reg.FEA_DRIVER_REQ_HI.base (req / 2 ^ 32)
        (setN Reg.FEA_DRIVER_REQ_LO.base (req % 2 ^ 32) s))))) := by
  have hvalid : (if (rd32 s 40 % 2 == 1) = true then 1 else 0) = v := by
    rcases Nat.mod_two_eq_zero_or_one (rd32 s 40) with h | h <;> rw [hv, h] <;> rfl
  have hdriver : (if (rd32 s 40 % 2 == 1) = true then rdN s 8 32 else 2 ^ 64 - 1) = req := by
    rw [hreq, hv]; simp only [beq_iff_eq]
  refine (if_neg (inStage hp hst)).trans ?_
  dsimp only
  rw [hvalid, hdriver]

theorem sectionStep_loads {x : Section} {t : State} (hst : s.start.stage = 4) (hld : s.start.loading = true)
    (hx : x = sectionAt (slotImage s s.start.slotSel) s.start.secOfs)
    (hlen : s.start.secOfs + 16 + x.len ≤ imgLen s s.start.slotSel) (h0 : s.start.secNo = 0 → x.typ = 1)
    (hok : 1 ≤ x.typ → x.typ ≤ 11 → sectionOk s x = true ∧ placeOk s x = true) (hl : sectionLoad x s = .ok (0, t))
    (hcrc : crc32c x.pay = x.crc) (hn : s.start.secNo + 1 ≠ imgSections s s.start.slotSel) :
    sectionStep s = .ok (modStart (fun y => { y with
      secNo := y.secNo + 1, secOfs := (s.start.secOfs + 16 + x.len + 15) / 16 * 16, loading := true }) t) := by
  subst hx
  have hgo : ¬ ((!powered s) = true ∨ s.start.stage ≠ 4 ∨ (!s.start.loading) = true) := by rw [hp, hst, hld]; simp
  have hfin : (s.start.secNo + 1 == imgSections s s.start.slotSel) = false := beq_false_of_ne hn
  refine (if_neg hgo).trans <| (if_neg (by omega)).trans <| (if_neg (fun h => h.2 (h0 h.1))).trans <|
    (if_neg ?fields).trans <| (if_neg ?place).trans <| (if_neg (by omega)).trans ?_
  case fields =>
    rintro ⟨hk, hbad⟩
    obtain ⟨h1, h11⟩ := of_decide_eq_true hk
    rw [(hok h1 h11).1] at hbad
    exact absurd hbad (by decide)
  case place =>
    rintro ⟨hk, hbad⟩
    obtain ⟨h1, h11⟩ := of_decide_eq_true hk
    rw [(hok h1 h11).2] at hbad
    exact absurd hbad (by decide)
  rw [hl]
  refine (if_neg (by decide)).trans ((if_neg (fun h => h hcrc)).trans ?_)
  dsimp only
  rw [hfin]
  exact if_neg (fun h => Bool.false_ne_true h.1)

theorem loadComplete_starts {b : Nat} {n₀ n₁ n₂ n₃ : State} (hst : s.start.stage = 4) (hld : s.start.loading = false)
    (h₀ : n₀ = timeStart (if actF s Reg.SYS_RENDER_RATE.base 1 0 = 2 ∧ accepted s 1 = false then
      setF Reg.FEA_STAT.base 2 2 1 (stageGo 5 (stageAll (timeStart s))) else stageGo 5 (stageAll (timeStart s))))
    (hb : b = tickStart n₀ (nowTick n₀ + 1))
    (h₁ : n₁ = [uINC, uRTE, uMOT, uSLV, uCOR].foldl (fun t u => loadCommit b (timeStart s) t u)
      (logicalStart (unitsStart b n₀)))
    (h₂ : n₂ = candsStart (mclkChange (bootSet (objsStart (b / tickBlocks n₁) n₁))))
    (h₃ : n₃ = parStart (wearFlush (setF Reg.FEA_STAT.base 0 0 1 (storeBytes
      (if ptpOn (bootSet (objsStart (b / tickBlocks n₁) n₁)) then ptpEnable n₂ else n₂) 52 [1])))) :
    loadComplete s = lnkTxRefresh b (rxRefresh true (txRefresh b (rxRefresh false (ringRefresh b (serRefresh true b
      (serRefresh false b { n₃ with
        mst := { n₃.mst with claims := [(0, n₃.par.claim)] }, lnk := { n₃.lnk with claims := [(0, n₃.par.claim)] } })))))) := by
  have hgo : ¬ ((!powered s) = true ∨ s.start.stage ≠ 4 ∨ s.start.loading = true) := by rw [hp, hst, hld]; simp
  have hdown : n₀ = timeStart (when (actF s Reg.SYS_RENDER_RATE.base 1 0 == 2 && !accepted s 1)
      (setF Reg.FEA_STAT.base 2 2 1) (stageGo 5 (stageAll (timeStart s)))) := by
    rw [h₀]
    simp only [when, Bool.and_eq_true, beq_iff_eq, Bool.not_eq_true']
  rw [loadComplete, if_neg hgo]
  dsimp only
  rw [← hdown, ← hb, ← h₁, ← h₂, when, ← h₃]

end stages

/-- Settles O43: self-test, window, sections and the end of the load. -/
theorem startsGoThroughTheirStages : Obligations.StartsGoThroughTheirStages := by
  refine fun s w hw hp => ⟨fun x t hst ht => ⟨?small, ?dram, ?select⟩, ?window, ?sections, ?load⟩
  case small => exact fun hf => runE_fault hw (bistComplete_small hp hst hf)
  case dram => exact fun hf hx => runE_leaves hw (bistComplete_dramFails hp hst ht hf hx)
  case select => exact fun hf hx => runE_leaves hw (bistComplete_selects hp hst ht hf hx)
  case window => exact fun req v hst hv hreq => run_leaves hw (windowClose_closes hp hst hv hreq)
  case sections =>
    exact fun x t hst hld hx hlen h0 hok hl hcrc hn =>
      runE_leaves hw (sectionStep_loads hp hst hld hx hlen h0 hok hl hcrc hn)
  case load =>
    exact fun hst hld b n₀ n₁ n₂ n₃ h₀ hb h₁ h₂ h₃ => run_leaves hw (loadComplete_starts hp hst hld h₀ hb h₁ h₂ h₃)

/-! ### The test access port (R598) -/

theorem tapScan_shifts {ir : TapIr} {f : State → State} {s w t : State} (hw : w = work s) (hs : s.start.supplies = true)
    (h : f { w with tap := { w.tap with ir := ir } } = t) : run (tapScan false ir f) s = leaves s t := by
  subst hw
  exact run_leaves rfl ((if_neg (by rw [show (work s).start.supplies = true from hs]; decide)).trans
    ((if_neg (by decide)).trans h))

theorem tapScan_resets {ir : TapIr} {f : State → State} {s w : State} (hw : w = work s) (hs : s.start.supplies = true) :
    run (tapScan true ir f) s = leaves s (tapReset w) := by
  subst hw
  exact run_leaves rfl ((if_neg (by rw [show (work s).start.supplies = true from hs]; decide)).trans (if_pos rfl))

theorem sampleShift_eq (cells : List Bool) (s : State) : sampleShift cells s =
    emit (.tdo (sampleBalls cells.length s).1)
      { (sampleBalls cells.length s).2 with tap := { (sampleBalls cells.length s).2.tap with cells := cells } } := rfl

/-- Settles O44: BYPASS, IDCODE, SAMPLE, EXTEST and the reset of the access port. -/
theorem testPortShifts : Obligations.TestPortShifts := by
  refine fun s w bs hw hs => ⟨?bypass, ?idcode, ?sample, ?extestBypass, ?extest, ?reset⟩
  case bypass => exact tapScan_shifts hw hs rfl
  case idcode => exact tapScan_shifts hw hs rfl
  case sample =>
    intro balls u h
    refine tapScan_shifts hw hs ?_
    rw [sampleShift_eq, h]
  case extestBypass => exact fun hl => tapScan_shifts hw hs (if_neg (by simp [hl]))
  case extest =>
    rintro t rfl hl
    exact tapScan_shifts hw hs (if_pos hl)
  case reset => exact tapScan_resets hw hs

end Sys2Proof.Proofs
end

section
/-! Numbers of the Druora cores: saturation, rounding and addressing modes (R467, R469, R472, R475). -/

namespace Sys2Proof.Proofs

open Sys2Proof Sys2Proof.Machine Sys2Proof.Laws

theorem fld_lt (w : Word) (hi lo : Nat) : fld w hi lo < 2 ^ (hi + 1 - lo) := Nat.mod_lt _ (Nat.two_pow_pos _)

/-! ### Words of integers -/

theorem wordOfInt_eq_ofInt (v : Int) : wordOfInt v = BitVec.ofInt 32 v := by
  refine BitVec.eq_of_toNat_eq ?_
  rw [wordOfInt, lowBits, BitVec.toNat_ofNat, BitVec.toNat_ofInt, Nat.mod_eq_of_lt (by omega)]

theorem toInt_wordOfInt {v : Int} (hlo : -2 ^ 31 ≤ v) (hhi : v < 2 ^ 31) : (wordOfInt v).toInt = v := by
  rw [wordOfInt_eq_ofInt]
  exact BitVec.toInt_ofInt_eq_self (by decide) hlo hhi

/-! ### Saturation -/

theorem satS_eq_max_min (n : Nat) (v : Int) :
    satS n v = max (-((2 ^ (n - 1) : Nat) : Int)) (min (((2 ^ (n - 1) : Nat) : Int) - 1) v) := by
  have hp := Nat.two_pow_pos (n - 1)
  unfold satS clampI
  generalize 2 ^ (n - 1) = p at hp ⊢
  split
  · omega
  · split <;> omega

theorem satHit_iff (n : Nat) (v : Int) : satHit n v = true ↔ v < -((2 ^ (n - 1) : Nat) : Int) ∨ ((2 ^ (n - 1) : Nat) : Int) ≤ v := by
  have hp := Nat.two_pow_pos (n - 1)
  rw [satHit, bne_iff_ne, satS_eq_max_min]
  generalize 2 ^ (n - 1) = p at hp ⊢
  omega

theorem satHit_iff_word (v : Int) : satHit 32 v = true ↔ v < -2 ^ 31 ∨ 2 ^ 31 ≤ v := satHit_iff 32 v

/-- A number saturated to at most 32 bits is the word's value. -/
theorem toInt_satS {n : Nat} (hn : n ≤ 32) (v : Int) : (wordOfInt (satS n v)).toInt = satS n v := by
  have hp := Nat.two_pow_pos (n - 1)
  have hq : 2 ^ (n - 1) ≤ 2 ^ 31 := Nat.pow_le_pow_right (by decide) (by omega)
  rw [satS_eq_max_min]
  generalize 2 ^ (n - 1) = p at hp hq ⊢
  exact toInt_wordOfInt (by omega) (by omega)

theorem msb_iff_neg (r : Word) : r.msb = true ↔ r.toInt < 0 := by
  rw [BitVec.msb_eq_toInt, decide_eq_true_iff]

/-! ### RND (R475) -/

theorem roundShift_eq (v : Int) (k : Nat) : roundShift v k = if k = 0 then v else (v + 2 ^ (k - 1)) / 2 ^ k := by
  cases k with
  | zero => rfl
  | succ j => simp [roundShift]

theorem accRound_flags {a : BitVec 72} {k sat : Nat} {q : Word × FlagSet} (hq : q = accRound a k sat) :
    q.2.v = some q.2.sv ∧ q.2.n = some (decide (q.1.toInt < 0)) ∧ q.2.z = some (decide (q.1 = 0)) ∧ q.2.c = none ∧
      q.2.av = false := by
  subst hq
  refine ⟨rfl, ?_, rfl, rfl, rfl⟩
  exact congrArg some (BitVec.msb_eq_toInt ..)

/-- A code of SAT narrows to its number of bits, and V tells whether that changed the value. -/
theorem accRound_saturates {a : BitVec 72} {k sat n : Nat} {v : Int} (hv : v = roundShift a.toInt k)
    (hsat : (sat = 1 ∧ n = 32) ∨ (sat = 2 ∧ n = 24) ∨ (sat = 3 ∧ n = 16)) :
    (accRound a k sat).1.toInt = max (-((2 ^ (n - 1) : Nat) : Int)) (min (((2 ^ (n - 1) : Nat) : Int) - 1) v) ∧
      ((accRound a k sat).2.v = some true ↔ v < -((2 ^ (n - 1) : Nat) : Int) ∨ ((2 ^ (n - 1) : Nat) : Int) ≤ v) := by
  have hres : (accRound a k sat).1 = wordOfInt (satS n v) ∧ (accRound a k sat).2.v = some (satHit n v) := by
    subst hv
    rcases hsat with ⟨rfl, rfl⟩ | ⟨rfl, rfl⟩ | ⟨rfl, rfl⟩ <;> exact ⟨rfl, rfl⟩
  rw [hres.1, hres.2, Option.some_inj, satHit_iff, toInt_satS (by omega), satS_eq_max_min]
  exact ⟨rfl, Iff.rfl⟩

theorem accRound_wraps {a : BitVec 72} {k : Nat} {v : Int} (hv : v = roundShift a.toInt k) :
    (accRound a k 0).1 = BitVec.ofInt 32 v ∧ ((accRound a k 0).2.v = some true ↔ v < -2 ^ 31 ∨ 2 ^ 31 ≤ v) := by
  subst hv
  exact ⟨wordOfInt_eq_ofInt _, (Option.some_inj).trans (satHit_iff_word _)⟩

/-! ### Addressing modes (R472) -/

theorem sext17_eq_signExtend (k : Nat) :
    wordOfInt (signed 17 k) = BitVec.signExtend 32 (BitVec.ofNat 17 k) := by
  have hval : signed 17 k = (BitVec.ofNat 17 k).toInt := by
    rw [BitVec.toInt_eq_toNat_cond, BitVec.toNat_ofNat, signed]
    simp only [Nat.reducePow, Nat.reduceSub]
    split <;> split <;> omega
  rw [wordOfInt_eq_ofInt, hval]
  rfl

theorem powAbove_eq {m k : Nat} (hm : m ≤ 2 ^ k) (hmin : ∀ j : Nat, m ≤ 2 ^ j → 2 ^ k ≤ 2 ^ j) : powAbove m = 2 ^ k := by
  unfold powAbove
  split
  case isTrue h1 => exact le_antisymm (Nat.two_pow_pos k) (hmin 0 h1)
  case isFalse h1 =>
    have hlow : 2 ^ (m - 1).log2 ≤ m - 1 := Nat.log2_self_le (by omega)
    have hhigh : m - 1 < 2 ^ ((m - 1).log2 + 1) := Nat.lt_log2_self
    rw [← Nat.pow_succ]
    refine le_antisymm (Nat.pow_le_pow_right (by decide) ?_) (hmin _ (by omega))
    have : 2 ^ (m - 1).log2 < 2 ^ k := by omega
    exact (Nat.pow_lt_pow_iff_right (by decide)).1 this

theorem moduloStep_undefined {a o : Word} {m p : Nat} (hp : powAbove m = p) (h0 : 0 < m)
    (h : 2 ^ 18 < m ∨ m < o.toInt.natAbs ∨ m ≤ a.toNat % p) : moduloStep a o m = none := by
  have hdiv := Nat.div_add_mod' a.toNat p
  subst hp
  refine (if_neg (by omega)).trans (if_pos ?_)
  rcases h with h | h | h
  · exact .inl h
  · exact .inr (.inl h)
  · exact .inr (.inr (by omega))

theorem moduloStep_wraps {a o : Word} {m p : Nat} {t : Int} (hp : powAbove m = p) (h0 : 0 < m) (h18 : m ≤ 2 ^ 18)
    (ho : o.toInt.natAbs ≤ m) (ha : a.toNat % p < m) (ht : t = (a.toNat % p : Nat) + o.toInt) :
    moduloStep a o m = some (BitVec.ofInt 32 (a.toNat / p * p +
      (if (m : Int) ≤ t then t - m else if t < 0 then t + m else t))) := by
  have hoff : (a.toNat : Int) - (a.toNat / p * p : Nat) = (a.toNat % p : Nat) := by
    have hdiv := Nat.div_add_mod' a.toNat p
    omega
  subst hp
  refine (if_neg (by omega)).trans ((if_neg ?_).trans ?_)
  · rw [hoff]; omega
  · rw [hoff, ← ht]
    dsimp only
    rw [wordOfInt_eq_ofInt, Nat.cast_mul, Int.natCast_div]

/-- Settles O60: the four modes, with the modulo update defined and undefined. -/
theorem addressModes : Obligations.AddressModes := by
  intro c an imm size p k a o m t _ ha ho hm hp hmp hmin ht
  subst ha ho hp
  have hpow : powAbove m = 2 ^ k := powAbove_eq hmp hmin
  have hmode3 : druAddr c an 3 imm size = ((aReg c an).toNat, moduloStep (aReg c an) (oReg c an) m) := by rw [hm]; rfl
  refine ⟨?displaced, rfl, rfl, ?plain, ?wraps, ?undefined⟩
  case displaced => rw [← sext17_eq_signExtend]; rfl
  case plain =>
    rintro rfl
    rw [hmode3]; rfl
  case wraps =>
    intro h0 h18 hom ham
    rw [hmode3, moduloStep_wraps hpow h0 h18 hom ham ht]
  case undefined =>
    intro h0 h
    rw [hmode3, moduloStep_undefined hpow h0 h]

end Sys2Proof.Proofs
end

section
/-! The ALU instructions of the Druora cores, RND and illegal instructions (R467, R469, R470, R475, R479). -/

namespace Sys2Proof.Proofs

open Sys2Proof Sys2Proof.Machine Sys2Proof.Laws

/-! ### The shapes of an instruction's row -/

section ready

variable {s w : State} {n : Nat} {m : DruMn} {i : Word} (hw : w = work s)

include hw in
/-- An instruction that may stop leaves what its body answers. -/
theorem druStepRow_leaves {f : Word → State → Except Fault State} {t : State} (hi : i = fetchWord w n)
    (hr : druReady w n m) (h : f i w = .ok t) : runE (druStep n m f) s = leaves s t := by
  subst hi
  exact runE_leaves hw ((druStep_ready hr).trans h)

include hw in
theorem druStepRow_faults {f : Word → State → Except Fault State} {e : Fault} (hi : i = fetchWord w n)
    (hr : druReady w n m) (h : f i w = .error e) : runE (druStep n m f) s = .fault e := by
  subst hi
  exact runE_fault hw ((druStep_ready hr).trans h)

include hw in
/-- An instruction that ends in one cycle leaves its body's state, gone on to the next instruction. -/
theorem druPlainRow_leaves {f : Word → State → State} {t : State} (hi : i = fetchWord w n) (hr : druReady w n m)
    (h : f i w = t) : runE (druPlain n m f) s = leaves s (coreDone n t) := by
  subst hi h
  exact runE_leaves hw (druPlain_ready hr)

variable {x y : Word} {d : Nat}

theorem aluRow_leaves {f : Word → Word → Word × FlagSet} (hw : w = work s) (hi : i = fetchWord w n)
    (hx : x = dReg (coreOf w n) (fld i 18 15)) (hy : y = dReg (coreOf w n) (fld i 14 11)) (hd : d = fld i 22 19)
    (hr : druReady w n m) : runE (druPlain n m (aluRow n f)) s = leaves s (druResult n d (f x y) w) := by
  subst hx hy hd
  exact druPlainRow_leaves hw hi hr (modCore_congr rfl)

theorem immRow_leaves {f : Word → Nat → Word × FlagSet} {k : Nat} (hw : w = work s) (hi : i = fetchWord w n)
    (hx : x = dReg (coreOf w n) (fld i 20 17)) (hd : d = fld i 24 21) (hk : k = fld i 16 0)
    (hr : druReady w n m) : runE (druPlain n m (immRow n f)) s = leaves s (druResult n d (f x k) w) := by
  subst hx hd hk
  exact druPlainRow_leaves hw hi hr (modCore_congr rfl)

variable {b : Bool} {t : State}

theorem shiftRow_leaves {f : Bool → Word → Nat → Word × FlagSet} (hw : w = work s) (hi : i = fetchWord w n)
    (hb : drawBit w = (b, t)) (hx : x = dReg (coreOf w n) (fld i 18 15)) (hy : y = dReg (coreOf w n) (fld i 14 11))
    (hr : druReady w n m) :
    runE (druPlain n m (shiftRow n f)) s = leaves s (druResult n (fld i 22 19) (f b x (y.toNat % 32)) t) := by
  cases hb
  subst hx hy
  exact druPlainRow_leaves hw hi hr (modCore_congr rfl)

theorem shiftImmRow_leaves {f : Bool → Word → Nat → Word × FlagSet} (hw : w = work s) (hi : i = fetchWord w n)
    (hb : drawBit w = (b, t)) (hx : x = dReg (coreOf w n) (fld i 20 17)) (hr : druReady w n m) :
    runE (druPlain n m (shiftImmRow n f)) s = leaves s (druResult n (fld i 24 21) (f b x (fld i 16 0 % 32)) t) := by
  cases hb
  subst hx
  exact druPlainRow_leaves hw hi hr (modCore_congr rfl)

end ready

/-! ### Results and flags (R467, R469) -/

theorem aluAdd_flags (a b : Word) :
    ((aluAdd a b).2.c = some true ↔ 2 ^ 32 ≤ a.toNat + b.toNat) ∧
      ((aluAdd a b).2.v = some true ↔ a.toInt + b.toInt < -2 ^ 31 ∨ 2 ^ 31 ≤ a.toInt + b.toInt) ∧
      ((aluAdd a b).2.z = some true ↔ a + b = 0) ∧ ((aluAdd a b).2.n = some true ↔ (a + b).toInt < 0) := by
  refine ⟨Option.some_inj.trans decide_eq_true_iff, Option.some_inj.trans (satHit_iff_word _),
    Option.some_inj.trans beq_iff_eq, Option.some_inj.trans (msb_iff_neg _)⟩

theorem aluSub_flags (a b : Word) :
    ((aluSub a b).2.c = some true ↔ ¬ a.toNat < b.toNat) ∧
      ((aluSub a b).2.v = some true ↔ a.toInt - b.toInt < -2 ^ 31 ∨ 2 ^ 31 ≤ a.toInt - b.toInt) :=
  ⟨Option.some_inj.trans (decide_eq_true_iff.trans Nat.not_lt.symm), Option.some_inj.trans (satHit_iff_word _)⟩

theorem aluSat_result (v : Int) : (aluSat v).1.toInt = max (-2 ^ 31) (min (2 ^ 31 - 1) v) ∧
    ((aluSat v).2.sv = true ↔ v < -2 ^ 31 ∨ 2 ^ 31 ≤ v) :=
  ⟨(toInt_satS le_rfl v).trans (satS_eq_max_min 32 v), satHit_iff_word v⟩

/-- Settles O45: every ALU instruction's result, and the flags of sums, differences and saturated results. -/
theorem aluResults : Obligations.AluResults := by
  refine ⟨fun s w n d i x y hw hi hx hy hd => ?registers, fun s w n d k i x hw hi hx hd hk => ?immediate,
    fun s w t n i b hw hi hb => ⟨fun x y hx hy => ?shifts, fun x hx => ?shiftsImm⟩, fun a b => ?flags⟩
  case registers =>
    refine ⟨aluRow_leaves hw hi hx hy hd, aluRow_leaves hw hi hx hy hd, aluRow_leaves hw hi hx hy hd,
      aluRow_leaves hw hi hx hy hd, aluRow_leaves hw hi hx hy hd, aluRow_leaves hw hi hx hy hd,
      aluRow_leaves hw hi hx hy hd, aluRow_leaves hw hi hx hy hd, aluRow_leaves hw hi hx hy hd,
      aluRow_leaves hw hi hx hy hd, aluRow_leaves hw hi hx hy hd, aluRow_leaves hw hi hx hy hd,
      aluRow_leaves hw hi hx hy hd, aluRow_leaves hw hi hx hy hd, fun hr => ?cmp⟩
    subst hx hy
    exact druPlainRow_leaves hw hi hr (modCore_congr rfl)
  case immediate =>
    refine ⟨immRow_leaves hw hi hx hd hk, immRow_leaves hw hi hx hd hk, immRow_leaves hw hi hx hd hk,
      immRow_leaves hw hi hx hd hk, fun hr => ?cmpi, fun hr => ?movi, fun hr => ?movhi⟩ <;> subst hx hd hk <;>
      exact druPlainRow_leaves hw hi hr (modCore_congr rfl)
  case shifts =>
    exact ⟨shiftRow_leaves hw hi hb hx hy, shiftRow_leaves hw hi hb hx hy, shiftRow_leaves hw hi hb hx hy⟩
  case shiftsImm =>
    exact ⟨shiftImmRow_leaves hw hi hb hx, shiftImmRow_leaves hw hi hb hx, shiftImmRow_leaves hw hi hb hx⟩
  case flags =>
    obtain ⟨hac, hav, haz, han⟩ := aluAdd_flags a b
    obtain ⟨hsc, hsv⟩ := aluSub_flags a b
    obtain ⟨hres, hsat⟩ := aluSat_result (a.toInt + b.toInt)
    exact ⟨rfl, hac, hav, rfl, hsc, hsv, haz, han, rfl, rfl, rfl, rfl, hres, hsat⟩

/-- Settles O59: RND's result and flags for each code of SAT. -/
theorem rndNarrowsAccumulators : Obligations.RndNarrowsAccumulators := by
  intro s w n k sat i acc v q hw hi hacc hk hsat hv hq
  have hround : v = roundShift acc.toInt k := hv.trans (roundShift_eq _ _).symm
  refine ⟨fun hr => ?row, ?wraps, ?sat32, ?sat24, ?sat16, accRound_flags hq⟩
  case row =>
    subst hq hacc hk hsat
    exact druPlainRow_leaves hw hi hr (modCore_congr rfl)
  all_goals
    rintro rfl
    subst hq
  case wraps => exact accRound_wraps hround
  case sat32 => exact_mod_cast accRound_saturates (n := 32) hround (.inl ⟨rfl, rfl⟩)
  case sat24 => exact_mod_cast accRound_saturates (n := 24) hround (.inr (.inl ⟨rfl, rfl⟩))
  case sat16 => exact_mod_cast accRound_saturates (n := 16) hround (.inr (.inr ⟨rfl, rfl⟩))

/-! ### Illegal instructions (R479) -/

theorem illegalRow_faults {n : Nat} {s : State} (hr : coreRuns s n = true) (hd : druDecode (fetchWord s n) = none) :
    illegalRow n s = coreFault n 1 s := if_pos ⟨hr, hd⟩

/-- Settles O58: the core faults with code 1, and no row of an instruction acts on the word. -/
theorem illegalInstructionsFault : Obligations.IllegalInstructionsFault := by
  intro s w n hw hr hd
  have hrow : ∀ (m : DruMn) (f : Word → State → Except Fault State), runE (druStep n m f) s = leaves s w :=
    fun m f => runE_leaves hw (druStep_other (.inr (by simp [hd])))
  refine ⟨run_leaves hw (illegalRow_faults hr hd), ?_⟩
  simp only [List.forall_mem_cons, List.not_mem_nil, false_implies, implies_true, and_true]
  exact ⟨hrow .add _, hrow .sub _, hrow .adds _, hrow .subs _, hrow .and _, hrow .or _, hrow .xor _, hrow .shl _,
    hrow .shr _, hrow .asr _, hrow .min _, hrow .max _, hrow .abs _, hrow .neg _, hrow .mul _, hrow .cmp _,
    hrow .mov _, hrow .cls _, hrow .addi _, hrow .andi _, hrow .ori _, hrow .xori _, hrow .shli _, hrow .shri _,
    hrow .asri _, hrow .cmpi _, hrow .movi _, hrow .movhi _, hrow .ld _, hrow .ldh _, hrow .ldb _, hrow .ld24 _,
    hrow .st _, hrow .sth _, hrow .stb _, hrow .st24 _, hrow .mac _, hrow .msu _, hrow .mpy _, hrow .dmac _,
    hrow .nop _, hrow .movr _, hrow .setr _, hrow .rnd _, hrow .clr _, hrow .ldacc _, hrow .addacc _,
    hrow .drain _, hrow .signal _, hrow .halt _, hrow .blkend _, hrow .wait _, hrow .ei _, hrow .di _, hrow .evt _,
    hrow .br _, hrow .call _, hrow .ret _, hrow .rti _, hrow .jmp _, hrow .rep _, hrow .loop _⟩

end Sys2Proof.Proofs
end

section
/-! What the ALU instructions of the Druora cores leave as it was (R469, R470). -/

namespace Sys2Proof.Proofs

open Sys2Proof Sys2Proof.Machine Sys2Proof.Laws

/-- A step of core `n` stores nothing and changes no word, no other core and, of its numbered registers below SR, none
but `d`. -/
structure StepKept (n d : Nat) (s t : State) : Prop where
  words : t.words = s.words
  post : t.post = s.post
  others : ∀ k, k ≠ n → coreOf t k = coreOf s k
  core : CoreKept d (coreOf s n) (coreOf t n)

namespace StepKept

variable {n d : Nat}

theorem refl (s : State) : StepKept n d s s := ⟨rfl, rfl, fun _ _ => rfl, .refl ..⟩

theorem trans {s t u : State} (h : StepKept n d s t) (h' : StepKept n d t u) : StepKept n d s u :=
  ⟨h'.words.trans h.words, h'.post.trans h.post, fun k hk => (h'.others k hk).trans (h.others k hk), h.core.trans h'.core⟩

theorem modCore {f : CoreSt → CoreSt} {s : State} (hf : ∀ c, CoreKept d c (f c)) :
    StepKept n d s (modCore n f s) :=
  ⟨rfl, rfl, fun k hk => by rw [coreOf_modCore, if_neg hk], by rw [coreOf_modCore, if_pos rfl]; exact hf _⟩

theorem coreDone (s : State) : StepKept n d s (coreDone n s) :=
  ⟨(coreDone_words n s).1, (coreDone_words n s).2, fun k hk => (coreDone_kept d n s k).1 hk, (coreDone_kept d n s n).2⟩

/-- A free value drawn changes no core. -/
theorem drawBit (s : State) : StepKept n d s (drawBit s).2 := ⟨rfl, rfl, fun _ _ => rfl, .refl ..⟩

end StepKept

/-- The body of an instruction, by its word. -/
def BodyKept (n : Nat) (reg : Word → Nat) (f : Word → State → State) : Prop := ∀ i u, StepKept n (reg i) u (f i u)

/-- The register an ALU instruction writes, by its form (R469, R470). -/
def rdReg (i : Word) : Nat := fld i 22 19
def rdImm (i : Word) : Nat := fld i 24 21

theorem result_kept {d : Nat} (hd : d < 16) (v : Word) (f : FlagSet) (c : CoreSt) :
    CoreKept d c (setFlags f (writeReg d v c)) :=
  (writeReg_kept d d v c (by omega) (.inl rfl)).trans (setFlags_kept d f _)

theorem aluRow_kept (n : Nat) (f : Word → Word → Word × FlagSet) : BodyKept n rdReg (aluRow n f) :=
  fun i _ => .modCore fun c => result_kept (fld_lt i 22 19) _ _ c

theorem immRow_kept (n : Nat) (f : Word → Nat → Word × FlagSet) : BodyKept n rdImm (immRow n f) :=
  fun i _ => .modCore fun c => result_kept (fld_lt i 24 21) _ _ c

theorem shiftRow_kept (n : Nat) (f : Bool → Word → Nat → Word × FlagSet) : BodyKept n rdReg (shiftRow n f) :=
  fun i u => (StepKept.drawBit u).trans (aluRow_kept n (fun x y => f (drawBit u).1 x (y.toNat % 32)) i (drawBit u).2)

theorem shiftImmRow_kept (n : Nat) (f : Bool → Word → Nat → Word × FlagSet) : BodyKept n rdImm (shiftImmRow n f) :=
  fun i u => (StepKept.drawBit u).trans (immRow_kept n (fun x k => f (drawBit u).1 x (k % 32)) i (drawBit u).2)

/-- A comparison writes SR alone. -/
theorem flagsRow_kept (n : Nat) (reg : Word → Nat) (q : Word → CoreSt → FlagSet) :
    BodyKept n reg (fun i => modCore n (fun c => setFlags (q i c) c)) :=
  fun i _ => .modCore fun c => setFlags_kept (reg i) _ c

theorem writeRow_kept (n : Nat) (v : Word → Word) :
    BodyKept n rdImm (fun i => modCore n (writeReg (fld i 24 21) (v i))) :=
  fun i _ => .modCore fun c => writeReg_kept _ _ _ c (by have := fld_lt i 24 21; omega) (.inl rfl)

/-- An instruction of one cycle that keeps all but a register, whichever word stands at the core's PC. -/
def RowKept (n : Nat) (reg : Word → Nat) (c : Instr) : Prop :=
  ∃ m f, (∀ s, exec c s = runE (druPlain n m f) s) ∧ BodyKept n reg f

theorem regRows_kept (n : Nat) : ∀ c ∈ ([.add n, .sub n, .adds n, .subs n, .and n, .or n, .xor n, .shl n, .shr n, .asr n,
    .min n, .max n, .abs n, .neg n, .mul n, .mov n, .cls n, .cmp n] : List Instr), RowKept n rdReg c := by
  have halu : ∀ {c : Instr} (m : DruMn) (f : Word → Word → Word × FlagSet),
      (∀ s, exec c s = runE (druPlain n m (aluRow n f)) s) → RowKept n rdReg c :=
    fun _ _ h => ⟨_, _, h, aluRow_kept n _⟩
  have hshift : ∀ {c : Instr} (m : DruMn) (f : Bool → Word → Nat → Word × FlagSet),
      (∀ s, exec c s = runE (druPlain n m (shiftRow n f)) s) → RowKept n rdReg c :=
    fun _ _ h => ⟨_, _, h, shiftRow_kept n _⟩
  simp only [List.forall_mem_cons, List.not_mem_nil, false_implies, implies_true, and_true]
  exact ⟨halu .add _ fun _ => rfl, halu .sub _ fun _ => rfl, halu .adds _ fun _ => rfl, halu .subs _ fun _ => rfl,
    halu .and _ fun _ => rfl, halu .or _ fun _ => rfl, halu .xor _ fun _ => rfl, hshift .shl _ fun _ => rfl,
    hshift .shr _ fun _ => rfl, hshift .asr _ fun _ => rfl, halu .min _ fun _ => rfl, halu .max _ fun _ => rfl,
    halu .abs _ fun _ => rfl, halu .neg _ fun _ => rfl, halu .mul _ fun _ => rfl, halu .mov _ fun _ => rfl,
    halu .cls _ fun _ => rfl, ⟨.cmp, _, fun _ => rfl, flagsRow_kept n _ _⟩⟩

theorem immRows_kept (n : Nat) : ∀ c ∈ ([.addi n, .andi n, .ori n, .xori n, .shli n, .shri n, .asri n, .cmpi n, .movi n,
    .movhi n] : List Instr), RowKept n rdImm c := by
  simp only [List.forall_mem_cons, List.not_mem_nil, false_implies, implies_true, and_true]
  exact ⟨⟨.addi, _, fun _ => rfl, immRow_kept n _⟩, ⟨.andi, _, fun _ => rfl, immRow_kept n _⟩,
    ⟨.ori, _, fun _ => rfl, immRow_kept n _⟩, ⟨.xori, _, fun _ => rfl, immRow_kept n _⟩,
    ⟨.shli, _, fun _ => rfl, shiftImmRow_kept n _⟩, ⟨.shri, _, fun _ => rfl, shiftImmRow_kept n _⟩,
    ⟨.asri, _, fun _ => rfl, shiftImmRow_kept n _⟩, ⟨.cmpi, _, fun _ => rfl, flagsRow_kept n _ _⟩,
    ⟨.movi, _, fun _ => rfl, writeRow_kept n _⟩, ⟨.movhi, _, fun _ => rfl, writeRow_kept n _⟩⟩

/-- A comparison keeps every register below SR: SR itself, register 36, stands for the one it may write. -/
theorem compareRows_kept (n : Nat) : RowKept n (fun _ => 36) (.cmp n) ∧ RowKept n (fun _ => 36) (.cmpi n) :=
  ⟨⟨.cmp, _, fun _ => rfl, flagsRow_kept n _ _⟩, ⟨.cmpi, _, fun _ => rfl, flagsRow_kept n _ _⟩⟩

theorem druPlain_kept {n : Nat} {reg : Word → Nat} {m : DruMn} {f : Word → State → State} {s t : State}
    (hf : BodyKept n reg f) (h : druPlain n m f s = .ok t) : StepKept n (reg (fetchWord s n)) s t := by
  unfold druPlain druStep at h
  dsimp only at h
  split at h
  · cases h; exact .refl s
  · split at h
    · cases h
    · cases h; exact (hf _ s).trans (.coreDone _)

/-- A whole step of such a row, up to the end of the step. -/
theorem exec_kept {n : Nat} {reg : Word → Nat} {c : Instr} {s t : State} (hc : RowKept n reg c) (h : exec c s = .next t) :
    t.mem = s.mem ∧ t.words = s.words ∧ (∀ k, k ≠ n → coreOf t k = coreOf s k) ∧
      CoreKept (reg (fetchWord (work s) n)) (coreOf s n) (coreOf t n) := by
  obtain ⟨m, f, hrow, hf⟩ := hc
  rw [hrow, runE] at h
  split at h
  case h_1 u hu =>
    obtain ⟨hwords, hpost, hothers, hcore⟩ := druPlain_kept (s := work s) hf hu
    cases h
    refine ⟨?_, hwords, hothers, hcore⟩
    show memWriteAll s.mem u.post = s.mem
    rw [hpost]; rfl
  case h_2 => cases h

/-- Settles O46: an ALU instruction reaches its own Rd, SR and sequence alone. -/
theorem aluFrame : Obligations.AluFrame := by
  intro s w t n d i c hw hi hx hc
  subst hw hi
  have hkept : ∃ reg : Word → Nat, RowKept n reg c ∧ reg (fetchWord (work s) n) = d := by
    rcases hc with ⟨hc, rfl⟩ | ⟨hc, rfl⟩
    · exact ⟨rdReg, regRows_kept n c hc, rfl⟩
    · exact ⟨rdImm, immRows_kept n c hc, rfl⟩
  obtain ⟨reg, hrow, rfl⟩ := hkept
  obtain ⟨hmem, hwords, hothers, hcore⟩ := exec_kept hrow hx
  refine ⟨hmem, hwords, hothers, hcore.accs, hcore.wbuf, hcore.state, hcore.regs, fun hcmp r hr => ?_⟩
  have hrow' : RowKept n (fun _ => 36) c := by
    rcases hcmp with rfl | rfl
    · exact (compareRows_kept n).1
    · exact (compareRows_kept n).2
  obtain ⟨-, -, -, hcore'⟩ := exec_kept hrow' hx
  exact hcore'.regs r hr (by omega)

end Sys2Proof.Proofs
end

section
/-! Loads and stores of the Druora cores (R464, R471). -/

namespace Sys2Proof.Proofs

open Sys2Proof Sys2Proof.Machine Sys2Proof.Laws

/-- A device whose DRAM is in self-refresh and holds the program of a core with a number past every core of a grade: the
core's window begins where DRAM does, and its A0 is the first address beyond the core's own data memory. -/
def farCore : State :=
  { State.reset with
    mem := (List.range 4).map (fun k => (dramBase + 0x40000 + k, 0))
    words := { State.reset.words with wr := [(0x10010118, 0xFFFFFFFF)], act := [(0x10010118, 0xFFFFFFFF)] }
    drc := { State.reset.drc with selfRefresh := true }
    dru := { State.reset.dru with
      phys := [(61440, 0)], cores := [(61440, { coreZero with state := 2, regs := [(16, 0x40000)] })] } }

theorem farCore_ready : druReady (work farCore) 61440 .add := by
  unfold druReady
  decide

theorem farCore_addr : druAddr (coreOf (work farCore) 61440) 0 0 0 0 = (0x40000, some 0x40000) := by decide

/-- A load of no bytes there wakes the DRAM (R524). -/
theorem farCore_load : (localLoad 61440 0x40000 0 (work farCore)).2.drc.selfRefresh = false := by decide

/-- Refutes O47: a core's window may lie in DRAM, where a load of no bytes beyond the core's data memory ends
self-refresh (R524) and so does not leave the state as it was. -/
theorem not_coreLoadsAndStores : ¬ Obligations.CoreLoadsAndStores := by
  intro h
  obtain ⟨-, -, -, hbeyond⟩ := h.1 farCore (work farCore) _ 61440 0x40000 0 0 0 0 (some 0x40000) .add _ rfl (by decide)
    farCore_ready rfl rfl farCore_addr (by decide) rfl rfl
  have hload := farCore_load
  rw [(hbeyond le_rfl).1] at hload
  exact absurd hload (by decide)

end Sys2Proof.Proofs
end

section
/-! Multiply-accumulates, moves and the sequence of instructions of the Druora cores (R473 to R479, R482, R483, R488,
R490, R493). -/

namespace Sys2Proof.Proofs

open Sys2Proof Sys2Proof.Machine Sys2Proof.Laws

/-! ### Multiply-accumulates (R473) -/

theorem macRow_noLoads {n : Nat} {f : CoreSt → Nat → Nat → Nat → CoreSt} {i : Word} {s : State} (h18 : bit i 18 = false)
    (h10 : bit i 10 = false) :
    macRow n f i s = modCore n (fun c => f c (fld i 26 25) (fld i 24 22) (fld i 21 19 + 8)) s := by
  simp only [macRow, h18, h10, Bool.false_eq_true, if_false]

theorem macRow_oneLoad {n : Nat} {f : CoreSt → Nat → Nat → Nat → CoreSt} {g : CoreSt → CoreSt} {i : Word} {s : State}
    (h18 : bit i 18 = true) (h10 : bit i 10 = false)
    (h : f (coreOf s n) (fld i 26 25) (fld i 24 22) (fld i 21 19 + 8) = g (coreOf s n)) :
    macRow n f i s =
      parallelLoad n (fld i 17 15) (fld i 14 13) (fld i 12 11) (coreOf s n) (modCore n g s) := by
  rw [← modCore_congr (f := fun c => f c (fld i 26 25) (fld i 24 22) (fld i 21 19 + 8)) h]
  simp only [macRow, h18, h10, Bool.false_eq_true, if_false, if_true]

section parallel

variable {n d an mode a : Nat} {c : CoreSt} {s : State} {upd : Option Word} (ha : druAddr c an mode 0 4 = (a, upd))
include ha

theorem parallelLoad_reads {bs : List Byte} {u : State} (hl : a < 2 ^ 31) (hx : crosses8 a 4 = false)
    (hb : localLoad n a 4 s = (bs, u)) :
    parallelLoad n d an mode c s = updateAn n an upd (modCore n (writeReg d (wordOf (ofBytes bs))) u) := by
  have hgo : isLocal a = true ∧ (!crosses8 a 4) = true := ⟨decide_eq_true hl, by rw [hx]; rfl⟩
  simp only [parallelLoad, ha, if_pos hgo, hb]

theorem parallelLoad_free (h : 2 ^ 31 ≤ a ∨ crosses8 a 4 = true) : parallelLoad n d an mode c s =
    updateAn n an upd (modCore n (writeReg d (Config.freeWord s.free)) { s with free := s.free + 1 }) := by
  have hgo : ¬ (isLocal a = true ∧ (!crosses8 a 4) = true) := by
    rintro ⟨hl, hx⟩
    rcases h with h | h
    · exact absurd (of_decide_eq_true hl) (by omega)
    · rw [h] at hx; exact absurd hx (by decide)
  simp only [parallelLoad, ha, if_neg hgo]

end parallel

/-- A multiply-accumulate without parallel loads. -/
theorem macRow_leaves {s w : State} {n a x y : Nat} {m : DruMn} {i : Word} {c : CoreSt}
    {f : CoreSt → Nat → Nat → Nat → CoreSt} {g : CoreSt → CoreSt} (hw : w = work s) (hi : i = fetchWord w n)
    (hc : c = coreOf w n) (ha : a = fld i 26 25) (hx : x = fld i 24 22) (hy : y = fld i 21 19 + 8) (h18 : bit i 18 = false)
    (h10 : bit i 10 = false) (hr : druReady w n m) (h : f c a x y = g c) :
    runE (druPlain n m (macRow n f)) s = leaves s (coreDone n (modCore n g w)) := by
  subst hc ha hx hy
  exact druPlainRow_leaves hw hi hr ((macRow_noLoads h18 h10).trans (modCore_congr h))

/-! ### Registers by code (R466, R474) -/

theorem regRow_eq (n dst : Nat) (v : Word) (s : State) :
    (dst ≠ 44 → regRow n dst v s = coreDone n (modCore n (writeReg dst v) s)) ∧
      (dst = 44 → regRow n dst v s = modCore n (writeReg 44 v) (coreDone n s)) :=
  ⟨fun h => if_neg h, fun h => if_pos h⟩

/-- Settles O48: products, parallel loads, moves and the instructions of a core's own state. -/
theorem coreAccumulators : Obligations.CoreAccumulators := by
  refine ⟨fun s w n a x y i c hw hi hc ha hx hy h18 h10 => ⟨?mac, ?msu, ?mpy, ?dmac⟩,
    fun s w t n a i c upd hw hi hc hr h18 h10 ht hadr => ⟨fun bs u hl hx hb => ?reads, fun h => ?free⟩,
    fun s w n i c hw hi hc => ⟨?nop, ?movr, ?setr, fun dst v => regRow_eq n dst v w, ?rnd, ?clr, ?ldacc, ?addacc, ?evt,
      ?di, fun hr hh => ?ei, fun hr hh => ?eiFault⟩⟩
  case mac => exact fun hr => macRow_leaves hw hi hc ha hx hy h18 h10 hr rfl
  case msu => exact fun hr => macRow_leaves hw hi hc ha hx hy h18 h10 hr rfl
  case mpy => exact fun hr => macRow_leaves hw hi hc ha hx hy h18 h10 hr rfl
  case dmac => exact fun hr => macRow_leaves hw hi hc ha hx hy h18 h10 hr rfl
  case reads =>
    subst hc ht
    exact druPlainRow_leaves hw hi hr ((macRow_oneLoad h18 h10 rfl).trans (parallelLoad_reads hadr hl hx hb))
  case free =>
    subst hc ht
    exact druPlainRow_leaves hw hi hr ((macRow_oneLoad h18 h10 rfl).trans (parallelLoad_free hadr h))
  case evt =>
    subst hc
    exact fun hr => druPlainRow_leaves hw hi hr rfl
  case nop => exact fun hr => druPlainRow_leaves hw hi hr rfl
  case movr => exact fun hr => druStepRow_leaves hw hi hr rfl
  case setr => exact fun hr => druStepRow_leaves hw hi hr rfl
  case ei =>
    subst hc
    exact druStepRow_leaves hw hi hr (if_neg (by rw [hh]; decide))
  case eiFault =>
    subst hc
    exact druStepRow_faults hw hi hr (if_pos hh)
  all_goals
    subst hc
    exact fun hr => druPlainRow_leaves hw hi hr (modCore_congr rfl)

/-! ### Branches (R476, R477) -/

section branches

variable {n t : Nat} {s : State} {c : CoreSt} (hc : c = coreOf s n) (hl : c.loops = [])
include hc hl

theorem takeBranch_taken {x : Int} {rti : Bool} {f : CoreSt → CoreSt} (ht : t < 16384) (hx : x = t) :
    takeBranch n x rti f s = .ok (coreDone n (modCore n (fun _ => f { c with branch := some ⟨3, t, rti⟩ }) s)) := by
  subst hc hx
  have hgo : ¬ ((t : Int) < 0 ∨ 16384 ≤ (t : Int) ∨ (!true) = true) := by simp; omega
  have hto : branchTo t rti (coreOf s n) = some { coreOf s n with branch := some ⟨3, t, rti⟩ } := by
    refine if_neg ?_
    rw [hl]
    exact hgo
  simp only [takeBranch, hto]

theorem skipBranch_skips : skipBranch n s =
    .ok (coreDone n (modCore n (fun x => { x with branch := some ⟨3, (c.pc + 3) % 16384, false⟩ }) s)) := by
  subst hc
  refine if_neg ?_
  rw [hl, Bool.or_true]
  decide

end branches

/-! ### Repeats and loops (R478) -/

section loops

variable {n k : Nat} {s : State} {c : CoreSt} {i : Word} (hc : c = coreOf s n) (hk : k = loopCount c i)
include hc hk

theorem loopRow_skips (hlen : fld i 11 0 ≠ 0) (h0 : k = 0) : loopRow n i s =
    .ok (modCore n (fun x => coreNext { x with pc := (c.pc + fld i 11 0) % 16384 }) (coreDone n s)) := by
  subst hc hk
  exact (if_neg hlen).trans ((if_neg (fun h => h.2 h0)).trans (if_pos h0))

theorem loopRow_begins (hlen : fld i 11 0 ≠ 0) (h0 : k ≠ 0) (h2 : c.loops.length < 2) : loopRow n i s =
    .ok (modCore n (fun x => { writeReg (38 + c.loops.length) (wordOf k) x with
      loops := ⟨c.pc + 1, c.pc + fld i 11 0, c.loops.length == 1⟩ :: x.loops }) (coreDone n s)) := by
  subst hc hk
  exact (if_neg hlen).trans ((if_neg (by omega)).trans (if_neg h0))

theorem loopRow_third (hlen : fld i 11 0 ≠ 0) (h0 : k ≠ 0) (h2 : 2 ≤ c.loops.length) :
    loopRow n i s = .error .coreContract := by
  subst hc hk
  exact (if_neg hlen).trans (if_pos ⟨h2, h0⟩)

end loops

/-! ### Control (R482, R483, R488, R490) -/

section control

variable {n : Nat} {s t : State} {i : Word}

theorem signalRow_offers {q : Nat} (hd : drainCore n s = .ok t) (hq : q = 4 * fld i 23 22)
    (ho : (offer (descOfWords 1 (dReg (coreOf t n) q) (dReg (coreOf t n) (q + 1)) (dReg (coreOf t n) (q + 2))
      (dReg (coreOf t n) (q + 3))) t).1 ≠ .refused) :
    signalRow n i s = .ok (coreDone n (modCore n (fun x => { x with signal := false })
      (offer (descOfWords 1 (dReg (coreOf t n) q) (dReg (coreOf t n) (q + 1)) (dReg (coreOf t n) (q + 2))
        (dReg (coreOf t n) (q + 3))) t).2)) := by
  subst hq
  simp only [signalRow, hd]
  exact congrArg Except.ok (if_neg ho)

theorem signalRow_stalls {q : Nat} {u : State} (hd : drainCore n s = .ok t) (hq : q = 4 * fld i 23 22)
    (ho : offer (descOfWords 1 (dReg (coreOf t n) q) (dReg (coreOf t n) (q + 1)) (dReg (coreOf t n) (q + 2))
      (dReg (coreOf t n) (q + 3))) t = (.refused, u)) :
    signalRow n i s = .ok (modCore n (fun x => { x with signal := true }) u) := by
  subst hq
  simp only [signalRow, hd, ho, if_true]

theorem haltRow_task (hs : coreStream s n = false) (hd : drainCore n s = .ok t) :
    haltRow n s = .ok (taskEnd n (coreDone n t)) := by
  simp only [haltRow, hs, Bool.false_eq_true, if_false, hd]

theorem haltRow_stream (hs : coreStream s n = true) : haltRow n s = .ok (coreFault n 2 s) := if_pos hs

end control

/-- Settles O49: branches, repeats, loops and the instructions that drain, signal, end or wait. -/
theorem coreSequence : Obligations.CoreSequence := by
  refine ⟨fun s w n t i c hw hi hc hl ht => ⟨fun hr hcond hx => ?br, fun hr hcond => ?skip, fun hr hx => ?call,
      fun hr hx => ?ret, fun hr hx => ?rti, fun hr hx => ?jmp⟩,
    fun s w n k i c hw hi hc => ⟨fun hr hk => ?rep, fun hr hk => ⟨fun hlen => ?noBody, fun hlen h0 => ?skips,
      fun hlen h0 h2 => ?begins, fun hlen h0 h2 => ?third⟩⟩,
    fun s w t n i hw hi => ⟨fun hr hd => ?drain, fun q hr hd hq ho => ?signal, fun q u hr hd hq ho => ?stall,
      fun hr hs hd => ?halt, fun hr hs => ?haltStream, fun hr hs => ?blkend, fun hr hs => ?blkendTask, fun hr => ?wait,
      fun hr hd => ?illegal⟩⟩
  case br =>
    refine druStepRow_leaves hw hi hr ((if_pos ?_).trans (takeBranch_taken hc hl ht ?_))
    · rw [← hc]; exact hcond
    · rw [← hc]; exact hx
  case skip =>
    refine druStepRow_leaves hw hi hr ((if_neg ?_).trans (skipBranch_skips hc hl))
    rw [← hc, hcond]; decide
  case call =>
    refine druStepRow_leaves hw hi hr ?_
    dsimp only
    rw [← hc]
    exact takeBranch_taken hc hl ht hx
  case ret =>
    refine druStepRow_leaves hw hi hr ?_
    rw [← hc]
    exact takeBranch_taken hc hl ht (congrArg Nat.cast hx)
  case rti =>
    refine druStepRow_leaves hw hi hr ?_
    rw [← hc]
    exact takeBranch_taken hc hl ht (congrArg Nat.cast hx)
  case jmp =>
    refine druStepRow_leaves hw hi hr ?_
    rw [← hc]
    exact takeBranch_taken hc hl ht (congrArg Nat.cast hx)
  case rep =>
    subst hc hk
    exact druStepRow_leaves hw hi hr rfl
  case noBody => exact druStepRow_leaves hw hi hr (if_pos hlen)
  case skips => exact druStepRow_leaves hw hi hr (loopRow_skips hc hk hlen h0)
  case begins => exact druStepRow_leaves hw hi hr (loopRow_begins hc hk hlen h0 h2)
  case third => exact druStepRow_faults hw hi hr (loopRow_third hc hk hlen h0 h2)
  case drain =>
    refine druStepRow_leaves hw hi hr ?_
    rw [hd]
  case signal => exact druStepRow_leaves hw hi hr (signalRow_offers hd hq ho)
  case stall => exact druStepRow_leaves hw hi hr (signalRow_stalls hd hq ho)
  case halt => exact druStepRow_leaves hw hi hr (haltRow_task hs hd)
  case haltStream => exact druStepRow_leaves hw hi hr (haltRow_stream hs)
  case blkend => exact druStepRow_leaves hw hi hr (congrArg Except.ok (if_pos hs))
  case blkendTask => exact druStepRow_leaves hw hi hr (congrArg Except.ok (if_neg (by rw [hs]; decide)))
  case wait => exact druStepRow_leaves hw hi hr rfl
  case illegal =>
    subst hi
    exact run_leaves hw (illegalRow_faults hr hd)

end Sys2Proof.Proofs
end

section
/-! Interrupts, starts, runs, faults and the spare of the Druora cores (R466, R483, R486 to R491, R495, R497). -/

namespace Sys2Proof.Proofs

open Sys2Proof Sys2Proof.Machine Sys2Proof.Laws

section core

variable {s : State} {n : Nat} {c : CoreSt} (hc : c = coreOf s n)
include hc

/-! ### Interrupts (R466, R483) -/

theorem interruptTake_takes {src : Nat} (hn : corePresent s n = true)
    (hsrc : (src = 0 ∧ c.doorbell = true ∧ bit (srReg c) 8 = true) ∨ (src = 1 ∧ c.timer = true ∧ bit (srReg c) 9 = true))
    (hst : c.state = 2 ∨ c.state = 3) (hie : bit (srReg c) 6 = true) (hb : c.branch = none) (hr : c.rep = none) :
    interruptTake n src s = coreState n 2 (modCore n (fun x =>
      { writeReg 36 (putFld (srReg c) 6 6 0) (writeReg 42 (srReg c) (writeReg 41 (wordOf c.pc) x)) with
        pc := ((tabGet 0 x.regs 43).toNat + 4 * src) % 16384, handler := true, signal := false
        doorbell := x.doorbell && src != 0, timer := x.timer && src != 1 }) s) := by
  subst hc
  refine if_pos ⟨hn, hst, ?_, hie, by rw [hb]; rfl, by rw [hr]; rfl⟩
  rcases hsrc with ⟨rfl, hd, h8⟩ | ⟨rfl, ht, h9⟩
  · rw [if_pos rfl, hd, h8]; rfl
  · rw [if_neg (by decide), ht, h9]; rfl

theorem timerExpiry_expires (hn : corePresent s n = true) (hst : c.state ≠ 0) (ht : (tabGet 0 c.regs 44).toNat ≠ 0) :
    timerExpiry n s = coreWake n (modCore n (fun c => { writeReg 44 0 c with timer := true }) s) := by
  subst hc
  exact if_pos ⟨hn, hst, ht⟩

/-! ### CORE_CMD (R497) -/

theorem coreStart_starts (hn : corePresent s n = true) (hst : c.state = 0 ∨ c.state = 5) : coreStart n s =
    if coreStream s n then coreLoad n (actF s (Reg.CORE0.at n) 15 0) (modCore n (fun x => { x with stopping := false }) s)
    else coreState n 1 (modCore n (fun x => { x with stopping := false }) s) := by
  subst hc
  refine if_neg ?_
  rw [hn]
  rcases hst with h | h <;> rw [h] <;> decide

/-- A core that is neither stopped nor in fault obeys CMD STOP. -/
theorem coreStop_cases (hn : corePresent s n = true) (h0 : c.state ≠ 0) (h5 : c.state ≠ 5) : coreStop n s =
    if (c.state = 1 ∧ c.runBlock.isNone) ∨ (c.state = 4 ∧ coreStream s n) then coreState n 0 s
    else modCore n (fun x => { x with stopping := true }) s := by
  subst hc
  exact if_neg (by rw [hn]; simp [h0, h5])

theorem coreStop_faulted (h5 : c.state = 5) : coreStop n s = s := by
  subst hc
  exact if_pos (.inr (.inr h5))

theorem coreStop_running (hn : corePresent s n = true) (h2 : c.state = 2) :
    coreStop n s = modCore n (fun x => { x with stopping := true }) s :=
  (coreStop_cases hc hn (by omega) (by omega)).trans (if_neg (by omega))

theorem coreStop_idle (hn : corePresent s n = true)
    (hst : (c.state = 1 ∧ c.runBlock = none) ∨ (c.state = 4 ∧ coreStream s n = true)) :
    coreStop n s = coreState n 0 s := by
  refine (coreStop_cases hc hn (by omega) (by omega)).trans (if_pos ?_)
  exact hst.imp_left fun h => ⟨h.1, by rw [h.2]; rfl⟩

omit hc in
theorem coreReset_rests {t : State} (hn : corePresent s n = true)
    (ht : t = modCore n (fun x => { x with wbuf := [], stopping := true, runBlock := none }) s)
    (h : coreStream s n = true ∨ coreJob s n = none) : coreReset n s = coreRest n t := by
  subst ht
  refine (if_neg (by rw [hn]; decide)).trans (if_neg ?_)
  rcases h with h | h
  · rw [h]; simp
  · rw [h]; simp

omit hc in
theorem coreReset_ends {t : State} (hn : corePresent s n = true)
    (ht : t = modCore n (fun x => { x with wbuf := [], stopping := true, runBlock := none }) s)
    (hs : coreStream s n = false) (hj : coreJob s n ≠ none) : coreReset n s = taskEnd n t := by
  subst ht
  exact (if_neg (by rw [hn]; decide)).trans (if_pos ⟨by rw [hs]; rfl, Option.isSome_iff_ne_none.2 hj⟩)

/-! ### Programs and tasks (R486 to R488) -/

/-- A core waits for the copy of its program. -/
theorem loadDone_waits (hn : corePresent s n = true) (h4 : c.state = 4) (hl : c.loaded = false) :
    ¬ ((!corePresent s n) = true ∨ (coreOf s n).state ≠ 4 ∨ (coreOf s n).loaded = true) := by
  subst hc
  rw [hn, h4, hl]; decide

theorem loadDone_invalid {t : State} (hn : corePresent s n = true) (h4 : c.state = 4) (hl : c.loaded = false)
    (he : readEntry n c.entry s = (none, t)) : loadDone n s = coreFault n 4 t := by
  rw [loadDone, if_neg (loadDone_waits hc hn h4 hl), ← hc, he]

theorem loadDone_loads {p : ProgEntry} {t u v z : State} {full : Bool} {code data : List Byte}
    (hn : corePresent s n = true) (h4 : c.state = 4) (hl : c.loaded = false)
    (he : readEntry n c.entry s = (some p, t)) (hf : full = (resident s n != c.entry))
    (hcode : full = true → loadMem 9 n t p.code (4 * p.words) = (true, code, u)) (hkeep : full = false → code = [] ∧ u = t)
    (hdata : loadMem 9 n u p.data p.dbytes = (true, data, v))
    (hz : z = writeMem (writeMem v (coreWindow n + 0x40000) code) (coreWindow n + p.ddst) data) :
    loadDone n s = coreReady n (setF (Reg.CORE6.at n) 15 0 c.entry
      (if full then count Reg.DRU_LOAD_CNT.base z else z)) := by
  subst hz
  have hread : (if full = true then loadMem 9 n t p.code (4 * p.words) else (true, [], t)) = (true, code, u) := by
    cases full with
    | true => exact hcode rfl
    | false =>
      obtain ⟨rfl, rfl⟩ := hkeep rfl
      rfl
  rw [loadDone, if_neg (loadDone_waits hc hn h4 hl), ← hc, he]
  dsimp only
  rw [← hf, hread]
  dsimp only
  rw [hdata]
  exact if_neg (by simp)

theorem taskStart_starts {j : Job} (hn : corePresent s n = true) (hs : coreStream s n = false) (h4 : c.state = 4)
    (hl : c.loaded = true) (hj : coreJob s n = some j) : taskStart n s = coreState n 2 (modCore n (fun x =>
      { writeReg 16 (wordOf (2 ^ 31 + j.desc.arg % 2 ^ 31)) (writeReg 37 (wordOf (j.desc.arg / 2 ^ 31)) x) with
        pc := x.start, cycles := 0, began := monoNs s }) s) := by
  subst hc
  refine (if_neg ?_).trans (by rw [hj])
  rw [hn, hs, h4, hl]; decide

theorem taskWatchdog_faults {m : Nat} (hm : m = fld (actW s Reg.DRU_TASK_MAX.base) 31 0) (hn : corePresent s n = true)
    (hs : coreStream s n = false) (hst : c.state = 2 ∨ c.state = 3) (h0 : m ≠ 0) (hd : c.began + 1000 * m ≤ monoNs s) :
    taskWatchdog n s = coreFault n 3 s := by
  subst hc hm
  exact if_pos ⟨hn, by rw [hs]; rfl, hst, h0, hd⟩

/-! ### Stream runs (R489 to R491) -/

section run

variable {b : Nat} (hsc : (streamCores s).contains n = true) (h1 : c.state = 1) (hb : c.runBlock = none)
  (hin : (c.inputs.reverse.find? (fun p => decide (c.nextRun ≤ p.1))).map (·.1) = some b)
include hsc h1 hb hin

theorem runReady_newest : runReady n s = true := by
  subst hc
  obtain ⟨p, hp, -⟩ := Option.map_eq_some_iff.1 hin
  have hmem : p ∈ (coreOf s n).inputs := List.mem_reverse.1 (List.mem_of_find?_eq_some hp)
  have hany : (coreOf s n).inputs.any (fun p => decide ((coreOf s n).nextRun ≤ p.1)) = true :=
    List.any_eq_true.2 ⟨p, hmem, by simpa using List.find?_some hp⟩
  simp only [runReady, hsc, h1, hb, hany, beq_self_eq_true, Option.isNone_none, Bool.and_self]

theorem streamRunStart_starts : streamRunStart n s = coreState n 2 (modCore n (fun x =>
    { writeReg 15 (wordOf (extBlk s b)) (writeReg 17 (wordOf (outSlot s n b)) (writeReg 16 (wordOf (inSlot s n b)) x)) with
      pc := x.start, runBlock := some b, nextRun := b + 1, overrun := false, cycles := 0
      firstRun := some (x.firstRun.getD b) }) s) := by
  subst hc
  obtain ⟨⟨b', k⟩, hp, rfl⟩ := Option.map_eq_some_iff.1 hin
  refine (if_neg ?_).trans (by rw [hp])
  rw [hsc, h1, hb]; decide

end run

end core

theorem exec_streamRunStart (n : Nat) (s : State) : exec (.streamRunStart n) s = runE (fun t =>
    if !(running t && unitPresent t uDRU) then .ok t
    else if runReady n t && buffersBad t n then .error .streamBuffer else .ok (streamRunStart n t)) s := rfl

/-- The condition of a unit that is up, as one Boolean. -/
theorem not_up_and {s : State} {u : Nat} (hu : up s u) : ¬ (!(running s && unitPresent s u)) = true := by
  rw [hu.1, hu.2]; decide

/-! ### Retirement and the spare (R495, R569) -/

theorem hltRetire_retires {cls inst cause : Nat} {s : State} (hr : retirable s cls inst = true)
    (hw : s.hlt.waiting.any (fun x => x.cls == cls) = false) (hb : retireBusy s cls inst = false) :
    hltRetire cls inst cause s = retireUnit cls inst cause s := by
  refine (if_neg (by rw [hr]; decide)).trans (if_neg ?_)
  rw [hw, hb]; decide

theorem spareCopyEnd_copies {s : State} {n q : Nat} {bad : List Nat} {t u v : State} (hl : s.dru.leaving = some n)
    (hq : s.dru.spare = some q) (hcp : s.dru.copied = false) (hj : coreStream s n = false → coreJob s n = none)
    (hbad : bad = s.ue.filter (fun a => decide (coreWindow n ≤ a) && decide (a < coreWindow n + 0x50000)))
    (ht : t = copyRange (coreWindow n) (coreWindow 16) 0x50000 (bad.foldl (fun t a => reportUe 1 5 n a t) s))
    (hu : u = bad.foldl (fun t a => storeBytes t (a - coreWindow n + coreWindow 16) (List.replicate 8 0)) t)
    (hv : v = { u with dru := { u.dru with copied := true } }) :
    spareCopyEnd s = if coreStream s n = true ∧ (coreOf s n).runBlock.isSome = true then v else spareTake n v := by
  subst hv hu ht hbad
  have hgo : ¬ (s.dru.spare.isNone = true ∨ s.dru.copied = true ∨ (!coreStream s n) = true ∧ (coreJob s n).isSome = true) := by
    rw [hq, hcp]
    rintro (h | h | ⟨hs, hsome⟩)
    · cases h
    · cases h
    · rw [hj (by simpa using hs)] at hsome
      cases hsome
  rw [spareCopyEnd, hl]
  exact if_neg hgo

/-- Settles O50: interrupts, CORE_CMD, programs, tasks, stream runs, faults and the spare. -/
theorem coresInterruptStartRun : Obligations.CoresInterruptStartRun := by
  refine ⟨fun s w n c hw hu hc hn => ⟨fun src hsrc hst hie hb hr => ?take, fun hst ht => ?expiry, fun v => ?doorbell⟩,
    fun s w n c hw hu hc hn => ⟨fun hst => ⟨fun hs => ?startStream, fun hs => ?startTask⟩, fun h5 => ?stopFaulted,
      fun h2 => ?stopRunning, fun hst => ?stopIdle, fun t ht => ⟨fun h => ?resetRests, fun hs hj => ?resetEnds⟩,
      fun p t u v full code data h4 hl he hf hcode hkeep hdata z hz => ?loads, fun t h4 hl he => ?invalid,
      fun j hs h4 hl hj => ?task⟩,
    fun s w n c hw hu hc => ⟨fun b hsc h1 hb hin => ⟨fun hbad => ?run, fun hbad => ?runFault⟩, fun hsc => ?overrun,
      fun m hm hn hs hst h0 hd => ?watchdog, fun cause hca hr hwt hbusy => ?retire,
      fun q bad t u v hl hq hcp hj hbad ht hu' hv => ⟨fun h => ?copyTake, fun hs hb => ?copyWait⟩⟩⟩
  case take => exact upRow_leaves hw hu (interruptTake_takes hc hn hsrc hst hie hb hr)
  case expiry => exact upRow_leaves hw hu (timerExpiry_expires hc hn hst ht)
  case doorbell => exact upRow_leaves hw hu rfl
  case startStream => exact upRow_leaves hw hu ((coreStart_starts hc hn hst).trans (if_pos hs))
  case startTask => exact upRow_leaves hw hu ((coreStart_starts hc hn hst).trans (if_neg (by rw [hs]; decide)))
  case stopFaulted => exact upRow_leaves hw hu (coreStop_faulted hc h5)
  case stopRunning => exact upRow_leaves hw hu (coreStop_running hc hn h2)
  case stopIdle => exact upRow_leaves hw hu (coreStop_idle hc hn hst)
  case resetRests => exact upRow_leaves hw hu (coreReset_rests hn ht h)
  case resetEnds => exact upRow_leaves hw hu (coreReset_ends hn ht hs hj)
  case loads => exact upRow_leaves hw hu (loadDone_loads hc hn h4 hl he hf hcode hkeep hdata hz)
  case invalid => exact upRow_leaves hw hu (loadDone_invalid hc hn h4 hl he)
  case task => exact upRow_leaves hw hu (taskStart_starts hc hn hs h4 hl hj)
  case run =>
    rw [exec_streamRunStart]
    refine runE_leaves hw ((if_neg (not_up_and hu)).trans ((if_neg ?_).trans ?_))
    · rw [hbad, Bool.and_false]; decide
    · rw [streamRunStart_starts hc hsc h1 hb hin]
  case runFault =>
    rw [exec_streamRunStart]
    refine runE_fault hw ((if_neg (not_up_and hu)).trans (if_pos ?_))
    rw [runReady_newest hc hsc h1 hb hin, hbad]; rfl
  case overrun => exact upRow_leaves hw hu (if_pos hsc)
  case watchdog => exact upRow_leaves hw hu (taskWatchdog_faults hc hm hn hs hst h0 hd)
  case retire =>
    refine upRow_leaves hw hu ?_
    rw [Nat.mod_eq_of_lt hca]
    exact hltRetire_retires hr hwt hbusy
  case copyTake =>
    refine upRow_leaves hw hu ((spareCopyEnd_copies hl hq hcp hj hbad ht hu' hv).trans (if_neg ?_))
    rintro ⟨hs, hb⟩
    rcases h with h | h
    · rw [h] at hs; cases hs
    · rw [← hc, h] at hb; cases hb
  case copyWait =>
    refine upRow_leaves hw hu ((spareCopyEnd_copies hl hq hcp hj hbad ht hu' hv).trans (if_pos ⟨hs, ?_⟩))
    rw [← hc]
    exact Option.isSome_iff_ne_none.2 hb

end Sys2Proof.Proofs
end

section
/-! Memory banks, the DRAM controller, tamper and the life cycle (R502 to R505, R515 to R517, R522 to R527). -/

namespace Sys2Proof.Proofs

open Sys2Proof Sys2Proof.Machine Sys2Proof.Laws

/-- A row of a powered part leaves what its function makes of the state. -/
theorem onRow_leaves {f : State → State} {s w t : State} (hw : w = work s) (hp : powered w = true) (h : f w = t) :
    run (whenOn f) s = leaves s t :=
  run_leaves hw ((whenOn_on hp f).trans h)

/-! ### Ports in panic (R522) -/

section panic

variable {s : State} {p amount level : Nat} (hp : p < 3) (hl : level = portLevel s p amount)
include hp hl

theorem panicEnter_enters (hi : inPanic s p = false) (hon : level < panicOn s) :
    panicEnter p amount s = count (Reg.DRC_PANIC_CNT.at p) (setPanic p true (fillSet p level s)) := by
  subst hl
  refine (if_neg (by omega)).trans (if_neg ?_)
  rw [hi]; simpa using hon

theorem panicExit_leaves (hi : inPanic s p = true) (hoff : panicOff s ≤ level) :
    panicExit p amount s = setPanic p false (fillSet p level s) := by
  subst hl
  refine (if_neg (by omega)).trans (if_neg ?_)
  rw [hi]; simpa using hoff

end panic

/-! ### Refresh, drift and self-refresh (R523, R524) -/

theorem dramRefresh_counts {ch b : Nat} {s : State} (hch : ch < 4) (ht : s.drc.trained = true)
    (hr : s.drc.selfRefresh = false) : dramRefresh ch b s =
      { s with drc := { s.drc with refreshes := tabMod 0 (ch * 256 + b) (· + 1) s.drc.refreshes } } :=
  if_neg (by rw [ht, hr]; simpa using hch)

theorem driftTrack_counts {ch : Nat} {s : State} (hch : ch < 4) (ht : s.drc.trained = true) (h0 : inPanic s 0 = false)
    (h1 : inPanic s 1 = false) (h2 : inPanic s 2 = false) :
    driftTrack ch s = { s with drc := { s.drc with drift := tabMod 0 ch (· + 1) s.drc.drift } } :=
  if_neg (by rw [ht, h0, h1, h2]; simpa using hch)

theorem selfRefreshEnter_enters {us : Nat} {s : State} (hr : s.drc.selfRefresh = false) (ht : s.drc.trained = true)
    (hb : bit (actW s Reg.DRC_CFG.base) 0 = true) (hus : srIdle s ≤ us) (hi : portsIdle s = true)
    (hq : requestsWait s = false) :
    selfRefreshEnter us s = count Reg.DRC_SR_CNT.base { s with drc := { s.drc with selfRefresh := true } } :=
  if_neg (by rw [hr, ht, hb, hi, hq]; simpa using hus)

/-! ### Row activations (R525) -/

section hammer

variable {s t : State} {acts req inst ch row b : Nat} {old new : List (Nat × Nat × Nat)}
  (hold : old = rowActs s ((row * 256 + b) * 4 + ch)) (hnew : new = actsAdd req inst acts old)
  (ht : t = { s with drc := { s.drc with
    actWindow := monoNs s / 32000000,
    acts := tabSet ((row * 256 + b) * 4 + ch) new (if s.drc.actWindow = monoNs s / 32000000 then s.drc.acts else []) } })
include hold hnew ht

theorem rowHammer_within (h : actsSum new ≤ rhMax s ∨ rhMax s < actsSum old) :
    rowHammer acts req inst ch (row * 256 + b) s = t := by
  subst ht hnew hold
  exact if_pos h

theorem rowHammer_exceeds (hb : b < 256) (ho : actsSum old ≤ rhMax s) (hn : rhMax s < actsSum new) {r k : Nat}
    {held : List Throttle} {m : Tab Nat} (htop : actsTop new = (r, k))
    (hheld : held = s.drc.throttled.filter (fun (x : Throttle) => decide (monoNs s < x.until_)))
    (hm : m = if row = 0 then s.drc.managed else tabMod 0 (((row - 1) * 256 + b) * 4 + ch) (· + 1) s.drc.managed) :
    rowHammer acts req inst ch (row * 256 + b) s = raise 0x73
      (bytesOf 1 r ++ bytesOf 1 k ++ bytesOf 1 ch ++ bytesOf 1 b)
      (stick Reg.DRC_STAT.base 2 (count Reg.DRC_RH_CNT.base { t with drc := { t.drc with
        managed := tabMod 0 (((row + 1) * 256 + b) * 4 + ch) (· + 1) m,
        throttled := if r ≤ 2 then held else
          held ++ [⟨r, k, ch, b, fld (actW s Reg.DRC_RH.base) 15 0, (monoNs s / 32000000 + 1) * 32000000⟩] } })) := by
  have hbank : (row * 256 + b) % 256 = b := by omega
  have hrow : (row * 256 + b) / 256 = row := by omega
  subst ht hheld hm
  rw [hnew, hold] at htop hn
  rw [hold] at ho
  rw [rowHammer, if_neg (by omega), htop, hbank, hrow, hnew, hold]

end hammer

/-! ### Patrol scrubs (R527) -/

theorem patrolPass_scrubs {fixed bad : List Nat} {s t u : State} {lo hi : Nat} (hr : patrolRange s = (lo, hi))
    (h : lo < hi)
    (ht : t = (fixed.filter (fun a => decide (lo ≤ a) && decide (a < hi))).foldl (fun t a => reportDramCe 12 0 a t)
      (selfRefreshExit s))
    (hu : u = { t with ue :=
      (bad.filter (fun a => decide (lo ≤ a) && decide (a < hi))).foldl (fun l a => setAdd (word8 a) l) t.ue }) :
    patrolPass fixed bad s = (ueIn u lo (hi - lo)).foldl (fun v a => reportDramUe 1 12 0 a v) u := by
  subst hu ht
  rw [patrolPass, hr]
  exact if_neg (by omega)

theorem patrolPass_empty {fixed bad : List Nat} {s : State} {lo hi : Nat} (hr : patrolRange s = (lo, hi))
    (h : hi ≤ lo) : patrolPass fixed bad s = s := by
  rw [patrolPass, hr]
  exact if_pos h

/-- Settles O51: banks, scrubs, and the DRAM controller's ports, refresh, row activations and patrol. -/
theorem memoriesAndDram : Obligations.MemoriesAndDram := by
  refine ⟨fun s w hw => ⟨fun b hp hf => ?filled, fun v hp => ?power, fun finds t hu ht => ?scrub⟩,
    fun s w hw => ⟨fun p amount level hu hp hl => ⟨fun hi hon => ?enter, fun hi hoff => ?exit⟩,
      fun ch b hp ht hch => ⟨fun hr => ?refresh, fun h0 h1 h2 => ?drift⟩,
      fun us hp hr ht hb hus hi hq => ?selfRefresh, fun hp => ?wake,
      fun acts req inst ch row b old new t hu hb hold hnew ht => ⟨fun h => ?within,
        fun r k held m ho hn htop hheld hm => ?exceeds⟩,
      fun lo hi fixed bad t u hu hr => ⟨fun h => ?empty, fun h ht hu' => ?patrol⟩⟩⟩
  case filled => exact onRow_leaves hw hp (if_pos hf)
  case power => exact onRow_leaves hw hp rfl
  case scrub =>
    subst ht
    exact upRow_leaves hw hu rfl
  case enter => exact upRow_leaves hw hu (panicEnter_enters hp hl hi hon)
  case exit => exact upRow_leaves hw hu (panicExit_leaves hp hl hi hoff)
  case refresh => exact onRow_leaves hw hp (dramRefresh_counts hch ht hr)
  case drift => exact onRow_leaves hw hp (driftTrack_counts hch ht h0 h1 h2)
  case selfRefresh => exact onRow_leaves hw hp (selfRefreshEnter_enters hr ht hb hus hi hq)
  case wake => exact onRow_leaves hw hp rfl
  case within => exact upRow_leaves hw hu (rowHammer_within hold hnew ht h)
  case exceeds => exact upRow_leaves hw hu (rowHammer_exceeds hold hnew ht hb ho hn htop hheld hm)
  case empty => exact upRow_leaves hw hu (patrolPass_empty hr h)
  case patrol => exact upRow_leaves hw hu (patrolPass_scrubs hr h ht hu')

/-! ### Tamper (R517) -/

theorem tamper_wipes {ns : Nat} {s t : State} (hns : 100 * min 100 (fld (actW s Reg.SEC_TAMPER.base) 6 0) ≤ ns)
    (ht : t = { secWipe s with sec := { (secWipe s).sec with tampered := true } }) :
    tamper ns s = when (powered s) (fun u => raise 0x74 [] (stick Reg.SEC_STAT.base 0 u)) t := by
  subst ht
  exact if_neg (by omega)

theorem tamperRow_leaves {ns : Nat} {s w t : State} (hw : w = work s) (hs : w.start.supplies = true)
    (h : tamper ns w = t) : exec (.tamper ns) s = leaves s t :=
  run_leaves (f := fun t => when t.start.supplies (tamper ns) t) hw ((if_pos hs).trans h)

/-! ### The life cycle (R515, R516) -/

section lifeCycle

variable {s : State} {v : Word} {k at_ : Nat}

theorem lcExpire_unarmed (h : s.sec.armed = none) : lcExpire s = s := by rw [lcExpire, h]

theorem lcExpire_inTime (h : s.sec.armed = some (k, at_)) (hin : monoNs s ≤ at_ + 1000000) : lcExpire s = s := by
  rw [lcExpire, h]
  exact if_neg (by omega)

theorem lcExpire_late (h : s.sec.armed = some (k, at_)) (hlate : at_ + 1000000 < monoNs s) :
    lcExpire s = lcDisarm s := by
  rw [lcExpire, h]
  exact if_pos hlate

theorem lcArms_of (h5 : fld v 15 8 = 0xA5) (hk : s.fuse.life < fld v 1 0) : lcArms s v = true := by
  rw [lcArms, h5, decide_eq_true hk]; rfl

theorem lcWrite_arms (he : s.sec.executing = none) (ha : s.sec.armed = none) (hv : lcArms s v = true) :
    lcWrite v s = { s with sec := { s.sec with armed := some (fld v 1 0, monoNs s) } } := by
  rw [lcWrite, lcExpire_unarmed ha, he, ha]
  exact if_pos hv

/-- A write that meets an armed request executes it or disarms it. -/
theorem lcWrite_armed (he : s.sec.executing = none) (ha : s.sec.armed = some (k, at_))
    (hin : monoNs s ≤ at_ + 1000000) :
    lcWrite v s = if fld v 1 0 = k ∧ fld v 15 8 = 0x5A then lcExecute k s else lcDisarm s := by
  rw [lcWrite, lcExpire_inTime ha hin, he, ha]
  exact if_neg (by decide)

theorem lcArmRow_leaves {w t : State} (hw : w = work s) (hp : powered w = true) (hv : lcArms w v = true)
    (h : lcWrite v w = t) : exec (.lcArm v) s = leaves s t :=
  onRow_leaves (f := fun t => when (lcArms t v) (lcWrite v) t) hw hp ((if_pos hv).trans h)

theorem lcExecuteRow_leaves {w t : State} (hw : w = work s) (hp : powered w = true) (ha : w.sec.armed = some (k, at_))
    (h : lcWrite v w = t) : exec (.lcExecute v) s = leaves s t :=
  onRow_leaves (f := fun t => when t.sec.armed.isSome (lcWrite v) t) hw hp ((if_pos (by rw [ha]; rfl)).trans h)

theorem lcFuse_programs {t : State} (he : s.sec.executing = some (k, at_)) (hd : at_ + 5000000 ≤ monoNs s)
    (ht : t = { s with
      fuse := { s.fuse with life := k, keys := if k = 2 then s.sec.latched else s.fuse.keys }
      sec := { s.sec with executing := none, latched := [] } }) :
    lcFuse s = raise 0x75 (bytesOf 1 s.fuse.life ++ bytesOf 1 k)
      (stick Reg.SEC_STAT.base 1 (setN Reg.SEC_LC.base k (storeBytes t 7 (bytesOf 1 k)))) := by
  subst ht
  rw [lcFuse, he]
  exact if_neg (by omega)

theorem runFuse_leaves {f : State → State} {w t : State} (hw : w = work s) (h : f w = t) :
    runFuse f s = .next { settle s t with fuse := t.fuse } := by
  subst hw h
  rfl

end lifeCycle

/-- Settles O52: tamper, and the life cycle armed, executed, disarmed and programmed. -/
theorem lifeCycleAdvances : Obligations.LifeCycleAdvances := by
  refine fun s w t hw => ⟨fun ns hs ht => ⟨fun hns => ?short, fun hns => ⟨fun hp => ?wiped, fun hp => ?wipedInReset⟩⟩,
    fun v hp he => ⟨fun ha h5 hk => ?arm, fun k at_ ha hin => ⟨fun h5 hk => ?rearm, fun hk h5 => ?execute,
      fun hne => ?disarm⟩⟩, fun k at_ hp ha hlate => ?expiry, fun k at_ hp he hd ht u hu => ?fuses⟩
  case short => exact tamperRow_leaves hw hs (if_pos hns)
  case wiped =>
    refine tamperRow_leaves hw hs ((tamper_wipes hns ht).trans ?_)
    rw [hp]; rfl
  case wipedInReset =>
    refine tamperRow_leaves hw hs ((tamper_wipes hns ht).trans ?_)
    rw [hp]; rfl
  case arm => exact lcArmRow_leaves hw hp (lcArms_of h5 hk) (lcWrite_arms he ha (lcArms_of h5 hk))
  case rearm =>
    refine lcArmRow_leaves hw hp (lcArms_of h5 hk) ((lcWrite_armed he ha hin).trans (if_neg ?_))
    rw [h5]; rintro ⟨-, h⟩; exact absurd h (by decide)
  case execute => exact lcExecuteRow_leaves hw hp ha ((lcWrite_armed he ha hin).trans (if_pos ⟨hk, h5⟩))
  case disarm =>
    exact lcExecuteRow_leaves hw hp ha ((lcWrite_armed he ha hin).trans (if_neg (not_and_or.2 hne)))
  case expiry => exact onRow_leaves hw hp (lcExpire_late ha hlate)
  case fuses =>
    subst hu
    exact runFuse_leaves (f := whenOn lcFuse) hw ((whenOn_on hp _).trans (lcFuse_programs he hd ht))

end Sys2Proof.Proofs
end

section
/-! The DMA engines: channels, credits and descriptors (R535, R536, R540, R541, R543 to R545). -/

namespace Sys2Proof.Proofs

open Sys2Proof Sys2Proof.Machine Sys2Proof.Laws

/-- A row of a DMA engine that may stop leaves what its function answers. -/
theorem dmaRow_leaves {f : State → Except Fault State} {s w t : State} (hw : w = work s) (hu : up w uDMA)
    (h : f w = .ok t) : runE (dmaUp f) s = leaves s t :=
  runE_leaves hw ((if_pos hu).trans h)

/-! ### Channels (R535, R536, R544, R545) -/

section channel

variable {b : Bool} {c : Nat} {s : State} {f : State → State} (hc : c < dmaCount b)
include hc

theorem dmaOwnerGate_denies (h : dmaOwned s b c = true) : dmaOwnerGate b c f s = count Reg.DMA_DENY_CNT.base s :=
  (if_neg (by omega)).trans (if_pos h)

theorem dmaOwnerGate_passes (h : dmaOwned s b c = false) : dmaOwnerGate b c f s = f s :=
  (if_neg (by omega)).trans (if_neg (by rw [h]; decide))

end channel

theorem dmaGo_starts {b : Bool} {c a : Nat} {v : Word} {s : State} (hr : dmaRuns (dmaChan s b c) = false)
    (ha : a = fld (regW (setN (dmaBase b c + 4) (fld v 7 0) s) (dmaBase b c)) 31 5 * 32 + 2 ^ 32 * fld v 7 0) :
    dmaGo b c v s = modChanD b c (fun _ => { dmaChanZero with state := 1, first := a, cur := a })
      (setN (dmaBase b c + 4) (fld v 7 0) s) := by
  subst ha
  exact if_neg (by rw [hr]; decide)

theorem reqAdd_credits {l : Nat} {v : Word} {s : State} (h1 : 1 ≤ l) (h15 : l ≤ 15) : reqAdd l v s =
    creditSet l (min (credits s l + fld v 15 0) 65535)
      (countN Reg.DMA_DENY_CNT.base (credits s l + fld v 15 0 - 65535) s) :=
  if_neg (by omega)

theorem channelTake_privileged {b : Bool} {k : Nat} {s : State} (hr : (dmaEng s b).run = none)
    (hn : dmaNext s b true = some k) : channelTake b s =
      modEng b (fun e => { e with run := some k, lastPriv := k }) (modChanD b k (fun x => { x with state := 2 }) s) := by
  rw [channelTake, if_neg (fun h => h hr), hn]

theorem channelTake_ordinary {b : Bool} {k : Nat} {s : State} (hr : (dmaEng s b).run = none)
    (hp : dmaNext s b true = none) (hn : dmaNext s b false = some k) : channelTake b s =
      modEng b (fun e => { e with run := some k, lastOrd := k }) (modChanD b k (fun x => { x with state := 2 }) s) := by
  rw [channelTake, if_neg (fun h => h hr), hp]
  dsimp only
  rw [hn]

/-! ### The channel that runs (R540, R541, R543, R544) -/

section running

variable {b : Bool} {c : Nat} {x : DmaChan} {s : State} (hr : (dmaEng s b).run = some c) (hx : x = dmaChan s b c)
include hr hx

theorem descFetch_misplaced (hf : x.fetched = false) (hp : descPlace s x.cur = false) :
    descFetch b s = .ok (dmaError b c 1 s) := by
  subst hx
  rw [descFetch, hr]
  exact (if_neg (by rw [hf]; decide)).trans (if_pos (by rw [hp]; rfl))

/-- A descriptor that is read and sound is the channel's, unless its source and destination overlap. -/
theorem descFetch_sound {bs : List Byte} {t : State} (hf : x.fetched = false) (hp : descPlace s x.cur = true)
    (hread : fabRead (dmaReq b) c s x.cur 32 = (true, bs, t)) (hcode : descCode b c bs = 0) :
    descFetch b s = if descOverlaps (dmaDesc bs) then .error .chainOverlap
      else .ok (dmaPace b (modChanD b c (fun y => { y with
        desc := bs, fetched := true, done := 0, hold := []
        crc := if (dmaDesc bs).crcEn ∧ !(dmaDesc bs).crcCont then 0xFFFFFFFF else y.crc }) t)) := by
  subst hx
  simp only [descFetch, hr, hf, hp, hread, hcode, Bool.not_true, Bool.false_eq_true, if_false, ne_eq, not_true_eq_false]

theorem dmaBurst_moves (hl : burstLeft x = true)
    (hcr : (dmaDesc x.desc).req = 0 ∨ credits s (dmaDesc x.desc).req ≠ 0) : dmaBurst b s = burstMove b c s := by
  subst hx
  rw [dmaBurst, hr]
  refine if_neg ?_
  rw [hl]
  rcases hcr with h | h
  · rw [h]; simp
  · simp [h]

theorem dmaBurst_waits (hq : (dmaDesc x.desc).req ≠ 0) (h0 : credits s (dmaDesc x.desc).req = 0) :
    dmaBurst b s = .ok s := by
  subst hx
  rw [dmaBurst, hr]
  exact if_pos (by rw [decide_eq_true hq, decide_eq_true h0, Bool.and_self, Bool.or_true])

theorem descDone_ends {t u : State} (hf : x.fetched = true) (hl : burstLeft x = false)
    (hcrc : (dmaDesc x.desc).crcEn = true →
      fabWrite 3 (dmaReq b) c s (x.cur + 28) (bytesOf 4 (x.crc ^^^ 0xFFFFFFFF)) = .ok t)
    (hkeep : (dmaDesc x.desc).crcEn = false → t = s)
    (hu : u = if (dmaDesc x.desc).notify then
      raise 0x80 (bytesOf 1 (dmaByte b c) ++ [0] ++ bytesOf 4 (x.cur / 32)) t else t) :
    descDone b s = .ok (if (dmaDesc x.desc).last then count Reg.DMA_DONE_CNT.base (dmaEnd b c 4 0 u)
      else modChanD b c (fun y => { y with cur := (dmaDesc x.desc).next * 32, fetched := false, done := 0 }) u) := by
  subst hu hx
  have hstored : (if (dmaDesc (dmaChan s b c).desc).crcEn = true then
      fabWrite 3 (dmaReq b) c s ((dmaChan s b c).cur + 28) (bytesOf 4 ((dmaChan s b c).crc ^^^ 0xFFFFFFFF))
      else .ok s) = .ok t := by
    by_cases h : (dmaDesc (dmaChan s b c).desc).crcEn = true
    · rw [if_pos h, hcrc h]
    · rw [if_neg h, hkeep (by simpa using h)]
  have hgo : ¬ (!(dmaChan s b c).fetched || burstLeft (dmaChan s b c)) = true := by rw [hf, hl]; decide
  rw [descDone, hr]
  dsimp only
  rw [if_neg hgo, hstored]
  rfl

end running

/-- Settles O53: go, stop, credits and turns of channels; fetch, bursts and completion of descriptors. -/
theorem dmaRuns : Obligations.DmaRuns := by
  refine ⟨fun s w b c hw hu hc => ⟨fun ho => ⟨fun v => ?goDenied, ?stopDenied⟩,
      fun ho => ⟨fun v a hr ha => ?go, fun v hr => ?goRunning, fun hst => ?stop⟩, fun l v h1 h15 => ?credit,
      fun k hrun => ⟨fun hn => ?privileged, fun hp hn => ?ordinary⟩⟩,
    fun s w b c x hw hu hr hx => ⟨fun bs t hf hp hread hcode => ⟨fun ho => ?fetch, fun ho => ?overlap⟩,
      fun hf hp => ?misplaced, fun t hl hcr hm => ?burst, fun hl hq h0 => ?waits,
      fun t u hf hl hcrc hkeep hu' => ?done⟩⟩
  case goDenied => exact upRow_leaves hw hu (dmaOwnerGate_denies hc ho)
  case stopDenied => exact upRow_leaves hw hu (dmaOwnerGate_denies hc ho)
  case go => exact upRow_leaves hw hu ((dmaOwnerGate_passes hc ho).trans (dmaGo_starts hr ha))
  case goRunning => exact upRow_leaves hw hu ((dmaOwnerGate_passes hc ho).trans (if_pos hr))
  case stop => exact upRow_leaves hw hu ((dmaOwnerGate_passes hc ho).trans (if_pos hst))
  case credit => exact upRow_leaves hw hu (reqAdd_credits h1 h15)
  case privileged => exact upRow_leaves hw hu (channelTake_privileged hrun hn)
  case ordinary => exact upRow_leaves hw hu (channelTake_ordinary hrun hp hn)
  case fetch => exact dmaRow_leaves hw hu ((descFetch_sound hr hx hf hp hread hcode).trans (if_neg (by rw [ho]; decide)))
  case overlap =>
    exact runE_fault (f := dmaUp (descFetch b)) hw
      ((if_pos hu).trans ((descFetch_sound hr hx hf hp hread hcode).trans (if_pos ho)))
  case misplaced => exact dmaRow_leaves hw hu (descFetch_misplaced hr hx hf hp)
  case burst => exact dmaRow_leaves hw hu ((dmaBurst_moves hr hx hl hcr).trans hm)
  case waits => exact dmaRow_leaves hw hu (dmaBurst_waits hr hx hq h0)
  case done => exact dmaRow_leaves hw hu (descDone_ends hr hx hf hl hcrc hkeep hu')

end Sys2Proof.Proofs
end

section
/-! Pairing, and the islands, retirements and self-tests of the health unit (R552 to R570). -/

namespace Sys2Proof.Proofs

open Sys2Proof Sys2Proof.Machine Sys2Proof.Laws

/-! ### Heartbeats, health and elections (R552, R554 to R556) -/

section heartbeat

variable {s : State}

theorem heartbeatSend_sends (hr : running s = true) (hp : paired s = true) (hd : s.par.hbSent + 250000 ≤ monoNs s) :
    heartbeatSend s = (pairLinks s).foldl (fun t n => sendDirect n 5 (heartbeatBytes s) t)
      (modPar (fun p => { p with hbSent := monoNs s }) (hbMisses s)) :=
  if_neg (by rw [hp, hr]; simpa using hd)

theorem heartbeatLoss_cutsIn {t : Nat} (ha : s.par.hbAt = some t) (hp : paired s = true) (hl : s.par.hbLost = false)
    (hd : t + 1000000 ≤ monoNs s) : heartbeatLoss s = cutinBegin 1 (raise 0x94 [0] (stick Reg.PAR_HIST.base 3
      (modPar (fun p => { p with hbLost := true }) (hbMisses s)))) := by
  rw [heartbeatLoss, ha]
  exact if_neg (by rw [hp, hl]; simpa using hd)

theorem healthSend_sends (hr : running s = true) (hp : paired s = true)
    (hd : s.par.healthSent + 100000000 ≤ monoNs s) :
    healthSend s = (pairLinks s).foldl (fun t n => (sendQueued n (linkRspQueue s n) 4 0 0 (healthBytes s) t).2)
      (modPar (fun p => { p with healthSent := monoNs s }) s) :=
  if_neg (by rw [hp, hr]; simpa using hd)

theorem election_cutsIn (hd : s.par.started + electNs s ≤ monoNs s) (hl : s.par.leadAt = none)
    (hb : s.par.barred = false) : election s = cutinBegin 2 s :=
  if_pos ⟨hd, hl, by rw [hb]; decide⟩

end heartbeat

/-! ### Cut-ins, snapshots and handover (R557, R562 to R564, R567) -/

section cutin

variable {s : State} {c : CutIn} (hc : s.par.cutin = some c)
include hc

theorem restoreComplete_names {t u v : State} (ht : c.tick = none)
    (hq : t = { s with mot := { s.mot with queue := [], sched := [] } })
    (hhome : newestSlot s = none → u = restoreHome (restoreTick s) t)
    (hslot : ∀ k : Nat, newestSlot s = some k → restoreSlot (restoreTick s) k t = .ok u)
    (hv : v = solveAll (restoreTick s) { u with slv := { u.slv with built := false, prev := [] } }) :
    restoreComplete s = .ok (inject (mkTag tEPOCH 0xFF 0xFF (2 + 256 * s.start.epoch) (restoreTick s))
      (modPar (fun p => { p with cutin := some { c with tick := some (restoreTick s) } })
        (inject (mkTag tCOMMIT uLAN 0xFF 0 (restoreTick s)) v))) := by
  subst hv hq
  rw [restoreComplete, hc]
  dsimp only
  rw [if_neg (by rw [ht]; decide)]
  cases hn : newestSlot s with
  | none => rw [hhome hn]
  | some k =>
    dsimp only
    rw [hslot k hn]

theorem renderBegin_renders {k b claim : Nat} {t u : State} (hk : c.tick = some k) (hd : k ≤ nowTick s)
    (hb : b = tickStart s k) (hcl : claim = s.start.epoch * 256 + ownRank s)
    (ht : t = [uSLV, uLAN, uRED, uCOR, uMEA, uDRU].foldl (fun t u => modUnit u (fun x => { x with next := max x.next b }) t) s)
    (hu : u = { t with
      lan := { t.lan with
        bulk := [], objs := t.lan.objs.map (fun q =>
          (q.1, { q.2 with head := (16 * b : Nat), zeroBelow := (16 * b : Nat), subs := [] })) },
      mea := { t.mea with capNext := b } }) :
    renderBegin s = roleGo 1 claim (modPar (fun p => { p with
      cutin := none, claim := claim, audioFrom := some b, audioTo := none, renderFrom := some b, renderTo := none
      snapTick := k }) u) := by
  obtain ⟨cause, began, tick⟩ := c
  cases hk
  subst hu ht hcl hb
  rw [renderBegin, hc]
  exact if_neg (by omega)

end cutin

theorem snapshotTake_due {s : State} (hr : running s = true) (hrole : s.par.role = 1) (ha : s.par.hbAt ≠ none)
    (hl : s.par.hbLost = false) (hd : s.par.snapTick + snapMs s ≤ nowTick s) {t : State}
    (ht : t = modPar (fun p => { p with snapTick := nowTick s }) s) : snapshotTake s =
      if snapBusy s then parSnapEvent 0 (s.par.snapSeq + 1) (count Reg.PAR_SNAP_SKIP_CNT.base t)
      else inject (mkTag tSNAP uSYS 0xFF (0x20000 + fld (actW s Reg.PAR_SNAP_NUM.base) 15 0) (nowTick s + 2)) t := by
  subst ht
  refine if_neg ?_
  rw [hr, hrole, hl]
  rintro (h | h | h | h | h)
  · cases h
  · exact h rfl
  · exact ha h
  · cases h
  · omega

theorem abdicationRestart_restarts {s : State} {a : Abdication} (ha : s.par.abd = some a) (hr : running s = true)
    (hrole : s.par.role = 3) (he : restartEn s = true) (hd : a.began + 100000000 ≤ monoNs s) :
    abdicationRestart s = startBegin 3 none s := by
  rw [abdicationRestart, ha]
  exact if_pos ⟨hr, hrole, he, hd⟩

theorem handover_lead {s : State} (hrole : s.par.role = 1) :
    handover s = if partnerFit s then abdicate 1 s.par.met s else stick Reg.PAR_HIST.base 4 s :=
  if_neg (fun h => h hrole)

theorem exec_restoreComplete (s : State) : exec .restoreComplete s = runE (fun t =>
    if running t ∧ unitPresent t uPAR then restoreComplete t else .ok t) s := rfl

/-- Settles O54: heartbeats, health, cut-ins, snapshots, restarts and handover. -/
theorem pairingWorks : Obligations.PairingWorks := by
  refine ⟨fun s w hw hu => ⟨fun hp hd => ?heartbeat, fun t ha hp hl hd => ?loss, fun hp hd => ?health,
      fun ns hns => ?yield, fun hd hl hb => ?election⟩,
    fun s w hw hu => ⟨fun c t u v hc ht hq hhome hslot hv => ?restore,
      fun c k b claim t u hc hk hd hb hcl ht hu' => ?render,
      fun t ht hrole ha hl hd => ⟨fun hb => ?skip, fun hb => ?snapshot⟩, fun a ha hrole he hd => ?restart,
      fun hrole hf => ?handover, fun hrole hf => ?unfit⟩⟩
  case heartbeat => exact upRow_leaves hw hu (heartbeatSend_sends hu.1 hp hd)
  case loss => exact upRow_leaves hw hu (heartbeatLoss_cutsIn ha hp hl hd)
  case health => exact upRow_leaves hw hu (healthSend_sends hu.1 hp hd)
  case yield => exact upRow_leaves hw hu (if_neg (by omega))
  case election => exact upRow_leaves hw hu (election_cutsIn hd hl hb)
  case restore =>
    rw [exec_restoreComplete]
    exact runE_leaves hw ((if_pos hu).trans (restoreComplete_names hc ht hq hhome hslot hv))
  case render => exact upRow_leaves hw hu (renderBegin_renders hc hk hd hb hcl ht hu')
  case skip => exact upRow_leaves hw hu ((snapshotTake_due hu.1 hrole ha hl hd ht).trans (if_pos hb))
  case snapshot =>
    exact upRow_leaves hw hu ((snapshotTake_due hu.1 hrole ha hl hd ht).trans (if_neg (by rw [hb]; decide)))
  case restart => exact upRow_leaves hw hu (abdicationRestart_restarts ha hu.1 hrole he hd)
  case handover => exact upRow_leaves hw hu ((handover_lead hrole).trans (if_pos hf))
  case unfit => exact upRow_leaves hw hu ((handover_lead hrole).trans (if_neg (by rw [hf]; decide)))

/-! ### Islands (R568, R569) -/

section islands

variable {i slack k : Nat} {s t : State} (hi : i < 160) (ht : t = slackReport i slack s)
include hi ht

theorem marginDown_steps (hlow : slack < slackLow s) (hfl : (island t i).step < islandFloor s i)
    (hlast : (island t i).lastStep = none) : marginDown i slack s = stepTo i ((island t i).step + 1) t := by
  subst ht
  refine (if_neg (by omega)).trans (if_pos ⟨hlow, hfl, ?_⟩)
  rw [hlast]

theorem marginUp_steps (hs : (island t i).highSince = some k) (hd : k + upSeconds s * 1000000000 ≤ monoNs s)
    (h0 : 0 < (island t i).step) (hfl : islandFloor s i ≠ 0) :
    marginUp i slack s = stepTo i ((island t i).step - 1) t := by
  subst ht
  rw [marginUp, if_neg (by omega)]
  dsimp only
  rw [hs]
  exact if_pos ⟨hd, h0, hfl⟩

theorem islandRetire_retires {cls p : Nat} (hs : (island t i).lowSince = some k)
    (hd : k + retireMs s * 1000000 ≤ monoNs s) (hunit : islandUnit i = some (cls, p)) :
    islandRetire i slack s = hltRetire cls p 0 t := by
  subst ht
  rw [islandRetire, if_neg (by omega)]
  dsimp only
  rw [hs]
  refine (if_neg (by omega)).trans ?_
  rw [hunit]

end islands

/-! ### Self-tests of a FOLLOW (R570) -/

theorem selftestStart_tests {s : State} {b per : Nat} (hr : running s = true)
    (hper : per = fld (actW s Reg.HLT_SELFTEST.base) 15 0) (h0 : per ≠ 0) (hf : inFollow s = true)
    (ht : s.hlt.testing = none) (hd : s.hlt.testLast + per * 1000000000 ≤ monoNs s)
    (hb : ((List.range 80).map (fun (k : Nat) => (s.hlt.nextUnit + k) % 80)).find? (testable s) = some b) :
    selftestStart s = modHlt (fun h => { h with
      testing := some b, testAt := monoNs s, testLast := monoNs s, nextUnit := (b + 1) % 80 }) s := by
  subst hper
  refine (if_neg ?_).trans (by rw [hb])
  rw [hf, hr, ht]
  rintro (h | h | h | h | h)
  · cases h
  · cases h
  · exact h0 h
  · cases h
  · omega

theorem selftestEnd_ends {s : State} {b : Nat} (pass : Bool) (core : Nat) (ht : s.hlt.testing = some b)
    (hd : s.hlt.testAt + 2000000000 ≤ monoNs s) : selftestEnd pass core s =
      if pass then testResult b pass (modHlt (fun h => { h with testing := none }) s)
      else hltRetire (healthUnit b).1 (healthUnit b).2 3 (testResult b pass (modHlt (fun h => { h with testing := none }) s)) := by
  rw [selftestEnd, ht]
  exact if_neg (by omega)

/-- Settles O55: clock steps, retirements of islands and the self-tests. -/
theorem wearIsWatched : Obligations.WearIsWatched := by
  refine fun s w hw hu => ⟨fun i slack t hi ht => ⟨fun hlow hfl hlast => ?down, fun k hs hd h0 hfl => ?stepUp,
      fun k cls p hs hd hunit => ?retire⟩, fun v => ?write, fun b per hper h0 hf htest hd hb => ?selftest,
    fun b core htest hd => ⟨?pass, ?fail⟩⟩
  case down => exact upRow_leaves hw hu (marginDown_steps hi ht hlow hfl hlast)
  case stepUp => exact upRow_leaves hw hu (marginUp_steps hi ht hs hd h0 hfl)
  case retire => exact upRow_leaves hw hu (islandRetire_retires hi ht hs hd hunit)
  case write => exact upRow_leaves hw hu rfl
  case selftest => exact upRow_leaves hw hu (selftestStart_tests hu.1 hper h0 hf htest hd hb)
  case pass => exact upRow_leaves hw hu (selftestEnd_ends true core htest hd)
  case fail => exact upRow_leaves hw hu (selftestEnd_ends false core htest hd)

end Sys2Proof.Proofs
end
